-- ==== Sys2Proof/Word.lean ====
section
/-! DEFINITION. Word types and the sparse map type of the model (R4, R5: words are unsigned, bit 0 least significant). -/

namespace Sys2Proof

/-- A 64-bit word, the unit of the symbol code (R233). -/
abbrev Word := BitVec 64

/-- One byte of memory. -/
abbrev Byte := BitVec 8

/-- A string of bytes, first byte at the lowest address (R4). -/
abbrev Bytes := List (BitVec 8)

/-- An (80,64) code word as it travels: data in bits 63:0, check bits in bits 79:64 (R233). -/
abbrev CodeWord := BitVec 80

/-- Sparse data by key, keys strictly rising; an unlisted key reads as the default its reader names. -/
abbrev SMap (α : Type) := List (Nat × α)

/-- A physical core site of the module: die times 104 plus the site number on the die (R14, R229). -/
abbrev SiteNo := Fin 832

end Sys2Proof
end

