-- ==== Sys2Proof/Syntax.lean ====
section
/-! DEFINITION. The commands of the module: one constructor of Instr for each row of spec/opcode_table.json,
with the operands the row's rule names. Field structures follow the layouts of the slot and message tables. -/

set_option autoImplicit false

namespace Sys2Proof

/-- Fields of a scalar slot (R160). sc1 says whether the slot is SC1 or SC0. -/
structure ScF where
  sc1 : Bool
  imm : BitVec 48
  rb : BitVec 6
  ra : BitVec 6
  rd : BitVec 6
  pred : BitVec 4
  deriving DecidableEq, Repr

/-- Fields of the branch slot (R163). -/
structure BrF where
  bar : BitVec 3
  target : BitVec 12
  ra : BitVec 6
  rd : BitVec 6
  pred : BitVec 4
  deriving DecidableEq, Repr

/-- Fields of the vector slot (R167). -/
structure VecF where
  imm8 : BitVec 8
  s3 : BitVec 6
  s2 : BitVec 6
  s1 : BitVec 6
  useDef : Bool
  sat : Bool
  rm : BitVec 2
  df : BitVec 4
  lt : BitVec 4
  vc : BitVec 5
  vb : BitVec 5
  va : BitVec 5
  vd : BitVec 5
  pred : BitVec 4
  deriving DecidableEq, Repr

/-- Fields of the load and store slot (R175). -/
structure LsF where
  off : BitVec 24
  ra : BitVec 6
  vr : BitVec 5
  sr : BitVec 6
  pred : BitVec 4
  deriving DecidableEq, Repr

/-- Fields of the feeder slot (R177). -/
structure FeedF where
  chunk : BitVec 3
  vs : BitVec 5
  rs : BitVec 6
  scl : BitVec 2
  fmt : BitVec 4
  off : BitVec 24
  ra : BitVec 6
  pred : BitVec 4
  deriving DecidableEq, Repr

/-- Fields of LDW (R179). -/
structure LdwF where
  rs : BitVec 6
  scl : BitVec 2
  nvm1 : BitVec 6
  kvm1 : BitVec 6
  wfmt : BitVec 4
  off : BitVec 24
  ra : BitVec 6
  tr : Bool
  buf : Bool
  pack : BitVec 2
  pred : BitVec 4
  deriving DecidableEq, Repr

/-- Fields of PASS (R180). -/
structure PassF where
  ddi : BitVec 4
  drn : Bool
  clr : Bool
  mm1 : BitVec 8
  base : BitVec 8
  buf : Bool
  pmask : BitVec 4
  pred : BitVec 4
  deriving DecidableEq, Repr

/-- Fields of DRAIN (R180). -/
structure DrainF where
  ddi : BitVec 4
  cntm1 : BitVec 8
  first : BitVec 8
  pack : BitVec 2
  pred : BitVec 4
  deriving DecidableEq, Repr

/-- Fields of DMAC (R183). dma1 says whether the slot is DMA1 or DMA0. -/
structure DmacF where
  dma1 : Bool
  dstl : Bool
  srcl : Bool
  rlen : BitVec 6
  rdst : BitVec 6
  rsrc : BitVec 6
  tok : BitVec 4
  pred : BitVec 4
  deriving DecidableEq, Repr

/-- Fields of DMAD (R183). -/
structure DmadF where
  dma1 : Bool
  off : BitVec 24
  ra : BitVec 6
  tok : BitVec 4
  pred : BitVec 4
  deriving DecidableEq, Repr

/-- Who writes or reads a register (R281). -/
inductive Writer where
  | firmware | runtime | program
  deriving DecidableEq, Repr

/-- A stream-channel slot as it arrives (R214): data words with the numbers it is stamped with. -/
structure SlotMsg where
  step : BitVec 64
  epoch : BitVec 32
  mb : BitVec 16
  seq : BitVec 32
  words : List CodeWord
  deriving DecidableEq, Repr

/-- A digest record of the CHECK reduction (R336). -/
structure DigestRec where
  shard : BitVec 32
  dev : BitVec 16
  mirror : Bool
  poi : Bool
  dig : BitVec 256
  deriving DecidableEq, Repr

/-- The result of the slice-wide CHECK reduction, as it reaches the commit gate (R217, R315). -/
structure SliceTotals where
  norm : BitVec 64
  ncnt : BitVec 32
  icnt : BitVec 32
  pcnt : BitVec 32
  cfgMismatch : Bool
  digests : List DigestRec
  deriving DecidableEq, Repr

/-- An entry of a step record (R330). -/
inductive StepEntry where
  | straggler (gid bucket : BitVec 16) (late : List Nat) (fold : Bool)
  | outcome (o : BitVec 8)
  | lossScale (ls : BitVec 32)
  | gear (role ordinal key value : Nat)
  | stepBlock (b : Bytes)
  deriving DecidableEq, Repr

/-- A lane group of a die-to-die link, named by the die that receives it (R257). -/
structure GroupId where
  die : Fin 12
  link : Fin 10
  group : Fin 16
  deriving DecidableEq, Repr

/-- A NoC packet: the four code words of its header flit (R246) and those of its data flits (R245). -/
structure NocPkt where
  hdr : List CodeWord
  data : List CodeWord
  deriving DecidableEq, Repr

/-- Where a request of the host message layer came in (R451, R458). -/
inductive Via where
  | hx | mgtA | mgtB
  deriving DecidableEq, Repr

/-- Header of a message (R451): its TAG, RSP and TYPE, whether a reserved bit is nonzero, PLEN, and the port that it came on. -/
structure HostHdr where
  tag : BitVec 16
  rsp : Bool
  rsvd : Bool
  plen : BitVec 32
  via : Via
  typ : BitVec 8
  deriving DecidableEq, Repr

/-- A port, or a half of one: half 0 whole port, 1 half A, 2 half B (R290, R293). -/
structure PortId where
  port : Fin 18
  half : Fin 3
  deriving DecidableEq, Repr

/-- The Ualar header (R298). -/
structure UalHdr where
  vmaj : BitVec 8
  vmin : BitVec 8
  cls : BitVec 2
  kind : BitVec 6
  resend : Bool
  ece : Bool
  srcdev : BitVec 16
  dstdev : BitVec 16
  epoch : BitVec 32
  job : BitVec 32
  step : BitVec 64
  att : BitVec 8
  mb : BitVec 16
  stream : BitVec 16
  seq : BitVec 32
  ack : BitVec 32
  msg : BitVec 32
  woff : BitVec 24
  nwords : BitVec 16
  deriving DecidableEq, Repr

/-- The frame that carries a packet (R291, R297, R300, R303, R305): its length in bytes, its 802.1Q tags, the UDP ports, whether the UDP
checksum is right, DSCP and ECN of the IPv6 header, and the LLR header where the link uses LLR. -/
structure FrameInfo where
  bytes : Nat
  tags : Nat
  udpSrc : BitVec 16
  udpDst : BitVec 16
  sumOk : Bool
  dscp : BitVec 6
  ecn : BitVec 2
  llr : Option (BitVec 64)
  deriving DecidableEq, Repr

/-- A Ualar packet: header, payload code words, two facts of the header and the length (a reserved bit nonzero, a length that disagrees
with NWORDS: R301), and its frame. -/
structure UalPkt where
  h : UalHdr
  words : List CodeWord
  rsvd : Bool
  lenBad : Bool
  frame : FrameInfo
  deriving DecidableEq, Repr

/-- A Ualar stream, by the other module and the traffic class (R301). -/
structure StreamId where
  dev : BitVec 16
  cls : BitVec 2
  deriving DecidableEq, Repr

/-- A frame on an LLR link: its link sequence number, whether RS-FEC and FCS were good (R305), and the RS-FEC codewords of it that were
uncorrectable (R322). -/
structure LlrFrame where
  seq : BitVec 24
  ok : Bool
  fecBad : Nat
  deriving DecidableEq, Repr

/-- Why the pannier re-sends a packet (R328), with the receiver's ATT where the request states one. -/
inductive ResendWhy where
  | retransmission
  | catchUp (att : BitVec 8)
  | referee (att : BitVec 8)
  deriving DecidableEq, Repr

/-- A 64 KiB page and its 8,192 code words (R222, R337, R340). -/
structure PageData where
  page : Nat
  words : List CodeWord
  deriving DecidableEq, Repr

/-- A part of what settles a REFEREE verdict (R339): `run` on the referee, the step whose COMMIT it runs again, its step block, and the
pages of a pre-image log and of the reduced shard as they are fetched; `fetch` at a holder, the referee's serial and the shard that it asks for;
`settle` on the holders, the digests of their pre-image logs, the referee's result, and the copies of the shard. -/
inductive RefereeInput where
  | run (step : BitVec 64) (block : Bytes) (pages : List PageData)
  | fetch (referee : BitVec 64) (shard : BitVec 32)
  | settle (logs : List (BitVec 256)) (result : BitVec 256) (copies : List DigestRec)
  deriving DecidableEq, Repr

/-- Where an entry of a step record comes from (R330): this module, or a tandem partner with the step and its number for the entry. -/
inductive EntrySrc where
  | own
  | partner (p : Fin 2) (step : BitVec 64) (no : Nat)
  deriving DecidableEq, Repr

/-- An entry of a step record as it comes in (R330). -/
structure RecordIn where
  src : EntrySrc
  e : StepEntry
  deriving DecidableEq, Repr

/-- A listed page from the copy of a holder (R340). -/
structure PageFrom where
  holder : BitVec 16
  pg : PageData
  deriving DecidableEq, Repr

/-- A shard transfer to this module as domestique (R343): the holder, the copy that it brings (0 the own shard, i + 1 the mirror of partner
i), its pages in order, the sender's copy digest, the boundary at which the state stands, and the step records that come along. -/
structure Transfer where
  holder : BitVec 16
  copy : Fin 3
  pages : List PageData
  sentDigest : BitVec 256
  step : BitVec 64
  recs : List (BitVec 64 × List StepEntry)
  deriving DecidableEq, Repr

/-- A catch-up replay (R345): the step it runs and the entries of that step's record. -/
structure CatchUp where
  step : BitVec 64
  entries : List StepEntry
  deriving DecidableEq, Repr

/-- What a peloton message's Ualar header says (R298, R361) and the plane it came on: 0 data, 1 MGT-A, 2 MGT-B. -/
structure PelHdr where
  src : BitVec 16
  epoch : BitVec 32
  job : BitVec 32
  step : BitVec 64
  att : BitVec 8
  plane : Fin 3
  rsvd : Bool
  deriving DecidableEq, Repr

/-- HB (R361). -/
structure HbMsg where
  hbseq : BitVec 32
  state : BitVec 3
  phase : BitVec 3
  plane : BitVec 2
  serial : BitVec 64
  deriving DecidableEq, Repr

/-- PROPOSE (R361). -/
structure ProposeMsg where
  newEp : BitVec 32
  subj : BitVec 16
  cause : BitVec 8
  deriving DecidableEq, Repr

/-- ACCEPT (R361). -/
structure AcceptMsg where
  newEp : BitVec 32
  subj : BitVec 16
  same : Bool
  deriving DecidableEq, Repr

/-- DECLARE (R361). -/
structure DeclareMsg where
  newEp : BitVec 32
  subj : BitVec 16
  cause : BitVec 8
  tier : BitVec 2
  step : BitVec 64
  att : BitVec 8
  deriving DecidableEq, Repr

/-- FAULT (R361). -/
structure FaultMsg where
  cause : BitVec 8
  blame : BitVec 16
  detail : BitVec 16
  last : Bool
  deriving DecidableEq, Repr

/-- REWIND (R361). -/
structure RewindMsg where
  att : BitVec 8
  cause : BitVec 8
  tier : BitVec 2
  step : BitVec 64
  deriving DecidableEq, Repr

/-- FENCED (R361). -/
structure FencedMsg where
  reason : BitVec 4
  lastEp : BitVec 32
  serial : BitVec 64
  deriving DecidableEq, Repr

/-- Why a module fences itself (R373). -/
inductive FenceWhy where
  | declared | quorumLost | clock | alarm | admissionFailed
  deriving DecidableEq, Repr

/-- One pair entry of an OCS request (R378). -/
structure OcsPair where
  aser : BitVec 64
  aport : BitVec 5
  asub : BitVec 2
  disconnect : Bool
  bport : BitVec 5
  bsub : BitVec 2
  bser : BitVec 64
  deriving DecidableEq, Repr

/-- An OCS response (R379). -/
structure OcsRsp where
  magic : BitVec 16
  ver : BitVec 8
  typ : BitVec 8
  reqid : BitVec 32
  status : BitVec 8
  doneMask : BitVec 18
  deriving DecidableEq, Repr

/-- A checkpoint message (R397). -/
structure CkMsg where
  typ : BitVec 8
  status : BitVec 8
  dev : BitVec 16
  slot : BitVec 1
  step : BitVec 64
  ckseq : BitVec 32
  jobLo : BitVec 32
  step0 : BitVec 64
  step1 : BitVec 64
  deriving DecidableEq, Repr

/-- Who writes a page that a checkpoint round protects (R389). -/
inductive PageWriter where
  | dma (c : SiteNo) (k : Nat)
  | collectives
  | tandem
  | hx
  deriving DecidableEq, Repr

/-- A manifest as read from a slot's manifest area (R394). -/
abbrev Manifest := Bytes

/-- Why a module abandons its part of a checkpoint round (R396). -/
inductive RoundFail where
  | poisoned (page : Nat)
  | queuePair
  deriving DecidableEq, Repr

/-- One entry of the test content run on a unit (R417, R418): what the package gives for it, its response words, and those of the second run. -/
structure EntryRun where
  testId : BitVec 32
  cls : BitVec 8
  kind : BitVec 8
  unit : BitVec 48
  margin : Bool
  expSig : BitVec 128
  first : List (BitVec 128)
  second : List (BitVec 128)
  deriving DecidableEq, Repr

/-- A test at a slice visit beside those of sites: of one spare port (R411), or, with an entry of CLASS 8, of the control core freed (R414). -/
structure PortRun where
  port : Fin 18
  run : EntryRun
  deriving DecidableEq, Repr

/-- What FULL finds (R411, R413): the entries it ran, and the retired rows that hard repair restored (R243). -/
structure FullResult where
  runs : List EntryRun
  repaired : List (BitVec 48)
  deriving DecidableEq, Repr

/-- What QUICK finds (R411): whether the PLLs lock and the die-to-die links and HBM train, and the entries for control cores and key store
memory that it ran. -/
structure QuickResult where
  trained : Bool
  runs : List EntryRun
  deriving DecidableEq, Repr

/-- What a power-up or module reset meets (R432, R454): tamper seen while unpowered, the outcome of QUICK and of
FULL, the meter's serial, whether its self-check passes (R442), and whether it finds its seal broken (R441). -/
structure BootInput where
  tamper : Bool
  quick : QuickResult
  full : FullResult
  meterSerial : BitVec 64
  meterOk : Bool
  meterSeal : Bool
  deriving DecidableEq, Repr

/-- A host-link flit (R450): its sequence number, whether its CRC is good, its 24 symbol-code words, whether it is a replay, the cumulative
acknowledgement and credits of its header, and whether the other end asks for a replay. -/
structure HostFlit where
  seq : BitVec 16
  crcOk : Bool
  words : List CodeWord
  replayed : Bool
  ack : BitVec 16
  credits : BitVec 16
  again : Bool
  deriving DecidableEq, Repr

/-- Sender of a management message (R458): the plane, its device index, and where the message is a response the TYPE that it answers. -/
structure MgtSrc where
  mgtB : Bool
  dev : BitVec 16
  rsp : Option (BitVec 8)
  deriving DecidableEq, Repr

/-- A counter bank (R467). -/
inductive BankId where
  | core (c : SiteNo)
  | die (d : Fin 12)
  deriving DecidableEq, Repr

/-- A reading of the thermal sensors (R490): junctions in 0.1 C by die window, coolant, and how long conditions
have lasted. -/
structure Thermal where
  tj : List (BitVec 4 × BitVec 16)
  tin : BitVec 16
  tout : BitVec 16
  flow : BitVec 16
  hot100ms : Bool
  cool10s : Bool
  rise1s : Bool
  riseOk : Bool
  lowFlow1s : Bool
  noFlow1s : Bool
  deriving DecidableEq, Repr

/-- A route entry (R307, R320). -/
structure RouteEntry where
  dlo : BitVec 16
  dhi : BitVec 16
  ports : BitVec 18
  deriving DecidableEq, Repr

/-- A restored object as read from storage (R400): of the own slot (0) or of that of the i-th place whose mirror is held (i),
its index in the manifest, its stored bytes, and whether this is the second read. -/
structure ObjectRead where
  src : Nat
  idx : Nat
  stored : Bytes
  second : Bool
  deriving DecidableEq, Repr

/-- The commands, in the order of spec/opcode_table.json. -/
inductive Instr where
  /-- BUNDLE_ISSUE (R127). -/
  | bundleIssue (c : SiteNo)
  /-- NOP (R155). -/
  | nop (c : SiteNo) (slot : Fin 12)
  /-- ADD (R161). -/
  | add (c : SiteNo) (f : ScF)
  /-- SUB (R161). -/
  | sub (c : SiteNo) (f : ScF)
  /-- AND (R161). -/
  | and (c : SiteNo) (f : ScF)
  /-- OR (R161). -/
  | or (c : SiteNo) (f : ScF)
  /-- XOR (R161). -/
  | xor (c : SiteNo) (f : ScF)
  /-- SHL (R161). -/
  | shl (c : SiteNo) (f : ScF)
  /-- SHR (R161). -/
  | shr (c : SiteNo) (f : ScF)
  /-- SRA (R161). -/
  | sra (c : SiteNo) (f : ScF)
  /-- MIN (R161). -/
  | min (c : SiteNo) (f : ScF)
  /-- MAX (R161). -/
  | max (c : SiteNo) (f : ScF)
  /-- MINU (R161). -/
  | minu (c : SiteNo) (f : ScF)
  /-- MAXU (R161). -/
  | maxu (c : SiteNo) (f : ScF)
  /-- ADDI (R161). -/
  | addi (c : SiteNo) (f : ScF)
  /-- ANDI (R161). -/
  | andi (c : SiteNo) (f : ScF)
  /-- ORI (R161). -/
  | ori (c : SiteNo) (f : ScF)
  /-- XORI (R161). -/
  | xori (c : SiteNo) (f : ScF)
  /-- SHLI (R161). -/
  | shli (c : SiteNo) (f : ScF)
  /-- SHRI (R161). -/
  | shri (c : SiteNo) (f : ScF)
  /-- SRAI (R161). -/
  | srai (c : SiteNo) (f : ScF)
  /-- MOVI (R161). -/
  | movi (c : SiteNo) (f : ScF)
  /-- MOVH (R161). -/
  | movh (c : SiteNo) (f : ScF)
  /-- MUL (R161). -/
  | mul (c : SiteNo) (f : ScF)
  /-- MULH (R161). -/
  | mulh (c : SiteNo) (f : ScF)
  /-- MULHU (R161). -/
  | mulhu (c : SiteNo) (f : ScF)
  /-- CEQ (R161). -/
  | ceq (c : SiteNo) (f : ScF)
  /-- CNE (R161). -/
  | cne (c : SiteNo) (f : ScF)
  /-- CLT (R161). -/
  | clt (c : SiteNo) (f : ScF)
  /-- CLTU (R161). -/
  | cltu (c : SiteNo) (f : ScF)
  /-- CGE (R161). -/
  | cge (c : SiteNo) (f : ScF)
  /-- CGEU (R161). -/
  | cgeu (c : SiteNo) (f : ScF)
  /-- PAND (R161). -/
  | pand (c : SiteNo) (f : ScF)
  /-- POR (R161). -/
  | por (c : SiteNo) (f : ScF)
  /-- PXOR (R161). -/
  | pxor (c : SiteNo) (f : ScF)
  /-- PANDN (R161). -/
  | pandn (c : SiteNo) (f : ScF)
  /-- MFSR (R162). -/
  | mfsr (c : SiteNo) (f : ScF)
  /-- MTSR (R162). -/
  | mtsr (c : SiteNo) (f : ScF)
  /-- B (R164). -/
  | branch (c : SiteNo) (f : BrF)
  /-- BL (R164). -/
  | branchLink (c : SiteNo) (f : BrF)
  /-- JR (R164). -/
  | jumpReg (c : SiteNo) (f : BrF)
  /-- ARRIVE (R134). -/
  | arrive (c : SiteNo) (f : BrF)
  /-- VADD (R169). -/
  | vadd (c : SiteNo) (f : VecF)
  /-- VSUB (R169). -/
  | vsub (c : SiteNo) (f : VecF)
  /-- VMUL (R169). -/
  | vmul (c : SiteNo) (f : VecF)
  /-- VFMA (R170). -/
  | vfma (c : SiteNo) (f : VecF)
  /-- VFMS (R170). -/
  | vfms (c : SiteNo) (f : VecF)
  /-- VMIN (R169). -/
  | vmin (c : SiteNo) (f : VecF)
  /-- VMAX (R169). -/
  | vmax (c : SiteNo) (f : VecF)
  /-- VABS (R169). -/
  | vabs (c : SiteNo) (f : VecF)
  /-- VNEG (R169). -/
  | vneg (c : SiteNo) (f : VecF)
  /-- VFCMP (R170). -/
  | vfcmp (c : SiteNo) (f : VecF)
  /-- VICMP (R170). -/
  | vicmp (c : SiteNo) (f : VecF)
  /-- VIADD (R169). -/
  | viadd (c : SiteNo) (f : VecF)
  /-- VISUB (R169). -/
  | visub (c : SiteNo) (f : VecF)
  /-- VAND (R169). -/
  | vand (c : SiteNo) (f : VecF)
  /-- VOR (R169). -/
  | vor (c : SiteNo) (f : VecF)
  /-- VXOR (R169). -/
  | vxor (c : SiteNo) (f : VecF)
  /-- VSHL (R169). -/
  | vshl (c : SiteNo) (f : VecF)
  /-- VSHR (R169). -/
  | vshr (c : SiteNo) (f : VecF)
  /-- VSRA (R169). -/
  | vsra (c : SiteNo) (f : VecF)
  /-- VIMIN (R169). -/
  | vimin (c : SiteNo) (f : VecF)
  /-- VIMAX (R169). -/
  | vimax (c : SiteNo) (f : VecF)
  /-- VSEL (R169). -/
  | vsel (c : SiteNo) (f : VecF)
  /-- VROT (R169). -/
  | vrot (c : SiteNo) (f : VecF)
  /-- VBCAST (R169). -/
  | vbcast (c : SiteNo) (f : VecF)
  /-- VEXT (R169). -/
  | vext (c : SiteNo) (f : VecF)
  /-- VCVT (R171). -/
  | vcvt (c : SiteNo) (f : VecF)
  /-- VQBLK (R173). -/
  | vqblk (c : SiteNo) (f : VecF)
  /-- VTLU (R174). -/
  | vtlu (c : SiteNo) (f : VecF)
  /-- LD1U (R176). -/
  | ld1u (c : SiteNo) (f : LsF)
  /-- LD1S (R176). -/
  | ld1s (c : SiteNo) (f : LsF)
  /-- LD2U (R176). -/
  | ld2u (c : SiteNo) (f : LsF)
  /-- LD2S (R176). -/
  | ld2s (c : SiteNo) (f : LsF)
  /-- LD4U (R176). -/
  | ld4u (c : SiteNo) (f : LsF)
  /-- LD4S (R176). -/
  | ld4s (c : SiteNo) (f : LsF)
  /-- LD8 (R176). -/
  | ld8 (c : SiteNo) (f : LsF)
  /-- ST1 (R176). -/
  | st1 (c : SiteNo) (f : LsF)
  /-- ST2 (R176). -/
  | st2 (c : SiteNo) (f : LsF)
  /-- ST4 (R176). -/
  | st4 (c : SiteNo) (f : LsF)
  /-- ST8 (R176). -/
  | st8 (c : SiteNo) (f : LsF)
  /-- VLD128 (R176). -/
  | vld128 (c : SiteNo) (f : LsF)
  /-- VLD256 (R176). -/
  | vld256 (c : SiteNo) (f : LsF)
  /-- VST128 (R176). -/
  | vst128 (c : SiteNo) (f : LsF)
  /-- VST256 (R176). -/
  | vst256 (c : SiteNo) (f : LsF)
  /-- CH_POST (R212). -/
  | chPost (c : SiteNo) (ch : Fin 6) (v : BitVec 64)
  /-- CH_RELEASE (R212). -/
  | chRelease (c : SiteNo) (ch : Fin 6) (v : BitVec 64)
  /-- CH_MB (R212). -/
  | chMb (c : SiteNo) (ch : Fin 6) (v : BitVec 64)
  /-- RECORD_MERGE_STORE (R208). -/
  | recordMergeStore (c : SiteNo) (wide : Bool) (rec : Fin 512) (vr : BitVec 5)
  /-- FEED (R178). -/
  | feed (c : SiteNo) (f : FeedF)
  /-- FEEDV (R178). -/
  | feedv (c : SiteNo) (f : FeedF)
  /-- LDW (R71). -/
  | ldw (c : SiteNo) (a : Fin 4) (f : LdwF)
  /-- PASS (R73). -/
  | pass (c : SiteNo) (a : Fin 4) (f : PassF)
  /-- DRAIN (R76). -/
  | drain (c : SiteNo) (a : Fin 4) (f : DrainF)
  /-- DMAC (R184). -/
  | dmac (c : SiteNo) (f : DmacF)
  /-- DMAD (R185). -/
  | dmad (c : SiteNo) (f : DmadF)
  /-- ACC_ADD (R94). -/
  | accAdd (c : SiteNo) (a : Fin 4)
  /-- DRAIN_ROW (R190). -/
  | drainRow (c : SiteNo)
  /-- ARR_REPAIR_APPLY (R87). -/
  | arrRepairApply (c : SiteNo) (a : Fin 4)
  /-- DMA_COMPLETE (R131). -/
  | dmaComplete (c : SiteNo) (k : Nat) (lost : Bool)
  /-- BARRIER_RELEASE (R134). -/
  | barrierRelease (g : Nat)
  /-- CHANNEL_SLOT_SENT (R213). -/
  | channelSlotSent (c : SiteNo) (ch : Fin 6)
  /-- CHANNEL_SLOT_ARRIVE (R214). -/
  | channelSlotArrive (c : SiteNo) (ch : Fin 6) (m : SlotMsg)
  /-- CHANNEL_CREDIT_RETURN (R213). -/
  | channelCreditReturn (c : SiteNo) (ch : Fin 6) (n : BitVec 9)
  /-- WAIT_TIMEOUT (R135). -/
  | waitTimeout (c : SiteNo)
  /-- CORE_HALT (R146). -/
  | coreHalt (c : SiteNo)
  /-- CORE_GO (R146). -/
  | coreGo (c : SiteNo)
  /-- CORE_PC_WRITE (R166). -/
  | corePcWrite (c : SiteNo) (v : BitVec 32)
  /-- REG_WRITE (R281). -/
  | regWrite (w : Writer) (addr : BitVec 44) (v : BitVec 64) (mask : BitVec 64)
  /-- CORE_GEAR_CHANGE (R144). -/
  | coreGearChange (c : SiteNo)
  /-- STEP_ENTRY (R141). -/
  | stepEntry (c : SiteNo)
  /-- CHECK_VERDICT (R219). -/
  | checkVerdict (v : SliceTotals)
  /-- COMMIT_PAGE_WRITE (R222). -/
  | commitPageWrite (c : SiteNo) (k : Nat)
  /-- PREIMAGE_COPY_DONE (R222). -/
  | preimageCopyDone (role : Fin 800)
  /-- GATE_DONE (R219). -/
  | gateDone
  /-- STEP_BOUNDARY (R219). -/
  | stepBoundary
  /-- COMMIT_RESUME (R223). -/
  | commitResume
  /-- STEP_RECORD_ENTRY (R330). -/
  | stepRecordEntry (r : RecordIn)
  /-- STEP_RECORD_ACK (R330). -/
  | stepRecordAck (partner : Fin 2) (n : Nat)
  /-- PLL_UNLOCK (R20). -/
  | pllUnlock (d : Fin 12)
  /-- CLOCK_GLITCH (R20). -/
  | clockGlitch (d : Fin 12)
  /-- FENCED_STANDBY_TIMER (R21). -/
  | fencedStandbyTimer
  /-- NETWORK_LINK_LOSS (R21). -/
  | networkLinkLoss (nd : Fin 2)
  /-- HUB_LINK_STOP (R21). -/
  | hubLinkStop (cd : Fin 8)
  /-- HBM_PATROL (R240). -/
  | hbmPatrol (stack : Fin 24) (burst : Nat)
  /-- HBM_CORRECTION_REWRITE (R240). -/
  | hbmCorrectionRewrite (word : Nat)
  /-- HBM_ERROR_RECHECK (R241). -/
  | hbmErrorRecheck (word : Nat) (rereadFails : Bool)
  /-- PAGE_RETIRE (R242). -/
  | pageRetire (stack : Fin 24) (page : Nat)
  /-- PAGE_RETIRE_DONE (R242). -/
  | pageRetireDone (stack : Fin 24)
  /-- NOC_PACKET_RECEIVE (R247). -/
  | nocPacketReceive (d : Fin 12) (p : NocPkt)
  /-- D2D_BLOCK_RECEIVE (R253). -/
  | d2dBlockReceive (l : GroupId) (b : List (BitVec 80))
  /-- D2D_BLOCK_REPLAY (R253). -/
  | d2dBlockReplay (l : GroupId) (b : List (BitVec 80))
  /-- D2D_RETRAIN_DONE (R255). -/
  | d2dRetrainDone (l : GroupId)
  /-- FRMLOAD (R277). -/
  | frmload (h : HostHdr)
  /-- FRAME_LOAD_COMPLETE (R277): `hwFault` says that a hardware fault struck the apply step (R278). -/
  | frameLoadComplete (hwFault : Bool)
  /-- IDENTITY_FRAME_SEND (R294). -/
  | identityFrameSend (p : PortId)
  /-- IDENTITY_FRAME_RECEIVE (R294). -/
  | identityFrameReceive (p : PortId) (fr : BitVec 512)
  /-- PORT_LIGHT_RETURN (R296). -/
  | portLightReturn (p : PortId)
  /-- PORT_TRAINED (R296). -/
  | portTrained (p : PortId)
  /-- UALAR_PACKET_RECEIVE (R301). -/
  | ualarPacketReceive (p : PortId) (k : UalPkt)
  /-- UAL_ACK (R302). -/
  | ualAck (st : StreamId) (ack : BitVec 32)
  /-- UAL_ACK_TIMER (R302). -/
  | ualAckTimer (st : StreamId)
  /-- UAL_RTO_EXPIRY (R302). -/
  | ualRtoExpiry (st : StreamId)
  /-- ECN_ECHO (R303). -/
  | ecnEcho (dev : BitVec 16)
  /-- ECN_RATE_RAISE (R303). -/
  | ecnRateRaise
  /-- ROCE_CNP (R304). -/
  | roceCnp (nd : Fin 2) (qp : Fin 256)
  /-- LLR_FRAME_RECEIVE (R305). -/
  | llrFrameReceive (p : PortId) (fr : LlrFrame)
  /-- LLR_ACK (R305). -/
  | llrAck (p : PortId) (nextSeq : BitVec 24) (replay : Bool)
  /-- LLR_REPLAY (R306). -/
  | llrReplay (p : PortId) (fr : LlrFrame)
  /-- PORT_FAILURE (R306). -/
  | portFailure (p : PortId) (cause : BitVec 4)
  /-- PORT_RETRAIN_DONE (R306). -/
  | portRetrainDone (p : PortId) (up : Bool)
  /-- COLLECTIVE_POST (R309). -/
  | collectivePost (c : SiteNo) (door : Fin 800) (bytes : Nat) (desc : BitVec 512) (tok : Fin 16)
  /-- UAL_READY (R317). -/
  | ualReady (gid : BitVec 16) (bucket : BitVec 16) (rank : Nat)
  /-- CUTOFF_EXPIRY (R317). -/
  | cutoffExpiry (gid : BitVec 16) (bucket : BitVec 16)
  /-- DECIDE (R317). -/
  | decideMsg (gid : BitVec 16) (bucket : BitVec 16) (late : List Nat) (fold : Bool)
  /-- CHUNK_RECEIVE (R312). -/
  | chunkReceive (gid : BitVec 16) (bucket : BitVec 16) (rank : Nat) (chunk : Nat) (ws : List (BitVec 80))
  /-- CHUNKACK (R308). -/
  | chunkAck (gid : BitVec 16) (bucket : BitVec 16) (rank : Nat) (chunk : Nat)
  /-- COLLECTIVE_RESUME (R308). -/
  | collectiveResume (gid : BitVec 16) (bucket : BitVec 16)
  /-- COLLECTIVE_COMPLETE (R316). -/
  | collectiveComplete (gid : BitVec 16) (bucket : BitVec 16)
  /-- COLLECTIVE_DEADLINE (R319). -/
  | collectiveDeadline (gid : BitVec 16) (bucket : BitVec 16)
  /-- PHASE_TIMER_EXPIRY (R319). -/
  | phaseTimerExpiry
  /-- PANNIER_OVERFLOW (R329). -/
  | pannierOverflow (nd : Fin 2) (k : UalPkt)
  /-- PANNIER_RESEND (R328). -/
  | pannierResend (nd : Fin 2) (n : Nat) (why : ResendWhy)
  /-- DIGEST_COMPUTE_DONE (R335). -/
  | digestComputeDone
  /-- COPY_REPAIR (R337). -/
  | copyRepair (own : Bool) (pages : List PageData)
  /-- REFEREE (R339). -/
  | refereeRun (r : RefereeInput)
  /-- POISON_PAGE_RESTORE (R340). -/
  | poisonPageRestore (p : PageFrom)
  /-- TIER1_REWIND (R342). -/
  | tier1Rewind (cause : BitVec 8)
  /-- TIER2_RECOVERY (R343). -/
  | tier2Recovery (subj : BitVec 16) (domSerial : BitVec 64)
  /-- STATE_TRANSFER_DONE (R343). -/
  | stateTransferDone (x : Transfer)
  /-- NO_DOMESTIQUE (R344). -/
  | noDomestique (forReferee : Bool)
  /-- CATCHUP_REPLAY (R345). -/
  | catchupReplay (x : CatchUp)
  /-- TIER3_RESTORE (R346). -/
  | tier3Restore
  /-- HEARTBEAT_SEND (R356). -/
  | heartbeatSend
  /-- HB (R357). -/
  | hb (h : PelHdr) (m : HbMsg)
  /-- HEARTBEAT_MISS (R358). -/
  | heartbeatMiss (subj : BitVec 16)
  /-- MISS (R359). -/
  | missMsg (h : PelHdr) (subj : BitVec 16) (misses : BitVec 8) (lastSeq : BitVec 32)
  /-- WITHDRAW (R359). -/
  | withdrawMsg (h : PelHdr) (subj : BitVec 16) (heard : BitVec 32)
  /-- QUORUM_LOSS_FENCE (R360). -/
  | quorumLossFence
  /-- CAPTAIN_CONFIRM (R363). -/
  | captainConfirm (subj : BitVec 16)
  /-- PROPOSE (R364). -/
  | proposeMsg (h : PelHdr) (m : ProposeMsg)
  /-- ACCEPT (R364). -/
  | acceptMsg (h : PelHdr) (m : AcceptMsg)
  /-- PROPOSE_TIMEOUT (R364). -/
  | proposeTimeout
  /-- DECLARE (R365). -/
  | declareMsg (h : PelHdr) (m : DeclareMsg)
  /-- SYNC (R365). -/
  | syncMsg (h : PelHdr) (fromEp : BitVec 32)
  /-- SYNCREP (R365). -/
  | syncRep (h : PelHdr) (ws : List (BitVec 64))
  /-- PEL_FAULT (R369). -/
  | pelFault (h : PelHdr) (m : FaultMsg)
  /-- PEL_REWIND (R370). -/
  | pelRewind (h : PelHdr) (m : RewindMsg)
  /-- PEL_HALT (R371). -/
  | pelHalt (h : PelHdr) (cause : BitVec 8)
  /-- PEL_EVICT (R372). -/
  | pelEvict (h : PelHdr) (subj : BitVec 16)
  /-- FENCED (R372). -/
  | fencedMsg (h : PelHdr) (m : FencedMsg)
  /-- PEL_ACK (R365). -/
  | pelAck (h : PelHdr) (kind : BitVec 8) (n : BitVec 32)
  /-- FENCE (R373). -/
  | fence (why : FenceWhy)
  /-- FENCED_TIMER (R373). -/
  | fencedTimer
  /-- OCS_REQUEST (R378). -/
  | ocsRequest (pairs : List OcsPair)
  /-- OCS_RESPONSE (R380). -/
  | ocsResponse (m : OcsRsp)
  /-- OCS_BUSY_REPEAT (R380). -/
  | ocsBusyRepeat
  /-- OCS_RETRY_TIMER (R381). -/
  | ocsRetryTimer
  /-- OCS_TIMEOUT (R381). -/
  | ocsTimeout
  /-- CKORDER (R388). -/
  | ckOrder (m : CkMsg)
  /-- SNAPSHOT_HELD_WRITE (R389). -/
  | snapshotHeldWrite (page : Nat) (who : PageWriter)
  /-- PRIORITY_COPY_DONE (R390). -/
  | priorityCopyDone (page : Nat) (ns : Nat)
  /-- STAGE_PAGE_FREED (R390). -/
  | stagePageFreed (page : Nat)
  /-- CHECKPOINT_PAGE_WRITE_ACK (R392). -/
  | checkpointPageWriteAck (page : Nat)
  /-- CKDATA (R393). -/
  | ckData (m : CkMsg)
  /-- CKSEAL (R393). -/
  | ckSeal (m : CkMsg)
  /-- CKSEALED (R393). -/
  | ckSealed (m : CkMsg)
  /-- CKOK (R393). -/
  | ckOk (m : CkMsg)
  /-- CHECKPOINT_ROUND_FAIL (R396). -/
  | checkpointRoundFail (why : RoundFail)
  /-- CKTO_EXPIRY (R396). -/
  | cktoExpiry
  /-- CKQUERY (R399). -/
  | ckQuery (m : CkMsg) (slots : List Manifest)
  /-- CKSLOTS (R399). -/
  | ckSlots (m : CkMsg)
  /-- CKRESTORE (R400): with the manifest of the named slot and those of the places whose mirrors are held. -/
  | ckRestore (m : CkMsg) (mf : Manifest) (owners : List Manifest)
  /-- SPARE_TABLE_FAULT (R409). -/
  | spareTableFault (kind : BitVec 8) (unit : BitVec 48) (secondFailed : Bool)
  /-- SELF_TEST_FULL (R411). -/
  | selfTestFull (res : FullResult)
  /-- SELF_TEST_QUICK (R411). -/
  | selfTestQuick (res : QuickResult)
  /-- SLICE_DUE (R412). -/
  | sliceDue
  /-- SITE_TEST (R414). -/
  | siteTest (c : SiteNo)
  /-- SITE_TEST_DONE (R418). -/
  | siteTestDone (c : SiteNo) (r : List EntryRun)
  /-- PORT_TEST (R411). -/
  | portTest (r : List PortRun)
  /-- PHASE_CHECK (R416). -/
  | phaseCheck (rail : Fin 32) (phase : Fin 16) (ok : Bool) (retryOk : Bool)
  /-- TCINSTALL (R420). -/
  | tcInstall (h : HostHdr) (off : BitVec 64) (len : BitVec 64) (chunk : Bytes)
  /-- DEVICE_CERT_INSTALL (R434). -/
  | deviceCertInstall (cert : Bytes)
  /-- SECURITY_ALARM (R437). -/
  | securityAlarm (code : Fin 16) (die : BitVec 4)
  /-- FCOOL (R462). -/
  | fcool (d : BitVec 64)
  /-- FPWR (R462). -/
  | fpwr (d : BitVec 64)
  /-- FMTRQ (R440). -/
  | fmtrq (d : BitVec 64)
  /-- FSTAT (R461). -/
  | fstat
  /-- FALARM (R461). -/
  | falarm (code : BitVec 8) (action : BitVec 8) (value : BitVec 16)
  /-- FID (R461). -/
  | fid
  /-- FACILITY_FRAME_FILTER (R438). -/
  | facilityFrameFilter (outward : Bool) (code : BitVec 4) (node : BitVec 7) (d : Bytes)
  /-- METER_READ (R447). -/
  | meterRead (power : BitVec 32) (inRange : Bool)
  /-- JOBSTART (R442). -/
  | jobStart (jobid : BitVec 64) (step0 : BitVec 64)
  /-- JOBSTOP (R442). -/
  | jobStop (step1 : BitVec 64) (late : Bool)
  /-- FETCH (R442). -/
  | fetchRecord (rseq : BitVec 32)
  /-- METER_INPUT_LOSS (R445). -/
  | meterInputLoss
  /-- METER_LINK_RETURN (R443). -/
  | meterLinkReturn
  /-- REGRD (R452). -/
  | regrd (h : HostHdr) (addr : BitVec 64)
  /-- REGWR (R452). -/
  | regwr (h : HostHdr) (addr : BitVec 64) (v : BitVec 64) (mask : BitVec 64)
  /-- ADMIT (R463). -/
  | hostAdmission (h : HostHdr) (step0 : BitVec 64) (restore : Bool)
  /-- HOST_RELEASE (R465). -/
  | hostRelease (h : HostHdr) (force : Bool)
  /-- CHAL (R434). -/
  | chal (h : HostHdr)
  /-- CHALLENGE_EXPIRY (R434). -/
  | challengeExpiry
  /-- SIGNREQ (R434). -/
  | signreq (h : HostHdr) (req : Bytes)
  /-- ATTEST (R435). -/
  | attest (h : HostHdr) (nonce : BitVec 256)
  /-- FWINSTALL (R460). -/
  | fwInstall (h : HostHdr) (off : BitVec 64) (len : BitVec 64) (chunk : Bytes)
  /-- SHUTDOWN (R412). -/
  | shutdown (h : HostHdr) (full : Bool) (res : FullResult)
  /-- SELFTEST (R411). -/
  | selftest (h : HostHdr) (res : FullResult)
  /-- HOST_EVICT (R372). -/
  | hostEvict (h : HostHdr) (dev : BitVec 16)
  /-- HOST_STATUS (R452). -/
  | hostStatus (h : HostHdr)
  /-- MODRESET (R455). -/
  | modReset (h : HostHdr) (b : BootInput)
  /-- NOTIFY (R453). -/
  | notifyHost (ev : BitVec 8) (arg1 : BitVec 64)
  /-- POWER_UP (R454). -/
  | powerUp (b : BootInput)
  /-- INPUT_LOSS (R455). -/
  | inputLoss
  /-- HX_WATCHDOG_EXPIRY (R456). -/
  | hxWatchdogExpiry
  /-- HXWD_KICK (R466). -/
  | hxwdKick
  /-- HOST_FLIT_RECEIVE (R450). -/
  | hostFlitReceive (m : Fin 4) (fl : HostFlit)
  /-- IDENT (R457). -/
  | identMsg (h : HostHdr)
  /-- CKPT (R458). -/
  | ckptMsg (src : MgtSrc) (m : CkMsg)
  /-- SLREADY (R463). -/
  | slReady (dev : BitVec 16) (step0 : BitVec 64) (jobLo : BitVec 32)
  /-- SLSTART (R463). -/
  | slStart (dev : BitVec 16)
  /-- ADMIT_TIMEOUT (R463). -/
  | admissionTimeout
  /-- RELORDER (R465). -/
  | relOrder (dev : BitVec 16)
  /-- RELORDER_TIMEOUT (R465). -/
  | relOrderTimeout
  /-- ALERT (R458). -/
  | alertMsg (code : BitVec 8)
  /-- MGT_RESEND_TIMER (R458). -/
  | mgtResendTimer
  /-- COUNTER_WRAP (R472). -/
  | counterWrap (b : BankId) (i : Fin 64)
  /-- PMC_READ (R473). -/
  | pmcRead (b : BankId) (i : Fin 64) (who : Writer)
  /-- PMC_FREEZE (R474). -/
  | pmcFreeze (b : BankId) (on : Bool)
  /-- TAG_RECORD_DONE (R478). -/
  | tagRecordDone (c : SiteNo) (j : Fin 16)
  /-- TAG_POP (R480). -/
  | tagPop (c : SiteNo)
  /-- POWER_SAMPLE (R483). -/
  | powerSample (pin : BitVec 16) (vin : BitVec 16) (over62 : Bool) (over55 : Bool)
  /-- THROTTLE_OVERRUN (R483). -/
  | throttleOverrun
  /-- INPUT_VOLTAGE_FAULT (R484). -/
  | inputVoltageFault (vin : BitVec 16)
  /-- THERMAL_SAMPLE (R490). -/
  | thermalSample (t : Thermal)
  /-- LEAK_SENSED (R490). -/
  | leakSensed
  /-- PRESENT_BREAK (R491). -/
  | presentBreak
  /-- PFC_PAUSE (R300). -/
  | pfcPause (p : PortId) (prio : Fin 8) (pause : Bool)
  /-- NEIGHBOUR_SOLICITATION (R292). -/
  | neighbourSolicitation (p : PortId) (target : BitVec 128)
  /-- ROUTER_ADVERTISEMENT (R457). -/
  | routerAdvertisement (mgtB : Bool) (net64 : BitVec 64)
  /-- LLR_ACK_TIMER (R305). -/
  | llrAckTimer (p : PortId)
  /-- HOST_LINK_RETRAIN_DONE (R450). -/
  | hostLinkRetrainDone (m : Fin 4) (ok : Bool)
  /-- METER_LINK_LOSS (R443). -/
  | meterLinkLoss
  /-- FAC_SUPPLY_LOSS (R455). -/
  | facSupplyLoss
  /-- FAC_SUPPLY_RETURN (R493). -/
  | facSupplyReturn (sa : BitVec 7)
  /-- PRESENT_MATE (R491). -/
  | presentMate
  /-- REPLACEMENT_ROUTES (R307). -/
  | replacementRoutes (rs : List RouteEntry)
  /-- RESTORE_OBJECT_READ (R400). -/
  | restoreObjectRead (x : ObjectRead)
  deriving DecidableEq, Repr

end Sys2Proof
end

