-- ==== Sys2Proof/Machine/State.lean ====
section
/-! DEFINITION. The state of one module as plain data: every register, memory, queue and mode the spec gives it,
the queue of waiting commands, and the reasons a step can stop. The only functions here are the reset values. -/

set_option autoImplicit false

namespace Sys2Proof.Machine

/-- A memory held in (80,64) code words (R233, R237): its bytes in canonical form, and for each 64-bit word (by the
address of its first byte) the deviation of its check bits from those R235 computes of its data, when not 0. That
deviation is the syndrome of R236. -/
structure Mem where
  data : List Host.Cell
  syn : SMap (BitVec 16)
  deriving DecidableEq, Repr

/-- A scalar register and its poison bit (R115, R158). -/
structure SVal where
  val : Word
  poi : Bool
  deriving DecidableEq, Repr

/-- A vector register and its poison bit (R115, R158). -/
structure VVal where
  val : BitVec 2048
  poi : Bool
  deriving DecidableEq, Repr

/-- A predicate register and its poison bit (R115, R158). -/
structure PVal where
  val : BitVec 128
  poi : Bool
  deriving DecidableEq, Repr

/-- The register files that hazard checks name (R128). -/
inductive RegFile where
  | scalar | vector | predicate | special
  deriving DecidableEq, Repr

/-- A write still in flight: bundles issued in active cycle `land` or later may read it (R128). -/
structure Flight where
  file : RegFile
  idx : Nat
  land : Nat
  deriving DecidableEq, Repr

/-- A piecewise-cubic table (R198): 65 boundaries and 64 times 4 coefficients, as F32 codes. -/
structure Table where
  lmode : BitVec 2
  rmode : BitVec 2
  lv : BitVec 32
  lsl : BitVec 32
  rv : BitVec 32
  rsl : BitVec 32
  b : List (BitVec 32)
  c : List (BitVec 32)
  deriving DecidableEq, Repr

/-- The part of a weight tile in one column quarter of a buffer (R70): format code, scale block size (0 none),
unmasked rows (KV), unmasked columns of this quarter, element codes and scales by column, poison. -/
structure Tile where
  fmt : BitVec 4
  blk : Nat
  kv : Nat
  ncols : Nat
  codes : List (List Nat)
  scales : List (List Nat)
  poi : Bool
  deriving DecidableEq, Repr

/-- A weight load in progress (R71): the rows read so far, in order. -/
structure LoadJob where
  buf : Nat
  pack : Nat
  tr : Bool
  addr : Nat
  t0 : Nat
  fmt : BitVec 4
  kv : Nat
  nv : Nat
  blk : Nat
  scales : List (List Nat)
  rows : List (List Nat)
  poi : Bool
  deriving DecidableEq, Repr

/-- An open pass of a pack (R73): `done` counts the vectors captured. -/
structure Pass where
  buf : Nat
  base : Nat
  m : Nat
  done : Nat
  clr : Bool
  drn : Bool
  ddi : Nat
  tile : Nat
  deriving DecidableEq, Repr

/-- A captured vector on its way to the accumulator (R65): the activation codes and scales, and the tiles of the
pack's quarters as they stood when it was fed. -/
structure VecIn where
  cyc : Nat
  pack : Nat
  row : Nat
  fmt : BitVec 4
  blk : Nat
  codes : List Nat
  scales : List Nat
  poi : Bool
  clr : Bool
  drn : Bool
  tiles : List (Nat × Tile)
  deriving DecidableEq, Repr

/-- An accumulator word (R92): sum and crumb, and the deviation of its check bits (R109). -/
structure AccWord where
  sum : BitVec 32
  crumb : BitVec 32
  syn : BitVec 16
  deriving DecidableEq, Repr

/-- The hidden state of an accumulator row in one quarter (R92), and the unmasked columns of the last pass into it. -/
structure RowSt where
  n : Nat
  spillValid : Bool
  isInt : Bool
  flags : BitVec 7
  ncols : Nat
  deriving DecidableEq, Repr

/-- One matrix array (R59, R70). Key of `tiles`: buffer * 4 + quarter. Key of `lastFeed`: buffer * 4 + pack. Key of
`acc`: row * 64 + column. Key of `rows`: row * 4 + quarter. `newRepair` is a map that waits for the array to idle (R87). -/
structure Arr where
  tiles : SMap Tile
  loads : List LoadJob
  lastLoad : Option Nat
  lastFeed : SMap Nat
  passes : SMap Pass
  vecs : List VecIn
  acc : SMap AccWord
  rows : SMap RowSt
  newRepair : Option (Nat × Nat)
  deriving DecidableEq, Repr

/-- A drain descriptor's values (R224) as in force when the scheduling bundle issued, with the tables it names. -/
structure DrainDesc where
  ofmt : Nat
  rm : Nat
  sat : Bool
  dst : Nat
  ch : Nat
  func : Nat
  red : Nat
  rset : Nat
  rms : Bool
  nrm : Bool
  cnt : Bool
  afmt : Nat
  dstride : Nat
  daddr : Nat
  astride : Nat
  aaddr : Nat
  tid : Nat
  eps : Nat
  ebase : Nat
  erow : Nat
  tab : Option Table
  expt : Option Table
  deriving DecidableEq, Repr

/-- What the drain port read of a row (R76, R100): for each unmasked column its number in the pack, sum, crumb and
spill slot where valid; the kind, the row flags, and whether a word was uncorrectable. -/
structure RowCap where
  cols : List (Nat × AccWord × Option Word)
  isInt : Bool
  flags : BitVec 7
  deriving DecidableEq, Repr

/-- A row on its way through a drain unit (R190). `op` says that a DRAIN scheduled it. `rd` is the cycle of the drain-port
read; the row reaches the drain unit in rd + 1 and is written in rd + 15. `terms` holds the norm terms of a written row
that waits for the rows before it in program order (R216). -/
structure DrainRow where
  arr : Nat
  pack : Nat
  row : Nat
  op : Bool
  rd : Nat
  tile : Nat
  last : Bool
  desc : DrainDesc
  cap : Option RowCap
  aux : Option (List (BitVec 32) × Bool)
  terms : Option (List (BitVec 64))
  deriving DecidableEq, Repr

/-- A drained tile that is being delivered (R105, R107): its flag word so far, the elements that its rows wrote into the core store
with their bytes, and the elements delivered under CNT while POI was clear. -/
structure DrainTile where
  flags : BitVec 7
  held : List (Nat × List Byte)
  elems : Nat
  deriving DecidableEq, Repr

/-- A stream channel endpoint (R211 to R214). `posted` lists the micro-batch index of each posted slot, oldest first. -/
structure Chan where
  head : Nat
  tail : Nat
  filled : Nat
  credits : Nat
  ovr : Bool
  mb : BitVec 16
  txSeq : Nat
  rxSeq : Nat
  cursor : Nat
  posted : List (BitVec 16)
  deriving DecidableEq, Repr

/-- What an outstanding DMA does (R184 to R186, R310). -/
inductive DmaKind where
  | copy
  | transpose (ebits : Nat)
  | collective (gid bucket : Nat)
  deriving DecidableEq, Repr

/-- An outstanding DMA of a core (R131, R183 to R188). `held` is the index in the role's commit group of a page
whose pre-image copy holds it (R222). `bad` marks an error found at issue, `late` a write refused after a stop (R223). -/
structure Dma where
  tok : Nat
  kind : DmaKind
  srcl : Bool
  dstl : Bool
  src : Nat
  dst : Nat
  rows : Nat
  rbytes : Nat
  sstride : Nat
  dstride : Nat
  bad : Bool
  held : Option Nat
  tag : Option Nat
  deriving DecidableEq, Repr

/-- A line of bytes as they stood before a recent store (R124): the store's active cycle, address and old bytes. -/
structure Recent where
  cyc : Nat
  addr : Nat
  old : Bytes
  oldPoi : List (Nat × BitVec 16)
  deriving DecidableEq, Repr

/-- Random tagging (R477, R478): the LFSR, the countdown, and for each open record its index, the issue cycle and the
DMAs still to complete. -/
structure TagSt where
  lfsr : BitVec 32
  down : Nat
  opened : List (Nat × Nat × Nat)
  deriving DecidableEq, Repr

/-- One core site: its registers by field, its pending SHADOW values, register files, memories, arrays, drain rows,
channels and issue state. The field maps are keyed by register offset * 64 + the field's lowest bit. `lostToks` lists
the tokens whose pending error is a lost transfer (R133, R138); `tableBuf` the bytes of a table write that is not complete (R199); `gearOrd` counts the t31 increments since the step entry;
`lastVec` is the active cycle of the newest valid vector fed. -/
structure Site where
  regs : SMap Nat
  shadow : SMap Nat
  role : Option Nat
  sregs : SMap SVal
  vregs : SMap VVal
  pregs : SMap PVal
  flight : List Flight
  active : Nat
  branch : Option (Nat × Nat)
  brShadow : Nat
  stall : Nat
  stallHeld : Nat
  t30seen : Bool
  poisonSig : Bool
  store : Mem
  istore : Mem
  recs : Mem
  tables : SMap Table
  tableShadow : SMap Table
  tableBuf : SMap Bytes
  arrs : SMap Arr
  drainQ : List DrainRow
  outTiles : SMap DrainTile
  nextTile : Nat
  lastVec : Option Nat
  portX : List (Nat × Nat)
  recent : List Recent
  chans : SMap Chan
  dmas : List Dma
  lostToks : List Nat
  gearOrd : Nat
  tag : TagSt
  deriving DecidableEq, Repr

/-- An event of an HBM stack (R256): TYPE, SYM, PC, BANK, COL, ROW, LAST. -/
structure HbmEvent where
  typ : Nat
  sym : Nat
  pc : Nat
  bank : Nat
  col : Nat
  row : Nat
  last : Bool
  deriving DecidableEq, Repr

/-- One input of an arbiter of the NoC in one class (R249, R250): the WEIGHT of its most recent packet, the FCLK cycle in which it last
forwarded one, its deficit in flits, and the packets that wait, oldest first, as header and payload. -/
structure NocIn where
  weight : Nat
  last : Option Nat
  deficit : Nat
  waits : List (Nat × List (Byte × Bool))
  deriving DecidableEq, Repr

/-- HBM controllers, the NoC and die-to-die links. `errLog` holds by stack the events behind the one in HBM_ERRLOGk; `retired`
maps stack * 2^21 + stack page to its reserve page; `copying` names by stack the page being retired; `rewrites` the
words waiting for a write slot (R240); `rechecks` the words waiting for their second read, with TYPE and SYM (R241); `patrol` the bursts read in the current period. `replay` holds
the groups whose block was requested again, 1 after its own failure and 2 in place of a removed group, and `blocks` the last 64 blocks of a
group's replay buffer as far as they are known here, newest first (R253). `arb` holds the arbiters' inputs, by nocKey; `held` the requests
that wait at an HBM controller, as (die, header, payload), oldest first (R248); `routes` the link by which a die sends toward a die,
by routeKey; `paths` the ways between nodes of a die, in routers of its mesh, by pathKey (R265). -/
structure Fab where
  errLog : SMap (List HbmEvent)
  retired : SMap Nat
  copying : SMap Nat
  rewrites : List Nat
  rechecks : List (Nat × Nat × Nat)
  replay : SMap Nat
  retrain : List Nat
  patrol : SMap Nat
  blocks : SMap (List (Option (List CodeWord)))
  arb : SMap NocIn
  held : List (Nat × Nat × List (Byte × Bool))
  routes : SMap Nat
  paths : SMap (List Nat)
  deriving DecidableEq, Repr

/-- A granted buffer (R272). Role 0xFFFF is every live role. -/
structure Buf where
  role : Nat
  use : Nat
  acc : Nat
  base : Nat
  len : Nat
  deriving DecidableEq, Repr

/-- A PORT entry of the NETWORK section (R320). -/
structure PortCfg where
  port : Nat
  sub : Nat
  use : Nat
  llr : Bool
  ndev : Nat
  nport : Nat
  nsub : Nat
  spare : Nat
  prewired : Bool
  deriving DecidableEq, Repr

/-- A GROUP member of the NETWORK section (R320). -/
structure GroupCfg where
  gid : Nat
  rank : Nat
  dev : Nat
  nrank : Nat
  deriving DecidableEq, Repr

/-- A GROUP entry of the DEADLINES section (R321). -/
structure GroupDl where
  gid : Nat
  cutoff : Nat
  deadline : Nat
  policy : Nat
  maxlate : Nat
  deriving DecidableEq, Repr

/-- A power-cap entry (R486). -/
structure CapEntry where
  limit : Nat
  len : Nat
  pattern : BitVec 64
  deriving DecidableEq, Repr

/-- A checkpoint trigger (R402). -/
structure CkTrig where
  ckto : Nat
  steps : Nat
  secs : Nat
  sdie : Nat
  sbase : Nat
  slen : Nat
  deriving DecidableEq, Repr

/-- The RESIL section (R350, R382, R402, R422). -/
structure Resil where
  dign : Nat
  shardId : Nat
  panniers : List (Nat × Nat × Nat)
  partners : List (Nat × Nat × Nat)
  mirrors : List (Nat × Nat × Nat)
  preimg : List (Nat × Nat × Nat × Nat)
  watchers : List Nat
  subjects : List Nat
  captains : List (Nat × Nat × Nat)
  ocs : List (Nat × Nat × Nat)
  ckTrig : Option CkTrig
  ckSlots : List (Nat × Nat × Nat × Nat × Nat)
  ckObjs : List (Nat × Nat × Nat)
  bistMode : Nat
  bistPeriod : Nat
  deriving DecidableEq, Repr

/-- The STAGES section as far as other rules use it (R134, R215, R264): barrier groups as (group, token, role) and
stash rings as (stage, base, slot bytes, depth). -/
structure Stages where
  barriers : List (Nat × Nat × Nat)
  stashes : List (Nat × Nat × Nat × Nat)
  deriving DecidableEq, Repr, Inhabited

/-- The frame image in force (R259 to R273, R320, R321, R350, R486). `routes` may be replaced under R307; `dieKeys` lists the fields of
die windows that the image set. -/
structure Image where
  devidx : Nat
  jobid : BitVec 64
  tdeg : Nat
  slicen : Nat
  nspare : Nat
  build : Nat
  umin : Nat
  buffers : List Buf
  commit : List (Nat × List Nat)
  tensors : List (Nat × Nat × Nat × List Nat)
  udpPort : Nat
  rto : Nat
  rtry : Nat
  wbulk : Nat
  wcol : Nat
  pfc : Bool
  net64 : BitVec 64
  ports : List PortCfg
  routes : List RouteEntry
  groups : List GroupCfg
  tfb : Nat
  tred : Nat
  tchk : Nat
  tcom : Nat
  groupDl : List GroupDl
  caps : Option (Nat × List CapEntry)
  stages : Stages
  resil : Resil
  keySlot : Nat
  dieKeys : List Nat
  deriving DecidableEq, Repr

/-- A load under way (R276 to R278): the request, the code and section of its first failed check, or the image that it applies, with
the image's sections, the sites of its roles and its digest. -/
structure Loader where
  via : Via
  tag : BitVec 16
  code : Nat
  sec : Nat
  image : Option Image
  secs : List (Nat × Bytes)
  places : List (Nat × Nat)
  digest : Bytes
  deriving DecidableEq, Repr

/-- Progress marks of a role in the step (R142). -/
structure Marks where
  bwdStart : Bool
  bwdDone : Bool
  commitDone : Bool
  deriving DecidableEq, Repr

/-- Commit pages of a role (R222), by index in its commit group: those open, oldest first, the next to open, and the one
whose pre-image is being copied. -/
structure PageSt where
  opens : List Nat
  next : Nat
  copying : Option Nat
  deriving DecidableEq, Repr

/-- The commit gate beyond its registers (R217 to R223, R286). `gearOld` keeps the values that core gear changes of
this attempt replaced, `gearRec` those recorded for a replay, as (role, ordinal, key, value). `phase` is coded as PHASE
of core.step; `due` lists the roles whose step entry is still to come; `catchUp` says that a step is
run alone (R345); `arrivals` the (barrier group, role) arrivals that wait
for a release (R134). -/
structure Gate where
  step : BitVec 64
  phase : Nat
  replay : Bool
  resuming : Bool
  marks : SMap Marks
  pages : SMap PageSt
  stopped : Bool
  gearOld : List (Nat × Nat × Nat)
  gearRec : List (Nat × Nat × Nat × Nat)
  block : Bytes
  due : List Nat
  catchUp : Bool
  arrivals : List (Nat × Nat)
  deriving DecidableEq, Repr

/-- A packet kept in a pannier (R326). -/
structure Kept where
  step : BitVec 64
  port : Nat
  pkt : UalPkt
  deriving DecidableEq, Repr

/-- A tier-2 recovery in progress (R343, R349): the subject, the stage and the time since which it runs; the serial of the domestique chosen
and of those chosen before; and on the domestique the (copy, holder) whose transfer was restarted, those that failed twice, and the copies that
are here (0 the own shard, i + 1 the mirror of partner i), `steps` with the boundary at which each of them stands. -/
structure Tier2 where
  subj : Nat
  stage : Nat
  since : Nat
  dom : BitVec 64
  tried : List (BitVec 64)
  retried : List (Nat × Nat)
  failed : List (Nat × Nat)
  got : List Nat
  steps : List (Nat × BitVec 64)
  deriving DecidableEq, Repr

/-- A partial of the CHECK reduction, and the value that combines over a subtree: the norm, the counts, the check of PEL_CGCFG with its
mismatch bit, and the digest records in device order (R315, R336). -/
structure CheckPart where
  norm : BitVec 64
  ncnt : Nat
  icnt : Nat
  pcnt : Nat
  cfg : BitVec 32
  mismatch : Bool
  digests : List DigestRec
  deriving DecidableEq, Repr

/-- The CHECK reduction of the step in flight on this module (R315): whether CHECK has begun and waits for the digests (R335); its own
partial until it is combined; the partials of the subtrees below, by rank; the words of messages still incomplete, by (device, MSG);
and the slice totals once they are here. -/
structure CheckSt where
  begun : Bool
  own : Option CheckPart
  kids : List (Nat × CheckPart)
  words : List (Nat × Nat × List CodeWord)
  total : Option SliceTotals
  deriving DecidableEq, Repr

/-- Panniers, step records, tandems, digests and recovery (R325 to R349). `recs` is the module's own step record by step,
`unacked` the (entry number, partner) pairs still to be acknowledged;
`panPos` by network die the offset in its pannier's ring where the next record goes (R326);
`partnerRecs` the entries of the partners' records as (partner, step, number, entry); `losing` the copies that lost a vote (0 the own shard,
i + 1 the mirror of partner i) with the digest of a winning one, and `winning` the copies that won, with the devices of those that lost to them;
`verdictWait` the shards whose REFEREE verdict is not settled; `noCopy` the (page, device) of a copy that could not give a listed page;
`mirrors` the states of the mirrors held here; `referee` tells that this module re-runs COMMIT as a referee. -/
structure Rep where
  recs : List (BitVec 64 × List StepEntry)
  nextEntry : Nat
  unacked : List (Nat × Nat)
  partnerRecs : List (Nat × BitVec 64 × Nat × StepEntry)
  pan : SMap (List Kept)
  panOff : List Nat
  panPos : SMap Nat
  digestReady : Bool
  ownDigest : Option (BitVec 256)
  mirrorDigests : List (Nat × Option (BitVec 256))
  poison : List Nat
  losing : List (Nat × Option (BitVec 256))
  winning : List (Nat × List Nat)
  verdictWait : List Nat
  noCopy : List (Nat × Nat)
  tier2 : List Tier2
  tier3 : Bool
  mirrors : SMap Nat
  referee : Bool
  check : CheckSt
  deriving DecidableEq, Repr

/-- What a frame of a port carries beside its Ethernet and LLR headers: a Ualar packet, an identity frame, a neighbour advertisement, a pause
frame (R291 to R294, R300, R305). -/
inductive PortFrame where
  | ual (k : UalPkt)
  | identity (fr : BitVec 512)
  | advert (addr : BitVec 128)
  | pfc (prio : Nat) (pause : Bool)
  deriving DecidableEq, Repr

/-- A port or half beyond NET_PSTAT (R294, R300, R305, R306). `llrBuf` is the replay buffer; `queue` holds the packets that a pause or a full
replay buffer keeps back, and `frames` the other frames that a full replay buffer keeps back; `turn` is the class that the deficit round robin serves, and `deficits` those of bulk and collective in bytes. -/
structure PortSt where
  accepted : Bool
  confirmed : Bool
  peerCaps : BitVec 32
  llrTx : Nat
  llrRx : Nat
  llrBuf : List (Nat × PortFrame)
  replayWanted : Bool
  unackedRx : Nat
  retraining : Bool
  pauseBulk : Bool
  pauseColl : Bool
  queue : List UalPkt
  frames : List PortFrame
  turn : Nat
  deficits : Nat × Nat
  peerSerial : BitVec 64
  peerBuild : Nat
  deriving DecidableEq, Repr

/-- A Ualar stream (R301, R302). `unacked` lists (SEQ, re-sends so far, packet). -/
structure Stream where
  txSeq : Nat
  unacked : List (Nat × Nat × UalPkt)
  rxNext : Nat
  held : List UalPkt
  ackDue : Bool
  eceDue : Bool
  deriving DecidableEq, Repr

/-- A control packet that waits for room in the retry store (R302). -/
structure CtlWait where
  kind : Nat
  dst : Nat
  strm : BitVec 16
  mb : BitVec 16
  msg : BitVec 32
  words : List CodeWord
  deriving DecidableEq, Repr

/-- Transient errors that the network dies log: a packet acknowledged after a re-send, by stream (R302); a frame delivered on its replay, by
port (R306). -/
inductive NetEvent where
  | resent (stream seq : Nat)
  | replayed (port seq : Nat)
  deriving DecidableEq, Repr

/-- The network dies' transport (R297 to R307). Streams are keyed by device * 4 + class; `rates` by device in 64ths of
the port rate, as (n, e) for n / 2^e; `qps` by die * 256 + queue pair as the rate n / d in 64ths after the last cut and the time of it, (n, d,
time); `qpSent` by queue pair of ND0 the operations that have left on it, modulo 2^24; `ctlWait` lists the control packets that wait for the retry store, and `log` the transient errors; `paused` the (port, priority) that this module has paused; `hold` lists
(arrival port, packet); `takeover` lists (failed port, spare port), and `nextWait` the ports that wait
for the later items of R307; both name a port as port * 4 + half. `cut` lists the network dies that have lost a stopped HD (R21). -/
structure Net where
  ports : SMap PortSt
  streams : SMap Stream
  rates : SMap (Nat × Nat)
  qps : SMap (Nat × Nat × Nat)
  qpSent : SMap Nat
  ctlWait : List CtlWait
  paused : List (Nat × Nat)
  log : List NetEvent
  hold : List (Nat × UalPkt)
  takeover : List (Nat × Nat)
  nextWait : List Nat
  cut : List Nat
  deriving DecidableEq, Repr

/-- A collective in flight (R309 to R318). `sent` tells that READY is sent; `contrib` lists (rank, chunk, words); `acked` lists (rank, chunk). -/
structure Coll where
  op : Nat
  dt : Nat
  nrm : Bool
  cnt : Bool
  tok : Nat
  gid : Nat
  bucket : Nat
  root : Nat
  src : Nat
  dst : Nat
  len : Nat
  fold : Nat
  crec : Nat
  site : Nat
  step : BitVec 64
  sent : Bool
  fed : Bool
  decision : Option (List Nat × Bool)
  contrib : List (Nat × Nat × List CodeWord)
  acked : List (Nat × Nat)
  deriving DecidableEq, Repr

/-- Collectives engine and broom wagon (R309 to R319, R324). `seen` lists the (gid, bucket, length) posted in the step; `qb` lists (bucket, norm, NaN, infinite, poisoned);
`ready` lists (gid, bucket, ranks); `decisions` the decider's decisions; `foldIn` the folded contributions as (step,
gid, bucket, rank, length); `brmLog` the entries behind the one in BRM_LOG as (DEC, GID, RANK, BUCKET); `bcasts` the (gid, root
device) of the BCASTs that have completed here in the step. -/
structure ColSt where
  colls : List Coll
  seen : List (Nat × Nat × Nat)
  qb : List (Nat × BitVec 64 × Nat × Nat × Nat)
  ready : List (Nat × Nat × List Nat)
  cutoffs : List (Nat × Nat)
  decisions : List (Nat × Nat × List Nat × Bool)
  foldIn : List (Nat × Nat × Nat × Nat × Nat)
  brmLog : List (Nat × Nat × Nat × Nat)
  bcasts : List (Nat × Nat)
  deriving DecidableEq, Repr

/-- What is known of a peer's heartbeats (R357, R358, R360): `seqs` lists the HBSEQs heard, the newest first, half of their range at the most. -/
structure Heard where
  time : Nat
  seq : Nat
  planes : Nat
  seqs : List Nat
  deriving DecidableEq, Repr

/-- A proposal of this captain (R364). -/
structure Proposal where
  newEp : Nat
  subj : Nat
  cause : Nat
  accepts : List Nat
  deriving DecidableEq, Repr

/-- A fault of the fault log (R383). -/
structure FaultRec where
  cause : Nat
  blame : Nat
  detail : Nat
  last : Bool
  stepLo : Nat
  deriving DecidableEq, Repr

/-- An OCS request in progress (R378 to R381): `busy` says that the controller answered BUSY, `rest` that it asks for the pairs that a PARTIAL
left; `subj` is the lost module for which it places a domestique; `since` is the time of the first sending, that of the request before it where
it asks for the rest. -/
structure OcsReq where
  reqid : Nat
  pairs : List OcsPair
  sends : Nat
  forSpare : Bool
  busy : Bool
  rest : Bool
  subj : Option Nat
  since : Nat
  deriving DecidableEq, Repr

/-- The peloton engine beyond its registers (R353 to R381). `misses` is kept in PEL_SUBJn. `reports` lists standing
(subject, watcher) reports; `proposed` the PROPOSEs that have come here as (new epoch, subject, source); `held` declarations ahead of the
epoch with their sources; `ocs` the requests in progress, the one sent last at the end; `adopted` (epoch, subject, cause); `rewinds` the
last ATT by boundary; `deadlines` (step, detail, blame) already missed; `selfReports` the lasting faults of its own to report at the next
step boundary; `gone` the devices declared failed and not replaced; `wish` and `dueProps` (subject, cause) to propose after the
next declaration and at the next step boundary; `missed` the deadlines reported to this lead captain; `ocsOld` the requests that were refused. `stood` lists
(subject, time) since which a majority of reports stands; `given` the last ATT that this captain gave out by boundary; `faultsSeen` the faults
reported as (step, ATT, source, cause, blame, detail), and
`declaredFor` the (step, detail, device) of those that led to a declaration. -/
structure Pel where
  hbseq : Nat
  heard : SMap Heard
  outSince : Option Nat
  reports : List (Nat × Nat)
  accepted : Option (Nat × Nat × Nat)
  proposal : Option Proposal
  proposed : List (Nat × Nat × Nat)
  held : List (Nat × DeclareMsg)
  adopted : List (Nat × Nat × Nat)
  rewinds : List (Nat × Nat)
  flog : List FaultRec
  acks : List (Nat × Nat × Nat)
  ocs : List OcsReq
  nextReq : Nat
  fencedWhy : Option Nat
  deadlines : List (Nat × Nat × Nat)
  selfReports : Nat
  standby : Bool
  gone : List Nat
  wish : List (Nat × Nat)
  dueProps : List (Nat × Nat)
  missed : List (Nat × Nat × Nat)
  ocsOld : List (Nat × List OcsPair)
  stood : List (Nat × Nat)
  given : List (Nat × Nat)
  faultsSeen : List (Nat × Nat × Nat × Nat × Nat × Nat)
  declaredFor : List (Nat × Nat × Nat)
  deriving DecidableEq, Repr

/-- A checkpoint round on this module (R388 to R393). Pages are page numbers (module address / 64 KiB). `staged` lists
(page, stage page of its die), `stored` (page, stored bytes); `epoch`, `lscale` and `clean` are those at the arming. -/
structure Round where
  ckseq : Nat
  slot : Nat
  step : BitVec 64
  armed : Bool
  protect : List Nat
  copied : List Nat
  staged : List (Nat × Nat)
  held : List (Nat × PageWriter)
  acked : List Nat
  stored : List (Nat × Bytes)
  sealed : Bool
  epoch : Nat
  lscale : Nat
  clean : Nat
  deriving DecidableEq, Repr

/-- A restore in progress (R400): the own manifest and those of the places whose mirrors are held, the manifest and object that
is read next, and whether its first read failed. -/
structure Restore where
  mfs : List Bytes
  src : Nat
  obj : Nat
  retried : Bool
  deriving DecidableEq, Repr

/-- Checkpoints (R384 to R400). `lead` is the lead captain's boundary c and the time of its last order; `again` says that a
round was abandoned and is to be ordered again. `slots` lists (device, STEP0, STEP1), `own` the STEP0 and STEP1 that
this module last answered. -/
structure Ckp where
  round : Option Round
  lead : Option (Nat × Nat)
  leadRound : Bool
  again : Bool
  nextSeq : Nat
  dataOk : List Nat
  sealed : List Nat
  slots : List (Nat × Nat × Nat)
  newest : Option Nat
  own : Nat × Nat
  restore : Option Restore
  deriving DecidableEq, Repr

/-- An entry of the spare-mapping table (R406). -/
structure SpareEntry where
  kind : Nat
  state : Nat
  unit : Nat
  tfirst : Nat
  tlast : Nat
  deriving DecidableEq, Repr

/-- A self-test pass record (R413) as stored: its 288 bytes, and whether the power-down after it was orderly. -/
structure PassRec where
  wher : Nat
  bootcnt : Nat
  tsec : Nat
  tcver : Nat
  raw : Bytes
  orderly : Bool
  deriving DecidableEq, Repr

/-- A visit of a test slice (R412, R414, R420): the slice, the sites still to test, those that passed in it, the sites under
test, the step boundaries since it fell due, the number of the visit, the package that it runs, and whether it has moved a control core's work. -/
structure Visit where
  slice : Nat
  todo : List Nat
  passed : List Nat
  testing : List Nat
  boundaries : Nat
  no : Nat
  pkg : Bytes
  ctlMoved : Bool
  deriving DecidableEq, Repr

/-- Self-test and spares (R405 to R420). `due` counts slices that wait, `visits` the visits so far, `upload` the
package bytes received so far; `losses` lists the (copy, powered seconds) of lost votes (R337, R352), `blames` the (device, powered seconds) of the modules blamed for
a deadline, as a captain has heard of them (R376), `barred` the (job, device index) of the places that this module was fenced in (R374), and `mustTest` says that the module was
released from fencing and has not passed a full test since (R374). `copies` holds the two copies of the table as code words (R405), `excess` the
(kind, unit) that became LASTING with no entry free, `stackGone` that a stack has failed (R244); `running` is the test that runs (1 FULL, 2 QUICK),
`ctlCore` the control core that is spare, and `ctlTest` one that is freed for its test (R414). `fails` lists the (unit, powered seconds) of the port failures of the last
24 hours (R306, R322). -/
structure TestSt where
  table : List SpareEntry
  copies : List (List (List CodeWord))
  excess : List (Nat × Nat)
  stackGone : Bool
  running : Nat
  ctlTest : Option Nat
  pass : Option PassRec
  pkg : Bytes
  visit : Option Visit
  due : Nat
  nextSlice : Nat
  visits : Nat
  ctlCore : Nat
  bootcnt : Nat
  upload : Bytes
  losses : List (Nat × Nat)
  blames : List (Nat × Nat)
  barred : List (Nat × Nat)
  mustTest : Bool
  fails : List (Nat × Nat)
  deriving DecidableEq, Repr

/-- A public-key slot (R426, R427): state 0 EMPTY, 1 VALID, 2 REVOKED, and the public point. -/
structure KeySlot where
  state : Nat
  x : Nat
  y : Nat
  deriving DecidableEq, Repr

/-- The device key (R426): its secret, which lies in the key store wrapped under the hardware wrap key `wrap`, its public point, and the
installed certificate. -/
structure DevKey where
  secret : Nat
  x : Nat
  y : Nat
  cert : Bytes
  wrap : BitVec 256
  deriving DecidableEq, Repr

/-- Security (R425 to R437). `roots` holds the digests of the root keys in slots 10 to 13, as the fuses have them, 0 where none is blown, and
`rootsRevoked` which of them (0 to 3) are revoked; `wrapKey` is the hardware wrap key. `m` holds the measurement registers M0 to M4; `chal` the current challenge; `banks` the
firmware package bytes of bank A (0) and B (1), `run` the package that runs; `raised` the alarm codes raised since power-up, as ALARMS of R435. -/
structure Sec where
  slots : SMap KeySlot
  roots : List (BitVec 256)
  wrapKey : BitVec 256
  rootsRevoked : List Nat
  dev : Option DevKey
  m : SMap (BitVec 256)
  chal : Option (BitVec 256)
  banks : SMap Bytes
  run : Bytes
  upload : Bytes
  almLog : List (Nat × Nat × Nat × Nat)
  raised : BitVec 8
  deriving DecidableEq, Repr

/-- A meter record (R444): its fields up to the key identifier, and the signature. -/
structure MeterRec where
  rseq : Nat
  raw : Bytes
  deriving DecidableEq, Repr

/-- The job open in the meter (R442); `range` says that an input was out of range while it was open (R444). -/
structure MeterJob where
  jobid : BitVec 64
  step0 : BitVec 64
  e0 : Nat
  t0 : Nat
  range : Bool
  deriving DecidableEq, Repr

/-- The Gwegin meter (R441 to R445). `energy` counts in 1/360 mWh, which is 0.1 W over 100 ms; `lost` holds E1 and T1 of an input loss
with a job open; `readOk` and `readTime` tell the last READ, `pendingStop` the STEP1 of a JOBSTOP that waits for the link, `lastSerial` the
serial of the last power-up. -/
structure Meter where
  energy : Nat
  serial : BitVec 64
  key : Option DevKey
  recs : List MeterRec
  nextSeq : Nat
  job : Option MeterJob
  lost : Option (Nat × Nat)
  selfOk : Bool
  inRange : Bool
  sealBroken : Bool
  readOk : Bool
  readTime : Nat
  pendingStop : Option (BitVec 64)
  lastSerial : BitVec 64
  deriving DecidableEq, Repr

/-- The facility side (R438, R439, R462, R490, R493): the bridge, its node address, the (code, time) of the frames that crossed in the last
second, and the inputs in force: SUPPLY of FCOOL, the supply that the flow tells, LIMIT of FPWR. -/
structure Fac where
  up : Bool
  node : BitVec 7
  sent : List (Nat × Nat)
  supply : Nat
  measured : Nat
  limit : Nat
  deriving DecidableEq, Repr

/-- An admission or release in progress (R463, R465). -/
structure Admission where
  tag : BitVec 16
  step0 : BitVec 64
  restore : Bool
  deriving DecidableEq, Repr

/-- Host link and host messages (R448 to R456, R463 to R465). `links` holds by UCIe module: 0 in service, 1 a flit
failed once, 2 retraining, 3 removed; `linkFails` the (module, time) of flits that failed twice, `retrainFails` the times of retrainings
that failed. Of the flits of the messages sent so far, `txBase` belong to earlier times of the host link and `txSent` have left since it came up. `stage` is the last completed power-up stage of R454; `ready` lists (device, first step, JOBLO) of SLREADY; `kicked` is the time of
the last write to UCI_HXWD. -/
structure HostSt where
  stage : Nat
  admission : Option Admission
  admitted : Bool
  ready : List (Nat × BitVec 64 × BitVec 32)
  relOrder : Bool
  links : SMap Nat
  linkFails : List (Nat × Nat)
  retrainFails : List Nat
  kicked : Nat
  rxSeq : Nat
  peerAck : Nat
  credits : Nat
  txBase : Nat
  txSent : Nat
  hxUp : Bool
  halted : Bool
  shut : Bool
  outstanding : Nat
  deriving DecidableEq, Repr

/-- A management message repeated until answered (R458): type, arguments, destinations, payload, sendings so far. -/
structure MgtMsg where
  typ : Nat
  arg0 : BitVec 64
  arg1 : BitVec 64
  dst : List Nat
  payload : Bytes
  sends : Nat
  deriving DecidableEq, Repr

/-- A voltage rail (R485, R497). -/
structure Rail where
  vout : Nat
  iout : Nat
  spare : Nat
  phok : BitVec 16
  deriving DecidableEq, Repr

/-- Power and cooling beyond the registers (R483, R484, R490, R491): input power, the PRESENT contact, the rails, the two conditions of
thermal regulation, and whether the compute dies' rails go down with the declaration of the module. -/
structure Pwr where
  input : Bool
  present : Bool
  rails : SMap Rail
  hot : Bool
  rise : Bool
  down : Bool
  deriving DecidableEq, Repr

/-- A peloton message as a management plane carries it (R356, R457): the plane, the address, the UDP port and the Ualar header. -/
structure MgtFrame where
  mgtB : Bool
  addr : BitVec 128
  udp : BitVec 16
  h : UalHdr
  deriving DecidableEq, Repr

/-- A datagram of a management message: the plane, the module's address that it leaves from, and the UDP destination port (R457). -/
structure MgtFrom where
  mgtB : Bool
  src : BitVec 128
  udp : BitVec 16
  deriving DecidableEq, Repr

/-- An RDMA operation of a reliable-connected queue pair (R304, R402): the queue pair of ND0, its number on the pair, the remote key and
address, and the UDP destination port. -/
structure Rdma where
  qp : Nat
  psn : Nat
  rkey : Nat
  addr : Nat
  udp : Nat
  deriving DecidableEq, Repr

/-- What the module sends out: the observable answers to commands, newest first in `State.out`. -/
inductive Out where
  | hostRsp (via : Via) (typ : BitVec 8) (tag : BitVec 16) (status code : Nat) (arg0 : BitVec 64) (payload : Bytes)
  | notify (ev : Nat) (arg1 : BitVec 64)
  | pel (kind : Nat) (epoch : Nat) (dst : List Nat) (planes : Nat) (words : List (BitVec 64)) (frames : List MgtFrame)
  | ual (link : Nat) (k : UalPkt)
  | llrFrame (link : Nat) (hdr : BitVec 64) (f : PortFrame)
  | mgt (typ : Nat) (arg0 arg1 : BitVec 64) (dst : List Nat) (payload : Bytes) (frames : List MgtFrom)
  | mgtRsp (typ : Nat) (status code : Nat) (dev : Nat) (frames : List MgtFrom)
  | hostFlit (seq ack : Nat) (words : List CodeWord)
  | hostAgain (ack : Nat)
  | can (code : Nat) (d : Bytes)
  | ocs (ctl : Nat) (mgtB : Bool) (req : Bytes)
  | identity (p : PortId) (fr : BitVec 512)
  | llr (p : PortId) (nextSeq : Nat) (replay : Bool)
  | pfc (p : PortId) (prio : Nat) (pause : Bool)
  | advert (p : PortId) (addr : BitVec 128)
  | rdmaWrite (slot : Nat) (off : Nat) (d : Bytes) (r : Rdma)
  | rdmaRead (src : Nat) (off len : Nat) (r : Rdma)
  | noc (d : Nat) (hdr : Nat) (payload : List (Byte × Bool))
  | replayReq (g : GroupId)
  | hop (die link : Nat) (hdr : Nat) (payload : List (Byte × Bool))
  | block (g : GroupId) (words : List CodeWord)
  | record (partner : Nat) (step : BitVec 64) (n : Nat) (e : StepEntry)
  | recordAck (partner n : Nat)
  | pages (dev shard : Nat) (ps : List PageData)
  | logDigest (shard : Nat) (dig : Option (BitVec 256))
  | refereeLog (referee : BitVec 64) (shard : Nat) (log : List PageData) (kept : List PageData) (block : Bytes)
  | refereeResult (shard : Nat) (dig : Option (BitVec 256))
  | transfer (dev copy : Nat) (ps : List PageData) (dig : BitVec 256) (step : BitVec 64) (recs : List (BitVec 64 × List StepEntry))
  | domestique (serial : BitVec 64) (subj : Nat)
  | fenceOrder (serial : BitVec 64)
  | meter (cmd : Nat) (a b : BitVec 64)
  | meterRsp (ok : Bool) (r : Bytes)
  | fwSignal (c : Nat) (what : Nat)
  | slot (dev role ch : Nat) (m : SlotMsg)
  | credit (dev role ch n : Nat)
  | value (v : BitVec 64)
  | checkPartial (norm : BitVec 64) (ncnt icnt pcnt : Nat) (cfg : BitVec 32) (digests : List DigestRec)
  deriving DecidableEq, Repr

/-- The module. `regs` and `shadow` hold the fields of die windows, keyed by (window * 2^24 + offset) * 64 + lowest
bit; `sites` the core sites by number; `roleSite` the site of each live role. -/
structure State where
  pending : List Instr
  time : Nat
  free : Nat
  out : List Out
  serial : BitVec 64
  regs : SMap Nat
  shadow : SMap Nat
  sites : SMap Site
  roleSite : SMap Nat
  hbm : Mem
  fab : Fab
  img : Option Image
  loader : Option Loader
  gate : Gate
  rep : Rep
  net : Net
  col : ColSt
  pel : Pel
  ckp : Ckp
  test : TestSt
  sec : Sec
  mtr : Meter
  fac : Fac
  host : HostSt
  mgt : List MgtMsg
  pwr : Pwr
  deriving DecidableEq, Repr

/-- Reasons a step stops with a fault. The spec describes an answer for every error of this block (an error response,
an exception of one core, a rejected write), so no meaning raises one; the type is closed. -/
inductive Fault where
  /-- Raised by no meaning: kept so that the type is not empty. Safe. -/
  | none
  deriving DecidableEq, Repr

/-- Reasons a step refuses. -/
inductive Refusal where
  /-- A command that the model gives no meaning yet, by its mnemonic. Raised by an arm of exec only. Safe. -/
  | notModelled (mnemonic : String)
  deriving DecidableEq, Repr

def Mem.empty : Mem := ⟨[], []⟩

/-- An accumulator word at reset: sum and crumb of minus zero (R108). -/
def AccWord.reset : AccWord := ⟨0x80000000, 0x80000000, 0⟩

/-- A row at reset (R108). -/
def RowSt.reset : RowSt := ⟨0, false, false, 0, 16⟩

/-- An array at reset (R85, R108). -/
def Arr.reset : Arr :=
  { tiles := [], loads := [], lastLoad := none, lastFeed := [], passes := [], vecs := [], acc := [], rows := [], newRepair := none }

/-- A tile of which no row is delivered. -/
def DrainTile.reset : DrainTile := ⟨0, [], 0⟩

def Chan.reset : Chan := ⟨0, 0, 0, 0, false, 0, 0, 0, 0, []⟩

/-- A core site when its SITE domain is released (R455): registers at their reset values. The register files and
memories hold 0, a DESIGN CHOICE where the spec gives no value (log entries 1 and 2). Unsafe. -/
def Site.reset : Site :=
  { regs := [], shadow := [], role := none, sregs := [], vregs := [], pregs := [], flight := [], active := 0,
    branch := none, brShadow := 0, stall := 0, stallHeld := 0, t30seen := false, poisonSig := false,
    store := Mem.empty, istore := Mem.empty, recs := Mem.empty, tables := [], tableShadow := [], tableBuf := [], arrs := [],
    drainQ := [], outTiles := [], nextTile := 0, lastVec := none, portX := [], recent := [], chans := [], dmas := [], lostToks := [], gearOrd := 0,
    tag := ⟨1, 0, []⟩ }

def Gate.reset : Gate :=
  { step := 0, phase := 0, replay := false, resuming := false, marks := [], pages := [], stopped := false,
    gearOld := [], gearRec := [], block := [], due := [], catchUp := false,
    arrivals := [] }

def CheckSt.reset : CheckSt := ⟨false, none, [], [], none⟩

def Rep.reset : Rep :=
  { recs := [], nextEntry := 0, unacked := [], partnerRecs := [], pan := [], panOff := [], panPos := [], digestReady := false,
    ownDigest := none, mirrorDigests := [], poison := [], losing := [], winning := [], verdictWait := [], noCopy := [],
    tier2 := [], tier3 := false, mirrors := [], referee := false, check := CheckSt.reset }

def PortSt.reset : PortSt := ⟨false, false, 0, 0, 0, [], false, 0, false, false, false, [], [], 1, (0, 0), 0, 0⟩

def Stream.reset : Stream := ⟨0, [], 0, [], false, false⟩

def Net.reset : Net := ⟨[], [], [], [], [], [], [], [], [], [], [], []⟩

def ColSt.reset : ColSt := ⟨[], [], [], [], [], [], [], [], []⟩

def Pel.reset : Pel :=
  { hbseq := 0, heard := [], outSince := none, reports := [], accepted := none, proposal := none, proposed := [], held := [],
    adopted := [], rewinds := [], flog := [], acks := [], ocs := [], nextReq := 0, fencedWhy := none,
    deadlines := [], selfReports := 0, standby := false,
    gone := [], wish := [], dueProps := [], missed := [], ocsOld := [], stood := [], given := [], faultsSeen := [],
    declaredFor := [] }

def Ckp.reset : Ckp :=
  { round := none, lead := none, leadRound := false, again := false, nextSeq := 0, dataOk := [], sealed := [], slots := [],
    newest := none, own := (2 ^ 64 - 1, 2 ^ 64 - 1), restore := none }

def TestSt.reset : TestSt :=
  { table := [], copies := [[], []], excess := [], stackGone := false, running := 0, ctlTest := none, pass := none, pkg := [], visit := none, due := 0, nextSlice := 0, visits := 0, ctlCore := 4,
    bootcnt := 0, upload := [], losses := [], blames := [], barred := [], fails := [], mustTest := false }

def Sec.reset : Sec :=
  { slots := [], roots := [0, 0, 0, 0], wrapKey := 0, rootsRevoked := [], dev := none, m := [], chal := none, banks := [], run := [], upload := [], almLog := [],
    raised := 0 }

/-- The meter as the model first finds it (log entry 3). -/
def Meter.reset : Meter :=
  { energy := 0, serial := 0, key := none, recs := [], nextSeq := 0, job := none, lost := none, selfOk := true, inRange := true,
    sealBroken := false, readOk := false, readTime := 0, pendingStop := none, lastSerial := 0 }

def HostSt.reset : HostSt :=
  { stage := 0, admission := none, admitted := false, ready := [], relOrder := false, links := [],
    linkFails := [], retrainFails := [], kicked := 0, rxSeq := 0, peerAck := 0, credits := 0, txBase := 0, txSent := 0, hxUp := false, halted := false, shut := false, outstanding := 0 }

def Pwr.reset : Pwr :=
  { input := true, present := true, rails := [], hot := false, rise := false, down := false }

def NocIn.reset : NocIn := ⟨1, none, 0, []⟩

def Fab.reset : Fab :=
  { errLog := [], retired := [], copying := [], rewrites := [], rechecks := [], replay := [], retrain := [], patrol := [], blocks := [],
    arb := [], held := [], routes := [], paths := [] }

/-- The module with every reset domain just released and nothing done yet (R6, R455): every register field at its
reset value, no image in force, no command waiting. Values the spec does not give are zero (log entries 1 to 6). -/
def State.reset : State :=
  { pending := [], time := 0, free := 0, out := [], serial := 0, regs := [], shadow := [], sites := [],
    roleSite := [], hbm := Mem.empty,
    fab := Fab.reset,
    img := none, loader := none, gate := Gate.reset, rep := Rep.reset, net := Net.reset, col := ColSt.reset,
    pel := Pel.reset, ckp := Ckp.reset, test := TestSt.reset, sec := Sec.reset, mtr := Meter.reset,
    fac := { up := false, node := 0, sent := [], supply := 0, measured := 0, limit := 0 },
    host := HostSt.reset, mgt := [], pwr := Pwr.reset }

end Sys2Proof.Machine
end

