-- ==== Sys2Proof/Decode.lean ====
section
/-! DEFINITION. The commands a table word spells. No row of spec/opcode_table.json gives bits: the commands of this
block are register accesses, messages, bus events and timers, each taken from outside with its operands. The bundle
decoder of R150 to R183, which is an effect of BUNDLE_ISSUE, stands in Machine/Bundle.lean. -/

set_option autoImplicit false

namespace Sys2Proof

/-- The command that a word spells by the table's bits: none, as no row of the table gives bits. -/
def decodeTableWord (_nbits _w : Nat) : Option Instr := none

end Sys2Proof
end

