-- ==== Sys2Proof/Config.lean ====
section
/-! DEFINITION. Values that the spec leaves open: free values, each an opaque constant applied to the state's counter or
to operands, and layouts that the spec names and does not give (log entries 5, 11 and 12). -/

set_option autoImplicit false

namespace Sys2Proof.Config

/-- A bit the spec leaves open. -/
opaque freeBit : Nat → Bool

/-- A 64-bit word the spec leaves open. -/
opaque freeWord : Nat → BitVec 64

/-- A number the spec leaves open. -/
opaque freeNat : Nat → Nat

/-- 32 random bytes: the challenge of R434. -/
opaque challenge : Nat → BitVec 256

/-- A new device key: its secret (R434, REPROV). -/
opaque newKey : Nat → Nat

/-- The per-signature secret number of an ECDSA signature. -/
opaque sigNonce : Nat → Nat

/-- The STAGES section as barrier groups and stash rings; the spec gives no layout (R264). `none`: rejected. -/
opaque stages : Sys2Proof.Bytes → Option Sys2Proof.Machine.Stages

/-- The table entries of the TABLES section as (role, table number, table bytes); the spec does not lay out the words
beside the table (R264). `none`: rejected. -/
opaque tableEntries : Sys2Proof.Bytes → Option (List (Nat × Nat × Sys2Proof.Bytes))

/-- The offset after the last entry of the TABLES and of the STAGES section, whose entries the spec does not lay out (R264, R268). -/
opaque tablesEnd : Sys2Proof.Bytes → Nat
opaque stagesEnd : Sys2Proof.Bytes → Nat

/-- The table that a module address names, and which 8-byte word of it, for a table write: (site, table, word). The spec lets
firmware replace tables and places none in a window (R198). -/
opaque tableWord : Nat → Option (Nat × Nat × Nat)

/-- For which kind of key a Kyulo certificate stands, of the bytes in it that are signed: 0 firmware, 1 service, 2 debug, 3 device CA. The spec
names no field that tells (R426, R434). -/
opaque certKind : Sys2Proof.Bytes → Nat

/-- The test-content keys in slots 8 and 9 that a firmware image carries (R426, R427). -/
opaque contentKeys : Sys2Proof.Bytes → List (Nat × Nat)

/-- The table that exp() takes in a merge of row records (R208): of record set 0 or 1 by a store, of the collectives
engine (2). The spec names none. -/
opaque mergeTable : Nat → Nat

/-- The public point of a device key by its KEYID, as its certificate chain states it (R395). -/
opaque devicePoint : Sys2Proof.Bytes → Option (Nat × Nat)

/-- SHARDID of the shard of another device, which a mirror's digest record carries; the image of its holder does not give it (R336). -/
opaque partnerShard : Nat → Nat

/-- The watcher set of another device, which only its own image names (R353, R363). -/
opaque watchersOf : Nat → List Nat

/-- Whether a copy of each shard that a device owned survives when the devices listed are lost; no image names the tandems of
other modules (R341). -/
opaque shardSurvives : Nat → List Nat → Bool

/-- The devices that hold a copy of the shard of a SHARDID; the image of a module names its own partners only (R331, R337, R340, R347). -/
opaque copyHolders : Nat → List Nat

/-- The ports of another device that its NETWORK section marks ACTIVE, each with the neighbour's port, as connect pairs whose A serial is
left 0; only the image of that device lists them (R378). -/
opaque lostPorts : Nat → List Sys2Proof.OcsPair

/-- The domestique of the slice's pool that a road captain selects next, after those already chosen (R343, R344, R380). -/
opaque nextDomestique : List (BitVec 64) → Option (BitVec 64)

/-- The page list of an owner role's commit group on another device, which only the image of that device holds (R331, R350, R400). -/
opaque ownerPages : Nat → Nat → List Nat

/-- The queue pair, remote key and remote address of a storage slot of another device's place (R398, R402). -/
opaque ownerSlot : Nat → Nat → Nat × Nat × Nat

/-- The hash that spreads a stream over the ports of its routes (R320), of SRCDEV, DSTDEV and CLS. -/
opaque routeHash : Nat → Nat → Nat → Nat

/-- The 32-bit check of PEL_CGCFG that CHECK carries (R287). -/
opaque cfgCheck : Nat → Nat

/-- Slots of the ring of a channel's peer on another module, less one: of its device, role and channel (R213). -/
opaque peerSlots : Nat → Nat → Nat → Nat

/-- The per-signature secret number of a signature of the meter (R441, R444). -/
opaque meterNonce : Nat → Nat

/-- The secret of the identity key of the meter of a serial, and the key's certificate (R441). -/
opaque meterSecret : BitVec 64 → Nat
opaque meterCert : BitVec 64 → Sys2Proof.Bytes

/-- Where a node of a die lies in the mesh of its NoC, as (x, y); node 256 is the hub gateway. The spec gives no coordinates (R265). -/
opaque nodeAt : Nat → Nat → Nat × Nat

end Sys2Proof.Config
end

