-- ==== Sys2Proof/Machine/Fp.lean ====
section
/-! DEFINITION. Number formats (R31 to R37), exact values, rounding (R43 to R47), and the rounded operations that the
vector unit, the drains, the arrays and the commit gate build on. Values are kept exact; a format is only a grid. -/

set_option autoImplicit false

namespace Sys2Proof.Machine

/-- Flag bits in the layout of bits 6:0 of the tile flag word (R104). -/
abbrev Flags := BitVec 7

def flINV : Flags := 0x01#7
def flNANI : Flags := 0x02#7
def flINFI : Flags := 0x04#7
def flSAT : Flags := 0x08#7
def flUNF : Flags := 0x10#7
def flPOI : Flags := 0x20#7
def flCVT : Flags := 0x40#7

/-- A flag when a condition holds. -/
def flagIf (b : Bool) (f : Flags) : Flags := if b then f else 0

/-- A number: NaN, an infinity, or (-1)^neg * m * 2^e. -/
inductive FV where
  | nan
  | inf (neg : Bool)
  | fin (neg : Bool) (m : Nat) (e : Int)
  deriving DecidableEq, Repr

/-- How a format treats its codes (R31, R33, R34). -/
inductive FKind where
  | ieee | f8a | f6 | f4 | int
  deriving DecidableEq, Repr

/-- A format: code, width, mantissa bits and bias (R31). -/
structure Fmt where
  code : Nat
  w : Nat
  mb : Nat
  bias : Nat
  kind : FKind
  deriving DecidableEq, Repr

def F64 : Fmt := ⟨0, 64, 52, 1023, .ieee⟩
def F32 : Fmt := ⟨1, 32, 23, 127, .ieee⟩
def F16 : Fmt := ⟨2, 16, 10, 15, .ieee⟩
def B16 : Fmt := ⟨3, 16, 7, 127, .ieee⟩
def F8A : Fmt := ⟨4, 8, 3, 7, .f8a⟩
def F8B : Fmt := ⟨5, 8, 2, 15, .ieee⟩
def F6A : Fmt := ⟨6, 6, 3, 1, .f6⟩
def F6B : Fmt := ⟨7, 6, 2, 3, .f6⟩
def F4 : Fmt := ⟨8, 4, 1, 1, .f4⟩
def I8 : Fmt := ⟨9, 8, 0, 0, .int⟩
def I4 : Fmt := ⟨10, 4, 0, 0, .int⟩

/-- The format of a code of R31 other than X8 and the reserved codes. -/
def fmtOf : Nat → Option Fmt
  | 0 => some F64
  | 1 => some F32
  | 2 => some F16
  | 3 => some B16
  | 4 => some F8A
  | 5 => some F8B
  | 6 => some F6A
  | 7 => some F6B
  | 8 => some F4
  | 9 => some I8
  | 10 => some I4
  | _ => none

/-- Exponent bits of a floating format. -/
def Fmt.eb (f : Fmt) : Nat := f.w - 1 - f.mb

/-- The exponent of the smallest normal. -/
def Fmt.emin (f : Fmt) : Int := 1 - (f.bias : Int)

/-- The value of a code (R33, R34, R37). Bits above the format's width are ignored. -/
def Fmt.dec (f : Fmt) (c0 : Nat) : FV :=
  let c := c0 % 2 ^ f.w
  let neg := c / 2 ^ (f.w - 1) = 1
  match f.kind with
  | .int => if neg then .fin true (2 ^ f.w - c) 0 else .fin false c 0
  | k =>
    let e := c / 2 ^ f.mb % 2 ^ f.eb
    let m := c % 2 ^ f.mb
    let top := 2 ^ f.eb - 1
    if k = .ieee ∧ e = top then (if m = 0 then .inf neg else .nan)
    else if k = .f8a ∧ e = top ∧ m = 7 then .nan
    else if k = .f4 ∧ c = 8 then .nan
    else if e = 0 then .fin neg m (f.emin - f.mb)
    else .fin neg (2 ^ f.mb + m) ((e : Int) - f.bias - f.mb)

/-- The largest finite magnitude as mantissa and exponent; an integer format reaches one further below zero (R31, R50). -/
def Fmt.maxMag (f : Fmt) (neg : Bool) : Nat × Int :=
  match f.kind with
  | .ieee => (2 ^ (f.mb + 1) - 1, (2 ^ f.eb - 2 : Int) - f.bias - f.mb)
  | .f8a => (14, 5)
  | .f6 => (2 ^ (f.mb + 1) - 1, (2 ^ f.eb - 1 : Int) - f.bias - f.mb)
  | .f4 => (3, 1)
  | .int => (if neg then 2 ^ (f.w - 1) else 2 ^ (f.w - 1) - 1, 0)

/-- 2^n of an integer that is not negative, else 1. -/
def ipow2 (n : Int) : Nat := 2 ^ n.toNat

/-- m * 2^e compared with n * 2^d: whether the first is greater. -/
def magGt (m : Nat) (e : Int) (n : Nat) (d : Int) : Bool :=
  decide (m * ipow2 (e - d) > n * ipow2 (d - e))

/-- The exponent of the grid step of a format at magnitude m * 2^e: its exponent range is unbounded above and keeps its
subnormals below (R44). -/
def Fmt.quantum (f : Fmt) (m : Nat) (e : Int) : Int :=
  match f.kind with
  | .int => 0
  | _ => max ((Nat.log2 m : Int) + e) f.emin - f.mb

/-- Rounding modes (R43). -/
inductive RMode where
  | rne | rtz | sr
  deriving DecidableEq, Repr

/-- The mode of a 2-bit code; 0b11 is reserved and refused before it reaches a rounding. -/
def rmodeOf (c : Nat) : RMode := if c = 1 then .rtz else if c = 2 then .sr else .rne

/-- m * 2^e in units of 2^q under a mode; `r` is the draw of SR (R44, R45). -/
def roundUnits (mode : RMode) (r : Nat) (m : Nat) (e q : Int) : Nat :=
  if q ≤ e then m * ipow2 (e - q)
  else
    let d := ipow2 (q - e)
    let lo := m / d
    let rem := m % d
    match mode with
    | .rtz => lo
    | .rne => if d < 2 * rem ∨ (2 * rem = d ∧ lo % 2 = 1) then lo + 1 else lo
    | .sr => if rem ≠ 0 ∧ r < rem * 2 ^ 24 / d then lo + 1 else lo

/-- A finite magnitude rounded to a format's unbounded grid. -/
def Fmt.roundMag (f : Fmt) (mode : RMode) (r : Nat) (m : Nat) (e : Int) : Nat × Int :=
  let q := f.quantum m e
  (roundUnits mode r m e q, q)

/-- Whether a rounded magnitude exceeds the largest finite value. -/
def Fmt.over (f : Fmt) (neg : Bool) (k : Nat) (q : Int) : Bool :=
  let mx := f.maxMag neg
  magGt k q mx.1 mx.2

/-- The canonical NaN, or 0 where the format has none (R41, R50). -/
def Fmt.nanCode (f : Fmt) : Nat :=
  match f.kind with
  | .ieee => (2 ^ f.eb - 1) * 2 ^ f.mb + 2 ^ (f.mb - 1)
  | .f8a => 0x7F
  | .f4 => 8
  | _ => 0

/-- A zero of a sign; F4 and the integers have only +0 (R42). -/
def Fmt.zeroCode (f : Fmt) (neg : Bool) : Nat :=
  if neg ∧ f.kind ≠ .f4 ∧ f.kind ≠ .int then 2 ^ (f.w - 1) else 0

/-- The code of a value that the format represents exactly. -/
def Fmt.enc (f : Fmt) (v : FV) : Nat :=
  match v with
  | .nan => f.nanCode
  | .inf neg => (if neg then 2 ^ (f.w - 1) else 0) + (2 ^ f.eb - 1) * 2 ^ f.mb
  | .fin neg m e =>
    if m = 0 then f.zeroCode neg
    else
      let q := f.quantum m e
      let k := roundUnits .rtz 0 m e q
      if f.kind = .int then (if neg then (2 ^ f.w - k) % 2 ^ f.w else k)
      else
        let sgn := if neg then 2 ^ (f.w - 1) else 0
        if k < 2 ^ f.mb then sgn + k
        else sgn + (q + f.mb + f.bias).toNat * 2 ^ f.mb + (k - 2 ^ f.mb)

/-- Plus or minus the largest finite value. -/
def Fmt.maxVal (f : Fmt) (neg : Bool) : FV :=
  let mx := f.maxMag neg
  .fin neg mx.1 mx.2

/-- A rounded value with the two events that flags report: overflow of the finite range, and a nonzero exact value
delivered as zero. -/
structure Rounded where
  v : FV
  ovf : Bool
  unf : Bool
  deriving DecidableEq, Repr

/-- Rounds an exact value to a format by RNE; a finite overflow delivers the infinity of IEEE 754-2019, or the largest
finite value where `sat` holds. -/
def Fmt.rnd (f : Fmt) (sat : Bool) (v : FV) : Rounded :=
  match v with
  | .fin neg m e =>
    if m = 0 then ⟨.fin neg 0 0, false, false⟩
    else
      let k := f.roundMag .rne 0 m e
      if f.over neg k.1 k.2 then ⟨if sat then f.maxVal neg else .inf neg, true, false⟩
      else ⟨.fin neg k.1 (if k.1 = 0 then 0 else k.2), false, k.1 = 0⟩
  | v => ⟨v, false, false⟩

def FV.isNan : FV → Bool
  | .nan => true
  | _ => false

def FV.isInf : FV → Bool
  | .inf _ => true
  | _ => false

def FV.isZero : FV → Bool
  | .fin _ m _ => m = 0
  | _ => false

def FV.isFin : FV → Bool
  | .fin _ _ _ => true
  | _ => false

def FV.neg : FV → Bool
  | .nan => false
  | .inf s => s
  | .fin s _ _ => s

/-- The value with its sign inverted. -/
def FV.negate : FV → FV
  | .nan => .nan
  | .inf s => .inf (!s)
  | .fin s m e => .fin (!s) m e

/-- The magnitude. -/
def FV.abs : FV → FV
  | .nan => .nan
  | .inf _ => .inf false
  | .fin _ m e => .fin false m e

/-- Minus zero, the identity of every accumulating quantity (R91), and plus zero. -/
def negZero : FV := .fin true 0 0
def posZero : FV := .fin false 0 0

/-- The signed mantissa of a finite value at exponent `d`, not above its own. -/
def atExp (neg : Bool) (m : Nat) (e d : Int) : Int :=
  let k : Int := ((m * ipow2 (e - d) : Nat) : Int)
  if neg then -k else k

/-- The exact sum of two finite values; an exact zero follows IEEE 754-2019 under RNE (R91). -/
def finAdd (s1 : Bool) (m1 : Nat) (e1 : Int) (s2 : Bool) (m2 : Nat) (e2 : Int) : FV :=
  if m1 = 0 ∧ m2 = 0 then .fin (s1 && s2) 0 0
  else if m1 = 0 then .fin s2 m2 e2
  else if m2 = 0 then .fin s1 m1 e1
  else
    let d := min e1 e2
    let t := atExp s1 m1 e1 d + atExp s2 m2 e2 d
    if t = 0 then posZero else .fin (decide (t < 0)) t.natAbs d

/-- An exact sum. Opposite infinities give NaN; the second result says the operation was invalid. -/
def FV.add (a b : FV) : FV × Bool :=
  match a, b with
  | .nan, _ => (.nan, false)
  | _, .nan => (.nan, false)
  | .inf s, .inf t => if s = t then (.inf s, false) else (.nan, true)
  | .inf s, _ => (.inf s, false)
  | _, .inf t => (.inf t, false)
  | .fin s1 m1 e1, .fin s2 m2 e2 => (finAdd s1 m1 e1 s2 m2 e2, false)

/-- An exact product. 0 times an infinity gives NaN and is invalid. -/
def FV.mul (a b : FV) : FV × Bool :=
  match a, b with
  | .nan, _ => (.nan, false)
  | _, .nan => (.nan, false)
  | .inf s, .inf t => (.inf (s ^^ t), false)
  | .inf s, .fin t m _ => if m = 0 then (.nan, true) else (.inf (s ^^ t), false)
  | .fin s m _, .inf t => if m = 0 then (.nan, true) else (.inf (s ^^ t), false)
  | .fin s1 m1 e1, .fin s2 m2 e2 => (.fin (s1 ^^ s2) (m1 * m2) (if m1 * m2 = 0 then 0 else e1 + e2), false)

/-- a * b + c, exact, with IEEE's invalid cases; 0 times an infinity is invalid whatever the addend (R170, R195). -/
def FV.fma (a b c : FV) : FV × Bool :=
  let p := a.mul b
  if p.2 then (.nan, true) else p.1.add c

/-- Strict order of two values that are not NaN; zeros of either sign are equal. -/
def FV.lt (a b : FV) : Bool :=
  match a, b with
  | .nan, _ => false
  | _, .nan => false
  | .inf s, .inf t => s && !t
  | .inf s, .fin _ _ _ => s
  | .fin _ _ _, .inf t => !t
  | .fin s1 m1 e1, .fin s2 m2 e2 =>
    let d := min e1 e2
    decide (atExp s1 m1 e1 d < atExp s2 m2 e2 d)

/-- Numeric equality; NaN equals nothing. -/
def FV.eqv (a b : FV) : Bool := !a.isNan && !b.isNan && !a.lt b && !b.lt a

/-- The maximum of IEEE 754-2019: NaN if either is NaN; +0 above -0. -/
def FV.max (a b : FV) : FV :=
  if a.isNan || b.isNan then .nan
  else if a.lt b then b
  else if b.lt a then a
  else if a.neg then b else a

/-- The minimum of IEEE 754-2019. -/
def FV.min (a b : FV) : FV :=
  if a.isNan || b.isNan then .nan
  else if a.lt b then a
  else if b.lt a then b
  else if a.neg then a else b

/-- The integer square root, by bits from bit `i - 1` down. -/
def isqrtGo : Nat → Nat → Nat → Nat
  | 0, _, r => r
  | i + 1, n, r => let c := r + 2 ^ i; if c * c ≤ n then isqrtGo i n c else isqrtGo i n r

/-- The floor of a square root. -/
def isqrt (n : Nat) : Nat := isqrtGo (Nat.log2 n / 2 + 1) n 0

/-- A quotient of finite nonzero values, to more bits than any format has, with a sticky last bit. -/
def finDiv (m1 : Nat) (e1 : Int) (m2 : Nat) (e2 : Int) : Nat × Int :=
  let sh := 80 + Nat.log2 m2
  let n := m1 * 2 ^ sh
  (2 * (n / m2) + (if n % m2 = 0 then 0 else 1), e1 - e2 - sh - 1)

/-- A quotient before rounding, with IEEE's invalid cases. -/
def FV.div (a b : FV) : FV × Bool :=
  match a, b with
  | .nan, _ => (.nan, false)
  | _, .nan => (.nan, false)
  | .inf _, .inf _ => (.nan, true)
  | .inf s, .fin t _ _ => (.inf (s ^^ t), false)
  | .fin s _ _, .inf t => (.fin (s ^^ t) 0 0, false)
  | .fin s1 m1 e1, .fin s2 m2 e2 =>
    if m2 = 0 then (if m1 = 0 then (.nan, true) else (.inf (s1 ^^ s2), false))
    else if m1 = 0 then (.fin (s1 ^^ s2) 0 0, false)
    else
      let q := finDiv m1 e1 m2 e2
      (.fin (s1 ^^ s2) q.1 q.2, false)

/-- A square root before rounding; a negative value gives NaN. -/
def FV.sqrt : FV → FV × Bool
  | .nan => (.nan, false)
  | .inf s => if s then (.nan, true) else (.inf false, false)
  | .fin s m e =>
    if m = 0 then (.fin s 0 0, false)
    else if s then (.nan, true)
    else
      let e0 := e - 140
      let odd := e0 % 2 = 1
      let n := m * 2 ^ (if odd then 141 else 140)
      let d := if odd then e0 - 1 else e0
      let r := isqrt n
      (.fin false (2 * r + (if r * r = n then 0 else 1)) (d / 2 - 1), false)

/-! Binary64 arithmetic under RNE (R39). -/

def add64 (a b : FV) : FV := (F64.rnd false (a.add b).1).v
def mul64 (a b : FV) : FV := (F64.rnd false (a.mul b).1).v
def div64 (a b : FV) : FV := (F64.rnd false (a.div b).1).v
def sqrt64 (a : FV) : FV := (F64.rnd false a.sqrt.1).v

/-- A binary64 addition whose finite overflow delivers the largest finite value and reports it (R96, R100). -/
def addSat64 (a b : FV) : FV × Bool :=
  let r := F64.rnd true (a.add b).1
  (r.v, r.ovf)

/-- One rounding to F32 under RNE, as f32() of the pseudocode. -/
def toF32 (a : FV) : FV := (F32.rnd false a).v

/-! ## Stochastic rounding (R45, R47) -/

/-- One mixing round of R45, modulo 2^64. -/
def srMix (x : BitVec 64) : BitVec 64 :=
  let x := (x ^^^ (x >>> 30)) * 0xBF58476D1CE4E5B9#64
  let x := (x ^^^ (x >>> 27)) * 0x94D049BB133111EB#64
  x ^^^ (x >>> 31)

/-- The 24-bit draw of a step, a tensor identifier and an element index (R45). -/
def srBits (step : BitVec 64) (tensor index : Nat) : Nat :=
  let a := srMix step
  let b := srMix (a ^^^ BitVec.ofNat 64 (tensor % 2 ^ 32))
  let c := srMix (b ^^^ BitVec.ofNat 64 (index % 2 ^ 48))
  c.toNat / 2 ^ 40

/-- A binary64 value's 64-bit word. -/
def word64 (v : FV) : Word := BitVec.ofNat 64 (F64.enc v)

end Sys2Proof.Machine
end

