-- ==== Sys2Proof/Machine/Convert.lean ====
section
/-! DEFINITION. The conversion procedure (R49 to R52), the drain's final rounding (R54), block quantisation (R57), and
the packing of elements (R40). -/

set_option autoImplicit false

namespace Sys2Proof.Machine

/-- inf_result of R50: the code, and whether it is finite, or a NaN. -/
def Fmt.infResult (f : Fmt) (neg sat : Bool) : Nat × Flags :=
  match f.kind with
  | .ieee => (f.enc (.inf neg), 0)
  | .f8a => if sat then (f.enc (f.maxVal neg), flCVT) else (f.nanCode, flINV)
  | .f4 => if sat then (f.enc (f.maxVal neg), flCVT) else (f.nanCode, flINV)
  | _ => (f.enc (f.maxVal neg), flCVT)

/-- overflow_result of R50. -/
def Fmt.ovfResult (f : Fmt) (neg sat : Bool) (mode : RMode) : Nat × Flags :=
  let mx := (f.enc (f.maxVal neg), flCVT)
  if mode = .rtz then mx
  else match f.kind with
    | .ieee => if f.w ≥ 32 then (f.enc (.inf neg), 0) else if sat then mx else (f.enc (.inf neg), 0)
    | .f8a => if sat then mx else (f.nanCode, flINV)
    | .f4 => if sat then mx else (f.nanCode, flINV)
    | _ => mx

/-- convert() of R49 with the flags of R52. `r` is the SR draw. -/
def Fmt.convert (f : Fmt) (mode : RMode) (sat : Bool) (r : Nat) (x : FV) : Nat × Flags :=
  match x with
  | .nan => (f.nanCode, flNANI ||| (if f.kind = .f6 ∨ f.kind = .int then flINV else 0))
  | .inf neg => let c := f.infResult neg sat; (c.1, c.2 ||| flINFI)
  | .fin neg m e =>
    if m = 0 then (f.zeroCode neg, 0)
    else
      let k := f.roundMag mode r m e
      if f.over neg k.1 k.2 then f.ovfResult neg sat mode
      else if k.1 = 0 then (f.zeroCode neg, flUNF)
      else (f.enc (.fin neg k.1 k.2), 0)

/-- Whether a magnitude k * 2^q on the format's grid is a nonzero subnormal. -/
def Fmt.subnormal (f : Fmt) (k : Nat) (q : Int) : Bool :=
  k ≠ 0 && !magGt k q 1 f.emin && !(decide (k * ipow2 (q - f.emin) = ipow2 (f.emin - q)))

/-- The drain's rounding (R54): a finite overflow delivers the largest finite value and sets SAT, and a nonzero
subnormal result is flushed and sets UNF. -/
def Fmt.convertDrain (f : Fmt) (mode : RMode) (sat : Bool) (r : Nat) (x : FV) : Nat × Flags :=
  match x with
  | .fin neg m e =>
    if m = 0 then (f.zeroCode neg, 0)
    else
      let k := f.roundMag mode r m e
      if f.over neg k.1 k.2 then (f.enc (f.maxVal neg), flSAT)
      else if k.1 = 0 ∨ f.subnormal k.1 k.2 then (f.zeroCode neg, flUNF)
      else (f.enc (.fin neg k.1 k.2), 0)
  | x => f.convert mode sat r x

/-- emax of R57. -/
def Fmt.emaxBlk (f : Fmt) : Int :=
  if f = F8A then 8 else if f = F8B then 15 else if f = F6A then 2 else if f = F6B then 4 else 2

/-- The larger of two magnitudes of finite values, as (m, e). -/
def magMax (a : Nat × Int) (v : FV) : Nat × Int :=
  match v with
  | .fin _ m e => if magGt m e a.1 a.2 then (m, e) else a
  | _ => a

/-- x times 2^d. -/
def FV.scale (v : FV) (d : Int) : FV :=
  match v with
  | .fin s m e => .fin s m (e + d)
  | v => v

/-- Block quantisation of R57: the scale code, the element codes and the flags. `draw j` is the draw of element j. -/
def quantBlock (f : Fmt) (mode : RMode) (sat : Bool) (draw : Nat → Nat) (xs : List FV) : Nat × List Nat × Flags :=
  if xs.any (fun x => x.isNan || x.isInf) then
    (0xFF, xs.map (fun _ => 0),
      flINV ||| flagIf (xs.any FV.isNan) flNANI ||| flagIf (xs.any FV.isInf) flINFI)
  else
    let a := xs.foldl magMax (0, 0)
    let e : Int := if a.1 = 0 then 127 else max 0 (min 254 ((Nat.log2 a.1 : Int) + a.2 - f.emaxBlk + 127))
    let r := (xs.zipIdx).map (fun p => f.convert mode sat (draw p.2) (p.1.scale (127 - e)))
    (e.toNat, r.map (·.1), r.foldl (fun fl c => fl ||| c.2) 0)

/-- Element `i` of packed data held as a number, bit 0 first: elements of w bits lie densely, which for 4 and 6 bits is
the packing of R40. -/
def elemAt (d w i : Nat) : Nat := d / 2 ^ (w * i) % 2 ^ w

/-- Packs element codes of w bits densely from bit 0 (R40). -/
def packElems (w : Nat) : List Nat → Nat
  | [] => 0
  | c :: t => c % 2 ^ w + 2 ^ w * packElems w t

/-- An element's value under an X8 scale code (R35, R36); `none` is no scale. -/
def scaled (f : Fmt) (c : Nat) (sc : Option Nat) : FV :=
  match sc with
  | none => f.dec c
  | some s => if s % 256 = 255 then .nan else (f.dec c).scale ((s % 256 : Nat) - 127)

end Sys2Proof.Machine
end

