-- ==== Sys2Proof/Machine/RegTable.lean ====
section
/-! DEFINITION. The user-visible registers: their fields with class and reset value, one definition for each, and the
register at each offset of a window. A field's definition is named after its register and itself; an indexed register
takes its index. Each follows the register table of the rule that its register's comment names. -/

set_option autoImplicit false

namespace Sys2Proof.Machine

/-- The field classes (R6). -/
inductive Cls where
  | ro | rw | rw1c | wo | stat | shadow | live
  deriving DecidableEq, Repr

/-- A register field: the byte offset of its register in the window, its bits, its class and its reset value. -/
structure Fld where
  off : Nat
  hi : Nat
  lo : Nat
  cls : Cls
  reset : Nat
  deriving DecidableEq, Repr

/-- A register: its width in bits and its fields. -/
structure Reg where
  wid : Nat
  flds : List Fld
  deriving DecidableEq, Repr

/-- Where a field is kept in a field map. -/
def Fld.key (f : Fld) : Nat := f.off * 64 + f.lo

/-- The number of bits of a field. -/
def Fld.width (f : Fld) : Nat := f.hi + 1 - f.lo

def CORE_CTRL_HALT : Fld := ⟨0x9000, 1, 1, .wo, 0⟩
def CORE_CTRL_GO : Fld := ⟨0x9000, 0, 0, .wo, 0⟩
/-- CORE_CTRL (R146). -/
def CORE_CTRL : Reg := ⟨32, [CORE_CTRL_HALT, CORE_CTRL_GO]⟩

def CORE_STATE_RJCT : Fld := ⟨0x9004, 31, 24, .ro, 0⟩
def CORE_STATE_DETAIL : Fld := ⟨0x9004, 23, 16, .ro, 0⟩
def CORE_STATE_CAUSE : Fld := ⟨0x9004, 15, 8, .ro, 0⟩
def CORE_STATE_STATE : Fld := ⟨0x9004, 2, 0, .ro, 0⟩
/-- CORE_STATE (R147). -/
def CORE_STATE : Reg := ⟨32, [CORE_STATE_RJCT, CORE_STATE_DETAIL, CORE_STATE_CAUSE, CORE_STATE_STATE]⟩

def CORE_PC_PC : Fld := ⟨0x9008, 11, 0, .rw, 0⟩
/-- CORE_PC (R148). -/
def CORE_PC : Reg := ⟨32, [CORE_PC_PC]⟩

def CORE_EPC_SLOTS : Fld := ⟨0x900C, 27, 16, .ro, 0⟩
def CORE_EPC_BUNDLE : Fld := ⟨0x900C, 11, 0, .ro, 0⟩
/-- CORE_EPC (R149). -/
def CORE_EPC : Reg := ⟨32, [CORE_EPC_SLOTS, CORE_EPC_BUNDLE]⟩

def CORE_ENTRY_ENTRY : Fld := ⟨0x9010, 11, 0, .stat, 0⟩
/-- CORE_ENTRY (R150). -/
def CORE_ENTRY : Reg := ⟨32, [CORE_ENTRY_ENTRY]⟩

def CORE_WAITLIM_LIM : Fld := ⟨0x9014, 23, 0, .stat, 0x1000⟩
/-- CORE_WAITLIM (R150). -/
def CORE_WAITLIM : Reg := ⟨32, [CORE_WAITLIM_LIM]⟩

def CORE_CH_PDEV (c : Nat) : Fld := ⟨0x9100 + 0x8 * c, 63, 48, .stat, 0⟩
def CORE_CH_PROLE (c : Nat) : Fld := ⟨0x9100 + 0x8 * c, 47, 38, .stat, 0⟩
def CORE_CH_PCH (c : Nat) : Fld := ⟨0x9100 + 0x8 * c, 37, 35, .stat, 0⟩
def CORE_CH_DIR (c : Nat) : Fld := ⟨0x9100 + 0x8 * c, 34, 34, .stat, 0⟩
def CORE_CH_EN (c : Nat) : Fld := ⟨0x9100 + 0x8 * c, 33, 33, .stat, 0⟩
def CORE_CH_SLOG (c : Nat) : Fld := ⟨0x9100 + 0x8 * c, 32, 28, .stat, 8⟩
def CORE_CH_NSLM1 (c : Nat) : Fld := ⟨0x9100 + 0x8 * c, 27, 20, .stat, 0⟩
def CORE_CH_RBASE (c : Nat) : Fld := ⟨0x9100 + 0x8 * c, 13, 0, .stat, 0⟩
/-- CORE_CH (R226). -/
def CORE_CH (c : Nat) : Reg := ⟨64, [CORE_CH_PDEV c, CORE_CH_PROLE c, CORE_CH_PCH c, CORE_CH_DIR c, CORE_CH_EN c, CORE_CH_SLOG c, CORE_CH_NSLM1 c, CORE_CH_RBASE c]⟩

def ARR_CFG_PACK (n : Nat) : Fld := ⟨0xA000 + 0x40 * n, 2, 1, .stat, 0⟩
def ARR_CFG_EN (n : Nat) : Fld := ⟨0xA000 + 0x40 * n, 0, 0, .stat, 0⟩
/-- ARR_CFG (R83). -/
def ARR_CFG (n : Nat) : Reg := ⟨32, [ARR_CFG_PACK n, ARR_CFG_EN n]⟩

def ARR_REPAIR_FCOL (n : Nat) : Fld := ⟨0xA004 + 0x40 * n, 22, 16, .shadow, 0x7f⟩
def ARR_REPAIR_FROW (n : Nat) : Fld := ⟨0xA004 + 0x40 * n, 4, 0, .shadow, 0x1f⟩
/-- ARR_REPAIR (R84). -/
def ARR_REPAIR (n : Nat) : Reg := ⟨32, [ARR_REPAIR_FCOL n, ARR_REPAIR_FROW n]⟩

def ARR_STATUS_HAZ (n : Nat) : Fld := ⟨0xA008 + 0x40 * n, 22, 16, .rw1c, 0⟩
def ARR_STATUS_LDACT (n : Nat) : Fld := ⟨0xA008 + 0x40 * n, 9, 9, .ro, 0⟩
def ARR_STATUS_BUSY (n : Nat) : Fld := ⟨0xA008 + 0x40 * n, 8, 8, .ro, 0⟩
def ARR_STATUS_W1RDY (n : Nat) : Fld := ⟨0xA008 + 0x40 * n, 7, 4, .ro, 0⟩
def ARR_STATUS_W0RDY (n : Nat) : Fld := ⟨0xA008 + 0x40 * n, 3, 0, .ro, 0⟩
/-- ARR_STATUS (R85). -/
def ARR_STATUS (n : Nat) : Reg := ⟨32, [ARR_STATUS_HAZ n, ARR_STATUS_LDACT n, ARR_STATUS_BUSY n, ARR_STATUS_W1RDY n, ARR_STATUS_W0RDY n]⟩

def ARR_SKEW_DLY (n : Nat) : Fld := ⟨0xA00C + 0x40 * n, 15, 0, .ro, 0⟩
/-- ARR_SKEW (R86). -/
def ARR_SKEW (n : Nat) : Reg := ⟨32, [ARR_SKEW_DLY n]⟩

def ACC_CFG_SBASE (n : Nat) : Fld := ⟨0xA010 + 0x40 * n, 13, 9, .stat, 0⟩
def ACC_CFG_SLOG (n : Nat) : Fld := ⟨0xA010 + 0x40 * n, 8, 4, .stat, 0xc⟩
def ACC_CFG_SEN (n : Nat) : Fld := ⟨0xA010 + 0x40 * n, 0, 0, .stat, 0⟩
/-- ACC_CFG (R112). -/
def ACC_CFG (n : Nat) : Reg := ⟨32, [ACC_CFG_SBASE n, ACC_CFG_SLOG n, ACC_CFG_SEN n]⟩

def ACC_FLAGS_FLAGS (n : Nat) : Fld := ⟨0xA014 + 0x40 * n, 6, 0, .rw1c, 0⟩
/-- ACC_FLAGS (R113). -/
def ACC_FLAGS (n : Nat) : Reg := ⟨32, [ACC_FLAGS_FLAGS n]⟩

def DRN_DESC_OFMT (n : Nat) : Fld := ⟨0xB000 + 0x40 * n + 0x0, 47, 44, .shadow, 1⟩
def DRN_DESC_RM (n : Nat) : Fld := ⟨0xB000 + 0x40 * n + 0x0, 43, 42, .shadow, 0⟩
def DRN_DESC_SAT (n : Nat) : Fld := ⟨0xB000 + 0x40 * n + 0x0, 41, 41, .shadow, 1⟩
def DRN_DESC_DST (n : Nat) : Fld := ⟨0xB000 + 0x40 * n + 0x0, 40, 38, .shadow, 0⟩
def DRN_DESC_CH (n : Nat) : Fld := ⟨0xB000 + 0x40 * n + 0x0, 37, 35, .shadow, 0⟩
def DRN_DESC_FUNC (n : Nat) : Fld := ⟨0xB000 + 0x40 * n + 0x0, 34, 32, .shadow, 0⟩
def DRN_DESC_RED (n : Nat) : Fld := ⟨0xB000 + 0x40 * n + 0x0, 31, 29, .shadow, 0⟩
def DRN_DESC_TAB (n : Nat) : Fld := ⟨0xB000 + 0x40 * n + 0x0, 28, 24, .shadow, 0⟩
def DRN_DESC_EXPT (n : Nat) : Fld := ⟨0xB000 + 0x40 * n + 0x0, 23, 19, .shadow, 0⟩
def DRN_DESC_RSET (n : Nat) : Fld := ⟨0xB000 + 0x40 * n + 0x0, 18, 18, .shadow, 0⟩
def DRN_DESC_RMS (n : Nat) : Fld := ⟨0xB000 + 0x40 * n + 0x0, 17, 17, .shadow, 0⟩
def DRN_DESC_NRM (n : Nat) : Fld := ⟨0xB000 + 0x40 * n + 0x0, 16, 16, .shadow, 0⟩
def DRN_DESC_CNT (n : Nat) : Fld := ⟨0xB000 + 0x40 * n + 0x0, 15, 15, .shadow, 0⟩
def DRN_DESC_AFMT (n : Nat) : Fld := ⟨0xB000 + 0x40 * n + 0x0, 14, 13, .shadow, 0⟩
/-- DRN_DESC_W0 (R224). -/
def DRN_DESC_W0 (n : Nat) : Reg := ⟨64, [DRN_DESC_OFMT n, DRN_DESC_RM n, DRN_DESC_SAT n, DRN_DESC_DST n, DRN_DESC_CH n, DRN_DESC_FUNC n, DRN_DESC_RED n, DRN_DESC_TAB n, DRN_DESC_EXPT n, DRN_DESC_RSET n, DRN_DESC_RMS n, DRN_DESC_NRM n, DRN_DESC_CNT n, DRN_DESC_AFMT n]⟩

def DRN_DESC_DSTRIDE (n : Nat) : Fld := ⟨0xB000 + 0x40 * n + 0x8, 63, 32, .shadow, 0⟩
def DRN_DESC_DADDR (n : Nat) : Fld := ⟨0xB000 + 0x40 * n + 0x8, 31, 0, .shadow, 0⟩
/-- DRN_DESC_W1 (R224). -/
def DRN_DESC_W1 (n : Nat) : Reg := ⟨64, [DRN_DESC_DSTRIDE n, DRN_DESC_DADDR n]⟩

def DRN_DESC_ASTRIDE (n : Nat) : Fld := ⟨0xB000 + 0x40 * n + 0x10, 63, 32, .shadow, 0⟩
def DRN_DESC_AADDR (n : Nat) : Fld := ⟨0xB000 + 0x40 * n + 0x10, 31, 0, .shadow, 0⟩
/-- DRN_DESC_W2 (R224). -/
def DRN_DESC_W2 (n : Nat) : Reg := ⟨64, [DRN_DESC_ASTRIDE n, DRN_DESC_AADDR n]⟩

def DRN_DESC_TID (n : Nat) : Fld := ⟨0xB000 + 0x40 * n + 0x18, 63, 32, .shadow, 0⟩
def DRN_DESC_EPS (n : Nat) : Fld := ⟨0xB000 + 0x40 * n + 0x18, 31, 0, .shadow, 0⟩
/-- DRN_DESC_W3 (R224). -/
def DRN_DESC_W3 (n : Nat) : Reg := ⟨64, [DRN_DESC_TID n, DRN_DESC_EPS n]⟩

def DRN_DESC_EBASE (n : Nat) : Fld := ⟨0xB000 + 0x40 * n + 0x20, 47, 0, .shadow, 0⟩
/-- DRN_DESC_W4 (R224). -/
def DRN_DESC_W4 (n : Nat) : Reg := ⟨64, [DRN_DESC_EBASE n]⟩

def DRN_DESC_EROW (n : Nat) : Fld := ⟨0xB000 + 0x40 * n + 0x28, 47, 0, .shadow, 0⟩
/-- DRN_DESC_W5 (R224). -/
def DRN_DESC_W5 (n : Nat) : Reg := ⟨64, [DRN_DESC_EROW n]⟩

def DRN_NORM_NORM : Fld := ⟨0xB400, 63, 0, .ro, 0⟩
/-- DRN_NORM (R225). -/
def DRN_NORM : Reg := ⟨64, [DRN_NORM_NORM]⟩

def DRN_CNT_PCNT : Fld := ⟨0xB408, 59, 40, .ro, 0⟩
def DRN_CNT_ICNT : Fld := ⟨0xB408, 39, 20, .ro, 0⟩
def DRN_CNT_NCNT : Fld := ⟨0xB408, 19, 0, .ro, 0⟩
/-- DRN_CNT (R225). -/
def DRN_CNT : Reg := ⟨64, [DRN_CNT_PCNT, DRN_CNT_ICNT, DRN_CNT_NCNT]⟩

def PMC_CTR_VALUE (n : Nat) : Fld := ⟨0xC000 + 0x8 * n, 47, 0, .live, 0⟩
/-- PMC_CTR (R480). -/
def PMC_CTR (n : Nat) : Reg := ⟨64, [PMC_CTR_VALUE n]⟩

def PMC_SEL_PRIV (n : Nat) : Fld := ⟨0xC080 + 0x8 * n, 15, 15, .ro, 0⟩
def PMC_SEL_USER (n : Nat) : Fld := ⟨0xC080 + 0x8 * n, 14, 14, .live, 0⟩
def PMC_SEL_CHAIN (n : Nat) : Fld := ⟨0xC080 + 0x8 * n, 13, 13, .live, 0⟩
def PMC_SEL_EVENT (n : Nat) : Fld := ⟨0xC080 + 0x8 * n, 9, 0, .live, 0⟩
/-- PMC_SEL (R480). -/
def PMC_SEL (n : Nat) : Reg := ⟨64, [PMC_SEL_PRIV n, PMC_SEL_USER n, PMC_SEL_CHAIN n, PMC_SEL_EVENT n]⟩

def PMC_CTL_OVF : Fld := ⟨0xC100, 31, 16, .rw1c, 0⟩
def PMC_CTL_IRQ : Fld := ⟨0xC100, 1, 1, .live, 0⟩
def PMC_CTL_FRZ : Fld := ⟨0xC100, 0, 0, .live, 0⟩
/-- PMC_CTL (R480). -/
def PMC_CTL : Reg := ⟨64, [PMC_CTL_OVF, PMC_CTL_IRQ, PMC_CTL_FRZ]⟩

def PMC_TAGCFG_MEAN : Fld := ⟨0xC108, 47, 32, .live, 0x1000⟩
def PMC_TAGCFG_EN : Fld := ⟨0xC108, 0, 0, .live, 0⟩
/-- PMC_TAGCFG (R480). -/
def PMC_TAGCFG : Reg := ⟨64, [PMC_TAGCFG_MEAN, PMC_TAGCFG_EN]⟩

def PMC_SEED_SEED : Fld := ⟨0xC110, 31, 0, .live, 0⟩
/-- PMC_SEED (R480). -/
def PMC_SEED : Reg := ⟨64, [PMC_SEED_SEED]⟩

def PMC_TSTAT_DROP : Fld := ⟨0xC118, 63, 32, .ro, 0⟩
def PMC_TSTAT_POP : Fld := ⟨0xC118, 31, 31, .wo, 0⟩
def PMC_TSTAT_COUNT : Fld := ⟨0xC118, 7, 4, .ro, 0⟩
def PMC_TSTAT_FULL : Fld := ⟨0xC118, 0, 0, .ro, 0⟩
/-- PMC_TSTAT (R480). -/
def PMC_TSTAT : Reg := ⟨64, [PMC_TSTAT_DROP, PMC_TSTAT_POP, PMC_TSTAT_COUNT, PMC_TSTAT_FULL]⟩

def PMC_THEAD_HEAD : Fld := ⟨0xC120, 3, 0, .ro, 0⟩
/-- PMC_THEAD (R480). -/
def PMC_THEAD : Reg := ⟨64, [PMC_THEAD_HEAD]⟩

def PMC_TREC_RECORD (j : Nat) (w : Nat) : Fld := ⟨0xC400 + 0x40 * j + 0x8 * w, 63, 0, .ro, 0⟩
/-- PMC_TREC (R480). -/
def PMC_TREC (j : Nat) (w : Nat) : Reg := ⟨64, [PMC_TREC_RECORD j w]⟩

def CLK_STATUS_UNLOCKS : Fld := ⟨0xD0_0000, 47, 32, .ro, 0⟩
def CLK_STATUS_GLITCHES : Fld := ⟨0xD0_0000, 31, 16, .ro, 0⟩
def CLK_STATUS_STOPPED : Fld := ⟨0xD0_0000, 4, 4, .ro, 0⟩
def CLK_STATUS_GLITCH : Fld := ⟨0xD0_0000, 3, 3, .rw1c, 0⟩
def CLK_STATUS_UNLOCK : Fld := ⟨0xD0_0000, 2, 2, .rw1c, 0⟩
def CLK_STATUS_REFOK : Fld := ⟨0xD0_0000, 1, 1, .ro, 0⟩
def CLK_STATUS_LOCK : Fld := ⟨0xD0_0000, 0, 0, .ro, 0⟩
/-- CLK_STATUS (R22). -/
def CLK_STATUS : Reg := ⟨64, [CLK_STATUS_UNLOCKS, CLK_STATUS_GLITCHES, CLK_STATUS_STOPPED, CLK_STATUS_GLITCH, CLK_STATUS_UNLOCK, CLK_STATUS_REFOK, CLK_STATUS_LOCK]⟩

def HBM_STATUS_RSVFREE (k : Nat) : Fld := ⟨0x80_0000 + 0x1000 * k, 47, 32, .ro, 0x4000⟩
def HBM_STATUS_RETIRED (k : Nat) : Fld := ⟨0x80_0000 + 0x1000 * k, 31, 16, .ro, 0⟩
def HBM_STATUS_SCRUB (k : Nat) : Fld := ⟨0x80_0000 + 0x1000 * k, 1, 1, .ro, 0⟩
def HBM_STATUS_UP (k : Nat) : Fld := ⟨0x80_0000 + 0x1000 * k, 0, 0, .ro, 0⟩
/-- HBM_STATUS (R256). -/
def HBM_STATUS (k : Nat) : Reg := ⟨64, [HBM_STATUS_RSVFREE k, HBM_STATUS_RETIRED k, HBM_STATUS_SCRUB k, HBM_STATUS_UP k]⟩

def HBM_CFG_CEMASK (k : Nat) : Fld := ⟨0x80_0008 + 0x1000 * k, 8, 8, .live, 0⟩
def HBM_CFG_SCRUBH (k : Nat) : Fld := ⟨0x80_0008 + 0x1000 * k, 7, 0, .shadow, 0xc⟩
/-- HBM_CFG (R256). -/
def HBM_CFG (k : Nat) : Reg := ⟨64, [HBM_CFG_CEMASK k, HBM_CFG_SCRUBH k]⟩

def HBM_ECC_UE (k : Nat) : Fld := ⟨0x80_0010 + 0x1000 * k, 63, 32, .ro, 0⟩
def HBM_ECC_CE (k : Nat) : Fld := ⟨0x80_0010 + 0x1000 * k, 31, 0, .ro, 0⟩
/-- HBM_ECC (R256). -/
def HBM_ECC (k : Nat) : Reg := ⟨64, [HBM_ECC_UE k, HBM_ECC_CE k]⟩

def HBM_ERRLOG_VALID (k : Nat) : Fld := ⟨0x80_0018 + 0x1000 * k, 63, 63, .rw1c, 0⟩
def HBM_ERRLOG_TYPE (k : Nat) : Fld := ⟨0x80_0018 + 0x1000 * k, 62, 60, .ro, 0⟩
def HBM_ERRLOG_SYM (k : Nat) : Fld := ⟨0x80_0018 + 0x1000 * k, 57, 53, .ro, 0⟩
def HBM_ERRLOG_PC (k : Nat) : Fld := ⟨0x80_0018 + 0x1000 * k, 52, 47, .ro, 0⟩
def HBM_ERRLOG_BANK (k : Nat) : Fld := ⟨0x80_0018 + 0x1000 * k, 46, 41, .ro, 0⟩
def HBM_ERRLOG_COL (k : Nat) : Fld := ⟨0x80_0018 + 0x1000 * k, 40, 37, .ro, 0⟩
def HBM_ERRLOG_ROW (k : Nat) : Fld := ⟨0x80_0018 + 0x1000 * k, 36, 22, .ro, 0⟩
def HBM_ERRLOG_LAST (k : Nat) : Fld := ⟨0x80_0018 + 0x1000 * k, 0, 0, .ro, 0⟩
/-- HBM_ERRLOG (R256). -/
def HBM_ERRLOG (k : Nat) : Reg := ⟨64, [HBM_ERRLOG_VALID k, HBM_ERRLOG_TYPE k, HBM_ERRLOG_SYM k, HBM_ERRLOG_PC k, HBM_ERRLOG_BANK k, HBM_ERRLOG_COL k, HBM_ERRLOG_ROW k, HBM_ERRLOG_LAST k]⟩

def D2D_GRP_STATE (l : Nat) (n : Nat) : Fld := ⟨0xA0_0000 + 0x100 * l + 0x8 * n, 41, 40, .ro, 0⟩
def D2D_GRP_LANE (l : Nat) (n : Nat) : Fld := ⟨0xA0_0000 + 0x100 * l + 0x8 * n, 39, 32, .ro, 0xff⟩
def D2D_GRP_CECNT (l : Nat) (n : Nat) : Fld := ⟨0xA0_0000 + 0x100 * l + 0x8 * n, 31, 16, .ro, 0⟩
def D2D_GRP_FL1 (l : Nat) (n : Nat) : Fld := ⟨0xA0_0000 + 0x100 * l + 0x8 * n, 14, 8, .shadow, 0x7f⟩
def D2D_GRP_FL0 (l : Nat) (n : Nat) : Fld := ⟨0xA0_0000 + 0x100 * l + 0x8 * n, 6, 0, .shadow, 0x7f⟩
/-- D2D_GRP (R257). -/
def D2D_GRP (l : Nat) (n : Nat) : Reg := ⟨64, [D2D_GRP_STATE l n, D2D_GRP_LANE l n, D2D_GRP_CECNT l n, D2D_GRP_FL1 l n, D2D_GRP_FL0 l n]⟩

def NOC_ERR_BAD : Fld := ⟨0xB0_0000, 63, 48, .ro, 0⟩
def NOC_ERR_UE : Fld := ⟨0xB0_0000, 47, 32, .ro, 0⟩
def NOC_ERR_CE : Fld := ⟨0xB0_0000, 31, 0, .ro, 0⟩
/-- NOC_ERR (R258). -/
def NOC_ERR : Reg := ⟨64, [NOC_ERR_BAD, NOC_ERR_UE, NOC_ERR_CE]⟩

def SNP_STATUS_LEFT : Fld := ⟨0x90_0000, 63, 44, .ro, 0⟩
def SNP_STATUS_STAGED : Fld := ⟨0x90_0000, 43, 24, .ro, 0⟩
def SNP_STATUS_PRIO : Fld := ⟨0x90_0000, 23, 4, .ro, 0⟩
def SNP_STATUS_ARMED : Fld := ⟨0x90_0000, 0, 0, .ro, 0⟩
/-- SNP_STATUS (R404). -/
def SNP_STATUS : Reg := ⟨64, [SNP_STATUS_LEFT, SNP_STATUS_STAGED, SNP_STATUS_PRIO, SNP_STATUS_ARMED]⟩

def SNP_STALL_WAITS : Fld := ⟨0x90_0008, 63, 32, .ro, 0⟩
def SNP_STALL_MAXNS : Fld := ⟨0x90_0008, 31, 0, .ro, 0⟩
/-- SNP_STALL (R404). -/
def SNP_STALL : Reg := ⟨64, [SNP_STALL_WAITS, SNP_STALL_MAXNS]⟩

def PMC_DCTR_VALUE (n : Nat) : Fld := ⟨0xC0_0000 + 0x8 * n, 47, 0, .live, 0⟩
/-- PMC_DCTR (R481). -/
def PMC_DCTR (n : Nat) : Reg := ⟨64, [PMC_DCTR_VALUE n]⟩

def PMC_DSEL_PRIV (n : Nat) : Fld := ⟨0xC0_0200 + 0x8 * n, 15, 15, .ro, 0⟩
def PMC_DSEL_USER (n : Nat) : Fld := ⟨0xC0_0200 + 0x8 * n, 14, 14, .live, 0⟩
def PMC_DSEL_CHAIN (n : Nat) : Fld := ⟨0xC0_0200 + 0x8 * n, 13, 13, .live, 0⟩
def PMC_DSEL_EVENT (n : Nat) : Fld := ⟨0xC0_0200 + 0x8 * n, 9, 0, .live, 0⟩
/-- PMC_DSEL (R481). -/
def PMC_DSEL (n : Nat) : Reg := ⟨64, [PMC_DSEL_PRIV n, PMC_DSEL_USER n, PMC_DSEL_CHAIN n, PMC_DSEL_EVENT n]⟩

def PMC_DCTL_IRQ : Fld := ⟨0xC0_0400, 1, 1, .live, 0⟩
def PMC_DCTL_FRZ : Fld := ⟨0xC0_0400, 0, 0, .live, 0⟩
/-- PMC_DCTL (R481). -/
def PMC_DCTL : Reg := ⟨64, [PMC_DCTL_IRQ, PMC_DCTL_FRZ]⟩

def PMC_DOVF_OVF : Fld := ⟨0xC0_0408, 63, 0, .rw1c, 0⟩
/-- PMC_DOVF (R481). -/
def PMC_DOVF : Reg := ⟨64, [PMC_DOVF_OVF]⟩

def NET_PSTAT_PEERDEV (p : Nat) (h : Nat) : Fld := ⟨0x40_0000 + 0x100 * p + 0x8 * h, 63, 48, .ro, 0xffff⟩
def NET_PSTAT_PEERPORT (p : Nat) (h : Nat) : Fld := ⟨0x40_0000 + 0x100 * p + 0x8 * h, 47, 43, .ro, 0x1f⟩
def NET_PSTAT_PEERSUB (p : Nat) (h : Nat) : Fld := ⟨0x40_0000 + 0x100 * p + 0x8 * h, 42, 41, .ro, 0⟩
def NET_PSTAT_PEERMAJ (p : Nat) (h : Nat) : Fld := ⟨0x40_0000 + 0x100 * p + 0x8 * h, 40, 33, .ro, 0⟩
def NET_PSTAT_NEGMIN (p : Nat) (h : Nat) : Fld := ⟨0x40_0000 + 0x100 * p + 0x8 * h, 32, 25, .ro, 0⟩
def NET_PSTAT_CAUSE (p : Nat) (h : Nat) : Fld := ⟨0x40_0000 + 0x100 * p + 0x8 * h, 11, 8, .ro, 0⟩
def NET_PSTAT_STATE (p : Nat) (h : Nat) : Fld := ⟨0x40_0000 + 0x100 * p + 0x8 * h, 3, 0, .ro, 0⟩
/-- NET_PSTAT (R322). -/
def NET_PSTAT (p : Nat) (h : Nat) : Reg := ⟨64, [NET_PSTAT_PEERDEV p h, NET_PSTAT_PEERPORT p h, NET_PSTAT_PEERSUB p h, NET_PSTAT_PEERMAJ p h, NET_PSTAT_NEGMIN p h, NET_PSTAT_CAUSE p h, NET_PSTAT_STATE p h]⟩

def NET_PERR_LLRTR (p : Nat) : Fld := ⟨0x40_0010 + 0x100 * p, 63, 48, .ro, 0⟩
def NET_PERR_FECU (p : Nat) : Fld := ⟨0x40_0010 + 0x100 * p, 47, 32, .ro, 0⟩
def NET_PERR_FAIL24 (p : Nat) : Fld := ⟨0x40_0010 + 0x100 * p, 31, 24, .ro, 0⟩
def NET_PERR_RETRAIN (p : Nat) : Fld := ⟨0x40_0010 + 0x100 * p, 23, 16, .ro, 0⟩
def NET_PERR_DROPID (p : Nat) : Fld := ⟨0x40_0010 + 0x100 * p, 15, 0, .ro, 0⟩
/-- NET_PERR (R322). -/
def NET_PERR (p : Nat) : Reg := ⟨64, [NET_PERR_LLRTR p, NET_PERR_FECU p, NET_PERR_FAIL24 p, NET_PERR_RETRAIN p, NET_PERR_DROPID p]⟩

def PEL_CGCFG_CLIPMAX : Fld := ⟨0x30_0000, 59, 28, .shadow, 0⟩
def PEL_CGCFG_CLIPEN : Fld := ⟨0x30_0000, 27, 27, .shadow, 0⟩
def PEL_CGCFG_LSGROW : Fld := ⟨0x30_0000, 26, 11, .stat, 0x7d0⟩
def PEL_CGCFG_RMAX : Fld := ⟨0x30_0000, 10, 7, .stat, 3⟩
def PEL_CGCFG_POL : Fld := ⟨0x30_0000, 1, 0, .stat, 1⟩
/-- PEL_CGCFG (R227). -/
def PEL_CGCFG : Reg := ⟨64, [PEL_CGCFG_CLIPMAX, PEL_CGCFG_CLIPEN, PEL_CGCFG_LSGROW, PEL_CGCFG_RMAX, PEL_CGCFG_POL]⟩

def PEL_CGLS_LSINIT : Fld := ⟨0x30_0008, 63, 56, .stat, 0x10⟩
def PEL_CGLS_LSMIN : Fld := ⟨0x30_0008, 55, 48, .stat, 0⟩
def PEL_CGLS_LSMAX : Fld := ⟨0x30_0008, 47, 40, .stat, 0x18⟩
def PEL_CGLS_LSCALE : Fld := ⟨0x30_0008, 31, 0, .ro, 0⟩
/-- PEL_CGLS (R227). -/
def PEL_CGLS : Reg := ⟨64, [PEL_CGLS_LSINIT, PEL_CGLS_LSMIN, PEL_CGLS_LSMAX, PEL_CGLS_LSCALE]⟩

def PEL_CGSTATE_SBLK : Fld := ⟨0x30_0010, 63, 32, .stat, 0⟩
def PEL_CGSTATE_CLEAN : Fld := ⟨0x30_0010, 31, 16, .ro, 0⟩
def PEL_CGSTATE_ATTEMPT : Fld := ⟨0x30_0010, 15, 8, .ro, 0⟩
def PEL_CGSTATE_STATE : Fld := ⟨0x30_0010, 2, 0, .ro, 0⟩
/-- PEL_CGSTATE (R227). -/
def PEL_CGSTATE : Reg := ⟨64, [PEL_CGSTATE_SBLK, PEL_CGSTATE_CLEAN, PEL_CGSTATE_ATTEMPT, PEL_CGSTATE_STATE]⟩

def PEL_CGNORM_G : Fld := ⟨0x30_0018, 63, 0, .ro, 0⟩
/-- PEL_CGNORM (R227). -/
def PEL_CGNORM : Reg := ⟨64, [PEL_CGNORM_G]⟩

def PEL_CGCUR_OPEN : Fld := ⟨0x30_0020, 41, 41, .ro, 0⟩
def PEL_CGCUR_CURSOR : Fld := ⟨0x30_0020, 40, 25, .ro, 0⟩
def PEL_CGCUR_ROLE : Fld := ⟨0x30_0020, 9, 0, .live, 0⟩
/-- PEL_CGCUR (R227). -/
def PEL_CGCUR : Reg := ⟨64, [PEL_CGCUR_OPEN, PEL_CGCUR_CURSOR, PEL_CGCUR_ROLE]⟩

def FRM_STATUS_JOBLO : Fld := ⟨0x31_0000, 63, 32, .ro, 0⟩
def FRM_STATUS_LCODE : Fld := ⟨0x31_0000, 31, 24, .ro, 0⟩
def FRM_STATUS_LSEC : Fld := ⟨0x31_0000, 23, 16, .ro, 0xff⟩
def FRM_STATUS_STATE : Fld := ⟨0x31_0000, 2, 0, .ro, 0⟩
/-- FRM_STATUS (R289). -/
def FRM_STATUS : Reg := ⟨64, [FRM_STATUS_JOBLO, FRM_STATUS_LCODE, FRM_STATUS_LSEC, FRM_STATUS_STATE]⟩

def FRM_WREJ_VALID : Fld := ⟨0x31_0008, 63, 63, .rw1c, 0⟩
def FRM_WREJ_CODE : Fld := ⟨0x31_0008, 55, 48, .ro, 0⟩
def FRM_WREJ_WRITER : Fld := ⟨0x31_0008, 47, 44, .ro, 0⟩
def FRM_WREJ_ADDR : Fld := ⟨0x31_0008, 43, 0, .ro, 0⟩
/-- FRM_WREJ (R289). -/
def FRM_WREJ : Reg := ⟨64, [FRM_WREJ_VALID, FRM_WREJ_CODE, FRM_WREJ_WRITER, FRM_WREJ_ADDR]⟩

def FRM_PEND_GEARS : Fld := ⟨0x31_0010, 47, 32, .ro, 0⟩
def FRM_PEND_PEND : Fld := ⟨0x31_0010, 15, 0, .ro, 0⟩
/-- FRM_PEND (R289). -/
def FRM_PEND : Reg := ⟨64, [FRM_PEND_GEARS, FRM_PEND_PEND]⟩

def FRM_SRC_BASE : Fld := ⟨0x31_0018, 43, 0, .rw, 0⟩
/-- FRM_SRC (R289). -/
def FRM_SRC : Reg := ⟨64, [FRM_SRC_BASE]⟩

def UAL_CFG_UDPPORT : Fld := ⟨0x50_0000, 63, 48, .stat, 0xc030⟩
def UAL_CFG_FWMAJ : Fld := ⟨0x50_0000, 47, 40, .ro, 0⟩
def UAL_CFG_FWMIN : Fld := ⟨0x50_0000, 39, 32, .ro, 0⟩
def UAL_CFG_RTO : Fld := ⟨0x50_0000, 31, 16, .stat, 0x64⟩
def UAL_CFG_RTRY : Fld := ⟨0x50_0000, 15, 12, .stat, 4⟩
def UAL_CFG_WCOL : Fld := ⟨0x50_0000, 11, 8, .stat, 3⟩
def UAL_CFG_WBULK : Fld := ⟨0x50_0000, 7, 4, .stat, 1⟩
def UAL_CFG_PFC : Fld := ⟨0x50_0000, 0, 0, .stat, 0⟩
/-- UAL_CFG (R323). -/
def UAL_CFG : Reg := ⟨64, [UAL_CFG_UDPPORT, UAL_CFG_FWMAJ, UAL_CFG_FWMIN, UAL_CFG_RTO, UAL_CFG_RTRY, UAL_CFG_WCOL, UAL_CFG_WBULK, UAL_CFG_PFC]⟩

def UAL_DROP_OLDEP : Fld := ⟨0x50_0008, 63, 48, .ro, 0⟩
def UAL_DROP_NEWEP : Fld := ⟨0x50_0008, 47, 32, .ro, 0⟩
def UAL_DROP_FOREIGN : Fld := ⟨0x50_0008, 31, 16, .ro, 0⟩
def UAL_DROP_BAD : Fld := ⟨0x50_0008, 15, 0, .ro, 0⟩
/-- UAL_DROP (R323). -/
def UAL_DROP : Reg := ⟨64, [UAL_DROP_OLDEP, UAL_DROP_NEWEP, UAL_DROP_FOREIGN, UAL_DROP_BAD]⟩

def UAL_RETX_RETX : Fld := ⟨0x50_0010, 63, 32, .ro, 0⟩
def UAL_RETX_DUP : Fld := ⟨0x50_0010, 31, 0, .ro, 0⟩
/-- UAL_RETX (R323). -/
def UAL_RETX : Reg := ⟨64, [UAL_RETX_RETX, UAL_RETX_DUP]⟩

def COL_NORM_NORM : Fld := ⟨0x60_0000, 63, 0, .ro, 0⟩
/-- COL_NORM (R324). -/
def COL_NORM : Reg := ⟨64, [COL_NORM_NORM]⟩

def COL_CNT_PCNT : Fld := ⟨0x60_0008, 59, 40, .ro, 0⟩
def COL_CNT_ICNT : Fld := ⟨0x60_0008, 39, 20, .ro, 0⟩
def COL_CNT_NCNT : Fld := ⟨0x60_0008, 19, 0, .ro, 0⟩
/-- COL_CNT (R324). -/
def COL_CNT : Reg := ⟨64, [COL_CNT_PCNT, COL_CNT_ICNT, COL_CNT_NCNT]⟩

def COL_STATUS_RESUME : Fld := ⟨0x60_0010, 63, 48, .ro, 0⟩
def COL_STATUS_INFLIGHT : Fld := ⟨0x60_0010, 47, 32, .ro, 0⟩
def COL_STATUS_ERRS : Fld := ⟨0x60_0010, 31, 16, .ro, 0⟩
def COL_STATUS_DONE : Fld := ⟨0x60_0010, 15, 0, .ro, 0⟩
/-- COL_STATUS (R324). -/
def COL_STATUS : Reg := ⟨64, [COL_STATUS_RESUME, COL_STATUS_INFLIGHT, COL_STATUS_ERRS, COL_STATUS_DONE]⟩

def BRM_STATUS_LATE : Fld := ⟨0x70_0000, 63, 32, .ro, 0⟩
def BRM_STATUS_MISS : Fld := ⟨0x70_0000, 31, 16, .ro, 0⟩
def BRM_STATUS_TIMER : Fld := ⟨0x70_0000, 2, 0, .ro, 0⟩
/-- BRM_STATUS (R324). -/
def BRM_STATUS : Reg := ⟨64, [BRM_STATUS_LATE, BRM_STATUS_MISS, BRM_STATUS_TIMER]⟩

def BRM_LOG_VALID : Fld := ⟨0x70_0008, 63, 63, .rw1c, 0⟩
def BRM_LOG_DEC : Fld := ⟨0x70_0008, 62, 61, .ro, 0⟩
def BRM_LOG_GID : Fld := ⟨0x70_0008, 47, 32, .ro, 0⟩
def BRM_LOG_RANK : Fld := ⟨0x70_0008, 31, 16, .ro, 0⟩
def BRM_LOG_BUCKET : Fld := ⟨0x70_0008, 15, 0, .ro, 0⟩
/-- BRM_LOG (R324). -/
def BRM_LOG : Reg := ⟨64, [BRM_LOG_VALID, BRM_LOG_DEC, BRM_LOG_GID, BRM_LOG_RANK, BRM_LOG_BUCKET]⟩

def PAN_STATUS_HELD : Fld := ⟨0x80_0000, 61, 60, .ro, 0⟩
def PAN_STATUS_OVF : Fld := ⟨0x80_0000, 59, 59, .rw1c, 0⟩
def PAN_STATUS_USED : Fld := ⟨0x80_0000, 43, 0, .ro, 0⟩
/-- PAN_STATUS (R351). -/
def PAN_STATUS : Reg := ⟨64, [PAN_STATUS_HELD, PAN_STATUS_OVF, PAN_STATUS_USED]⟩

def PAN_OLD_STEP : Fld := ⟨0x80_0008, 63, 0, .ro, 0⟩
/-- PAN_OLD (R351). -/
def PAN_OLD : Reg := ⟨64, [PAN_OLD_STEP]⟩

def PAN_RESEND_PKTS : Fld := ⟨0x80_0010, 63, 32, .ro, 0⟩
def PAN_RESEND_DISC : Fld := ⟨0x80_0010, 31, 0, .ro, 0⟩
/-- PAN_RESEND (R351). -/
def PAN_RESEND : Reg := ⟨64, [PAN_RESEND_PKTS, PAN_RESEND_DISC]⟩

def PAN_REGION_LEN : Fld := ⟨0x80_0018, 63, 44, .ro, 0⟩
def PAN_REGION_BASE : Fld := ⟨0x80_0018, 43, 0, .ro, 0⟩
/-- PAN_REGION (R351). -/
def PAN_REGION : Reg := ⟨64, [PAN_REGION_LEN, PAN_REGION_BASE]⟩

def TDM_STATUS_PART1 : Fld := ⟨0x32_0000, 63, 48, .ro, 0xffff⟩
def TDM_STATUS_PART0 : Fld := ⟨0x32_0000, 47, 32, .ro, 0xffff⟩
def TDM_STATUS_M1 : Fld := ⟨0x32_0000, 27, 26, .ro, 3⟩
def TDM_STATUS_M0 : Fld := ⟨0x32_0000, 25, 24, .ro, 3⟩
def TDM_STATUS_DEG : Fld := ⟨0x32_0000, 17, 16, .ro, 0⟩
def TDM_STATUS_LOSS24 : Fld := ⟨0x32_0000, 15, 8, .ro, 0⟩
/-- TDM_STATUS (R352). -/
def TDM_STATUS : Reg := ⟨64, [TDM_STATUS_PART1, TDM_STATUS_PART0, TDM_STATUS_M1, TDM_STATUS_M0, TDM_STATUS_DEG, TDM_STATUS_LOSS24]⟩

def TDM_DIG_DIG (n : Nat) : Fld := ⟨0x32_0008 + 0x8 * n, 63, 0, .ro, 0⟩
/-- TDM_DIG (R352). -/
def TDM_DIG (n : Nat) : Reg := ⟨64, [TDM_DIG_DIG n]⟩

def TDM_DSTEP_STEP : Fld := ⟨0x32_0028, 63, 0, .ro, 0⟩
/-- TDM_DSTEP (R352). -/
def TDM_DSTEP : Reg := ⟨64, [TDM_DSTEP_STEP]⟩

def TDM_VERDICT_VALID : Fld := ⟨0x32_0030, 63, 63, .rw1c, 0⟩
def TDM_VERDICT_OUT : Fld := ⟨0x32_0030, 62, 60, .ro, 0⟩
def TDM_VERDICT_LOST : Fld := ⟨0x32_0030, 59, 59, .ro, 0⟩
def TDM_VERDICT_SHARDID : Fld := ⟨0x32_0030, 31, 0, .ro, 0⟩
/-- TDM_VERDICT (R352). -/
def TDM_VERDICT : Reg := ⟨64, [TDM_VERDICT_VALID, TDM_VERDICT_OUT, TDM_VERDICT_LOST, TDM_VERDICT_SHARDID]⟩

def TDM_POIS_PENDING : Fld := ⟨0x32_0038, 63, 32, .ro, 0⟩
def TDM_POIS_RESTORED : Fld := ⟨0x32_0038, 31, 0, .ro, 0⟩
/-- TDM_POIS (R352). -/
def TDM_POIS : Reg := ⟨64, [TDM_POIS_PENDING, TDM_POIS_RESTORED]⟩

def PEL_STATUS_EPOCH : Fld := ⟨0x34_0000, 63, 32, .ro, 0⟩
def PEL_STATUS_ATT : Fld := ⟨0x34_0000, 31, 24, .ro, 0⟩
def PEL_STATUS_QUORUM : Fld := ⟨0x34_0000, 23, 16, .ro, 0⟩
def PEL_STATUS_OUTQ : Fld := ⟨0x34_0000, 15, 8, .ro, 0⟩
def PEL_STATUS_CAPROLE : Fld := ⟨0x34_0000, 7, 6, .ro, 3⟩
def PEL_STATUS_LEAD : Fld := ⟨0x34_0000, 5, 5, .ro, 0⟩
def PEL_STATUS_STATE : Fld := ⟨0x34_0000, 2, 0, .ro, 0⟩
/-- PEL_STATUS (R383). -/
def PEL_STATUS : Reg := ⟨64, [PEL_STATUS_EPOCH, PEL_STATUS_ATT, PEL_STATUS_QUORUM, PEL_STATUS_OUTQ, PEL_STATUS_CAPROLE, PEL_STATUS_LEAD, PEL_STATUS_STATE]⟩

def PEL_WATCH_DEV (n : Nat) : Fld := ⟨0x34_0010 + 0x8 * n, 63, 48, .ro, 0xffff⟩
def PEL_WATCH_AGE (n : Nat) : Fld := ⟨0x34_0010 + 0x8 * n, 47, 40, .ro, 0xff⟩
def PEL_WATCH_PLANES (n : Nat) : Fld := ⟨0x34_0010 + 0x8 * n, 39, 37, .ro, 0⟩
/-- PEL_WATCH (R383). -/
def PEL_WATCH (n : Nat) : Reg := ⟨64, [PEL_WATCH_DEV n, PEL_WATCH_AGE n, PEL_WATCH_PLANES n]⟩

def PEL_SUBJ_DEV (n : Nat) : Fld := ⟨0x34_0080 + 0x8 * n, 63, 48, .ro, 0xffff⟩
def PEL_SUBJ_MISSES (n : Nat) : Fld := ⟨0x34_0080 + 0x8 * n, 47, 40, .ro, 0⟩
def PEL_SUBJ_REPORTED (n : Nat) : Fld := ⟨0x34_0080 + 0x8 * n, 39, 39, .ro, 0⟩
def PEL_SUBJ_PLANES (n : Nat) : Fld := ⟨0x34_0080 + 0x8 * n, 38, 36, .ro, 0⟩
/-- PEL_SUBJ (R383). -/
def PEL_SUBJ (n : Nat) : Reg := ⟨64, [PEL_SUBJ_DEV n, PEL_SUBJ_MISSES n, PEL_SUBJ_REPORTED n, PEL_SUBJ_PLANES n]⟩

def PEL_DECL_EPOCH : Fld := ⟨0x34_0100, 63, 32, .ro, 0⟩
def PEL_DECL_SUBJ : Fld := ⟨0x34_0100, 31, 16, .ro, 0xffff⟩
def PEL_DECL_CAUSE : Fld := ⟨0x34_0100, 15, 8, .ro, 0⟩
def PEL_DECL_TIER : Fld := ⟨0x34_0100, 1, 0, .ro, 0⟩
/-- PEL_DECL (R383). -/
def PEL_DECL : Reg := ⟨64, [PEL_DECL_EPOCH, PEL_DECL_SUBJ, PEL_DECL_CAUSE, PEL_DECL_TIER]⟩

def PEL_FLOG_VALID : Fld := ⟨0x34_0108, 63, 63, .rw1c, 0⟩
def PEL_FLOG_LAST : Fld := ⟨0x34_0108, 62, 62, .ro, 0⟩
def PEL_FLOG_CAUSE : Fld := ⟨0x34_0108, 55, 48, .ro, 0⟩
def PEL_FLOG_BLAME : Fld := ⟨0x34_0108, 47, 32, .ro, 0xffff⟩
def PEL_FLOG_DETAIL : Fld := ⟨0x34_0108, 31, 16, .ro, 0⟩
def PEL_FLOG_STEPLO : Fld := ⟨0x34_0108, 15, 0, .ro, 0⟩
/-- PEL_FLOG (R383). -/
def PEL_FLOG : Reg := ⟨64, [PEL_FLOG_VALID, PEL_FLOG_LAST, PEL_FLOG_CAUSE, PEL_FLOG_BLAME, PEL_FLOG_DETAIL, PEL_FLOG_STEPLO]⟩

def PEL_OCS_REQID : Fld := ⟨0x34_0110, 63, 32, .ro, 0⟩
def PEL_OCS_STATUS : Fld := ⟨0x34_0110, 31, 24, .ro, 0xff⟩
def PEL_OCS_DONEMASK : Fld := ⟨0x34_0110, 17, 0, .ro, 0⟩
/-- PEL_OCS (R383). -/
def PEL_OCS : Reg := ⟨64, [PEL_OCS_REQID, PEL_OCS_STATUS, PEL_OCS_DONEMASK]⟩

def CKP_STATUS_CVTCNT : Fld := ⟨0x36_0000, 63, 32, .ro, 0⟩
def CKP_STATUS_ABAND : Fld := ⟨0x36_0000, 31, 24, .ro, 0⟩
def CKP_STATUS_SLOT : Fld := ⟨0x36_0000, 3, 3, .ro, 0⟩
def CKP_STATUS_STATE : Fld := ⟨0x36_0000, 2, 0, .ro, 0⟩
/-- CKP_STATUS (R403). -/
def CKP_STATUS : Reg := ⟨64, [CKP_STATUS_CVTCNT, CKP_STATUS_ABAND, CKP_STATUS_SLOT, CKP_STATUS_STATE]⟩

def CKP_LASTOK_STEP : Fld := ⟨0x36_0008, 63, 0, .ro, 0xffffffffffffffff⟩
/-- CKP_LASTOK (R403). -/
def CKP_LASTOK : Reg := ⟨64, [CKP_LASTOK_STEP]⟩

def CKP_ROUND_CKSEQ : Fld := ⟨0x36_0010, 63, 32, .ro, 0⟩
/-- CKP_ROUND (R403). -/
def CKP_ROUND : Reg := ⟨64, [CKP_ROUND_CKSEQ]⟩

def CKP_BYTES_BYTES : Fld := ⟨0x36_0018, 63, 0, .ro, 0⟩
/-- CKP_BYTES (R403). -/
def CKP_BYTES : Reg := ⟨64, [CKP_BYTES_BYTES]⟩

def BIST_STATUS_TCVER : Fld := ⟨0x38_0000, 63, 32, .ro, 0⟩
def BIST_STATUS_PKGERR : Fld := ⟨0x38_0000, 31, 28, .ro, 0⟩
def BIST_STATUS_SKIP : Fld := ⟨0x38_0000, 27, 20, .ro, 0⟩
def BIST_STATUS_SLICE : Fld := ⟨0x38_0000, 19, 15, .ro, 0⟩
def BIST_STATUS_MOVES : Fld := ⟨0x38_0000, 14, 3, .ro, 0⟩
def BIST_STATUS_STATE : Fld := ⟨0x38_0000, 2, 0, .ro, 0⟩
/-- BIST_STATUS (R423). -/
def BIST_STATUS : Reg := ⟨64, [BIST_STATUS_TCVER, BIST_STATUS_PKGERR, BIST_STATUS_SKIP, BIST_STATUS_SLICE, BIST_STATUS_MOVES, BIST_STATUS_STATE]⟩

def BIST_CFG_RPTMASK : Fld := ⟨0x38_0008, 1, 1, .live, 0⟩
def BIST_CFG_HOLD : Fld := ⟨0x38_0008, 0, 0, .live, 0⟩
/-- BIST_CFG (R423). -/
def BIST_CFG : Reg := ⟨64, [BIST_CFG_RPTMASK, BIST_CFG_HOLD]⟩

def BIST_FAIL_VALID : Fld := ⟨0x38_0010, 63, 63, .rw1c, 0⟩
def BIST_FAIL_KIND : Fld := ⟨0x38_0010, 55, 48, .ro, 0⟩
def BIST_FAIL_UNITLO : Fld := ⟨0x38_0010, 47, 32, .ro, 0⟩
def BIST_FAIL_TESTID : Fld := ⟨0x38_0010, 31, 0, .ro, 0⟩
/-- BIST_FAIL (R423). -/
def BIST_FAIL : Reg := ⟨64, [BIST_FAIL_VALID, BIST_FAIL_KIND, BIST_FAIL_UNITLO, BIST_FAIL_TESTID]⟩

def BIST_SIG_SIG (n : Nat) : Fld := ⟨0x38_0018 + 0x8 * n, 63, 0, .ro, 0⟩
/-- BIST_SIG (R423). -/
def BIST_SIG (n : Nat) : Reg := ⟨64, [BIST_SIG_SIG n]⟩

def BIST_EXP_EXP (n : Nat) : Fld := ⟨0x38_0028 + 0x8 * n, 63, 0, .ro, 0⟩
/-- BIST_EXP (R423). -/
def BIST_EXP (n : Nat) : Reg := ⟨64, [BIST_EXP_EXP n]⟩

def SPR_SUMMARY_SITEFREE : Fld := ⟨0x3A_0000, 63, 40, .ro, 0⟩
def SPR_SUMMARY_ENTRIES : Fld := ⟨0x3A_0000, 39, 27, .ro, 0⟩
def SPR_SUMMARY_LASTING : Fld := ⟨0x3A_0000, 26, 14, .ro, 0⟩
def SPR_SUMMARY_PORTS : Fld := ⟨0x3A_0000, 13, 12, .ro, 0⟩
def SPR_SUMMARY_CTLSP : Fld := ⟨0x3A_0000, 11, 11, .ro, 0⟩
def SPR_SUMMARY_UNFIT : Fld := ⟨0x3A_0000, 1, 1, .ro, 0⟩
def SPR_SUMMARY_DEGR : Fld := ⟨0x3A_0000, 0, 0, .ro, 0⟩
/-- SPR_SUMMARY (R424). -/
def SPR_SUMMARY : Reg := ⟨64, [SPR_SUMMARY_SITEFREE, SPR_SUMMARY_ENTRIES, SPR_SUMMARY_LASTING, SPR_SUMMARY_PORTS, SPR_SUMMARY_CTLSP, SPR_SUMMARY_UNFIT, SPR_SUMMARY_DEGR]⟩

def SPR_SEC_SECS : Fld := ⟨0x3A_0008, 31, 0, .ro, 0⟩
/-- SPR_SEC (R424). -/
def SPR_SEC : Reg := ⟨64, [SPR_SEC_SECS]⟩

def SPR_IDX_IDX : Fld := ⟨0x3A_0010, 11, 0, .live, 0⟩
/-- SPR_IDX (R424). -/
def SPR_IDX : Reg := ⟨64, [SPR_IDX_IDX]⟩

def SPR_DATA_DATA (n : Nat) : Fld := ⟨0x3A_0018 + 0x8 * n, 63, 0, .ro, 0⟩
/-- SPR_DATA (R424). -/
def SPR_DATA (n : Nat) : Reg := ⟨64, [SPR_DATA_DATA n]⟩

def SPR_FAIL_LO_LO (d : Nat) : Fld := ⟨0x3A_0100 + 0x10 * d, 63, 0, .ro, 0⟩
/-- SPR_FAIL_LO (R424). -/
def SPR_FAIL_LO (d : Nat) : Reg := ⟨64, [SPR_FAIL_LO_LO d]⟩

def SPR_FAIL_HI_HI (d : Nat) : Fld := ⟨0x3A_0108 + 0x10 * d, 39, 0, .ro, 0⟩
/-- SPR_FAIL_HI (R424). -/
def SPR_FAIL_HI (d : Nat) : Reg := ⟨64, [SPR_FAIL_HI_HI d]⟩

def SEC_STATUS_SVN : Fld := ⟨0x3C_0000, 63, 32, .ro, 0⟩
def SEC_STATUS_ALMPEND : Fld := ⟨0x3C_0000, 23, 20, .rw1c, 0⟩
def SEC_STATUS_KSTATE : Fld := ⟨0x3C_0000, 17, 16, .ro, 0⟩
def SEC_STATUS_OWNED : Fld := ⟨0x3C_0000, 3, 3, .ro, 0⟩
def SEC_STATUS_SCAN : Fld := ⟨0x3C_0000, 2, 2, .ro, 0⟩
def SEC_STATUS_BANK : Fld := ⟨0x3C_0000, 1, 1, .ro, 0⟩
def SEC_STATUS_RECOV : Fld := ⟨0x3C_0000, 0, 0, .ro, 0⟩
/-- SEC_STATUS (R446). -/
def SEC_STATUS : Reg := ⟨64, [SEC_STATUS_SVN, SEC_STATUS_ALMPEND, SEC_STATUS_KSTATE, SEC_STATUS_OWNED, SEC_STATUS_SCAN, SEC_STATUS_BANK, SEC_STATUS_RECOV]⟩

def SEC_ALMPOL_OVERTEMP : Fld := ⟨0x3C_0008, 7, 6, .ro, 1⟩
def SEC_ALMPOL_CGLITCH : Fld := ⟨0x3C_0008, 5, 4, .ro, 1⟩
def SEC_ALMPOL_VGLITCH : Fld := ⟨0x3C_0008, 3, 2, .ro, 1⟩
def SEC_ALMPOL_TAMPER : Fld := ⟨0x3C_0008, 1, 0, .ro, 2⟩
/-- SEC_ALMPOL (R446). -/
def SEC_ALMPOL : Reg := ⟨64, [SEC_ALMPOL_OVERTEMP, SEC_ALMPOL_CGLITCH, SEC_ALMPOL_VGLITCH, SEC_ALMPOL_TAMPER]⟩

def SEC_ALMLOG_VALID : Fld := ⟨0x3C_0010, 63, 63, .rw1c, 0⟩
def SEC_ALMLOG_ALARM : Fld := ⟨0x3C_0010, 62, 59, .ro, 0⟩
def SEC_ALMLOG_ACTION : Fld := ⟨0x3C_0010, 58, 57, .ro, 0⟩
def SEC_ALMLOG_DIE : Fld := ⟨0x3C_0010, 55, 52, .ro, 0xf⟩
def SEC_ALMLOG_TSEC : Fld := ⟨0x3C_0010, 31, 0, .ro, 0⟩
/-- SEC_ALMLOG (R446). -/
def SEC_ALMLOG : Reg := ⟨64, [SEC_ALMLOG_VALID, SEC_ALMLOG_ALARM, SEC_ALMLOG_ACTION, SEC_ALMLOG_DIE, SEC_ALMLOG_TSEC]⟩

def SEC_KSEL_SLOT : Fld := ⟨0x3C_0018, 3, 0, .live, 0⟩
/-- SEC_KSEL (R446). -/
def SEC_KSEL : Reg := ⟨64, [SEC_KSEL_SLOT]⟩

def SEC_KINFO_KEYIDLO : Fld := ⟨0x3C_0020, 63, 32, .ro, 0⟩
def SEC_KINFO_STATE : Fld := ⟨0x3C_0020, 1, 0, .ro, 0⟩
/-- SEC_KINFO (R446). -/
def SEC_KINFO : Reg := ⟨64, [SEC_KINFO_KEYIDLO, SEC_KINFO_STATE]⟩

def FAC_XSTAT_OUTOK : Fld := ⟨0x3D_0000, 63, 48, .ro, 0⟩
def FAC_XSTAT_INOK : Fld := ⟨0x3D_0000, 47, 32, .ro, 0⟩
def FAC_XSTAT_FILT : Fld := ⟨0x3D_0000, 31, 16, .ro, 0⟩
def FAC_XSTAT_RATE : Fld := ⟨0x3D_0000, 15, 0, .ro, 0⟩
/-- FAC_XSTAT (R446). -/
def FAC_XSTAT : Reg := ⟨64, [FAC_XSTAT_OUTOK, FAC_XSTAT_INOK, FAC_XSTAT_FILT, FAC_XSTAT_RATE]⟩

def MTR_STATUS_RSEQ : Fld := ⟨0x3E_0000, 63, 32, .ro, 0⟩
def MTR_STATUS_SEAL : Fld := ⟨0x3E_0000, 7, 7, .ro, 0⟩
def MTR_STATUS_OPEN : Fld := ⟨0x3E_0000, 6, 6, .ro, 0⟩
def MTR_STATUS_CHG : Fld := ⟨0x3E_0000, 5, 5, .ro, 0⟩
def MTR_STATUS_LINK : Fld := ⟨0x3E_0000, 0, 0, .ro, 0⟩
/-- MTR_STATUS (R447). -/
def MTR_STATUS : Reg := ⟨64, [MTR_STATUS_RSEQ, MTR_STATUS_SEAL, MTR_STATUS_OPEN, MTR_STATUS_CHG, MTR_STATUS_LINK]⟩

def MTR_ENERGY_MWH : Fld := ⟨0x3E_0008, 63, 0, .ro, 0⟩
/-- MTR_ENERGY (R447). -/
def MTR_ENERGY : Reg := ⟨64, [MTR_ENERGY_MWH]⟩

def MTR_POWER_DW : Fld := ⟨0x3E_0010, 31, 0, .ro, 0⟩
/-- MTR_POWER (R447). -/
def MTR_POWER : Reg := ⟨64, [MTR_POWER_DW]⟩

def MTR_SERIAL_MSERIAL : Fld := ⟨0x3E_0018, 63, 0, .ro, 0⟩
/-- MTR_SERIAL (R447). -/
def MTR_SERIAL : Reg := ⟨64, [MTR_SERIAL_MSERIAL]⟩

def UCI_STATUS_FAIL24 : Fld := ⟨0x3F_0000, 39, 32, .ro, 0⟩
def UCI_STATUS_RETRY : Fld := ⟨0x3F_0000, 31, 16, .ro, 0⟩
def UCI_STATUS_MODUP : Fld := ⟨0x3F_0000, 11, 8, .ro, 0⟩
def UCI_STATUS_STATE : Fld := ⟨0x3F_0000, 3, 0, .ro, 0⟩
/-- UCI_STATUS (R466). -/
def UCI_STATUS : Reg := ⟨64, [UCI_STATUS_FAIL24, UCI_STATUS_RETRY, UCI_STATUS_MODUP, UCI_STATUS_STATE]⟩

def UCI_HXWD_KICK : Fld := ⟨0x3F_0008, 1, 1, .wo, 0⟩
def UCI_HXWD_EN : Fld := ⟨0x3F_0008, 0, 0, .rw, 0⟩
/-- UCI_HXWD (R466). -/
def UCI_HXWD : Reg := ⟨64, [UCI_HXWD_KICK, UCI_HXWD_EN]⟩

def UCI_MSG_BAD : Fld := ⟨0x3F_0010, 63, 32, .ro, 0⟩
def UCI_MSG_OUTST : Fld := ⟨0x3F_0010, 6, 0, .ro, 0⟩
/-- UCI_MSG (R466). -/
def UCI_MSG : Reg := ⟨64, [UCI_MSG_BAD, UCI_MSG_OUTST]⟩

def MGT_STATUS_PLB : Fld := ⟨0x42_0000, 15, 8, .ro, 0⟩
def MGT_STATUS_PLA : Fld := ⟨0x42_0000, 7, 0, .ro, 0⟩
/-- MGT_STATUS (R466). -/
def MGT_STATUS : Reg := ⟨64, [MGT_STATUS_PLB, MGT_STATUS_PLA]⟩

def MGT_CNT_DROPB : Fld := ⟨0x42_0008, 63, 48, .ro, 0⟩
def MGT_CNT_DROPA : Fld := ⟨0x42_0008, 47, 32, .ro, 0⟩
def MGT_CNT_RETXB : Fld := ⟨0x42_0008, 31, 16, .ro, 0⟩
def MGT_CNT_RETXA : Fld := ⟨0x42_0008, 15, 0, .ro, 0⟩
/-- MGT_CNT (R466). -/
def MGT_CNT : Reg := ⟨64, [MGT_CNT_DROPB, MGT_CNT_DROPA, MGT_CNT_RETXB, MGT_CNT_RETXA]⟩

def MGT_PFXA_PFX : Fld := ⟨0x42_0010, 63, 0, .ro, 0⟩
/-- MGT_PFXA (R466). -/
def MGT_PFXA : Reg := ⟨64, [MGT_PFXA_PFX]⟩

def MGT_PFXB_PFX : Fld := ⟨0x42_0018, 63, 0, .ro, 0⟩
/-- MGT_PFXB (R466). -/
def MGT_PFXB : Reg := ⟨64, [MGT_PFXB_PFX]⟩

def PWR_STATUS_PIN : Fld := ⟨0x44_0000, 63, 48, .ro, 0⟩
def PWR_STATUS_VIN : Fld := ⟨0x44_0000, 47, 32, .ro, 0⟩
def PWR_STATUS_ENTRY : Fld := ⟨0x44_0000, 23, 20, .ro, 0⟩
def PWR_STATUS_DEFAULT : Fld := ⟨0x44_0000, 19, 16, .ro, 0⟩
def PWR_STATUS_EMERG : Fld := ⟨0x44_0000, 2, 2, .ro, 0⟩
def PWR_STATUS_COOLRED : Fld := ⟨0x44_0000, 1, 1, .ro, 0⟩
def PWR_STATUS_LIMITLOW : Fld := ⟨0x44_0000, 0, 0, .ro, 0⟩
/-- PWR_STATUS (R497). -/
def PWR_STATUS : Reg := ⟨64, [PWR_STATUS_PIN, PWR_STATUS_VIN, PWR_STATUS_ENTRY, PWR_STATUS_DEFAULT, PWR_STATUS_EMERG, PWR_STATUS_COOLRED, PWR_STATUS_LIMITLOW]⟩

def PWR_TARGET_TARGET : Fld := ⟨0x44_0008, 15, 0, .ro, 0⟩
/-- PWR_TARGET (R497). -/
def PWR_TARGET : Reg := ⟨64, [PWR_TARGET_TARGET]⟩

def PWR_RSEL_RAIL : Fld := ⟨0x44_0010, 4, 0, .live, 0⟩
/-- PWR_RSEL (R497). -/
def PWR_RSEL : Reg := ⟨64, [PWR_RSEL_RAIL]⟩

def PWR_RAIL_VOUT : Fld := ⟨0x44_0018, 63, 48, .ro, 0⟩
def PWR_RAIL_IOUT : Fld := ⟨0x44_0018, 47, 32, .ro, 0⟩
def PWR_RAIL_SPARE : Fld := ⟨0x44_0018, 20, 16, .ro, 0x1f⟩
def PWR_RAIL_PHOK : Fld := ⟨0x44_0018, 15, 0, .ro, 0⟩
/-- PWR_RAIL (R497). -/
def PWR_RAIL : Reg := ⟨64, [PWR_RAIL_VOUT, PWR_RAIL_IOUT, PWR_RAIL_SPARE, PWR_RAIL_PHOK]⟩

def PWR_EMCNT_COUNT : Fld := ⟨0x44_0020, 31, 0, .ro, 0⟩
/-- PWR_EMCNT (R497). -/
def PWR_EMCNT : Reg := ⟨64, [PWR_EMCNT_COUNT]⟩

def THM_STATUS_TJMAX : Fld := ⟨0x46_0000, 63, 48, .ro, 0⟩
def THM_STATUS_TJDIE : Fld := ⟨0x46_0000, 47, 44, .ro, 0xf⟩
def THM_STATUS_THERM : Fld := ⟨0x46_0000, 32, 32, .ro, 0⟩
def THM_STATUS_TOUT : Fld := ⟨0x46_0000, 31, 16, .ro, 0⟩
def THM_STATUS_TIN : Fld := ⟨0x46_0000, 15, 0, .ro, 0⟩
/-- THM_STATUS (R498). -/
def THM_STATUS : Reg := ⟨64, [THM_STATUS_TJMAX, THM_STATUS_TJDIE, THM_STATUS_THERM, THM_STATUS_TOUT, THM_STATUS_TIN]⟩

def THM_COOL_FLOW : Fld := ⟨0x46_0008, 63, 48, .ro, 0⟩
def THM_COOL_RISE : Fld := ⟨0x46_0008, 39, 32, .ro, 0⟩
def THM_COOL_LEAK : Fld := ⟨0x46_0008, 2, 2, .ro, 0⟩
def THM_COOL_SUPPLY : Fld := ⟨0x46_0008, 1, 0, .ro, 0⟩
/-- THM_COOL (R498). -/
def THM_COOL : Reg := ⟨64, [THM_COOL_FLOW, THM_COOL_RISE, THM_COOL_LEAK, THM_COOL_SUPPLY]⟩

/-! The special registers, kept at their places in the view of R117. -/

def CORE_STATUS_POIW : Fld := ⟨0x9200, 8, 8, .ro, 0⟩
def CORE_STATUS_FLAGS : Fld := ⟨0x9200, 6, 0, .rw1c, 0⟩
def CORE_STEP_STEP : Fld := ⟨0x9210, 63, 0, .ro, 0⟩
def CORE_STEP_EPOCH : Fld := ⟨0x9218, 63, 32, .ro, 0⟩
def CORE_STEP_REPLAY : Fld := ⟨0x9218, 10, 10, .ro, 0⟩
def CORE_STEP_PHASE : Fld := ⟨0x9218, 2, 0, .ro, 0⟩
def CORE_CYCLE_CYCLE : Fld := ⟨0x9230, 63, 0, .ro, 0⟩
def CORE_VFL_FLAGS : Fld := ⟨0x9240, 6, 0, .rw1c, 0⟩
def CORE_VCTL_SAT : Fld := ⟨0x9250, 3, 3, .rw, 1⟩
def CORE_VCTL_RMODE : Fld := ⟨0x9250, 2, 1, .rw, 0⟩
def CORE_VCTL_FLUSH : Fld := ⟨0x9250, 0, 0, .rw, 0⟩
def CORE_TOK_OVF (t : Nat) : Fld := ⟨0x9400 + 0x10 * t, 17, 17, .ro, 0⟩
def CORE_TOK_ERR (t : Nat) : Fld := ⟨0x9400 + 0x10 * t, 16, 16, .ro, 0⟩
def CORE_TOK_CNT (t : Nat) : Fld := ⟨0x9400 + 0x10 * t, 15, 0, .ro, 0⟩

/-- The 8-byte words of the special-register view (R117): the words of core.id and core.mark hold no stored field. -/
def specialReg (off : Nat) : Reg :=
  if off = 0x9200 then ⟨64, [CORE_STATUS_POIW, CORE_STATUS_FLAGS]⟩
  else if off = 0x9210 then ⟨64, [CORE_STEP_STEP]⟩
  else if off = 0x9218 then ⟨64, [CORE_STEP_EPOCH, CORE_STEP_REPLAY, CORE_STEP_PHASE]⟩
  else if off = 0x9230 then ⟨64, [CORE_CYCLE_CYCLE]⟩
  else if off = 0x9240 then ⟨64, [CORE_VFL_FLAGS]⟩
  else if off = 0x9250 then ⟨64, [CORE_VCTL_SAT, CORE_VCTL_RMODE, CORE_VCTL_FLUSH]⟩
  else if 0x9400 ≤ off ∧ off < 0x9600 ∧ off % 16 = 0 then
    let t := (off - 0x9400) / 16
    ⟨64, [CORE_TOK_OVF t, CORE_TOK_ERR t, CORE_TOK_CNT t]⟩
  else ⟨64, []⟩

/-- The register at an offset of a site window. -/
def siteReg (off : Nat) : Option Reg :=
  if off = 0x9000 then some CORE_CTRL else
  if off = 0x9004 then some CORE_STATE else
  if off = 0x9008 then some CORE_PC else
  if off = 0x900C then some CORE_EPC else
  if off = 0x9010 then some CORE_ENTRY else
  if off = 0x9014 then some CORE_WAITLIM else
  if off = 0xB400 then some DRN_NORM else
  if off = 0xB408 then some DRN_CNT else
  if off = 0xC100 then some PMC_CTL else
  if off = 0xC108 then some PMC_TAGCFG else
  if off = 0xC110 then some PMC_SEED else
  if off = 0xC118 then some PMC_TSTAT else
  if off = 0xC120 then some PMC_THEAD else
  if 0x9100 ≤ off ∧ off < 0x9130 ∧ off % 8 = 0 then some (CORE_CH ((off - 0x9100) / 8)) else
  if 0x9200 ≤ off ∧ off < 0x9600 ∧ off % 8 = 0 then some (specialReg off) else
  if 0xA000 ≤ off ∧ off < 0xA100 ∧ off % 0x40 = 0 then some (ARR_CFG ((off - 0xA000) / 0x40)) else
  if 0xA000 ≤ off ∧ off < 0xA100 ∧ off % 0x40 = 4 then some (ARR_REPAIR ((off - 0xA000) / 0x40)) else
  if 0xA000 ≤ off ∧ off < 0xA100 ∧ off % 0x40 = 8 then some (ARR_STATUS ((off - 0xA000) / 0x40)) else
  if 0xA000 ≤ off ∧ off < 0xA100 ∧ off % 0x40 = 12 then some (ARR_SKEW ((off - 0xA000) / 0x40)) else
  if 0xA000 ≤ off ∧ off < 0xA100 ∧ off % 0x40 = 16 then some (ACC_CFG ((off - 0xA000) / 0x40)) else
  if 0xA000 ≤ off ∧ off < 0xA100 ∧ off % 0x40 = 20 then some (ACC_FLAGS ((off - 0xA000) / 0x40)) else
  if 0xB000 ≤ off ∧ off < 0xB400 ∧ off % 0x40 = 0 then some (DRN_DESC_W0 ((off - 0xB000) / 0x40)) else
  if 0xB000 ≤ off ∧ off < 0xB400 ∧ off % 0x40 = 8 then some (DRN_DESC_W1 ((off - 0xB000) / 0x40)) else
  if 0xB000 ≤ off ∧ off < 0xB400 ∧ off % 0x40 = 16 then some (DRN_DESC_W2 ((off - 0xB000) / 0x40)) else
  if 0xB000 ≤ off ∧ off < 0xB400 ∧ off % 0x40 = 24 then some (DRN_DESC_W3 ((off - 0xB000) / 0x40)) else
  if 0xB000 ≤ off ∧ off < 0xB400 ∧ off % 0x40 = 32 then some (DRN_DESC_W4 ((off - 0xB000) / 0x40)) else
  if 0xB000 ≤ off ∧ off < 0xB400 ∧ off % 0x40 = 40 then some (DRN_DESC_W5 ((off - 0xB000) / 0x40)) else
  if 0xB000 ≤ off ∧ off < 0xB400 ∧ off % 8 = 0 then some ⟨64, []⟩ else
  if 0xC000 ≤ off ∧ off < 0xC080 ∧ off % 8 = 0 then some (PMC_CTR ((off - 0xC000) / 8)) else
  if 0xC080 ≤ off ∧ off < 0xC100 ∧ off % 8 = 0 then some (PMC_SEL ((off - 0xC080) / 8)) else
  if 0xC400 ≤ off ∧ off < 0xC800 ∧ off % 8 = 0 then some (PMC_TREC ((off - 0xC400) / 0x40) ((off - 0xC400) % 0x40 / 8)) else
  none

/-- Lane groups of link `l` as die window `w` receives them (R16, R257): 16 on a hub or network link, 8 on a ring link. -/
def groupsOf (w l : Nat) : Nat :=
  if w < 8 then (if l = 0 then 16 else if l < 3 then 8 else 0)
  else if w = 8 then (if l < 10 then 16 else 0)
  else if w < 11 then (if l = 0 then 16 else 0)
  else 0

/-- Registers of a compute die beside its site windows. -/
def cdReg (off : Nat) : Option Reg :=
  if 0x80_0000 ≤ off ∧ off < 0x80_3000 ∧ (off - 0x80_0000) % 0x1000 = 0 then some (HBM_STATUS ((off - 0x80_0000) / 0x1000)) else
  if 0x80_0000 ≤ off ∧ off < 0x80_3000 ∧ (off - 0x80_0000) % 0x1000 = 8 then some (HBM_CFG ((off - 0x80_0000) / 0x1000)) else
  if 0x80_0000 ≤ off ∧ off < 0x80_3000 ∧ (off - 0x80_0000) % 0x1000 = 16 then some (HBM_ECC ((off - 0x80_0000) / 0x1000)) else
  if 0x80_0000 ≤ off ∧ off < 0x80_3000 ∧ (off - 0x80_0000) % 0x1000 = 24 then some (HBM_ERRLOG ((off - 0x80_0000) / 0x1000)) else
  if off = 0x90_0000 then some SNP_STATUS else
  if off = 0x90_0008 then some SNP_STALL else
  none

/-- Registers of the hub die. -/
def hdReg (off : Nat) : Option Reg :=
  if off = 0x30_0000 then some PEL_CGCFG else
  if off = 0x30_0008 then some PEL_CGLS else
  if off = 0x30_0010 then some PEL_CGSTATE else
  if off = 0x30_0018 then some PEL_CGNORM else
  if off = 0x30_0020 then some PEL_CGCUR else
  if off = 0x31_0000 then some FRM_STATUS else
  if off = 0x31_0008 then some FRM_WREJ else
  if off = 0x31_0010 then some FRM_PEND else
  if off = 0x31_0018 then some FRM_SRC else
  if off = 0x32_0000 then some TDM_STATUS else
  if 0x32_0008 ≤ off ∧ off < 0x32_0008 + 32 ∧ (off - 0x32_0008) % 8 = 0 then some (TDM_DIG ((off - 0x32_0008) / 8)) else
  if off = 0x32_0028 then some TDM_DSTEP else
  if off = 0x32_0030 then some TDM_VERDICT else
  if off = 0x32_0038 then some TDM_POIS else
  if off = 0x34_0000 then some PEL_STATUS else
  if 0x34_0010 ≤ off ∧ off < 0x34_0010 + 64 ∧ (off - 0x34_0010) % 8 = 0 then some (PEL_WATCH ((off - 0x34_0010) / 8)) else
  if 0x34_0080 ≤ off ∧ off < 0x34_0080 + 128 ∧ (off - 0x34_0080) % 8 = 0 then some (PEL_SUBJ ((off - 0x34_0080) / 8)) else
  if off = 0x34_0100 then some PEL_DECL else
  if off = 0x34_0108 then some PEL_FLOG else
  if off = 0x34_0110 then some PEL_OCS else
  if off = 0x36_0000 then some CKP_STATUS else
  if off = 0x36_0008 then some CKP_LASTOK else
  if off = 0x36_0010 then some CKP_ROUND else
  if off = 0x36_0018 then some CKP_BYTES else
  if off = 0x38_0000 then some BIST_STATUS else
  if off = 0x38_0008 then some BIST_CFG else
  if off = 0x38_0010 then some BIST_FAIL else
  if 0x38_0018 ≤ off ∧ off < 0x38_0018 + 16 ∧ (off - 0x38_0018) % 8 = 0 then some (BIST_SIG ((off - 0x38_0018) / 8)) else
  if 0x38_0028 ≤ off ∧ off < 0x38_0028 + 16 ∧ (off - 0x38_0028) % 8 = 0 then some (BIST_EXP ((off - 0x38_0028) / 8)) else
  if off = 0x3A_0000 then some SPR_SUMMARY else
  if off = 0x3A_0008 then some SPR_SEC else
  if off = 0x3A_0010 then some SPR_IDX else
  if 0x3A_0018 ≤ off ∧ off < 0x3A_0018 + 16 ∧ (off - 0x3A_0018) % 8 = 0 then some (SPR_DATA ((off - 0x3A_0018) / 8)) else
  if 0x3A_0100 ≤ off ∧ off < 0x3A_0100 + 128 ∧ (off - 0x3A_0100) % 16 = 0 then some (SPR_FAIL_LO ((off - 0x3A_0100) / 16)) else
  if 0x3A_0108 ≤ off ∧ off < 0x3A_0108 + 128 ∧ (off - 0x3A_0108) % 16 = 0 then some (SPR_FAIL_HI ((off - 0x3A_0108) / 16)) else
  if off = 0x3C_0000 then some SEC_STATUS else
  if off = 0x3C_0008 then some SEC_ALMPOL else
  if off = 0x3C_0010 then some SEC_ALMLOG else
  if off = 0x3C_0018 then some SEC_KSEL else
  if off = 0x3C_0020 then some SEC_KINFO else
  if off = 0x3D_0000 then some FAC_XSTAT else
  if off = 0x3E_0000 then some MTR_STATUS else
  if off = 0x3E_0008 then some MTR_ENERGY else
  if off = 0x3E_0010 then some MTR_POWER else
  if off = 0x3E_0018 then some MTR_SERIAL else
  if off = 0x3F_0000 then some UCI_STATUS else
  if off = 0x3F_0008 then some UCI_HXWD else
  if off = 0x3F_0010 then some UCI_MSG else
  if off = 0x42_0000 then some MGT_STATUS else
  if off = 0x42_0008 then some MGT_CNT else
  if off = 0x42_0010 then some MGT_PFXA else
  if off = 0x42_0018 then some MGT_PFXB else
  if off = 0x44_0000 then some PWR_STATUS else
  if off = 0x44_0008 then some PWR_TARGET else
  if off = 0x44_0010 then some PWR_RSEL else
  if off = 0x44_0018 then some PWR_RAIL else
  if off = 0x44_0020 then some PWR_EMCNT else
  if off = 0x46_0000 then some THM_STATUS else
  if off = 0x46_0008 then some THM_COOL else
  none

/-- Registers of a network die. -/
def ndReg (off : Nat) : Option Reg :=
  if off = 0x50_0000 then some UAL_CFG else
  if off = 0x50_0008 then some UAL_DROP else
  if off = 0x50_0010 then some UAL_RETX else
  if off = 0x60_0000 then some COL_NORM else
  if off = 0x60_0008 then some COL_CNT else
  if off = 0x60_0010 then some COL_STATUS else
  if off = 0x70_0000 then some BRM_STATUS else
  if off = 0x70_0008 then some BRM_LOG else
  if off = 0x80_0000 then some PAN_STATUS else
  if off = 0x80_0008 then some PAN_OLD else
  if off = 0x80_0010 then some PAN_RESEND else
  if off = 0x80_0018 then some PAN_REGION else
  if 0x40_0000 ≤ off ∧ off < 0x40_0900 ∧ ((off - 0x40_0000) % 0x100 = 0 ∨ (off - 0x40_0000) % 0x100 = 8) then some (NET_PSTAT ((off - 0x40_0000) / 0x100) ((off - 0x40_0000) % 0x100 / 8)) else
  if 0x40_0000 ≤ off ∧ off < 0x40_0900 ∧ (off - 0x40_0000) % 0x100 = 0x10 then some (NET_PERR ((off - 0x40_0000) / 0x100)) else
  none

/-- Registers that every die has (R22, R257, R258, R481). -/
def anyReg (w off : Nat) : Option Reg :=
  if off = 0xD0_0000 then some CLK_STATUS else
  if off = 0xB0_0000 then some NOC_ERR else
  if 0xC0_0000 ≤ off ∧ off < 0xC0_0200 ∧ off % 8 = 0 then some (PMC_DCTR ((off - 0xC0_0000) / 8)) else
  if 0xC0_0200 ≤ off ∧ off < 0xC0_0400 ∧ off % 8 = 0 then some (PMC_DSEL ((off - 0xC0_0200) / 8)) else
  if off = 0xC0_0400 then some PMC_DCTL else
  if off = 0xC0_0408 then some PMC_DOVF else
  if 0xA0_0000 ≤ off ∧ off < 0xA0_0A00 ∧ off % 8 = 0 ∧ (off - 0xA0_0000) % 0x100 / 8 < groupsOf w ((off - 0xA0_0000) / 0x100) then
    some (D2D_GRP ((off - 0xA0_0000) / 0x100) ((off - 0xA0_0000) % 0x100 / 8))
  else none

/-- The register at an offset of die window `w`, the site windows apart. -/
def winReg (w off : Nat) : Option Reg :=
  match anyReg w off with
  | some r => some r
  | none => if w < 8 then cdReg off else if w = 8 then hdReg off else if w < 11 then ndReg off else none

end Sys2Proof.Machine
end

