-- ==== Sys2Proof/Machine/SMap.lean ====
section
/-! DEFINITION. Sparse maps in canonical form: keys strictly rising. The `put` form also drops entries that equal what
an unlisted key reads as, so that equal maps are equal data. -/

set_option autoImplicit false

namespace Sys2Proof.Machine

variable {α : Type}

/-- The entry of a key, if listed. -/
def mfind : SMap α → Nat → Option α
  | [], _ => none
  | (k, v) :: m, x => if k = x then some v else mfind m x

/-- What a key reads as, where an unlisted key reads as `d`. -/
def mget (d : α) (m : SMap α) (x : Nat) : α := (mfind m x).getD d

/-- Lists a key with a value, in its place. -/
def mset (x : Nat) (v : α) : SMap α → SMap α
  | [] => [(x, v)]
  | (k, u) :: m => if x < k then (x, v) :: (k, u) :: m else if x = k then (x, v) :: m else (k, u) :: mset x v m

/-- Drops a key. -/
def mdel (x : Nat) : SMap α → SMap α
  | [] => []
  | (k, u) :: m => if x = k then mdel x m else (k, u) :: mdel x m

/-- Writes a key of a map whose unlisted keys read as `d`. -/
def mput [DecidableEq α] (d : α) (x : Nat) (v : α) (m : SMap α) : SMap α :=
  if v = d then mdel x m else mset x v m

/-- Every key lies above `b`, and the keys rise strictly. -/
def msorted : Option Nat → SMap α → Bool
  | _, [] => true
  | none, (k, _) :: m => msorted (some k) m
  | some b, (k, _) :: m => decide (b < k) && msorted (some k) m

/-- Keys rise strictly and no entry equals the default. -/
def mcanon [DecidableEq α] (d : α) (m : SMap α) : Bool :=
  msorted none m && m.all (fun e => decide (e.2 ≠ d))

/-- Keys of the listed entries. -/
def mkeys (m : SMap α) : List Nat := m.map (·.1)

/-- Replaces the element at an index of a list, if it has one. -/
def lset : List α → Nat → α → List α
  | [], _, _ => []
  | _ :: t, 0, v => v :: t
  | h :: t, n + 1, v => h :: lset t n v

/-- Drops the element at an index of a list. -/
def ldrop : List α → Nat → List α
  | [], _ => []
  | _ :: t, 0 => t
  | h :: t, n + 1 => h :: ldrop t n

/-- Adds to a list what it does not hold yet. -/
def linsert [DecidableEq α] (x : α) (l : List α) : List α := if x ∈ l then l else l ++ [x]

/-- A sum that stops at the top of an n-bit counter. -/
def satAdd (n a b : Nat) : Nat := Nat.min (a + b) (2 ^ n - 1)

/-- The natural number of little-endian bytes (R4). -/
def leNat : Bytes → Nat
  | [] => 0
  | b :: t => b.toNat + 256 * leNat t

/-- The low `n` bytes of a number, little-endian (R4). -/
def leBytes : Nat → Nat → Bytes
  | 0, _ => []
  | n + 1, v => BitVec.ofNat 8 v :: leBytes n (v / 256)

/-- The natural number of big-endian bytes. -/
def beNat (bs : Bytes) : Nat := bs.foldl (fun a b => a * 256 + b.toNat) 0

/-- The low `n` bytes of a number, big-endian. -/
def beBytes (n v : Nat) : Bytes := (leBytes n v).reverse

/-- Bits hi:lo of a number (R5). -/
def bitsOf (v hi lo : Nat) : Nat := v / 2 ^ lo % 2 ^ (hi + 1 - lo)

/-- Bit `i` of a number. -/
def bitOf (v i : Nat) : Bool := v.testBit i

end Sys2Proof.Machine
end

