-- ==== Sys2Proof/Machine/SymbolCode.lean ====
section
/-! DEFINITION. The (80,64) symbol code: encoder and decoder (R233 to R236). -/

set_option autoImplicit false

namespace Sys2Proof.Machine

/-- Product in GF(16) under x^4 + x + 1 (R233). -/
def gfMul (a b : BitVec 4) : BitVec 4 :=
  let dbl := fun (x : BitVec 4) => if x.msb then (x <<< 1) ^^^ 3#4 else x <<< 1
  let pick := fun (i : Nat) (x : BitVec 4) => if b.getLsbD i then x else 0#4
  let a1 := dbl a
  let a2 := dbl a1
  pick 0 a ^^^ pick 1 a1 ^^^ pick 2 a2 ^^^ pick 3 (dbl a2)

/-- alpha^n with alpha = 2 (R233). -/
def gfPow : Nat → BitVec 4
  | 0 => 1#4
  | n + 1 => gfMul 2#4 (gfPow n)

/-- Data symbol j of a word (R233). -/
def symOf (d : Word) (j : Nat) : BitVec 4 := d.extractLsb' (4 * j) 4

/-- The contribution of data symbol j to the four checks: its column times the symbol (R234). -/
def symChecks (j : Nat) (x : BitVec 4) : BitVec 16 :=
  if j = 15 then x ++ 0#4 ++ x ++ x
  else 0#4 ++ gfMul (gfPow (2 * j)) x ++ gfMul (gfPow j) x ++ x

/-- The check bits of a data word (R235): c16 in bits 3:0 up to c19 in bits 15:12. -/
def encodeWord (d : Word) : BitVec 16 :=
  (List.range 16).foldl (fun a j => a ^^^ symChecks j (symOf d j)) 0#16

/-- The mask exclusive-ored into the check bits of a poisoned word (R235). -/
def poisonMask : BitVec 16 := 0x1101#16

/-- How a word decodes (R236). -/
inductive WordClass where
  | clean | poison | corrected | uncorrectable
  deriving DecidableEq, Repr

/-- The data symbol that a syndrome (S0, S1, S2, 0) names, if any: j with alpha^j = S1/S0 and S2/S0 = alpha^2j. -/
def syndromeSymbol (s0 s1 s2 : BitVec 4) : Option Nat :=
  (List.range 15).find? (fun j => s1 = gfMul (gfPow j) s0 && s2 = gfMul (gfPow (2 * j)) s0)

/-- Exclusive-ors a symbol into data symbol j. -/
def flipSym (d : Word) (j : Nat) (e : BitVec 4) : Word := d ^^^ (e.setWidth 64 <<< (4 * j))

/-- The decoder (R236): the data delivered and the class of the word, from the data received and the syndrome. -/
def decodeWord (d : Word) (syn : BitVec 16) : Word × WordClass :=
  let s0 := syn.extractLsb' 0 4
  let s1 := syn.extractLsb' 4 4
  let s2 := syn.extractLsb' 8 4
  let s3 := syn.extractLsb' 12 4
  if syn = 0 then (d, .clean)
  else if syn = poisonMask then (d, .poison)
  else if s3 = 0 ∧ s0 ≠ 0 then
    if s1 = 0 ∧ s2 = 0 then (d, .corrected)
    else match syndromeSymbol s0 s1 s2 with
      | some j => (flipSym d j s0, .corrected)
      | none => (d, .uncorrectable)
  else if s0 = 0 ∧ s3 = 0 ∧ s1 ≠ 0 ∧ s2 = 0 then (d, .corrected)
  else if s0 = 0 ∧ s1 = 0 ∧ s3 = 0 then (d, .corrected)
  else if s0 = 0 ∧ s1 = 0 ∧ s2 = 0 then (d, .corrected)
  else if s0 ≠ 0 ∧ s1 = s0 ∧ s2 = 0 ∧ s3 = s0 then (flipSym d 15 s0, .corrected)
  else (d, .uncorrectable)

/-- The data bits of a code word (R233). -/
def cwData (w : CodeWord) : Word := w.extractLsb' 0 64

/-- The syndrome of a received code word: its check bits against those of its data. -/
def cwSyn (w : CodeWord) : BitVec 16 := w.extractLsb' 64 16 ^^^ encodeWord (cwData w)

/-- The code word of a data word, poisoned or clean (R235). -/
def mkCode (d : Word) (poi : Bool) : CodeWord :=
  (encodeWord d ^^^ (if poi then poisonMask else 0)) ++ d

/-- A received code word as its receiver takes it: data, class. -/
def cwDecode (w : CodeWord) : Word × WordClass := decodeWord (cwData w) (cwSyn w)

/-- Whether a class delivers the data marked poisoned (R236). -/
def WordClass.bad : WordClass → Bool
  | .clean => false
  | .corrected => false
  | .poison => true
  | .uncorrectable => true

end Sys2Proof.Machine
end

