-- ==== Sys2Proof/Machine/Ops.lean ====
section
/-! DEFINITION. Operations over memories, register fields, sites, counters and outputs that every family shares. -/

set_option autoImplicit false

namespace Sys2Proof.Machine

/-! ## Memories in the symbol code (R233 to R238) -/

/-- A byte as stored. -/
def Mem.byte (m : Mem) (a : Nat) : Byte := mget 0 m.data a

/-- The check-bit deviation of the word that holds address `a`. -/
def Mem.synAt (m : Mem) (a : Nat) : BitVec 16 := mget 0 m.syn (a / 8 * 8)

/-- The data bits of the word that holds address `a`, as stored. -/
def Mem.raw (m : Mem) (a : Nat) : Word :=
  BitVec.ofNat 64 (leNat ((List.range 8).map (fun i => m.byte (a / 8 * 8 + i))))

/-- The word that holds address `a` as the decoder delivers it (R236). -/
def Mem.dec (m : Mem) (a : Nat) : Word × WordClass := decodeWord (m.raw a) (m.synAt a)

/-- Writes stored bytes from `a` on. -/
def putBytes : Nat → Bytes → List Host.Cell → List Host.Cell
  | _, [], d => d
  | a, b :: t, d => putBytes (a + 1) t (mput 0 a b d)

/-- Writes the word that holds address `a`: its data and its check-bit deviation. -/
def Mem.setWord (m : Mem) (a : Nat) (v : Word) (syn : BitVec 16) : Mem :=
  { data := putBytes (a / 8 * 8) (leBytes 8 v.toNat) m.data, syn := mput 0 (a / 8 * 8) syn m.syn }

/-- Writes a whole word with its poison (R235, R238). -/
def Mem.putWord (m : Mem) (a : Nat) (v : Word) (poi : Bool) : Mem :=
  m.setWord a v (if poi then poisonMask else 0)

/-- Rewrites the word that holds `a` when it decodes CORRECTED (R109, R236). -/
def Mem.heal (m : Mem) (a : Nat) : Mem :=
  let d := m.dec a
  if d.2 = .corrected then m.setWord a d.1 0 else m

/-- Byte `i` of a word. -/
def wordByte (v : Word) (i : Nat) : Byte := v.extractLsb' (8 * i) 8

/-- Writes up to 8 bytes, each with its poison, inside the word that holds `a`. A write of the whole word replaces its
poison. A partial write keeps the other bytes and the poison of the word (R238). -/
def Mem.storeWord (m : Mem) (a : Nat) (bs : List (Byte × Bool)) : Mem :=
  let o := a % 8
  let old := m.dec a
  let whole := o = 0 ∧ 8 ≤ bs.length
  let v := leNat ((List.range 8).map (fun i =>
    if o ≤ i ∧ i < o + bs.length then ((bs.getD (i - o) (0, false)).1) else wordByte old.1 i))
  let poi := (bs.any (fun b => b.2)) || (!decide whole && old.2.bad)
  m.putWord a (BitVec.ofNat 64 v) poi

/-- Writes bytes word by word; the first argument bounds the number of words. -/
def Mem.storeGo : Nat → Mem → Nat → List (Byte × Bool) → Mem
  | 0, m, _, _ => m
  | _ + 1, m, _, [] => m
  | n + 1, m, a, bs =>
    let k := 8 - a % 8
    Mem.storeGo n (m.storeWord a (bs.take k)) (a + k) (bs.drop k)

/-- Writes bytes from address `a` on, each with its poison (R238). -/
def Mem.store (m : Mem) (a : Nat) (bs : List (Byte × Bool)) : Mem := m.storeGo (bs.length / 8 + 2) a bs

/-- Writes bytes from address `a` on, all poisoned or all clean. -/
def Mem.write (m : Mem) (a : Nat) (bs : Bytes) (poi : Bool) : Mem := m.store a (bs.map (fun b => (b, poi)))

/-- Addresses of the words that hold `n` bytes from `a` on. -/
def wordsOf (a n : Nat) : List Nat :=
  if n = 0 then [] else (List.range ((a + n - 1) / 8 + 1 - a / 8)).map (fun i => (a / 8 + i) * 8)

/-- Byte `a` as the decoder delivers it, with the poison of its word. -/
def Mem.mark (m : Mem) (a : Nat) : Byte × Bool :=
  let d := m.dec a
  (wordByte d.1 (a % 8), d.2.bad)

/-- The eight bytes of the word at `wa` as delivered, each with the word's poison. -/
def Mem.wordMarks (m : Mem) (wa : Nat) : List (Byte × Bool) :=
  let d := m.dec wa
  (List.range 8).map (fun i => (wordByte d.1 i, d.2.bad))

/-- Bytes `a` to `a + n - 1` as delivered, each with the poison of its word (R237). -/
def Mem.marks (m : Mem) (a n : Nat) : List (Byte × Bool) :=
  (((wordsOf a n).flatMap (fun wa => m.wordMarks wa)).drop (a % 8)).take n

/-- Bytes `a` to `a + n - 1` as delivered. -/
def Mem.read (m : Mem) (a n : Nat) : Bytes := (m.marks a n).map (·.1)

/-- Whether a word that holds one of `n` bytes from `a` on is delivered poisoned. -/
def Mem.poisoned (m : Mem) (a n : Nat) : Bool := (m.marks a n).any (·.2)

/-- How many words of a range decode to a class. -/
def Mem.classCount (m : Mem) (k : WordClass) (a n : Nat) : Nat :=
  ((wordsOf a n).filter (fun wa => decide ((m.dec wa).2 = k))).length

/-- Rewrites every CORRECTED word of a range (R109, R236). -/
def Mem.healRange (m : Mem) (a n : Nat) : Mem := (wordsOf a n).foldl (fun m wa => m.heal wa) m

/-- The little-endian number of `n` bytes at `a`, as delivered. -/
def Mem.num (m : Mem) (a n : Nat) : Nat := leNat (m.read a n)

/-- Bytes with rising addresses, none of them 0, and deviations with rising addresses, none of them 0. -/
def Mem.wf (m : Mem) : Bool := mcanon 0 m.data && mcanon 0 m.syn

/-- Drops every byte and deviation of a range, so that it reads 0 and clean. -/
def Mem.clearRange (m : Mem) (a n : Nat) : Mem :=
  { data := m.data.filter (fun e => !decide (a ≤ e.1 ∧ e.1 < a + n)),
    syn := m.syn.filter (fun e => !decide (a ≤ e.1 ∧ e.1 < a + n)) }

/-- Copies a range to another place; words keep their value and their poison, and are re-encoded as R237 says. Both
addresses are multiples of 8. -/
def Mem.copyRange (m : Mem) (src dst n : Nat) : Mem :=
  let m1 := m.clearRange dst n
  let cells := m.data.filter (fun e => decide (src ≤ e.1 ∧ e.1 < src + n))
  let m2 : Mem := { m1 with data := cells.foldl (fun d e => mput 0 (e.1 - src + dst) e.2 d) m1.data }
  (m.syn.filter (fun e => decide (src ≤ e.1 ∧ e.1 < src + n))).foldl (fun m' e =>
    m'.putWord (e.1 - src + dst) (m.dec e.1).1 (m.dec e.1).2.bad) m2

/-- A memory that holds in a range what `m` holds there, and elsewhere what `k` holds. -/
def Mem.withRange (k m : Mem) (a n : Nat) : Mem :=
  { data := (k.data.filter (fun e => decide (e.1 < a))) ++ (m.data.filter (fun e => decide (a ≤ e.1 ∧ e.1 < a + n))) ++
      (k.data.filter (fun e => decide (a + n ≤ e.1))),
    syn := (k.syn.filter (fun e => decide (e.1 < a))) ++ (m.syn.filter (fun e => decide (a ≤ e.1 ∧ e.1 < a + n))) ++
      (k.syn.filter (fun e => decide (a + n ≤ e.1))) }

/-- Whether a range holds a word that is delivered poisoned. -/
def Mem.badIn (m : Mem) (a n : Nat) : Bool := m.syn.any (fun e => decide (a ≤ e.1 ∧ e.1 < a + n) && (m.dec e.1).2.bad)

/-! ## Register fields -/

/-- A field of a site window, of the field's width. -/
def Site.f (c : Site) (x : Fld) : Nat := mget x.reset c.regs x.key % 2 ^ x.width

/-- Writes a field of a site window. -/
def Site.set (c : Site) (x : Fld) (v : Nat) : Site :=
  { c with regs := mput x.reset x.key (v % 2 ^ x.width) c.regs }

/-- Adds to a saturating counter field of a site window. -/
def Site.bump (c : Site) (x : Fld) (n : Nat) : Site := c.set x (satAdd x.width (c.f x) n)

/-- Where a field of die window `w` is kept. -/
def dieKey (w : Nat) (x : Fld) : Nat := w * 2 ^ 30 + x.key

/-- A field of die window `w` (R229), of the field's width. -/
def State.d (s : State) (w : Nat) (x : Fld) : Nat := mget x.reset s.regs (dieKey w x) % 2 ^ x.width

/-- Writes a field of die window `w`. -/
def State.setD (s : State) (w : Nat) (x : Fld) (v : Nat) : State :=
  { s with regs := mput x.reset (dieKey w x) (v % 2 ^ x.width) s.regs }

/-- Adds to a saturating counter field of die window `w`. -/
def State.bumpD (s : State) (w : Nat) (x : Fld) (n : Nat) : State := s.setD w x (satAdd x.width (s.d w x) n)

/-- Number of the hub die's window (R229). -/
def hdWin : Nat := 8

/-- Number of the window of network die `n` (R229). -/
def ndWin (n : Nat) : Nat := 9 + n

/-- A field of the hub die's window. -/
def State.hd (s : State) (x : Fld) : Nat := s.d hdWin x

/-- Writes a field of the hub die's window. -/
def State.setHd (s : State) (x : Fld) (v : Nat) : State := s.setD hdWin x v

/-- Adds to a saturating counter field of the hub die's window. -/
def State.bumpHd (s : State) (x : Fld) (n : Nat) : State := s.bumpD hdWin x n

/-- Whether HD runs: it has power and its clocks are not stopped. Else no register can be read and no firmware acts (R21, R22, R455). -/
def State.hdRuns (s : State) : Bool := s.hd CLK_STATUS_STOPPED = 0 && s.pwr.input && !s.host.shut

/-- Whether a die's clocks run: it stops them on a lost lock or a glitch (R20). -/
def State.dieRuns (s : State) (d : Nat) : Bool := s.d d CLK_STATUS_STOPPED = 0

/-- Whether firmware, or a message of the host, reaches a register of a die: HD and the die run (R20 to R22). -/
def State.reaches (s : State) (d : Nat) : Bool := s.hdRuns && s.dieRuns d

/-! ## Sites and roles -/

/-- A core site. -/
def State.site (s : State) (n : Nat) : Site := mget Site.reset s.sites n

/-- Replaces a core site. -/
def State.setSite (s : State) (n : Nat) (c : Site) : State := { s with sites := mput Site.reset n c s.sites }


/-- Sends something out. -/
def State.emit (s : State) (o : Out) : State := { s with out := o :: s.out }

/-- Signals to the control cores' firmware (R138, R159, R472, R479). -/
def sigException : Nat := 1
def sigPoison : Nat := 2
def sigOverflow : Nat := 3
def sigSample : Nat := 4

/-- Changes a core site. A new bit in PMC_CTL.OVF signals firmware when IRQ is 1 (R472). -/
def State.onSite (s : State) (n : Nat) (g : Site → Site) : State :=
  let c := s.site n
  let c1 := g c
  let s1 := s.setSite n c1
  if c1.f PMC_CTL_IRQ = 1 ∧ c.f PMC_CTL_OVF ||| c1.f PMC_CTL_OVF ≠ c.f PMC_CTL_OVF then s1.emit (.fwSignal n sigOverflow)
  else s1

/-- The site that a live role runs on (R269). -/
def State.siteOf (s : State) (role : Nat) : Option Nat := mfind s.roleSite role

/-- Sites with a live role, by rising role. -/
def State.liveSites (s : State) : List Nat := s.roleSite.map (·.2)

/-- Live roles, rising. -/
def State.liveRoles (s : State) : List Nat := s.roleSite.map (·.1)

/-- Changes every site that has a live role. -/
def State.onLive (s : State) (g : Site → Site) : State :=
  s.liveSites.foldl (fun s n => s.onSite n g) s

/-- The role that a site carries, or 0 for a site without one. -/
def Site.roleNo (c : Site) : Nat := c.role.getD 0

/-- Whether the site's core is running, stalled or at a gear point (CORE_STATE.STATE 0b001, 0b010, 0b101). -/
def Site.active? (c : Site) : Bool :=
  let st := c.f CORE_STATE_STATE
  st = 1 || st = 2 || st = 5

/-- Device index of the image in force, or 0xFFFF (R262). -/
def State.devidx (s : State) : Nat := match s.img with
  | some im => im.devidx
  | none => 0xFFFF

/-- Whether a frame image is in force. -/
def State.loaded (s : State) : Bool := s.img.isSome

/-- Whether a job is loaded: a frame image in force that a job has been admitted with, or one being loaded. -/
def State.jobLoaded (s : State) : Bool := s.img.isSome || s.loader.isSome

/-! ## Outputs, free values, time -/


/-- Sends several things out, first first. -/
def State.emits (s : State) (os : List Out) : State := os.foldl State.emit s

/-- Takes the next free value's number. -/
def State.skipFree (s : State) : State := { s with free := s.free + 1 }

/-- Powered seconds (R408): time is kept in units of 25 us. -/
def State.tsec (s : State) : Nat := s.time / 40000 % 2 ^ 32

/-- Units of time in a millisecond, in 250 us, and in 24 hours. -/
def msUnits : Nat := 40
def hbUnits : Nat := 10
def dayUnits : Nat := 24 * 3600 * 40000

/-! ## Event counters (R467 to R474) -/

/-- Adds `n` to core counter `i` and carries into a chained successor; a wrap with no chained successor sets OVF and
signals when IRQ is 1 (R472). The first argument bounds the chain. The second result says that a signal is due. -/
def Site.ctrAdd : Nat → Site → Nat → Nat → Site × Bool
  | 0, c, _, _ => (c, false)
  | k + 1, c, i, n =>
    let v := c.f (PMC_CTR_VALUE i) + n
    let c1 := c.set (PMC_CTR_VALUE i) v
    if v < 2 ^ 48 then (c1, false)
    else if i + 1 < 16 ∧ c.f (PMC_SEL_CHAIN (i + 1)) = 1 then Site.ctrAdd k c1 (i + 1) (v / 2 ^ 48)
    else (c1.set PMC_CTL_OVF (c.f PMC_CTL_OVF ||| 2 ^ i), c.f PMC_CTL_IRQ = 1)

/-- Counts `n` events of a kind in the core bank (R468), unless FRZ holds it (R474). -/
def Site.count (c : Site) (ev n : Nat) : Site :=
  if ev = 0 ∨ n = 0 ∨ c.f PMC_CTL_FRZ = 1 then c
  else (List.range 16).foldl (fun c i =>
    if c.f (PMC_SEL_EVENT i) = ev ∧ c.f (PMC_SEL_CHAIN i) = 0 then (c.ctrAdd 16 i n).1 else c) c

/-- As `Site.ctrAdd`, for die counter `i` of window `w`. -/
def State.dctrAdd : Nat → State → Nat → Nat → Nat → State
  | 0, s, _, _, _ => s
  | k + 1, s, w, i, n =>
    let v := s.d w (PMC_DCTR_VALUE i) + n
    let s1 := s.setD w (PMC_DCTR_VALUE i) v
    if v < 2 ^ 48 then s1
    else if i + 1 < 64 ∧ s.d w (PMC_DSEL_CHAIN (i + 1)) = 1 then State.dctrAdd k s1 w (i + 1) (v / 2 ^ 48)
    else
      let s2 := s1.setD w PMC_DOVF_OVF (s.d w PMC_DOVF_OVF ||| 2 ^ i)
      if s.d w PMC_DCTL_IRQ = 1 then s2.emit (.fwSignal (832 + w) sigOverflow) else s2

/-- Counts `n` events of a kind in the bank of die window `w`. -/
def State.countD (s : State) (w ev n : Nat) : State :=
  if ev = 0 ∨ n = 0 ∨ s.d w PMC_DCTL_FRZ = 1 then s
  else (List.range 64).foldl (fun s i =>
    if s.d w (PMC_DSEL_EVENT i) = ev ∧ s.d w (PMC_DSEL_CHAIN i) = 0 then s.dctrAdd 64 w i n else s) s

/-- Counts words of a core-store, accumulator or spill read by class (events 0x018, 0x019; R109). -/
def Site.countWords (c : Site) (cor unc : Nat) : Site := (c.count 0x018 cor).count 0x019 unc

/-! ## Placement of module addresses (R230, R231) -/

/-- Bytes of a die region. -/
def dieBytes : Nat := 0x3600000000

/-- The die whose region holds a module address. -/
def hbmDie (a : Nat) : Nat := a / dieBytes

/-- The stack of a module address. -/
def hbmStack (a : Nat) : Nat := 3 * hbmDie a + a % dieBytes / 4096 % 3

/-- The stack address of a module address. -/
def hbmAddr (a : Nat) : Nat := a % dieBytes / 4096 / 3 * 4096 + a % dieBytes % 4096

/-- The module address of a stack address. -/
def hbmModule (stack a : Nat) : Nat := stack / 3 * dieBytes + (a / 4096 * 3 + stack % 3) * 4096 + a % 4096

/-- The stack page of a stack address: bits 36:16. -/
def stackPage (a : Nat) : Nat := a / 65536

/-- UNIT of the DRAM row that holds a module address (R407). -/
def rowUnit (a : Nat) : Nat :=
  let x := hbmAddr a
  hbmStack a + bitsOf x 11 6 * 2 ^ 5 + bitsOf x 21 16 * 2 ^ 11 + bitsOf x 36 22 * 2 ^ 17

/-- 64-byte bursts of the range from lo to hi - 1. -/
def burstsIn (lo hi : Nat) : Nat := if lo < hi then (hi - 1) / 64 + 1 - lo / 64 else 0

/-- Adds an event for each burst of a range to the die counters (R470). -/
def State.countBursts (s : State) (ev a n : Nat) : State :=
  (List.range 8).foldl (fun s d =>
    s.countD d ev (burstsIn (Nat.max a (d * dieBytes)) (Nat.min (a + n) ((d + 1) * dieBytes)))) s

end Sys2Proof.Machine
end

