-- ==== Sys2Proof/Machine/Functions.lean ====
section
/-! DEFINITION. F32 operations with flags (R195), compensated sums (R94), piecewise-cubic tables (R198 to R200), the
exponential (R201) and row records with their updates, merge and readings (R203 to R209). -/

set_option autoImplicit false

namespace Sys2Proof.Machine

/-! ## F32 operations -/

/-- Rounds the exact result of an F32 operation and raises its flags (R195): INV for an invalid operation, SAT for an
overflow to infinity, UNF for a nonzero exact result delivered as zero. -/
def f32Op (r : FV × Bool) : FV × Flags :=
  if r.2 then (.nan, flINV)
  else
    let q := F32.rnd false r.1
    (q.v, flagIf q.ovf flSAT ||| flagIf q.unf flUNF)

/-- A sum of the array (R91): opposite infinities set INV, a finite overflow delivers the largest value and sets SAT. -/
def sumR91 (a b : FV) : FV × Flags :=
  let r := a.add b
  if r.2 then (.nan, flINV)
  else
    let q := F32.rnd true r.1
    (q.v, flagIf q.ovf flSAT)

/-- comp_add: a term into a sum and its crumb (R94, R206). When an infinity, a NaN or a saturation meets a crumb that is not -0, the crumb
keeps its value, as the pseudocode of R94 has it; R103 speaks of a crumb that stays at -0. DEDUCED (log entry 103). -/
def compAdd (sum crumb x : FV) : FV × FV × Flags :=
  let t := sumR91 sum x
  let exact := (sum.add x).1
  let e0 := if t.1.isFin && t.2 = 0 then (exact.add t.1.negate).1 else negZero
  let e := if e0.isZero then negZero else e0
  let c := sumR91 crumb e
  (t.1, c.1, t.2 ||| c.2)

/-! ## Tables -/

/-- A table that no frame image has given: all zero. No accepted descriptor reads it (R224). -/
def Table.blank : Table := ⟨0, 0, 0, 0, 0, 0, [], []⟩

/-- Boundary `i` of a table. -/
def Table.bound (t : Table) (i : Nat) : FV := F32.dec (t.b.getD i 0).toNat

/-- Coefficient c_i of segment s. -/
def Table.coef (t : Table) (s i : Nat) : FV := F32.dec (t.c.getD (4 * s + i) 0).toNat

/-- The LINEAR tail: fma(slope, f32(x - b), value). -/
def linearTail (x b : FV) (slope value : BitVec 32) : FV × Flags :=
  let u := f32Op (x.add b.negate)
  let y := f32Op (FV.fma (F32.dec slope.toNat) u.1 (F32.dec value.toNat))
  (y.1, u.2 ||| y.2)

/-- Segment `s` at x: the cubic in u = f32(x - b[s]), Horner order. -/
def Table.segment (t : Table) (s : Nat) (x : FV) : FV × Flags :=
  let u := f32Op (x.add (t.bound s).negate)
  let y2 := f32Op (FV.fma (t.coef s 3) u.1 (t.coef s 2))
  let y1 := f32Op (FV.fma y2.1 u.1 (t.coef s 1))
  let y0 := f32Op (FV.fma y1.1 u.1 (t.coef s 0))
  (y0.1, u.2 ||| y2.2 ||| y1.2 ||| y0.2)

/-- table(t, x) of R200. -/
def Table.eval (t : Table) (x : FV) : FV × Flags :=
  if x.isNan then (.nan, flNANI)
  else
    let fx := flagIf x.isInf flINFI
    let r := if x.lt (t.bound 0) then
        (if t.lmode = 0 then (F32.dec t.lv.toNat, 0)
         else if t.lmode = 2 then linearTail x (t.bound 0) t.lsl t.lv
         else t.segment 0 x)
      else if !x.lt (t.bound 64) then
        (if t.rmode = 0 then (F32.dec t.rv.toNat, 0)
         else if t.rmode = 2 then linearTail x (t.bound 64) t.rsl t.rv
         else t.segment 63 x)
      else t.segment (((List.range 64).filter (fun j => !x.lt (t.bound j))).length - 1) x
    (r.1, r.2 ||| fx)

/-- The integer nearest a finite value, ties to even. -/
def FV.nearest (v : FV) : Int :=
  match v with
  | .fin s m e => let k : Int := (roundUnits .rne 0 m e 0 : Nat); if s then -k else k
  | _ => 0

/-- An integer as a value. -/
def ofInt (i : Int) : FV := .fin (decide (i < 0)) i.natAbs 0

/-- exp(z) of R201, by table EXPT. -/
def expEval (t : Table) (z : FV) : FV × Flags :=
  match z with
  | .nan => (.nan, flNANI)
  | .inf true => (posZero, 0)
  | .inf false => (.inf false, flINFI)
  | z =>
    let y := (f32Op (z.mul (F32.dec 0x3FB8AA3B))).1
    match y with
    | .inf false => (.inf false, flSAT)
    | .inf true => (posZero, flUNF)
    | y =>
      let k := y.nearest
      let f := (y.add (ofInt (-k))).1
      let tv := t.eval f
      let r := f32Op (tv.1.scale k, false)
      (r.1, tv.2 ||| r.2)

/-! ## Row records -/

/-- A row record (R203). -/
structure Rec where
  m : FV
  s : FV
  sc : FV
  d : FV
  dc : FV
  n : Nat
  kind : Nat
  flags : Flags
  deriving DecidableEq, Repr

/-- A record's 256 bits as a number. -/
def Rec.ofNat (v : Nat) : Rec :=
  { m := F32.dec (bitsOf v 31 0), s := F32.dec (bitsOf v 63 32), sc := F32.dec (bitsOf v 95 64),
    d := F32.dec (bitsOf v 127 96), dc := F32.dec (bitsOf v 159 128), n := bitsOf v 191 160,
    kind := bitsOf v 194 192, flags := BitVec.ofNat 7 (bitsOf v 201 195) }

/-- A record as written; reserved bits are 0. -/
def Rec.toNat (r : Rec) : Nat :=
  F32.enc r.m + F32.enc r.s * 2 ^ 32 + F32.enc r.sc * 2 ^ 64 + F32.enc r.d * 2 ^ 96 + F32.enc r.dc * 2 ^ 128 +
    r.n * 2 ^ 160 + r.kind * 2 ^ 192 + r.flags.toNat * 2 ^ 195

/-- What an empty record is first set to (R206). -/
def Rec.fresh : Rec := ⟨.inf true, negZero, negZero, negZero, negZero, 0, 0, 0⟩

/-- The record to update: an empty one starts afresh. -/
def Rec.start (r : Rec) : Rec := if r.kind = 0 then Rec.fresh else r

/-- A record of conflicting kinds (R207): everything but N is NaN, KIND 0b111, INV in the flags. -/
def Rec.conflict (r : Rec) : Rec :=
  { r with m := .nan, s := .nan, sc := .nan, d := .nan, dc := .nan, kind := 7, flags := r.flags ||| flINV }

/-- Whether kinds (masks) may share a record: MOM shares with neither other kind (R207). -/
def kindsShare (a b : Nat) : Bool := !(4 ≤ (a ||| b) && (a ||| b) ≠ 4)

/-- A count that saturates at 2^32 - 1. -/
def satN (a b : Nat) : Nat := satAdd 32 a b

/-- Adds a term to (S, SC) with its flags. -/
def Rec.addS (r : Rec) (x : FV) : Rec :=
  let c := compAdd r.s r.sc x
  { r with s := c.1, sc := c.2.1, flags := r.flags ||| c.2.2 }

/-- Adds a term to (D, DC) with its flags. -/
def Rec.addD (r : Rec) (x : FV) : Rec :=
  let c := compAdd r.d r.dc x
  { r with d := c.1, dc := c.2.1, flags := r.flags ||| c.2.2 }

/-- ORs flags into a record. -/
def Rec.flag (r : Rec) (fl : Flags) : Rec := { r with flags := r.flags ||| fl }

/-- smax_update of R206, on a record that has been started. -/
def Rec.smax (expt : Table) (r : Rec) (xs : List FV) : Rec :=
  let mt := xs.foldl FV.max (.inf true)
  let m2 := r.m.max mt
  let r1 := if r.m.lt m2 then
      let df := f32Op (r.m.add m2.negate)
      let e := expEval expt df.1
      let s := f32Op (r.s.mul e.1)
      let sc := f32Op (r.sc.mul e.1)
      { r with s := s.1, sc := sc.1, flags := r.flags ||| df.2 ||| e.2 ||| s.2 ||| sc.2 }
    else r
  let r2 := xs.foldl (fun r x =>
    if x = .inf true then r
    else
      let df := f32Op (x.add m2.negate)
      let e := expEval expt df.1
      (r.addS e.1).flag (df.2 ||| e.2)) { r1 with m := m2 }
  { r2 with n := satN r2.n xs.length }

/-- RED = DOT of R207. -/
def Rec.dot (r : Rec) (ps xs : List FV) : Rec :=
  let r1 := (ps.zip xs).foldl (fun r p =>
    let q := f32Op (p.1.mul p.2)
    (r.addD q.1).flag q.2) r
  { r1 with n := satN r1.n xs.length }

/-- RED = MOM of R207. -/
def Rec.mom (r : Rec) (xs : List FV) : Rec :=
  let r1 := xs.foldl (fun r x =>
    let q := f32Op (x.mul x)
    ((r.addS x).addD q.1).flag q.2) r
  { r1 with n := satN r1.n xs.length }

/-- A row reduction: RED 1 SMAX, 2 DOT, 3 MOM, with the kind check of R207. The flags raised are the second result. R206 resets every part of
an empty record but its flags, and the model drops those at the first update; R207 does not say whether a row that meets a conflicting
record adds to N, and the model leaves N. DESIGN CHOICE (log entry 127). -/
def Rec.update (red : Nat) (expt : Table) (r : Rec) (ps xs : List FV) (poi : Bool) : Rec × Flags :=
  let bit := 2 ^ (red - 1)
  let old := r.flags
  let r0 := { r.start with flags := 0 }
  let keep := if r.kind = 0 then 0 else old
  if !kindsShare r.kind bit then
    let c := r.conflict
    ({ c with flags := c.flags ||| flagIf poi flPOI }, flINV)
  else
    let r1 := if red = 1 then r0.smax expt xs else if red = 2 then r0.dot ps xs else r0.mom xs
    ({ r1 with kind := r1.kind ||| bit, flags := keep ||| r1.flags ||| flagIf poi flPOI }, r1.flags)

/-- split(V) of R208: the sum and its crumb. -/
def splitR208 (v : FV) : FV × FV := (toF32 v, toF32 (add64 v (toF32 v).negate))

/-- Merges two records of one set, A first (R208). -/
def Rec.merge (expt : Table) (a b : Rec) : Rec :=
  if b.kind = 0 then a
  else if a.kind = 0 then b
  else if !kindsShare a.kind b.kind then
    let c := Rec.conflict { a with flags := a.flags ||| b.flags }
    { c with n := satN a.n b.n }
  else
    let m := a.m.max b.m
    let e := fun (x : FV) => if x.eqv m then ofInt 1
      else (expEval expt (f32Op (x.add m.negate)).1).1
    let s := splitR208 (add64 (mul64 (add64 a.s a.sc) (e a.m)) (mul64 (add64 b.s b.sc) (e b.m)))
    let d := splitR208 (add64 (add64 a.d a.dc) (add64 b.d b.dc))
    { m := m, s := s.1, sc := s.2, d := d.1, dc := d.2, n := satN a.n b.n, kind := a.kind ||| b.kind,
      flags := a.flags ||| b.flags }

/-- A binary64 value rounded once to F32, with the flags of R195. -/
def f32Const (v : FV) : FV × Flags := f32Op (v, false)

/-- The function of a record: SMAX, SMAXB or NORM on one element (R209). `p` is the aux operand. An invalid binary64 operation among the
constants sets INV for NORM and not for SMAX or SMAXB, since R195 speaks of F32 operations only. DESIGN CHOICE (log entry 127). -/
def Rec.apply (func : Nat) (expt : Table) (rms : Bool) (eps : Nat) (r : Rec) (x p : FV) : FV × Flags :=
  if func = 3 then
    let sum := add64 r.s r.sc
    let ri := if sum.isZero then (posZero, 0) else f32Const (div64 (ofInt 1) sum)
    let df := f32Op (x.add r.m.negate)
    let e := expEval expt df.1
    let y := f32Op (e.1.mul ri.1)
    (y.1, ri.2 ||| df.2 ||| e.2 ||| y.2)
  else if func = 4 then
    let dd := f32Const (add64 r.d r.dc)
    let df := f32Op (x.add dd.1.negate)
    let y := f32Op (p.mul df.1)
    (y.1, dd.2 ||| df.2 ||| y.2)
  else
    let n := ofInt r.n
    let mu := if rms then posZero else div64 (add64 r.s r.sc) n
    let v0 := add64 (div64 (add64 r.d r.dc) n) (mul64 mu mu).negate
    let var := v0.max posZero
    let a := f32Const mu
    let sd := sqrt64 (add64 var (F32.dec eps))
    let b := f32Const (div64 (ofInt 1) sd)
    let bad := flagIf ((mu.isNan && !(r.s.isNan || r.sc.isNan)) || (v0.isNan && !(mu.isNan || r.d.isNan || r.dc.isNan)) ||
      (sd.isNan && !(var.isNan || (F32.dec eps).isNan))) flINV
    let df := f32Op (x.add a.1.negate)
    let y := f32Op (df.1.mul b.1)
    (y.1, bad ||| a.2 ||| b.2 ||| df.2 ||| y.2)

end Sys2Proof.Machine
end

