-- ==== Sys2Proof/Machine/Crypto.lean ====
section
/-! DEFINITION. SHA-512 (FIPS 180-4) and ECDSA on the curve P-521 (FIPS 186), which R425 names. -/

set_option autoImplicit false

namespace Sys2Proof.Machine

/-! ## SHA-512 -/

def shaK0 : List (BitVec 64) :=
  [0x428a2f98d728ae22#64, 0x7137449123ef65cd#64, 0xb5c0fbcfec4d3b2f#64, 0xe9b5dba58189dbbc#64,
   0x3956c25bf348b538#64, 0x59f111f1b605d019#64, 0x923f82a4af194f9b#64, 0xab1c5ed5da6d8118#64,
   0xd807aa98a3030242#64, 0x12835b0145706fbe#64, 0x243185be4ee4b28c#64, 0x550c7dc3d5ffb4e2#64,
   0x72be5d74f27b896f#64, 0x80deb1fe3b1696b1#64, 0x9bdc06a725c71235#64, 0xc19bf174cf692694#64,
   0xe49b69c19ef14ad2#64, 0xefbe4786384f25e3#64, 0xfc19dc68b8cd5b5#64, 0x240ca1cc77ac9c65#64]

def shaK1 : List (BitVec 64) :=
  [0x2de92c6f592b0275#64, 0x4a7484aa6ea6e483#64, 0x5cb0a9dcbd41fbd4#64, 0x76f988da831153b5#64,
   0x983e5152ee66dfab#64, 0xa831c66d2db43210#64, 0xb00327c898fb213f#64, 0xbf597fc7beef0ee4#64,
   0xc6e00bf33da88fc2#64, 0xd5a79147930aa725#64, 0x6ca6351e003826f#64, 0x142929670a0e6e70#64,
   0x27b70a8546d22ffc#64, 0x2e1b21385c26c926#64, 0x4d2c6dfc5ac42aed#64, 0x53380d139d95b3df#64,
   0x650a73548baf63de#64, 0x766a0abb3c77b2a8#64, 0x81c2c92e47edaee6#64, 0x92722c851482353b#64]

def shaK2 : List (BitVec 64) :=
  [0xa2bfe8a14cf10364#64, 0xa81a664bbc423001#64, 0xc24b8b70d0f89791#64, 0xc76c51a30654be30#64,
   0xd192e819d6ef5218#64, 0xd69906245565a910#64, 0xf40e35855771202a#64, 0x106aa07032bbd1b8#64,
   0x19a4c116b8d2d0c8#64, 0x1e376c085141ab53#64, 0x2748774cdf8eeb99#64, 0x34b0bcb5e19b48a8#64,
   0x391c0cb3c5c95a63#64, 0x4ed8aa4ae3418acb#64, 0x5b9cca4f7763e373#64, 0x682e6ff3d6b2b8a3#64,
   0x748f82ee5defb2fc#64, 0x78a5636f43172f60#64, 0x84c87814a1f0ab72#64, 0x8cc702081a6439ec#64]

def shaK3 : List (BitVec 64) :=
  [0x90befffa23631e28#64, 0xa4506cebde82bde9#64, 0xbef9a3f7b2c67915#64, 0xc67178f2e372532b#64,
   0xca273eceea26619c#64, 0xd186b8c721c0c207#64, 0xeada7dd6cde0eb1e#64, 0xf57d4f7fee6ed178#64,
   0x6f067aa72176fba#64, 0xa637dc5a2c898a6#64, 0x113f9804bef90dae#64, 0x1b710b35131c471b#64,
   0x28db77f523047d84#64, 0x32caab7b40c72493#64, 0x3c9ebe0a15c9bebc#64, 0x431d67c49c100d4c#64,
   0x4cc5d4becb3e42b6#64, 0x597f299cfc657e2a#64, 0x5fcb6fab3ad6faec#64, 0x6c44198c4a475817#64]

/-- Round constants. -/
def shaK : List (BitVec 64) := shaK0 ++ shaK1 ++ shaK2 ++ shaK3

/-- The eight chaining words. -/
structure Sha where
  a : BitVec 64
  b : BitVec 64
  c : BitVec 64
  d : BitVec 64
  e : BitVec 64
  f : BitVec 64
  g : BitVec 64
  h : BitVec 64
  deriving DecidableEq, Repr

def shaInit : Sha :=
  ⟨0x6a09e667f3bcc908#64, 0xbb67ae8584caa73b#64, 0x3c6ef372fe94f82b#64, 0xa54ff53a5f1d36f1#64,
   0x510e527fade682d1#64, 0x9b05688c2b3e6c1f#64, 0x1f83d9abfb41bd6b#64, 0x5be0cd19137e2179#64⟩

/-- One round. -/
def shaRound (s : Sha) (k w : BitVec 64) : Sha :=
  let s1 := s.e.rotateRight 14 ^^^ s.e.rotateRight 18 ^^^ s.e.rotateRight 41
  let ch := (s.e &&& s.f) ^^^ (~~~s.e &&& s.g)
  let t1 := s.h + s1 + ch + k + w
  let s0 := s.a.rotateRight 28 ^^^ s.a.rotateRight 34 ^^^ s.a.rotateRight 39
  let mj := (s.a &&& s.b) ^^^ (s.a &&& s.c) ^^^ (s.b &&& s.c)
  ⟨t1 + (s0 + mj), s.a, s.b, s.c, s.d + t1, s.e, s.f, s.g⟩

/-- The next schedule word from the words so far, newest first. -/
def shaNextW (w : List (BitVec 64)) : BitVec 64 :=
  let x := w.getD 14 0
  let y := w.getD 1 0
  (y.rotateRight 19 ^^^ y.rotateRight 61 ^^^ (y >>> 6)) + w.getD 6 0 +
    (x.rotateRight 1 ^^^ x.rotateRight 8 ^^^ (x >>> 7)) + w.getD 15 0

/-- Extends the schedule by n words, newest first. -/
def shaExtend : Nat → List (BitVec 64) → List (BitVec 64)
  | 0, w => w
  | n + 1, w => shaExtend n (shaNextW w :: w)

/-- Takes n big-endian words off a string. -/
def beWords : Nat → Bytes → List (BitVec 64)
  | 0, _ => []
  | n + 1, b => BitVec.ofNat 64 (beNat (b.take 8)) :: beWords n (b.drop 8)

/-- One block of 128 bytes. -/
def shaBlock (s : Sha) (b : Bytes) : Sha :=
  let w := (shaExtend 64 (beWords 16 b).reverse).reverse
  let t := (shaK.zip w).foldl (fun s p => shaRound s p.1 p.2) s
  ⟨s.a + t.a, s.b + t.b, s.c + t.c, s.d + t.d, s.e + t.e, s.f + t.f, s.g + t.g, s.h + t.h⟩

/-- Hashes n blocks. -/
def shaBlocks : Nat → Sha → Bytes → Sha
  | 0, s, _ => s
  | n + 1, s, b => shaBlocks n (shaBlock s (b.take 128)) (b.drop 128)

/-- The message with its padding. -/
def shaPad (m : Bytes) : Bytes :=
  let z := (239 - m.length % 128) % 128
  m ++ [0x80#8] ++ List.replicate z 0 ++ beBytes 16 (8 * m.length)

/-- The SHA-512 digest: 64 bytes. -/
def sha512 (m : Bytes) : Bytes :=
  let p := shaPad m
  let s := shaBlocks (p.length / 128) shaInit p
  [s.a, s.b, s.c, s.d, s.e, s.f, s.g, s.h].flatMap (fun w => beBytes 8 w.toNat)

/-- The first 32 bytes of a SHA-512 digest, as the manual uses it. -/
def sha32 (m : Bytes) : Bytes := (sha512 m).take 32

/-- 32 bytes as a 256-bit number, little-endian (R4). -/
def num256 (b : Bytes) : BitVec 256 := BitVec.ofNat 256 (leNat (b.take 32))

/-- The 32 bytes of a 256-bit number. -/
def bytes256 (v : BitVec 256) : Bytes := leBytes 32 v.toNat

/-! ## P-521 -/

def p521 : Nat := 2 ^ 521 - 1
def p521b : Nat :=
  0x51953EB9618E1C9A1F929A21A0B68540EEA2DA725B99B315F3B8B489918EF109E156193951EC7E937B1652C0BD3BB1BF073573DF883D2C34F1EF451FD46B503F00
def p521n : Nat :=
  0x1FFFFFFFFFFFFFFFFFFFFFFFFFFFFFFFFFFFFFFFFFFFFFFFFFFFFFFFFFFFFFFFFFA51868783BF2F966B7FCC0148F709A5D03BB5C9B8899C47AEBB6FB71E91386409
def p521gx : Nat :=
  0xC6858E06B70404E9CD9E3ECB662395B4429C648139053FB521F828AF606B4D3DBAA14B5E77EFE75928FE1DC127A2FFA8DE3348B3C1856A429BF97E7E31C2E5BD66
def p521gy : Nat :=
  0x11839296A789A3BC0045C8A5FB42C7D1BD998F54449579B446817AFBD17273E662C97EE72995EF42640C550B9013FAD0761353C7086A272C24088BE94769FD16650

/-- b^e mod m over the low k bits of e. -/
def modPow (m : Nat) : Nat → Nat → Nat → Nat
  | 0, _, _ => 1 % m
  | k + 1, b, e => (if e % 2 = 1 then b else 1) * modPow m k (b * b % m) (e / 2) % m

/-- The inverse modulo a prime. -/
def modInv (m a : Nat) : Nat := modPow m 522 a (m - 2)

/-- a - b mod p. -/
def fsub (a b : Nat) : Nat := (a + (p521 - b % p521)) % p521

/-- Points of the curve; none is the point at infinity. -/
abbrev Point := Option (Nat × Nat)

/-- Addition of points. -/
def ptAdd (u v : Point) : Point :=
  match u, v with
  | none, q => q
  | q, none => q
  | some (x1, y1), some (x2, y2) =>
    if x1 = x2 ∧ (y1 + y2) % p521 = 0 then none
    else
      let l := if x1 = x2 then (3 * (x1 * x1) + (p521 - 3)) * modInv p521 (2 * y1 % p521) % p521
        else fsub y2 y1 * modInv p521 (fsub x2 x1) % p521
      let x := fsub (fsub (l * l % p521) x1) x2
      some (x, fsub (l * fsub x1 x % p521) y1)

/-- k times a point, over the low n bits of k. -/
def ptMul : Nat → Nat → Point → Point
  | 0, _, _ => none
  | n + 1, k, q => ptAdd (if k % 2 = 1 then q else none) (ptMul n (k / 2) (ptAdd q q))

def ptG : Point := some (p521gx, p521gy)

/-- Whether a pair is a point of the curve. -/
def onCurve (x y : Nat) : Bool :=
  decide (x < p521 ∧ y < p521) && (y * y % p521 = fsub (x * x * x + p521b) (3 * x) )

/-- The digest as a number: 512 bits, less than the order's length. -/
def hashNum (m : Bytes) : Nat := beNat (sha512 m)

/-- Verification (R425). -/
def ecdsaOk (x y : Nat) (m : Bytes) (r s : Nat) : Bool :=
  if onCurve x y && decide (0 < r ∧ r < p521n ∧ 0 < s ∧ s < p521n) then
    let w := modInv p521n s
    match ptAdd (ptMul 521 (hashNum m * w % p521n) ptG) (ptMul 521 (r * w % p521n) (some (x, y))) with
    | some p => p.1 % p521n = r
    | none => false
  else false

/-- The signature (R, S) with secret d and per-signature number k (R425). -/
def ecdsaSign (d k : Nat) (m : Bytes) : Nat × Nat :=
  let r := match ptMul 521 k ptG with
    | some p => p.1 % p521n
    | none => 0
  (r, modInv p521n k * (hashNum m + r * d) % p521n)

/-- KEYID (R425): the first 32 bytes of the digest of the point in uncompressed encoding. -/
def keyId (x y : Nat) : Bytes := sha32 ((0x04#8 :: beBytes 66 x) ++ beBytes 66 y)

end Sys2Proof.Machine
end

