-- ==== Sys2Proof/Machine/Ports.lean ====
section
/-! DEFINITION. Ports and what a packet needs to leave: identity frames, streams, headers, routes, link-level replay and the egress
scheduler (R290 to R301, R305). -/

set_option autoImplicit false

namespace Sys2Proof.Machine

/-- The epoch in force (R383). -/
def State.epoch (s : State) : Nat := s.hd PEL_STATUS_EPOCH

/-- Whether the module is fenced (R373). -/
def State.fenced (s : State) : Bool := s.pel.fencedWhy.isSome

/-- The step in flight (R13). -/
def State.stepNo (s : State) : BitVec 64 := s.gate.step

/-! ## Ports -/

/-- Where a port or half is kept: port * 4 + half. -/
def portKey (p : PortId) : Nat := p.port.val * 4 + p.half.val

/-- Network die, local port number and NET_PSTAT register of a port key. -/
def keyDie (k : Nat) : Nat := k / 4 / 9
def keyPort (k : Nat) : Nat := k / 4 % 9
def keyReg (k : Nat) : Nat := if k % 4 = 2 then 1 else 0

/-- Port states (R322). -/
def psDARK : Nat := 0
def psTRAINING : Nat := 1
def psIDENT : Nat := 2
def psUP : Nat := 3
def psMISMATCH : Nat := 4
def psREFUSED : Nat := 5
def psNOIMG : Nat := 6
def psSPARE : Nat := 7
def psRETIRED : Nat := 8

/-- A port beyond its registers. -/
def State.port (s : State) (k : Nat) : PortSt := mget PortSt.reset s.net.ports k
def State.setPort (s : State) (k : Nat) (x : PortSt) : State :=
  { s with net := { s.net with ports := mput PortSt.reset k x s.net.ports } }

/-- A field of NET_PSTAT of a port. -/
def State.pf (s : State) (k : Nat) (f : Nat → Nat → Fld) : Nat := s.d (ndWin (keyDie k)) (f (keyPort k) (keyReg k))
def State.setPf (s : State) (k : Nat) (f : Nat → Nat → Fld) (v : Nat) : State :=
  s.setD (ndWin (keyDie k)) (f (keyPort k) (keyReg k)) v

/-- STATE of a port. -/
def State.portState (s : State) (k : Nat) : Nat := s.pf k NET_PSTAT_STATE
def State.setPortState (s : State) (k v : Nat) : State := s.setPf k NET_PSTAT_STATE v

/-- Adds to a field of NET_PERR of a port. -/
def State.bumpPerr (s : State) (k : Nat) (f : Nat → Fld) (n : Nat) : State :=
  s.bumpD (ndWin (keyDie k)) (f (keyPort k)) n

/-- The NETWORK entry of a port. -/
def State.portCfg (s : State) (k : Nat) : Option PortCfg := match s.img with
  | some im => im.ports.find? (fun p => p.port = k / 4 && p.sub = k % 4)
  | none => none

/-- Whether a port carries RoCEv2, which takes no part in the identity exchange and carries no Ualar packet (R304). -/
def State.storagePort (s : State) (k : Nat) : Bool := match s.portCfg k with
  | some c => c.use = 3
  | none => false

/-- The port whose place a port has taken, or itself (R307). -/
def State.placeOfPort (s : State) (k : Nat) : Nat := match s.net.takeover.find? (fun t => t.2 = k) with
  | some t => t.1
  | none => k

/-- The port that carries a port's traffic: its spare once taken over. -/
def State.carrier (s : State) (k : Nat) : Nat := match s.net.takeover.find? (fun t => t.1 = k) with
  | some t => t.2
  | none => k

/-- The entry with the neighbour that a port expects: its own if ACTIVE, or that of the port it took over (R294, R307). -/
def State.expected (s : State) (k : Nat) : Option PortCfg :=
  match s.portCfg (s.placeOfPort k) with
  | some c => if c.use = 1 then some c else none
  | none => none

/-- Firmware's Ualar versions (R323). -/
def State.umaj (s : State) : Nat := s.d (ndWin 0) UAL_CFG_FWMAJ
def State.umin (s : State) : Nat := s.d (ndWin 0) UAL_CFG_FWMIN

/-- The firmware package of the active bank (R429, R459). -/
def State.firmware (s : State) : Bytes := s.sec.run

/-- BUILD of the running firmware (R459). -/
def State.fwBuild (s : State) : Nat := leNat ((s.firmware.drop 12).take 4)

/-- Bits 31:0 of the JOBID of the image in force, or 0. -/
def State.jobLo (s : State) : Nat := match s.img with
  | some im => im.jobid.toNat % 2 ^ 32
  | none => 0

/-- This module's capability bits: LLR and ECN echo (R293). DEDUCED (log entry 25). -/
def ourCaps : Nat := 3

/-- The identity frame that a port sends (R293). A spare that has taken a port's place has the port's number, which the neighbour expects
(R294, R307). -/
def State.identityOf (s : State) (k : Nat) : BitVec 512 :=
  let e := s.expected k
  let q := s.placeOfPort k
  let x := s.port k
  let fs : List (Nat × Nat) :=
    [(0, 0x4C49), (16, 1), (24, if x.accepted then 1 else 0), (32, s.serial.toNat), (96, s.devidx), (112, q / 4), (117, q % 4),
     (128, match e with | some c => c.ndev | none => 0xFFFF), (144, match e with | some c => c.nport | none => 0),
     (149, match e with | some c => c.nsub | none => 0), (152, s.umaj), (160, s.umin), (176, s.fwBuild), (208, s.jobLo),
     (240, ourCaps)]
  BitVec.ofNat 512 ((fs.map (fun f => f.2 * 2 ^ f.1)).sum)

/-- The IPv6 address of a port (R292). -/
def State.portAddr (s : State) (k : Nat) : Option (BitVec 128) := match s.img with
  | some im =>
    let q := s.placeOfPort k
    some (BitVec.ofNat 128 (im.net64.toNat * 2 ^ 64 + im.devidx * 2 ^ 16 + (q / 4 + 0x40 * (q % 4))))
  | none => none

/-- Whether LLR is used on a port (R305). -/
def State.llrOn (s : State) (k : Nat) : Bool :=
  ((s.port k).peerCaps.getLsbD 0) && (match s.portCfg (s.placeOfPort k) with
    | some c => c.llr
    | none => false)

/-! ## Streams (R301, R302) -/

/-- Where a stream is kept. -/
def streamKey (dev cls : Nat) : Nat := dev * 4 + cls
def State.stream (s : State) (key : Nat) : Stream := mget Stream.reset s.net.streams key
def State.setStream (s : State) (key : Nat) (x : Stream) : State :=
  { s with net := { s.net with streams := mput Stream.reset key x s.net.streams } }

/-- The port key that carries packets to a device in a class (R320): a port of the first route entry that covers the device,
picked by the hash, on its spare where taken over. -/
def State.routePort (s : State) (src dst cls : Nat) : Option Nat := match s.img with
  | some im => match im.routes.find? (fun r => r.dlo.toNat ≤ dst ∧ dst ≤ r.dhi.toNat) with
    | some r =>
      let ps := (List.range 18).filter (fun i => r.ports.getLsbD i)
      (ps[Config.routeHash src dst cls % ps.length]?).map (fun i =>
        let whole := (im.ports.find? (fun c => c.port = i && c.use = 1)).map (fun c => 4 * i + c.sub)
        s.carrier (whole.getD (4 * i)))
    | none => none
  | none => none

/-- The header of a packet of this module, without its numbers in the stream. -/
def State.header (s : State) (k cls kind dst : Nat) (strm : BitVec 16) (mb : BitVec 16) (msg : BitVec 32)
    (woff : BitVec 24) (n : Nat) : UalHdr :=
  { vmaj := BitVec.ofNat 8 s.umaj, vmin := BitVec.ofNat 8 (s.pf k NET_PSTAT_NEGMIN), cls := BitVec.ofNat 2 cls,
    kind := BitVec.ofNat 6 kind, resend := false, ece := false, srcdev := BitVec.ofNat 16 s.devidx,
    dstdev := BitVec.ofNat 16 dst, epoch := BitVec.ofNat 32 s.epoch, job := BitVec.ofNat 32 s.jobLo, step := s.stepNo,
    att := BitVec.ofNat 8 (s.hd PEL_STATUS_ATT), mb := mb, stream := strm, seq := 0, ack := 0, msg := msg, woff := woff,
    nwords := BitVec.ofNat 16 n }

/-- A Ualar header as a number of 384 bits (R298). -/
def hdrBits (h : UalHdr) : Nat :=
  h.vmaj.toNat + h.vmin.toNat * 2 ^ 8 + h.cls.toNat * 2 ^ 16 + h.kind.toNat * 2 ^ 18 + (if h.resend then 2 ^ 24 else 0) +
    (if h.ece then 2 ^ 25 else 0) + h.srcdev.toNat * 2 ^ 32 + h.dstdev.toNat * 2 ^ 48 + h.epoch.toNat * 2 ^ 64 + h.job.toNat * 2 ^ 96 +
    h.step.toNat * 2 ^ 128 + h.att.toNat * 2 ^ 192 + h.mb.toNat * 2 ^ 200 + h.stream.toNat * 2 ^ 216 + h.seq.toNat * 2 ^ 232 +
    h.ack.toNat * 2 ^ 264 + h.msg.toNat * 2 ^ 296 + h.woff.toNat * 2 ^ 328 + h.nwords.toNat * 2 ^ 352

/-! ## Frames (R291, R297, R300, R303, R305) -/

/-- DSCP of a class. -/
def dscpOf (cls : Nat) : Nat := if cls = 0 then 10 else if cls = 1 then 26 else if cls = 2 then 40 else 48

/-- Bytes of the frame of a packet: Ethernet with its FCS 18, IPv6 40, UDP 8, the header 48, ten for each word (R297). -/
def frameBytes (n : Nat) : Nat := 114 + 10 * n

/-- The frame that this module sends a packet in: untagged, on UDPPORT both ways, marked ECT(0). -/
def State.frameOf (s : State) (cls n : Nat) : FrameInfo :=
  let p := BitVec.ofNat 16 (s.d (ndWin 0) UAL_CFG_UDPPORT)
  ⟨frameBytes n, 0, p, p, true, BitVec.ofNat 6 (dscpOf cls), 2, none⟩

/-- Whether a frame that comes in carries a Ualar packet for this module's transport: at most 9,216 bytes, at most one tag, the UDP port of
the NETWORK section, and a checksum that agrees. -/
def State.frameOk (s : State) (f : FrameInfo) : Bool :=
  decide (f.bytes ≤ 9216) && decide (f.tags ≤ 1) && f.sumOk && f.udpDst.toNat = s.d (ndWin 0) UAL_CFG_UDPPORT

/-- The CE mark (R303). -/
def pktCe (k : UalPkt) : Bool := k.frame.ecn = 3

/-- The LLR header of a frame: EtherType, MAGIC, subtype and the link sequence number (R305). -/
def llrHeader (seq : Nat) : BitVec 64 := BitVec.ofNat 64 (0x88B5 + 0x4C49 * 2 ^ 16 + 0x10 * 2 ^ 32 + seq % 2 ^ 24 * 2 ^ 40)

/-- Bytes of a frame without its LLR header: an identity frame, a neighbour advertisement and a pause frame are as short as their contents
allow. -/
def PortFrame.bytes : PortFrame → Nat
  | .ual k => frameBytes k.words.length
  | .identity _ => 82
  | .advert _ => 90
  | .pfc _ _ => 64

/-- Bytes that a port's replay buffer holds. -/
def PortSt.llrBytes (x : PortSt) : Nat := (x.llrBuf.map (fun f => f.2.bytes + 8)).sum

/-- Whether a frame finds no room in a port's replay buffer of 64 KiB (R305). -/
def PortSt.llrFull (x : PortSt) (f : PortFrame) : Bool := decide (65536 < x.llrBytes + f.bytes + 8)

/-! ## The egress scheduler (R300, R305) -/

/-- Whether a port's network die has fenced its ports: as part of a fenced module, or on the loss of its link to a stopped HD (R21, R373). -/
def State.portsFenced (s : State) (k : Nat) : Bool := if s.pel.standby then decide (keyDie k ∈ s.net.cut) else s.fenced

/-- Whether the network die of a port runs (R20). -/
def State.ndRuns (s : State) (k : Nat) : Bool := s.dieRuns (ndWin (keyDie k))

/-- A port by its key. -/
def portIdOf (k : Nat) : PortId := ⟨⟨k / 4 % 18, Nat.mod_lt _ (by decide)⟩, ⟨k % 4 % 3, Nat.mod_lt _ (by decide)⟩⟩

/-- A frame as it leaves without LLR. -/
def PortFrame.plain (k : Nat) : PortFrame → Out
  | .ual p => .ual k { p with frame := { p.frame with bytes := frameBytes p.words.length, llr := none } }
  | .identity fr => .identity (portIdOf k) fr
  | .advert a => .advert (portIdOf k) a
  | .pfc prio pause => .pfc (portIdOf k) prio pause

/-- A frame as it leaves with a link sequence number. -/
def PortFrame.numbered (k seq : Nat) : PortFrame → Out
  | .ual p => .ual k { p with frame := { p.frame with bytes := frameBytes p.words.length + 8, llr := some (llrHeader seq) } }
  | f => .llrFrame k (llrHeader seq) f

/-- Whether a port numbers its frames: LLR is used, and the identity exchange that agreed on it is complete (R305). -/
def State.numbers (s : State) (k : Nat) : Bool := s.portState k = psUP && s.llrOn k

/-- A frame leaves on a port; where LLR is used it is numbered and kept until it is acknowledged. -/
def State.sendFrame (s : State) (k : Nat) (f : PortFrame) : State :=
  let x := s.port k
  if s.numbers k then
    (s.emit (f.numbered k x.llrTx)).setPort k { x with llrTx := (x.llrTx + 1) % 2 ^ 24, llrBuf := x.llrBuf ++ [(x.llrTx, f)] }
  else s.emit (f.plain k)

/-- A packet leaves on a port. -/
def State.launch (s : State) (k : Nat) (pkt : UalPkt) : State := (s.countD (ndWin (keyDie k)) 0x10A 1).sendFrame k (.ual pkt)

/-- A frame beside the traffic classes leaves, or waits for room in a full replay buffer (R305). -/
def State.frameOut (s : State) (k : Nat) (f : PortFrame) : State :=
  let x := s.port k
  if s.numbers k && (x.frames ≠ [] || x.llrFull f) then s.setPort k { x with frames := x.frames ++ [f] } else s.sendFrame k f

/-- The frames that waited for room leave as far as there is some. -/
def State.sendFrames (s : State) (k : Nat) : State :=
  (s.port k).frames.foldl (fun s f => s.frameOut k f) (s.setPort k { s.port k with frames := [] })

/-- The oldest packet of a class in a port's queue, with its place. -/
def PortSt.head (x : PortSt) (cls : Nat) : Option (UalPkt × Nat) := x.queue.zipIdx.find? (fun p => p.1.h.cls.toNat = cls)

/-- The quantum of the deficit round robin in bytes: the weight of the class times the longest frame. DESIGN CHOICE (log entry 110). -/
def State.drrQuantum (s : State) (k cls : Nat) : Nat :=
  9216 * (if cls = 1 then s.d (ndWin (keyDie k)) UAL_CFG_WCOL else s.d (ndWin (keyDie k)) UAL_CFG_WBULK)

/-- Deficit round robin between collective and bulk: the packet to send and the port after it. The first argument bounds the visits. -/
def State.drrPick (s : State) (k : Nat) : Nat → PortSt → Option (Nat × PortSt)
  | 0, _ => none
  | n + 1, x =>
    let c := x.turn
    let d := if c = 1 then x.deficits.2 else x.deficits.1
    let put := fun (v : Nat) (y : PortSt) => { y with deficits := if c = 1 then (y.deficits.1, v) else (v, y.deficits.2) }
    let next := fun (y : PortSt) =>
      let e := 1 - c
      let q := s.drrQuantum k e
      ({ y with turn := e, deficits := if e = 1 then (y.deficits.1, y.deficits.2 + q) else (y.deficits.1 + q, y.deficits.2) } : PortSt)
    let paused := if c = 1 then x.pauseColl else x.pauseBulk
    match x.head c with
    | none => s.drrPick k n (next (put 0 x))
    | some p =>
      if paused then s.drrPick k n (next x)
      else if p.1.frame.bytes ≤ d then
        some (p.2, put (if (x.queue.filter (fun q => q.h.cls.toNat = c)).length ≤ 1 then 0 else d - p.1.frame.bytes) x)
      else s.drrPick k n (next x)

/-- The packet that a port sends next, by its place in the queue: peloton, control, then collective and bulk by their weights, of which a
network die whose pannier has overflowed sends none (R329). -/
def State.nextOut (s : State) (k : Nat) (x : PortSt) : Option (Nat × PortSt) :=
  match x.head 3 with
  | some p => some (p.2, x)
  | none => match x.head 2 with
    | some p => some (p.2, x)
    | none => if keyDie k ∈ s.rep.panOff then none else s.drrPick k 4 x

/-- A port sends what it may, until a pause or a full replay buffer of 64 KiB keeps the rest back (R305); a port that is fenced sends nothing
(R373). The first argument bounds the packets. -/
def State.drainPort (k : Nat) : Nat → State → State
  | 0, s => s
  | n + 1, s =>
    let x := s.port k
    if s.portsFenced k ∨ x.frames ≠ [] then s else match s.nextOut k x with
    | none => s
    | some r => match r.2.queue[r.1]? with
      | none => s
      | some pkt =>
        if s.numbers k ∧ x.llrFull (.ual pkt) then s
        else State.drainPort k n ((s.setPort k { r.2 with queue := r.2.queue.eraseIdx r.1 }).launch k pkt)

/-- Sends a packet on a port (R300, R301, R329, R373): one that is not UP, is fenced or carries RoCEv2 sends none, and a network die whose pannier has
overflowed none of the bulk and collective classes. -/
def State.egress (s : State) (k : Nat) (pkt : UalPkt) : State :=
  if s.portState k ≠ psUP ∨ s.portsFenced k ∨ s.storagePort k ∨ (pkt.h.cls.toNat < 2 ∧ keyDie k ∈ s.rep.panOff) then s
  else
    let x := s.port k
    let s1 := s.setPort k { x with queue := x.queue ++ [pkt] }
    State.drainPort k (x.queue.length + 1) s1

/-! ## Numbering (R301, R302) -/

/-- Numbers a packet in its stream and sends it on a port: it is held until it is acknowledged. The second result is the packet. -/
def State.number (s : State) (k cls kind dst : Nat) (strm mb : BitVec 16) (msg : BitVec 32) (woff : BitVec 24)
    (ws : List CodeWord) : State × UalPkt :=
  let key := streamKey dst cls
  let x := s.stream key
  let h0 := s.header k cls kind dst strm mb msg woff ws.length
  let h1 := { h0 with seq := BitVec.ofNat 32 x.txSeq, ack := BitVec.ofNat 32 x.rxNext, ece := x.eceDue }
  let pkt : UalPkt := ⟨h1, ws, false, false, s.frameOf cls ws.length⟩
  (s.setStream key { x with txSeq := x.txSeq + 1, unacked := x.unacked ++ [(x.txSeq, 0, pkt)], ackDue := false, eceDue := false }, pkt)

/-- Sends a peloton message of the data network to a device (R298, R356). -/
def State.pelData (s : State) (kind dst : Nat) (ws : List (BitVec 64)) : State :=
  match s.routePort s.devidx dst 3 with
  | none => s
  | some k =>
    let r := s.number k 3 kind dst 0 0 0 0 (ws.map (fun w => mkCode w false))
    r.1.egress k r.2

end Sys2Proof.Machine
end

