-- ==== Sys2Proof/Machine/Faults.lean ====
section
/-! DEFINITION. What the hub die's firmware does about faults: the fault log and report (R369, R383), the stop of cores
with REWIND (R138), the halt of the job (R139, R371), alerts (R458), fencing (R373), the taking of a core exception
(R138, R139) and consumed poison (R159, R239). -/

set_option autoImplicit false

namespace Sys2Proof.Machine

/-! ## Messages -/

/-- Tells the job runtime an event (R453). -/
def State.notify (s : State) (ev : Nat) (arg1 : BitVec 64) : State := s.emit (.notify ev arg1)

/-- The captain entries of the image in force: (role, device, pod), role 0 primary, 1 backup, 2 arbiter (R382). -/
def State.captains (s : State) : List (Nat × Nat × Nat) := match s.img with
  | some im => im.resil.captains
  | none => []

/-- The pod of a device: 256 modules to a pod (R353). DEDUCED: pods are taken in the order of device indices (log entry 13). -/
def podOf (dev : Nat) : Nat := dev / 256

/-- Whether the peloton protocol makes declarations: the slice has three or more modules (R354). -/
def State.hasCaptains (s : State) : Bool := match s.img with
  | some im => decide (3 ≤ im.slicen)
  | none => false

/-- Whether a device has been declared failed in an epoch adopted here and no domestique has taken its place (R360, R365). -/
def State.declared (s : State) (dev : Nat) : Bool := dev ∈ s.pel.gone

/-- Inserts a number in rising order. -/
def insertNat (x : Nat) : List Nat → List Nat
  | [] => [x]
  | y :: l => if x ≤ y then x :: y :: l else y :: insertNat x l

/-- The lead captain: the first of the primaries and backups, by rising pod, that has not been declared failed (R355). -/
def State.leadCaptain (s : State) : Option Nat :=
  let ks := ((s.captains.filter (fun c => c.1 < 2)).map (fun c => 2 * c.2.2 + c.1)).foldr insertNat []
  (ks.filterMap (fun k => ((s.captains.find? (fun c => c.2.2 = k / 2 && c.1 = k % 2)).map (·.2.1)))).find? (fun d => !s.declared d)

/-- Whether this module is the lead captain. -/
def State.isLead (s : State) : Bool := s.loaded && s.hasCaptains && s.leadCaptain = some s.devidx

/-- Devices of the slice's active modules (R262). -/
def State.slice (s : State) : List Nat := match s.img with
  | some im => List.range im.slicen
  | none => []

/-- The primary and the backup captain of a pod, those declared failed apart. -/
def State.captainsOf (s : State) (pod : Nat) : List Nat :=
  ((s.captains.filter (fun c => c.2.2 = pod ∧ c.1 < 2)).map (·.2.1)).filter (fun d => !s.declared d)

/-- The captains of this module's pod. -/
def State.podCaptains (s : State) : List Nat := s.captainsOf (podOf s.devidx)

/-- Packs fields given as (offset, width, value) into words of 64 bits (R361). -/
def packWords (n : Nat) (fs : List (Nat × Nat × Nat)) : List (BitVec 64) :=
  let v := fs.foldl (fun a f => a + (f.2.2 % 2 ^ f.2.1) * 2 ^ f.1) 0
  (List.range n).map (fun j => BitVec.ofNat 64 (v / 2 ^ (64 * j)))

/-- Eight bytes in network byte order as a register holds them: the first on the wire lies lowest (R4, R466). -/
def netOrder (v : BitVec 64) : Nat := leNat (leBytes 8 v.toNat).reverse

/-- The management address of a device on a plane: the plane's prefix, and the interface identifier of the device (R457). -/
def State.mgtAddr (s : State) (mgtB : Bool) (dev : Nat) : BitVec 128 :=
  let pfx := netOrder (BitVec.ofNat 64 (s.hd (if mgtB then MGT_PFXB_PFX else MGT_PFXA_PFX)))
  BitVec.ofNat 128 (pfx * 2 ^ 64 + (2 ^ 32 + dev % 2 ^ 16 * 2 ^ 16 + (if mgtB then 2 else 1)))

/-- What the management planes carry of a peloton message of n words (R356): to UDPPORT + 1, with the Ualar header of the data copy. -/
def State.mgtFrames (s : State) (src kind epoch : Nat) (dst : List Nat) (planes n : Nat) : List MgtFrame :=
  let udp := BitVec.ofNat 16 (s.d (ndWin 0) UAL_CFG_UDPPORT + 1)
  dst.flatMap (fun d => [false, true].filterMap (fun b =>
    if bitOf planes (if b then 2 else 1) then
      let h := s.header ((s.routePort s.devidx d 3).getD 0) 3 kind d 0 0 0 0 n
      let x := s.stream (streamKey d 3)
      some ⟨b, s.mgtAddr b d, udp, { h with srcdev := BitVec.ofNat 16 src, epoch := BitVec.ofNat 32 epoch, seq := BitVec.ofNat 32 x.txSeq,
                                            ack := BitVec.ofNat 32 x.rxNext, ece := x.eceDue }⟩
    else none))

/-- A peloton message as it leaves on the management planes given (bit 1 MGT-A, bit 2 MGT-B). -/
def State.pelMgt (s : State) (src kind epoch : Nat) (dst : List Nat) (planes : Nat) (ws : List (BitVec 64)) : State :=
  s.emit (.pel kind epoch dst planes ws (s.mgtFrames src kind epoch dst planes ws.length))

/-- Sends or relays a peloton message, unless the module is fenced or there is nobody to send it to (R356, R373). `data` says
whether the data network carries it beside the management planes. One that is relayed keeps its source on the management planes;
the data network's copy is of this module's stream. DEDUCED (log entry 112). -/
def State.pelSendAs (s : State) (src kind : Nat) (dst : List Nat) (data : Bool) (ws : List (BitVec 64)) : State :=
  if s.fenced ∨ dst = [] then s
  else
    let s1 := s.pelMgt src kind s.epoch dst 6 ws
    if data then dst.foldl (fun s d => s.pelData kind d ws) s1 else s1

/-- Sends a peloton message of this module. -/
def State.pelSend (s : State) (kind : Nat) (dst : List Nat) (data : Bool) (ws : List (BitVec 64)) : State :=
  s.pelSendAs s.devidx kind dst data ws

/-- This module's addresses on a plane (R457): the serial address, and while an image is in force the device address. -/
def State.mgtOwn (s : State) (mgtB : Bool) : List (BitVec 128) :=
  let pfx := netOrder (BitVec.ofNat 64 (s.hd (if mgtB then MGT_PFXB_PFX else MGT_PFXA_PFX)))
  BitVec.ofNat 128 (pfx * 2 ^ 64 + s.serial.toNat) :: (if s.loaded then [s.mgtAddr mgtB s.devidx] else [])

/-- UDP destination port of management messages (R457). -/
def mgtPort : BitVec 16 := 49204

/-- How a management message leaves: on both planes, from the device address while an image is in force, else from the serial address
(R457, R458). Which of the two addresses it leaves from is a DESIGN CHOICE (log entry 128). -/
def State.mgtFrom (s : State) : List MgtFrom := [false, true].map (fun b => ⟨b, (s.mgtOwn b).getLastD 0, mgtPort⟩)

/-- Sends a management message that is repeated until it is answered (R458). -/
def State.mgtSend (s : State) (typ : Nat) (arg0 arg1 : BitVec 64) (dst : List Nat) (payload : Bytes) : State :=
  let s1 : State := { s with mgt := s.mgt ++ [⟨typ, arg0, arg1, dst, payload, 1⟩] }
  s1.emit (.mgt typ arg0 arg1 dst payload s.mgtFrom)

/-- ALERT to both captains of the pod, or with no image in force to the all-nodes address (R458); the job runtime hears of it
(R453). -/
def State.alertWith (s : State) (code : Nat) (payload : Bytes) : State :=
  (s.mgtSend 0x30 (BitVec.ofNat 64 code) 0 s.podCaptains payload).notify 0x07 (BitVec.ofNat 64 code)

/-- An ALERT that carries its code alone. -/
def State.alert (s : State) (code : Nat) : State := s.alertWith code []

/-! ## The fault log (R383) -/

/-- Shows a fault in PEL_FLOG. -/
def State.showFault (s : State) (r : FaultRec) : State :=
  (((((s.setHd PEL_FLOG_VALID 1).setHd PEL_FLOG_LAST (if r.last then 1 else 0)).setHd PEL_FLOG_CAUSE r.cause).setHd
    PEL_FLOG_BLAME r.blame).setHd PEL_FLOG_DETAIL r.detail).setHd PEL_FLOG_STEPLO r.stepLo

/-- Enters a fault in the log of 16 entries: the oldest unread one stands in PEL_FLOG, the others wait behind it. -/
def State.logFault (s : State) (r : FaultRec) : State :=
  if s.hd PEL_FLOG_VALID = 0 then s.showFault r
  else if s.pel.flog.length < 15 then { s with pel := { s.pel with flog := s.pel.flog ++ [r] } }
  else s

/-- Blame for no module (R375). -/
def noBlame : Nat := 0xFFFF

/-! ## Stopping cores -/

/-- Ends every open tag record: DONE with ABORT, DMADONE left 0 (R478). -/
def Site.abortTags (c : Site) : Site :=
  let c1 := c.tag.opened.foldl (fun c t =>
    let w2 := c.f (PMC_TREC_RECORD t.1 2)
    let w4 := c.f (PMC_TREC_RECORD t.1 4)
    (c.set (PMC_TREC_RECORD t.1 2) (w2 ||| 2 ^ (167 - 128))).set (PMC_TREC_RECORD t.1 4) (w4 ||| 2 ^ 32)) c
  { c1 with tag := { c1.tag with opened := [] } }

/-- The record of an exception and the stop of the core (R138): cause, detail, the slots that broke a rule and the bundle
that raised it, and the rejection code where DETAIL is STATIC. -/
def Site.except (c : Site) (cause detail slots bundle rjct : Nat) : Site :=
  ((((((c.set CORE_STATE_STATE 3).set CORE_STATE_CAUSE cause).set CORE_STATE_DETAIL detail).set CORE_STATE_RJCT
    rjct).set CORE_EPC_SLOTS slots).set CORE_EPC_BUNDLE bundle)

/-- REWIND recorded on a core that is running, stalled or at a gear point; a core that stands stopped keeps its record
(R138). Detail 1 rewind, 2 fence. -/
def Site.stopRewind (c : Site) (detail : Nat) : Site :=
  if c.active? then (c.except 0x09 detail 0 (c.f CORE_PC_PC) 0).abortTags else c.abortTags

/-- HALT of a core (R146): it stops before its next bundle issues. A core that stands stopped keeps its STATE. DESIGN CHOICE (log entry
107). -/
def Site.halt (c : Site) : Site :=
  if c.active? then (c.set CORE_STATE_STATE 4).abortTags else c

/-- Every core of a live role is stopped with REWIND. -/
def State.stopAll (s : State) (detail : Nat) : State := s.onLive (fun c => c.stopRewind detail)

/-- Gate states (R227). -/
def gIDLE : Nat := 0
def gRUN : Nat := 1
def gWAIT : Nat := 2
def gCOMMIT : Nat := 3
def gDONE : Nat := 4
def gSKIP : Nat := 5
def gHALT : Nat := 6
def gREWIND : Nat := 7

/-- The commit gate's state (R219). -/
def State.gateState (s : State) : Nat := s.hd PEL_CGSTATE_STATE

/-- Moves the commit gate. -/
def State.setGate (s : State) (g : Nat) : State := s.setHd PEL_CGSTATE_STATE g

/-- A fault of R28 that strikes in COMMIT (R30, R223): the cores stop with REWIND, and no page opens until COMMIT is resumed. -/
def State.commitStop (s : State) : State :=
  if s.gateState ≠ gCOMMIT then s
  else
    let s1 := s.stopAll 1
    { s1 with gate := { s1.gate with stopped := true } }

/-- A fault of R28 strikes: in RUN or WAIT the cores stop with REWIND and the gate waits in REWIND for the slice's rewind (R219); in
COMMIT it is handled under R30 and R223; a step in DONE stands. -/
def State.faultStop (s : State) : State :=
  if s.gateState = gRUN ∨ s.gateState = gWAIT then (s.stopAll 1).setGate gREWIND else s.commitStop

/-- DETAIL of a fault of CAUSE 0x04 that leaves a shard without a copy (R341). -/
def noCopyDetail : Nat := 0xFFFF

/-- Reports a fault: it enters the log, and FAULT goes to both captains of the pod on all planes (R369). One of R28 stops the step. Only CAUSE 0x02 has its DETAIL stated (R375); it is a free value for the others, but for all ones, by which this model tells
that no copy of a shard is left (DESIGN CHOICE, log entry 129). With HD stopped no firmware hears of it (R21). -/
def State.reportFault (s : State) (cause blame want : Nat) (last : Bool) : State :=
  if !s.hdRuns then s else
  let s0 := (if cause = 2 ∨ cause = 3 ∨ cause = 5 then s.faultStop else s).skipFree
  let detail := if cause = 2 ∨ (cause = 4 ∧ want = noCopyDetail) then want else Config.freeNat s.free % (2 ^ 16 - 1)
  let s1 := s0.logFault ⟨cause, blame, detail, last, s.stepNo.toNat % 2 ^ 16⟩
  if s.hasCaptains then
    s1.pelSend 0x03 s.podCaptains true
      (packWords 1 [(0, 8, cause), (8, 16, blame), (24, 16, detail), (40, 1, if last then 1 else 0)])
  else s1

/-- The job halts (R139, R371): every core stops as by HALT, the gate leaves a running step for HALT, and the host die is
told. The cores' stop and the gate's state are a DESIGN CHOICE (log entry 14). -/
def State.haltJob (s : State) (cause : Nat) : State :=
  if s.host.halted ∨ !s.hdRuns then s
  else
    let s1 := s.onLive Site.halt
    let s2 := if s.gateState = gIDLE then s1 else s1.setGate gHALT
    let s3 := { s2 with host := { s2.host with halted := true } }
    s3.notify 0x01 (BitVec.ofNat 64 cause)

/-! ## Storage (R304, R402) -/

/-- The storage region of a slot of this module's place: its queue pair, remote key and remote address. -/
def State.slotRegion (s : State) (slot : Nat) : Nat × Nat × Nat := match s.img with
  | some im => match im.resil.ckSlots.find? (fun e => e.1 = slot) with
    | some e => (e.2.1, e.2.2.1, e.2.2.2.1)
    | none => (0, 0, 0)
  | none => (0, 0, 0)

/-- An operation on the queue pair of a region leaves for RoCEv2, on UDP destination port 4791. How operations are numbered on a pair is a
DESIGN CHOICE (log entry 130). -/
def State.rdma (s : State) (at_ : Nat × Nat × Nat) (off : Nat) (f : Rdma → Out) : State :=
  let n := mget 0 s.net.qpSent at_.1
  ({ s with net := { s.net with qpSent := mput 0 at_.1 ((n + 1) % 2 ^ 24) s.net.qpSent } } : State).emit (f ⟨at_.1, n, at_.2.1, at_.2.2 + off, 4791⟩)

/-- An RDMA WRITE into a slot of this module's place. -/
def State.slotWrite (s : State) (slot off : Nat) (d : Bytes) : State := s.rdma (s.slotRegion slot) off (.rdmaWrite slot off d)

/-! ## Checkpoint rounds and fencing -/

/-- Ends the module's part of a checkpoint round: protections and stage are released (R396). -/
def State.endRound (s : State) : State :=
  let s1 := (List.range 8).foldl (fun s w =>
    (((s.setD w SNP_STATUS_ARMED 0).setD w SNP_STATUS_LEFT 0).setD w SNP_STATUS_STAGED 0).setD w SNP_STATUS_PRIO 0) s
  let s2 : State := { s1 with ckp := { s1.ckp with round := none } }
  s2.setHd CKP_STATUS_STATE 0

/-- Abandons the round in progress, if there is one, and reports it to the host die (R386, R396, R403). A manifest that was written already is
overwritten with zeros, as before a round (R393), unless the module is fenced: the slot is left without a manifest. DEDUCED (log entry 130). -/
def State.abandonRound (s : State) : State :=
  match s.ckp.round with
  | none => s
  | some r =>
    let s1 := if r.sealed && !s.fenced then s.slotWrite r.slot 0 (List.replicate 65536 0) else s
    (s1.endRound.bumpHd CKP_STATUS_ABAND 1).notify 0x06 (BitVec.ofNat 64 (2 ^ 64 - 1))

/-- A REASON code of FENCED (R361). -/
def fenceCode : FenceWhy → Nat
  | .declared => 1
  | .quorumLost => 2
  | .clock => 3
  | .alarm => 4
  | .admissionFailed => 5

/-- The module fences itself (R373): the cores stop with REWIND detail 2, the state is FENCED, the job runtime is told
(R372), and a checkpoint round in progress is abandoned (R396). A module fenced already stays as it is. -/
def State.fence (s : State) (why : Nat) : State :=
  if s.fenced then s
  else
    let s1 := s.stopAll 2
    let s2 := ({ s1 with pel := { s1.pel with fencedWhy := some why } } : State).abandonRound
    (s2.setHd PEL_STATUS_STATE 3).notify 0x02 (BitVec.ofNat 64 why)

/-! ## Core exceptions -/

/-- A register's value as read: fields in their places, WO fields and reserved bits 0 (R6, R9). -/
def Site.regVal (c : Site) (r : Reg) : Nat :=
  r.flds.foldl (fun a x => if x.cls = .wo then a else a + c.f x * 2 ^ x.lo) 0

/-- ARG1 of NOTIFY PROGRAM (R453): CORE_STATE, the role, the bundle. -/
def Site.programArg (c : Site) : BitVec 64 :=
  BitVec.ofNat 64 (c.regVal CORE_STATE + c.roleNo * 2 ^ 32 + c.f CORE_EPC_BUNDLE * 2 ^ 48)

/-- Firmware's action on a recorded exception, by its class (R139): PROGRAM halts the job and reports it, unless consumed
poison was signalled before, when it counts as REWIND (R159); FAULT is reported to the slice; REWIND needs nothing. With HD stopped there is
none to act (R21). -/
def State.firmwareAction (s : State) (n cause detail : Nat) (lost : Bool) : State :=
  let c := s.site n
  if !s.hdRuns then s
  else if cause = 6 then s.reportFault 0x02 s.devidx 0x06 false
  else if cause = 8 then s.reportFault 0x03 noBlame 0 false
  else if cause = 5 ∧ lost then s.reportFault 0x05 noBlame (detail % 32) false
  else if cause = 9 ∨ c.poisonSig then s
  else ((s.notify 0x03 c.programArg).haltJob 0x09).reportFault 0x09 noBlame cause false

/-- A core takes an exception (R138): it records it, stops and signals the control cores, whose firmware acts on it. -/
def State.takeException (s : State) (n cause detail slots : Nat) (rjct : Nat) : State :=
  let s1 := s.onSite n (fun c => c.except cause detail slots (c.f CORE_PC_PC) rjct)
  (s1.emit (.fwSignal n sigException)).firmwareAction n cause detail (decide (128 ≤ detail))

/-- A core signals consumed poison (R159): counted, signalled, and reported as a fault of R28. Later uses before the
REWIND add nothing, as one report already stands. -/
def State.consumePoison (s : State) (n : Nat) : State :=
  if (s.site n).poisonSig then s
  else
    let s1 := s.onSite n (fun c => { (c.count 0x01A 1) with poisonSig := true })
    (s1.emit (.fwSignal n sigPoison)).reportFault 0x03 noBlame 0 false

end Sys2Proof.Machine
end

