-- ==== Sys2Proof/Machine/Spares.lean ====
section
/-! DEFINITION. The spare-mapping table: its entries, the rule of transient and lasting faults, free sites, and what makes
the module degraded or unfit (R405 to R410, R414, R418, R424). -/

set_option autoImplicit false

namespace Sys2Proof.Machine

/-! ## The device key (R425, R426, R428) -/

/-- Whether the module can sign: it is PROVISIONED, and the device key unwraps under the hardware wrap key. -/
def State.provisioned (s : State) : Bool := s.hd SEC_STATUS_KSTATE = 1 && s.sec.dev.any (fun k => k.wrap = s.sec.wrapKey)

/-- KEYID of the device key, and the signature of a message as R and S, 66 bytes each (R425). The per-signature number is a free
value (log entry 5). -/
def State.signature (s : State) (m : Bytes) : Bytes × Bytes :=
  match s.sec.dev with
  | some k => let r := ecdsaSign k.secret (Config.sigNonce s.free) m; (keyId k.x k.y, leBytes 66 r.1 ++ leBytes 66 r.2)
  | none => (leBytes 32 0, leBytes 132 0)

/-! ## Units (R407) -/

/-- Kinds. -/
def ukSITE : Nat := 1
def ukROW : Nat := 2
def ukCOL : Nat := 3
def ukLANE : Nat := 4
def ukGROUP : Nat := 5
def ukHBMROW : Nat := 6
def ukPORT : Nat := 7
def ukPHASE : Nat := 8
def ukCTL : Nat := 9
def ukCOPY : Nat := 10
def ukBLAME : Nat := 11

/-- Entry states (R406). -/
def seEVENT : Nat := 0
def seWEAK : Nat := 1
def seLASTING : Nat := 2
def seREPAIRED : Nat := 3

/-- UNIT of a core site, and the site of a UNIT. -/
def siteUnit (n : Nat) : Nat := n / 104 * 128 + n % 104
def unitSite (u : Nat) : Nat := u / 128 % 16 * 104 + u % 128

/-- UNIT of an array row or column: the site, the array, and the physical row or column. -/
def lineUnit (n a r : Nat) : Nat := n / 104 * 512 + n % 104 * 4 + a + r * 2 ^ 13

/-- UNIT of a port or half. -/
def portUnit (p : PortId) : Nat := p.port.val + 32 * p.half.val

/-- UNIT of a die-to-die lane group, and of a lane of it. -/
def groupUnit (w link g : Nat) : Nat := w + 16 * link + 256 * g
def laneUnit (w link g lane : Nat) : Nat := groupUnit w link g + 4096 * lane

/-! ## The table (R406, R409) -/

/-- Powered seconds in the 24 hours of the rule. -/
def daySecs : Nat := 86400

/-- Whether an entry is for a unit. -/
def SpareEntry.isFor (e : SpareEntry) (kind unit : Nat) : Bool := e.kind = kind && e.unit = unit

/-- Whether an EVENT entry has expired. -/
def SpareEntry.expired (e : SpareEntry) (now : Nat) : Bool := e.state = seEVENT && decide (daySecs < now - e.tfirst)

/-- Whether a unit is LASTING: by its entry, or as one that found no entry free (R409). -/
def State.lasting (s : State) (kind unit : Nat) : Bool :=
  s.test.table.any (fun e => e.isFor kind unit && e.state = seLASTING) || decide ((kind, unit) ∈ s.test.excess)

/-- Whether a KIND and UNIT are coded as R407 gives: an assigned KIND, and no bit of UNIT set that the table does not list. -/
def unitOk (kind u : Nat) : Bool :=
  let bits := [0, 11, 18, 20, 19, 12, 32, 7, 10, 3, 0, 0]
  decide (1 ≤ kind ∧ kind < 12 ∧ u < 2 ^ bits.getD kind 0) && (kind ≠ ukCTL || decide (u < 5))

/-- Bytes of an entry (R406), and the two code words that guard it in a copy of the store (R405). -/
def SpareEntry.bytes (e : SpareEntry) : Bytes :=
  leBytes 1 e.kind ++ leBytes 1 e.state ++ leBytes 6 e.unit ++ leBytes 4 e.tfirst ++ leBytes 4 e.tlast
def SpareEntry.codes (e : SpareEntry) : List CodeWord :=
  [mkCode (BitVec.ofNat 64 (leNat (e.bytes.take 8))) false, mkCode (BitVec.ofNat 64 (leNat (e.bytes.drop 8))) false]

/-- The entry that code words give, none where one of them does not decode. -/
def entryOf (ws : List CodeWord) : Option SpareEntry :=
  if ws.length ≠ 2 ∨ ws.any (fun w => (cwDecode w).2.bad) then none
  else
    let b := ws.flatMap (fun w => leBytes 8 (cwDecode w).1.toNat)
    some ⟨leNat (b.take 1), leNat ((b.drop 1).take 1), leNat ((b.drop 2).take 6), leNat ((b.drop 8).take 4), leNat ((b.drop 12).take 4)⟩

/-- Replaces the table, in both copies of the store (R405). -/
def State.setTable (s : State) (t : List SpareEntry) : State :=
  let c := t.map SpareEntry.codes
  { s with test := { s.test with table := t, copies := [c, c] } }

/-- The table as the store gives it: each entry from the first copy, or from the second where that does not decode (R405). -/
def State.storedTable (s : State) : List SpareEntry :=
  let a := s.test.copies.headD []
  let b := s.test.copies.getD 1 []
  (List.range (Nat.max a.length b.length)).filterMap (fun i => match entryOf (a.getD i []) with
    | some e => some e
    | none => entryOf (b.getD i []))

/-- Whether an entry of a unit turns into one of a state: an EVENT or WEAK entry becomes LASTING, a LASTING one REPAIRED; one of the same state
is renewed. LASTING and REPAIRED entries are never discarded (R409). -/
def SpareEntry.turns (e : SpareEntry) (st : Nat) : Bool :=
  e.state = st || (st = seLASTING && decide (e.state < seLASTING)) || (st = seREPAIRED && e.state = seLASTING)

/-- Enters a unit with a state: its entry that turns into it is replaced, expired entries go, and a full table gives up its oldest EVENT
entry (log entry 24). A repair is no fault: TLAST stays (R406). -/
def putEntry (t : List SpareEntry) (now kind unit st : Nat) : List SpareEntry :=
  let own := fun (e : SpareEntry) => e.isFor kind unit && e.turns st
  let old := t.find? (fun e => own e && !e.expired now)
  let first := match old with
    | some e => e.tfirst
    | none => now
  let last := match old with
    | some e => if st = seREPAIRED then e.tlast else now
    | none => now
  let t1 := t.filter (fun e => !own e && !e.expired now)
  let t2 := if t1.length < 4096 then t1 else match t1.findIdx? (fun e => e.state = seEVENT) with
    | some i => ldrop t1 i
    | none => t1
  if t2.length < 4096 then t2 ++ [⟨kind, st, unit, if st = seEVENT then now else first, last⟩] else t2

/-- Enters a unit as LASTING; where no entry is free it is LASTING all the same (R409). -/
def State.makeLasting (s : State) (kind unit : Nat) : State :=
  let t := putEntry s.test.table s.tsec kind unit seLASTING
  let s1 := s.setTable t
  if t.any (fun e => e.isFor kind unit && e.state = seLASTING) then s1
  else { s1 with test := { s1.test with excess := linsert (kind, unit) s1.test.excess } }

/-- A further fault of a LASTING unit: TLAST is that of the latest (R406). -/
def State.againLasting (s : State) (kind unit : Nat) : State :=
  s.setTable (s.test.table.map (fun e => if e.isFor kind unit && e.state = seLASTING then { e with tlast := s.tsec } else e))

/-- A fault of a unit (R409): the new table, and whether the unit becomes LASTING by it. -/
def State.unitFault (s : State) (kind unit : Nat) (second : Bool) : State × Bool :=
  let t := s.test.table
  let now := s.tsec
  let again := t.any (fun e => e.isFor kind unit && e.state = seEVENT && !e.expired now)
  let full := decide (4096 ≤ (t.filter (fun e => !e.expired now)).length)
  if s.lasting kind unit then (s.againLasting kind unit, false)
  else if second || again || full then (s.makeLasting kind unit, true)
  else (s.setTable (putEntry t now kind unit seEVENT), false)

/-- SMAPDIG (R413): the digest of the table. -/
def State.smapDig (s : State) : Bytes := sha32 (s.test.table.flatMap SpareEntry.bytes)

/-! ## Free sites (R414, R424) -/

/-- Whether a site is LASTING. -/
def State.siteBad (s : State) (n : Nat) : Bool := s.lasting ukSITE (siteUnit n)

/-- Whether a site is under test. -/
def State.siteTesting (s : State) (n : Nat) : Bool := match s.test.visit with
  | some v => n ∈ v.testing
  | none => false

/-- The slice of a site (R412). -/
def sliceOf (n : Nat) : Nat := n % 104 % 32

/-- Whether a site is free: no role, not LASTING, and outside the due slice or passed in the current visit (R414). -/
def State.siteFree (s : State) (n : Nat) : Bool :=
  (s.site n).role.isNone && !s.siteBad n && (match s.test.visit with
    | some v => sliceOf n ≠ v.slice || n ∈ v.passed
    | none => true)

/-- Free sites of a compute die, rising. -/
def State.freeSites (s : State) (d : Nat) : List Nat := ((List.range 104).map (fun i => d * 104 + i)).filter (fun n => s.siteFree n)

/-! ## Degraded and unfit (R418) -/

/-- Ports that stand as spares: those of the image, or P8 and P17 (R407). -/
def State.sparePorts (s : State) : List Nat := match s.img with
  | some im => ((im.ports.filter (fun p => p.use = 2)).map (fun p => p.port)).eraseDups
  | none => [8, 17]

/-- Spare ports not used and not LASTING. -/
def State.freePorts (s : State) : List Nat :=
  s.sparePorts.filter (fun p => !s.net.takeover.any (fun t => t.2 / 4 = p) && !s.lasting ukPORT p)

/-- Control cores that are LASTING. -/
def State.badCtl (s : State) : Nat := ((List.range 5).filter (fun i => s.lasting ukCTL i)).length

/-- Lasting lanes of a link. -/
def State.badLanes (s : State) (w link : Nat) : Nat :=
  (s.test.table.filter (fun e => e.kind = ukLANE && e.state = seLASTING && e.unit % 256 = w + 16 * link)).length

/-- Groups of a link that are in service. -/
def State.groupsUp (s : State) (w l : Nat) : Nat := ((List.range (groupsOf w l)).filter (fun g => !s.lasting ukGROUP (groupUnit w l g))).length

/-- Whether a link keeps too few groups: fewer than 12 of 16, or 6 of 8 (R255). -/
def State.linkFailed (s : State) (w l : Nat) : Bool := decide (s.groupsUp w l < groupsOf w l * 3 / 4)

/-- Whether the module is unfit: too few sites or control cores, a link failed, or a stack reported failed (R244). -/
def State.unfit (s : State) : Bool :=
  s.test.stackGone || (List.range 11).any (fun w => (List.range 10).any (fun l => s.linkFailed w l)) ||
  (List.range 8).any (fun d => decide (((List.range 104).filter (fun i => !s.siteBad (d * 104 + i))).length < 100)) ||
  decide (2 ≤ s.badCtl)

/-- Whether the module is degraded. -/
def State.degraded (s : State) : Bool :=
  (List.range 8).any (fun d => decide ((s.freeSites d).length < 2)) || (s.sparePorts ≠ [] && s.freePorts = []) || decide (1 ≤ s.badCtl) ||
  (List.range 12).any (fun w => (List.range 10).any (fun l => decide (groupsOf w l < s.badLanes w l)))

/-- Reports RETIRE or DEGRADED when a change of the table brings it about (R418, R458). -/
def State.refit (old s : State) : State :=
  if s.unfit && !old.unfit then s.alert 1
  else if s.degraded && !old.degraded then s.alert 2
  else s

/-- A fault of a unit with the reports of R418. -/
def State.fault24 (s : State) (kind unit : Nat) (second : Bool) : State × Bool :=
  let r := s.unitFault kind unit second
  (s.refit r.1, r.2)

/-- Whether a module blamed for a deadline was blamed for one within the last 24 hours (R376). The table of that module cannot hold what it is
not told: the captains that hear of it keep it in their stores. DEDUCED (log entry 114). -/
def State.blamedLately (s : State) (dev : Nat) : Bool := s.test.blames.any (fun b => b.1 = dev && decide (s.tsec - b.2 ≤ daySecs))

/-- Notes that a module is blamed for a deadline; a record older than 24 hours goes. -/
def State.noteBlame (s : State) (dev : Nat) : State :=
  if dev = noBlame then s
  else { s with test := { s.test with blames := s.test.blames.filter (fun b => decide (s.tsec - b.2 ≤ daySecs)) ++ [(dev, s.tsec)] } }

/-- A lasting fault of the module itself (R372): FAULT with CAUSE 0x06 and BLAME its own index. Its captain proposes it at
the next step boundary. In a slice without captains the module is lost, which halts the job (R354). -/
def State.selfLasting (s : State) : State :=
  let s1 := s.reportFault 0x06 s.devidx 0 true
  if s.loaded && !s.hasCaptains then s1.haltJob 0x06 else s1

/-! ## Entries of a test content package, and the visits that apply them (R412, R414, R419) -/

/-- A number of `n` bytes at offset `o`. -/
def numAt (b : Bytes) (o n : Nat) : Nat := leNat ((b.drop o).take n)

/-- The 64-byte entries of a package. -/
def pkgEntries (b : Bytes) : List Bytes := (List.range (numAt b 12 2)).map (fun i => (b.drop (64 + 64 * i)).take 64)

/-- Whether an entry is applied at the n-th visit (R419): every EVERY-th. -/
def everyAt (n : Nat) (e : Bytes) : Bool := n % numAt e 1 1 = 0

/-- Whether an entry sets MARGIN (R415). -/
def entryMargin (e : Bytes) : Bool := numAt e 2 2 % 2 = 1

/-- Whether a visit applies an entry to a site, by EVERY of the visits of its slice, or to a port or a control core, by EVERY of all visits; those
with MARGIN run only in FULL (R415, R419). How visits count is DEDUCED (log entry 132). -/
def Visit.atSite (v : Visit) (e : Bytes) : Bool := decide (numAt e 0 1 ≤ 5) && !entryMargin e && everyAt ((v.no + 31) / 32) e
def Visit.beside (v : Visit) (c : Nat) (e : Bytes) : Bool := numAt e 0 1 = c && !entryMargin e && everyAt v.no e

/-- Whether a visit tests a control core: some entry of its package is for one. -/
def Visit.testsCtl (v : Visit) : Bool := (pkgEntries v.pkg).any (v.beside 8)

/-! ## Test slices (R412, R414) -/

/-- Whether the job runs under SLICED (R412, R422): by MODE, or under AUTO in a slice of more than 64 modules. -/
def State.sliced (s : State) : Bool := match s.img with
  | some im => im.resil.bistMode = 1 || (im.resil.bistMode = 0 && decide (64 < im.slicen))
  | none => false

/-- A slice that is due starts, unless the slice before it still runs, HOLD is set, the gate is not in RUN, or a recovery is under way. -/
def State.trySlice (s : State) : State :=
  if s.test.due = 0 ∨ s.test.visit.isSome ∨ s.hd BIST_CFG_HOLD = 1 ∨ s.gateState ≠ gRUN ∨ s.rep.tier2 ≠ [] ∨ s.rep.tier3 then s
  else
    let j := s.test.nextSlice
    let todo := (List.range 832).filter (fun n => decide (sliceOf n = j) && !s.siteBad n)
    let v : Visit := ⟨j, todo, [], [], 0, s.test.visits + 1, s.test.pkg, false⟩
    ({ s with test := { s.test with due := s.test.due - 1, nextSlice := (j + 1) % 32, visits := s.test.visits + 1,
                                    visit := if todo = [] then none else some v } }).setHd BIST_STATUS_SLICE j

/-- A visit is complete once no site and no control core of it is left to test; then a slice that waits may start. -/
def State.closeVisit (s : State) : State := match s.test.visit with
  | some v => if v.todo = [] ∧ v.testing = [] ∧ s.test.ctlTest = none then ({ s with test := { s.test with visit := none } } : State).trySlice else s
  | none => s

end Sys2Proof.Machine
end

