-- ==== Sys2Proof/Machine/Net.lean ====
section
/-! DEFINITION. Panniers, the sending and acknowledgement of Ualar packets, rates and the takeover of ports as shared operations (R301 to
R307, R325 to R329). -/

set_option autoImplicit false

namespace Sys2Proof.Machine

/-! ## Panniers (R325 to R329) -/

/-- Bytes of a record (R326). -/
def Kept.size (r : Kept) : Nat := (64 + 10 * r.pkt.words.length + 63) / 64 * 64

/-- Packets kept on a network die. -/
def State.kept (s : State) (nd : Nat) : List Kept := mget [] s.rep.pan nd

/-- Bytes of a pannier's region (R350). -/
def State.panBytes (s : State) (nd : Nat) : Nat := match s.img with
  | some im => match im.resil.panniers.find? (fun p => p.1 = nd) with
    | some p => p.2.2 * 65536
    | none => 0
  | none => 0

/-- The base address of a pannier's region. -/
def State.panBase (s : State) (nd : Nat) : Nat := match s.img with
  | some im => match im.resil.panniers.find? (fun p => p.1 = nd) with
    | some p => p.2.1
    | none => 0
  | none => 0

/-- A record as it stands in the ring (R326): the prefix, the header, the payload words as code words, and zeros to a whole line. -/
def Kept.bytes (r : Kept) : Bytes :=
  let b := leBytes 8 r.step.toNat ++ leBytes 2 r.port ++ leBytes 2 r.pkt.words.length ++ leBytes 4 0 ++ leBytes 48 (hdrBits r.pkt.h) ++
    r.pkt.words.flatMap (fun w => leBytes 10 w.toNat)
  b ++ leBytes (r.size - b.length) 0

/-- Writes bytes into a pannier's ring at an offset, which wraps at the end of the region; the offset after them is where the next record
goes. -/
def State.putRing (s : State) (nd : Nat) (bs : Bytes) : State :=
  let len := s.panBytes nd
  let at0 := mget 0 s.rep.panPos nd % len
  let k := Nat.min bs.length (len - at0)
  let a := s.panBase nd
  let hbm := (s.hbm.write (a + at0) (bs.take k) false).write a (bs.drop k) false
  let s1 := (s.countBursts 0x106 (a + at0) k).countBursts 0x106 a (bs.length - k)
  { s1 with hbm := hbm, rep := { s1.rep with panPos := mput 0 nd ((at0 + bs.length) % len) s1.rep.panPos } }

/-- Shows what a pannier holds in PAN_STATUS and PAN_OLD (R351). -/
def State.showPan (s : State) (nd : Nat) : State :=
  let l := s.kept nd
  let steps := (l.map (·.step)).eraseDups
  ((s.setD (ndWin nd) PAN_STATUS_HELD (Nat.min steps.length 2)).setD (ndWin nd) PAN_STATUS_USED
    ((l.map Kept.size).sum)).setD (ndWin nd) PAN_OLD_STEP (steps.headD 0).toNat

/-- Replaces what a pannier holds. -/
def State.setKept (s : State) (nd : Nat) (l : List Kept) : State :=
  let s1 : State := { s with rep := { s.rep with pan := mput [] nd l s.rep.pan } }
  s1.showPan nd

/-- A record does not fit (R329): sending stops, OVF is set, and the job halts as for a program error. -/
def State.panOverflow (s : State) (nd : Nat) : State :=
  let s1 : State := { s with rep := { s.rep with panOff := linsert nd s.rep.panOff } }
  ((s1.setD (ndWin nd) PAN_STATUS_OVF 1).haltJob 0x09).reportFault 0x09 noBlame 0 false

/-- Keeps a packet as it is first sent (R325), in the ring of its network die (R326). -/
def State.keep (s : State) (k : Nat) (pkt : UalPkt) : State :=
  let nd := keyDie k
  let r : Kept := ⟨pkt.h.step, k / 4, pkt⟩
  if ((s.kept nd).map Kept.size).sum + r.size ≤ s.panBytes nd then (s.setKept nd (s.kept nd ++ [r])).putRing nd r.bytes
  else s.panOverflow nd

/-- The place where the next record goes once the newest records are discarded: behind the newest of those that stay (R326, R327). -/
def State.panBack (s : State) (nd : Nat) (old : BitVec 64 → Bool) : State :=
  let len := s.panBytes nd
  let n := (((s.kept nd).reverse.takeWhile (fun r => old r.step)).map Kept.size).sum
  { s with rep := { s.rep with panPos := mput 0 nd ((mget 0 s.rep.panPos nd % len + len - n % len) % len) s.rep.panPos } }

/-- Discards the records of steps for which `old` holds, on both network dies, and counts the steps (R27, R327). -/
def State.panDiscard (s : State) (old : BitVec 64 → Bool) : State :=
  [0, 1].foldl (fun s nd =>
    let l := s.kept nd
    let gone := ((l.filter (fun r => old r.step)).map (·.step)).eraseDups.length
    if gone = 0 then s
    else ((s.panBack nd old).setKept nd (l.filter (fun r => !old r.step))).bumpD (ndWin nd) PAN_RESEND_DISC gone) s

/-! ## Sending -/

/-- Bytes of the retry store in use on a network die: its control packets not yet acknowledged (R302). -/
def State.retryBytes (s : State) (nd : Nat) : Nat :=
  (s.net.streams.map (fun e => if e.1 % 4 ≠ 2 then 0
    else if (s.routePort s.devidx (e.1 / 4) 2).any (fun k => keyDie k = nd)
      then (e.2.unacked.map (fun p => 48 + 10 * p.2.2.words.length)).sum else 0)).sum

/-- Whether a control packet finds room in the retry store of 64 KiB. -/
def State.retryRoom (s : State) (k n : Nat) : Bool := decide (s.retryBytes (keyDie k) + 48 + 10 * n ≤ 65536)

/-- Sends a Ualar packet (R298 to R302, R325): numbered in its stream, kept in the pannier for bulk and collective, held
until acknowledged. A control packet that finds the retry store full waits. DESIGN CHOICE (log entry 110). -/
def State.ualSend (s : State) (cls kind dst : Nat) (strm mb : BitVec 16) (msg : BitVec 32) (woff : BitVec 24)
    (ws : List CodeWord) : State :=
  match s.routePort s.devidx dst cls with
  | none => s
  | some k =>
    if s.fenced ∨ (cls < 2 ∧ keyDie k ∈ s.rep.panOff) then s
    else if cls = 2 ∧ !s.retryRoom k ws.length then
      { s with net := { s.net with ctlWait := s.net.ctlWait ++ [⟨kind, dst, strm, mb, msg, ws⟩] } }
    else
      let r := s.number k cls kind dst strm mb msg woff ws
      (if cls < 2 then r.1.keep k r.2 else r.1).egress k r.2

/-- The control packets that wait are sent as far as the retry store has room. -/
def State.sendWaiting (s : State) : State :=
  s.net.ctlWait.foldl (fun s w => s.ualSend 2 w.kind w.dst w.strm w.mb w.msg 0 w.words) { s with net := { s.net with ctlWait := [] } }

/-- Sends an ACK message for a stream (R302). It takes no number of its own and MSG names the class (log entry 26). -/
def State.sendAck (s : State) (key : Nat) : State :=
  let x := s.stream key
  match s.routePort s.devidx (key / 4) 2 with
  | none => s
  | some k =>
    let h0 := s.header k 2 0 (key / 4) 0 0 (BitVec.ofNat 32 (key % 4)) 0 0
    let h1 := { h0 with ack := BitVec.ofNat 32 x.rxNext, ece := x.eceDue }
    (s.setStream key { x with ackDue := false, eceDue := false }).egress k ⟨h1, [], false, false, s.frameOf 2 0⟩

/-- The network die from which a stream leaves. -/
def State.streamDie (s : State) (key : Nat) : Nat := match s.routePort s.devidx (key / 4) (key % 4) with
  | some k => keyDie k
  | none => 0

/-- An acknowledgement frees the packets below it; the loss of one that had been re-sent was transient: it is logged, and counted in RETX
(R302). Control packets that wait for room follow. -/
def State.ackStream (s : State) (key : Nat) (ack : Nat) : State :=
  let x := s.stream key
  let freed := x.unacked.filter (fun p => decide (p.1 < ack))
  if freed = [] then s
  else
    let again := freed.filter (fun p => p.2.1 ≠ 0)
    let s1 := s.setStream key { x with unacked := x.unacked.filter (fun p => decide (ack ≤ p.1)) }
    let s2 : State := { s1 with net := { s1.net with log := s1.net.log ++ again.map (fun p => .resent key p.1) } }
    (s2.bumpD (ndWin (s.streamDie key)) UAL_RETX_RETX again.length).sendWaiting

/-- The header of a re-sent packet (R328): the current epoch and acknowledgement; ATT is kept for a retransmission, else it is the
receiver's. RESEND marks one that comes from the pannier, where bulk and collective packets are kept (R298, R302). -/
def State.resendHdr (s : State) (pkt : UalPkt) (att : Option (BitVec 8)) : UalPkt :=
  let key := streamKey pkt.h.dstdev.toNat pkt.h.cls.toNat
  let h0 := pkt.h
  let h1 := { h0 with resend := decide (h0.cls.toNat < 2), epoch := BitVec.ofNat 32 s.epoch, ack := BitVec.ofNat 32 (s.stream key).rxNext }
  let h2 := match att with
    | some a => { h1 with att := a }
    | none => h1
  { pkt with h := h2 }

/-- Re-sends a packet toward its destination. -/
def State.resend (s : State) (pkt : UalPkt) (att : Option (BitVec 8)) : State :=
  match s.routePort s.devidx pkt.h.dstdev.toNat pkt.h.cls.toNat with
  | none => s
  | some k =>
    let s1 := if pkt.h.cls.toNat < 2 then s.bumpD (ndWin (keyDie k)) PAN_RESEND_PKTS 1 else s
    ((s1.countD (ndWin (keyDie k)) 0x10B 1).egress k (s1.resendHdr pkt att))

/-! ## Rates (R303, R304) -/

/-- The rate toward a device in 64ths of the port rate: n / 2^e. -/
def State.rate (s : State) (dev : Nat) : Nat × Nat := mget (64, 0) s.net.rates dev
def State.setRate (s : State) (dev : Nat) (v : Nat × Nat) : State := { s with net := { s.net with rates := mput (64, 0) dev v s.net.rates } }

/-- Half a rate, and no less than 1/64. -/
def halfRate (r : Nat × Nat) : Nat × Nat := if r.1 < 2 ^ (r.2 + 1) then (1, 0) else (r.1, r.2 + 1)

/-- A rate raised by 1/64 of the port rate, up to the full rate. -/
def raisedRate (r : Nat × Nat) : Nat × Nat := if 64 * 2 ^ r.2 ≤ r.1 + 2 ^ r.2 then (64, 0) else (r.1 + 2 ^ r.2, r.2)

/-- Halves the rate toward a device (R303). -/
def State.halveRate (s : State) (dev : Nat) : State := s.setRate dev (halfRate (s.rate dev))

/-- The rate of a queue pair in 64ths, as a fraction: it recovers linearly over 1 ms (R304). -/
def State.qpRate (s : State) (key : Nat) : Nat × Nat :=
  let q := mget (64, 1, 0) s.net.qps key
  let dt := s.time - q.2.2
  if msUnits ≤ dt then (64, 1) else (q.1 * (msUnits - dt) + 64 * q.2.1 * dt, q.2.1 * msUnits)

/-! ## Takeover (R307) -/

/-- Starts a spare in the place of a port; the last spare makes the module degraded (R418). -/
def State.takeOver (s : State) (k sp : Nat) : State :=
  let s1 : State := { s with net := { s.net with takeover := s.net.takeover ++ [(k, sp)], nextWait := s.net.nextWait.filter (· ≠ k) } }
  s.refit (s1.setPf k NET_PSTAT_CAUSE 3)

/-- The link of a port or of a stream is unrecoverable (R302, R307). In a slice without captains the module beyond it is lost, which halts the
job (R354): DEDUCED (log entry 131). -/
def State.linkLost (s : State) : State :=
  let s1 := s.reportFault 0x05 noBlame 0 false
  if s.loaded && !s.hasCaptains then s1.haltJob 0x05 else s1

/-- The traffic of a port moves (R307): to a free spare that is prewired; to a free spare that the road captain has the OCS connect; to replacement
routes of the road captain; or the link is unrecoverable. In a slice without captains the second and the third are not possible. -/
def State.moveTraffic (s : State) (k : Nat) : State :=
  match s.portCfg k with
  | none => s
  | some c =>
    let sp := 4 * c.spare + k % 4
    let free := c.spare ≠ 31 && c.spare ∈ s.freePorts
    if free && c.prewired then (s.takeOver k sp).setPortState sp psIDENT
    else if free && s.hasCaptains then s.takeOver k sp
    else if s.hasCaptains then { s with net := { s.net with nextWait := linsert k s.net.nextWait } }
    else s.linkLost

/-- A port whose failure is lasting is RETIRED, and its traffic moves (R307): that of a spare in use is the traffic of the port whose place it
took; an idle spare and a port that is not used have none. -/
def State.retirePort (s : State) (k : Nat) : State :=
  let s1 := (s.setPortState k psRETIRED).setPort k PortSt.reset
  match s.net.takeover.find? (fun t => t.2 = k), s.portCfg k with
  | some t, _ => ({ s1 with net := { s1.net with takeover := s1.net.takeover.filter (fun x => x ≠ t) } } : State).moveTraffic t.1
  | none, some c => if c.use = 1 ∨ c.use = 3 then s1.moveTraffic k else s1
  | none, none => s1

end Sys2Proof.Machine
end

