-- ==== Sys2Proof/Machine/Operands.lean ====
section
/-! DEFINITION. The operations of the slots, the register files, operand reads and writes, and which fields and formats
an operation accepts (R115, R116, R154, R158 to R183). -/

set_option autoImplicit false

namespace Sys2Proof.Machine

/-- Scalar operations (R161). -/
inductive ScOp where
  | add | sub | and | or | xor | shl | shr | sra | min | max | minu | maxu | addi | andi | ori | xori | shli | shri | srai | movi | movh | mul | mulh | mulhu | ceq | cne | clt | cltu | cge | cgeu | pand | por | pxor | pandn | mfsr | mtsr
  deriving DecidableEq, Repr

/-- Branch slot operations (R164). -/
inductive BrOp where
  | b | bl | jr | arrive
  deriving DecidableEq, Repr

/-- Vector operations (R169). -/
inductive VecOp where
  | vadd | vsub | vmul | vfma | vfms | vmin | vmax | vabs | vneg | vfcmp | vicmp | viadd | visub | vand | vor | vxor | vshl | vshr | vsra | vimin | vimax | vsel | vrot | vbcast | vext | vcvt | vqblk | vtlu
  deriving DecidableEq, Repr

/-- Load and store operations (R176). -/
inductive LsOp where
  | ld1u | ld1s | ld2u | ld2s | ld4u | ld4s | ld8 | st1 | st2 | st4 | st8 | vld128 | vld256 | vst128 | vst256
  deriving DecidableEq, Repr

/-- A decoded operation with its fields. A NOP names its slot; `feed` says by its flag whether it is FEEDV; array operations name their array. -/
inductive Op where
  | nop (slot : Nat) (pred : BitVec 4)
  | sc (o : ScOp) (f : ScF)
  | br (o : BrOp) (f : BrF)
  | vec (o : VecOp) (f : VecF)
  | ls (o : LsOp) (f : LsF)
  | feed (v : Bool) (f : FeedF)
  | ldw (a : Nat) (f : LdwF)
  | pass (a : Nat) (f : PassF)
  | drain (a : Nat) (f : DrainF)
  | dmac (f : DmacF)
  | dmad (f : DmadF)
  deriving DecidableEq, Repr

/-- The slot of an operation (R151). -/
def Op.slot : Op → Nat
  | .nop i _ => i
  | .sc _ f => if f.sc1 then 1 else 0
  | .br _ _ => 2
  | .vec _ _ => 3
  | .ldw a _ => 4 + a
  | .pass a _ => 4 + a
  | .drain a _ => 4 + a
  | .feed _ _ => 8
  | .ls _ _ => 9
  | .dmac f => if f.dma1 then 11 else 10
  | .dmad f => if f.dma1 then 11 else 10

/-- The governing predicate of an operation (R155). -/
def Op.pred : Op → Nat
  | .nop _ p => p.toNat
  | .sc _ f => f.pred.toNat
  | .br _ f => f.pred.toNat
  | .vec _ f => f.pred.toNat
  | .ldw _ f => f.pred.toNat
  | .pass _ f => f.pred.toNat
  | .drain _ f => f.pred.toNat
  | .feed _ f => f.pred.toNat
  | .ls _ f => f.pred.toNat
  | .dmac f => f.pred.toNat
  | .dmad f => f.pred.toNat

/-! ## Register files (R115) -/

/-- A scalar register; s0 reads 0. -/
def Site.sreg (c : Site) (i : Nat) : SVal := if i = 0 then ⟨0, false⟩ else mget ⟨0, false⟩ c.sregs i

/-- Writes a scalar register; a write to s0 is discarded. -/
def Site.setS (c : Site) (i : Nat) (v : Word) (poi : Bool) : Site :=
  if i = 0 then c else { c with sregs := mput ⟨0, false⟩ i ⟨v, poi⟩ c.sregs }

/-- A vector register. -/
def Site.vreg (c : Site) (i : Nat) : VVal := mget ⟨0, false⟩ c.vregs i

/-- Writes a vector register. -/
def Site.setV (c : Site) (i : Nat) (v : BitVec 2048) (poi : Bool) : Site :=
  { c with vregs := mput ⟨0, false⟩ i ⟨v, poi⟩ c.vregs }

/-- A predicate register; p0 reads all ones. -/
def Site.preg (c : Site) (i : Nat) : PVal :=
  if i = 0 then ⟨BitVec.allOnes 128, false⟩ else mget ⟨0, false⟩ c.pregs i

/-- Writes a predicate register; a write to p0 is discarded. -/
def Site.setP (c : Site) (i : Nat) (v : BitVec 128) (poi : Bool) : Site :=
  if i = 0 then c else { c with pregs := mput ⟨0, false⟩ i ⟨v, poi⟩ c.pregs }

/-- Bit 0 of a governing predicate (R155). -/
def Site.enabled (c : Site) (p : Nat) : Bool := (c.preg p).val.getLsbD 0

/-- A 24-bit byte offset, sign-extended (R175). -/
def sext24 (v : BitVec 24) : Word := v.signExtend 64

/-- The 64-bit sum sa + sext(OFF) that every local address is formed from (R175, R499). -/
def Site.ea (c : Site) (ra : BitVec 6) (off : BitVec 24) : Word := (c.sreg ra.toNat).val + sext24 off

/-- ORs flags into core.vfl (R170). -/
def Site.orVfl (c : Site) (fl : Flags) : Site := c.set CORE_VFL_FLAGS (c.f CORE_VFL_FLAGS ||| fl.toNat)

/-! ## What a slot's fields may hold (R154, R161 to R164, R168 to R176) -/

/-- Whether a scalar operation names predicates in RD, or in RA and RB. -/
def ScOp.isCmp : ScOp → Bool
  | .ceq => true | .cne => true | .clt => true | .cltu => true | .cge => true | .cgeu => true
  | _ => false

def ScOp.isPred : ScOp → Bool
  | .pand => true | .por => true | .pxor => true | .pandn => true
  | _ => false

/-- Operations with an immediate that names the value: no RB. -/
def ScOp.isImm : ScOp → Bool
  | .addi => true | .andi => true | .ori => true | .xori => true | .shli => true | .shri => true | .srai => true
  | .movi => true | .movh => true | .mfsr => true | .mtsr => true
  | _ => false

/-- Whether RA is a source. -/
def ScOp.usesA : ScOp → Bool
  | .movi => false | .mfsr => false
  | _ => true

/-- Whether a 6-bit field names a predicate register. -/
def predName (v : BitVec 6) : Bool := decide (v.toNat < 16)

/-- The special register that MFSR and MTSR name (R162). -/
def srOf (f : ScF) : Nat := f.imm.toNat % 256

/-- Whether a number is a special register of R117. -/
def srAssigned (n : Nat) : Bool := decide (n ≤ 6 ∨ (0x20 ≤ n ∧ n ≤ 0x3F))

/-- What MTSR may write (R120, R142, R162): the register, its value, and for COMMITDONE an earlier wait on t30. -/
def mtsrOk (n : Nat) (v : Word) (t30 : Bool) : Bool :=
  if n = 0 ∨ n = 4 then true
  else if n = 5 then v.toNat / 2 % 4 ≠ 3
  else if n = 6 then decide (v.toNat < 4) && (v.toNat ≠ 3 || t30)
  else false

/-- The encoding check of a scalar slot (R154, R161, R162); `c` is the site before the bundle. -/
def scOk (c : Site) (o : ScOp) (f : ScF) : Bool :=
  let ops :=
    if o.isPred then predName f.rd && predName f.ra && predName f.rb && f.imm = 0
    else if o.isCmp then predName f.rd && f.imm = 0
    else if o.isImm then f.rb = 0 && (o.usesA || f.ra = 0)
    else f.imm = 0
  let imm := match o with
    | .shli => f.imm.toNat < 64
    | .shri => f.imm.toNat < 64
    | .srai => f.imm.toNat < 64
    | .movh => f.imm.toNat < 2 ^ 16
    | .mfsr => f.imm.toNat < 2 ^ 9 && srAssigned (srOf f) && srOf f ≠ 6 && (f.imm.toNat < 256 || srOf f = 1)
    | .mtsr => f.imm.toNat < 256 && f.rd = 0 && mtsrOk (srOf f) (c.sreg f.ra.toNat).val c.t30seen
    | _ => true
  ops && imm

/-- The encoding check of the branch slot (R163 to R165). `shadow`: the bundle is a delay bundle. -/
def brOk (shadow : Bool) (o : BrOp) (f : BrF) : Bool :=
  match o with
  | .b => !shadow && f.ra = 0 && f.rd = 0 && f.bar = 0
  | .bl => !shadow && f.ra = 0 && f.bar = 0
  | .jr => !shadow && f.rd = 0 && f.target = 0 && f.bar = 0
  | .arrive => f.ra = 0 && f.rd = 0 && f.target = 0

/-- Vector operations whose LT is a format and that do arithmetic on it (R168). -/
def VecOp.isFloat : VecOp → Bool
  | .vadd => true | .vsub => true | .vmul => true | .vfma => true | .vfms => true | .vmin => true | .vmax => true
  | .vabs => true | .vneg => true | .vfcmp => true
  | _ => false

/-- Whether VA, VB, VC, VD, S1 (source or destination) and IMM8 are operands (R169). -/
def VecOp.usesVa : VecOp → Bool
  | .vbcast => false
  | _ => true

def VecOp.usesVb : VecOp → Bool
  | .vabs => false | .vneg => false | .vrot => false | .vbcast => false | .vext => false | .vcvt => false
  | .vqblk => false | .vtlu => false
  | _ => true

def VecOp.usesVc : VecOp → Bool
  | .vfma => true | .vfms => true
  | _ => false

def VecOp.usesVd : VecOp → Bool
  | .vext => false
  | _ => true

def VecOp.usesS1 : VecOp → Bool
  | .vbcast => true | .vext => true | .vqblk => true
  | _ => false

def VecOp.usesImm : VecOp → Bool
  | .vfcmp => true | .vicmp => true | .vrot => true | .vext => true | .vqblk => true | .vtlu => true
  | _ => false

def VecOp.isCmp : VecOp → Bool
  | .vfcmp => true | .vicmp => true
  | _ => false

/-- The lane width of an operation that is not a conversion (R168, R169). -/
def vecWidth (o : VecOp) (lt : Nat) : Nat :=
  if o.isFloat then (if lt = 0 then 64 else if lt = 1 then 32 else 16)
  else if o = .vtlu ∨ o = .vqblk then 32
  else (if lt = 0 then 64 else if lt = 1 then 32 else 16)

/-- The SR fields of a conversion (R167, R172): DEF excludes RM and SAT; S2 and S3 are 0 where SR is not selectable. -/
def vecRoundOk (f : VecF) : Bool :=
  if f.useDef then f.rm = 0 && !f.sat
  else f.rm ≠ 3 && (f.rm = 2 || (f.s2 = 0 && f.s3 = 0))

/-- The encoding check of the vector slot (R154, R167 to R174). -/
def vecOk (c : Site) (o : VecOp) (f : VecF) : Bool :=
  let lt := f.lt.toNat
  let imm := f.imm8.toNat
  let unused := (o.usesVa || f.va = 0) && (o.usesVb || f.vb = 0) && (o.usesVc || f.vc = 0) && (o.usesVd || f.vd = 0) &&
    (o.usesS1 || f.s1 = 0) && (o.usesImm || f.imm8 = 0)
  let cvt := o = .vcvt || o = .vqblk
  let plain := cvt || (f.rm = 0 && !f.sat && !f.useDef && f.df = 0 && f.s2 = 0 && f.s3 = 0)
  let own := match o with
    | .vcvt => (fmtOf lt).isSome && (fmtOf f.df.toNat).isSome && vecRoundOk f
    | .vqblk => lt = 1 && decide (4 ≤ f.df.toNat ∧ f.df.toNat ≤ 8) && imm < 2 && f.pred = 0 && vecRoundOk f
    | .vtlu => lt = 1 && imm < 32 && (mfind c.tables imm).isSome
    | .vfcmp => lt < 4 && imm < 7 && f.vd.toNat < 16
    | .vicmp => lt < 3 && imm < 6 && f.vd.toNat < 16
    | .vrot => lt < 3 && imm < 2048 / vecWidth o lt
    | .vext => lt < 3 && imm < 2048 / vecWidth o lt
    | o => if o.isFloat then lt < 4 else lt < 3
  unused && plain && own

def LsOp.isVec : LsOp → Bool
  | .vld128 => true | .vld256 => true | .vst128 => true | .vst256 => true
  | _ => false

def LsOp.isStore : LsOp → Bool
  | .st1 => true | .st2 => true | .st4 => true | .st8 => true | .vst128 => true | .vst256 => true
  | _ => false

/-- Bytes moved (R176). -/
def LsOp.bytes : LsOp → Nat
  | .ld1u => 1 | .ld1s => 1 | .st1 => 1
  | .ld2u => 2 | .ld2s => 2 | .st2 => 2
  | .ld4u => 4 | .ld4s => 4 | .st4 => 4
  | .ld8 => 8 | .st8 => 8
  | .vld128 => 128 | .vst128 => 128
  | .vld256 => 256 | .vst256 => 256

/-- The encoding check of the LS slot (R176). -/
def lsOk (o : LsOp) (f : LsF) : Bool := if o.isVec then f.sr = 0 else f.vr = 0

/-- Formats an array operand may have (R38, R178, R181). -/
def arrFmt (c : Nat) : Bool := decide (2 ≤ c ∧ c ≤ 10)

/-- Formats that take an X8 scale (R35). -/
def scaleFmt (c : Nat) : Bool := decide (4 ≤ c ∧ c ≤ 8)

/-- Products per cell and cycle of a format's class (R61): 1, 2 or 4. -/
def gOf (c : Nat) : Nat := if c = 8 ∨ c = 10 then 4 else if c = 2 ∨ c = 3 then 1 else 2

/-- The width class of a format (R61): 16-bit, 8-bit, 8-bit integer, 4-bit, 4-bit integer. -/
def classOf (c : Nat) : Nat :=
  if c = 2 ∨ c = 3 then 0 else if 4 ≤ c ∧ c ≤ 7 then 1 else if c = 9 then 2 else if c = 8 then 3 else 4

/-- Scale block size of an SCL field (R177): 0 none. -/
def blkOf (scl : Nat) : Nat := if scl = 1 then 16 else if scl = 2 then 32 else 0

/-- Elements of a vector of a format (R63). -/
def vecElems (fmt : Nat) : Nat := 16 * gOf fmt

/-- Whether bytes of RS above the last block of the vector are set, by a FEED that takes effect (R155, R178). The spec demands that
they be 0 and names no outcome for others; the model raises ILLEGAL. DESIGN CHOICE (log entry 103). -/
def feedScalesBad (c : Site) (f : FeedF) : Bool :=
  c.enabled f.pred.toNat && f.scl ≠ 0 &&
    !decide ((c.sreg f.rs.toNat).val.toNat < 2 ^ (8 * (vecElems f.fmt.toNat / blkOf f.scl.toNat)))

/-- The encoding check of the FEED slot (R178). -/
def feedOk (c : Site) (v : Bool) (f : FeedF) : Bool :=
  let fmt := f.fmt.toNat
  let scl := f.scl.toNat
  arrFmt fmt && scl ≠ 3 && (scl = 0 || scaleFmt fmt) && (scl ≠ 0 || f.rs = 0) &&
  (if v then f.ra = 0 && f.off = 0 else f.vs = 0 && f.chunk = 0) && !feedScalesBad c f

/-- Width of a pack in a packing mode, and the number of packs (R79). -/
def packWidth (mode : Nat) : Nat := if mode = 0 then 64 else if mode = 1 then 32 else 16
def packCount (mode : Nat) : Nat := if mode = 0 then 1 else if mode = 1 then 2 else 4

/-- The quarters of pack p (R79). -/
def quartersOf (mode p : Nat) : List Nat :=
  if mode = 0 then [0, 1, 2, 3] else if mode = 1 then [2 * p, 2 * p + 1] else [p]

/-- The encoding check of LDW (R181). -/
def ldwOk (mode : Nat) (f : LdwF) : Bool :=
  let fmt := f.wfmt.toNat
  let scl := f.scl.toNat
  arrFmt fmt && decide (f.kvm1.toNat + 1 ≤ 16 * gOf fmt) && decide (f.nvm1.toNat + 1 ≤ packWidth mode) && scl ≠ 3 &&
    (scl = 0 || scaleFmt fmt) && (scl ≠ 0 || f.rs = 0)

/-- The encoding check of PASS (R181). -/
def passOk (f : PassF) : Bool := f.pmask ≠ 0 && (f.drn || f.ddi = 0)

/-! ## Latencies (R129, R161, R164, R169, R176) -/

def ScOp.latency : ScOp → Nat
  | .mul => 3 | .mulh => 3 | .mulhu => 3
  | .mfsr => 2
  | _ => 1

def vecLatency (o : VecOp) (lt : Nat) : Nat :=
  if o.isCmp then 2
  else if o.isFloat then (if lt = 0 then 6 else if lt = 1 then 4 else 2)
  else if o = .vcvt ∨ o = .vqblk then 3
  else if o = .vtlu then 6
  else 2

/-- Registers that an operation reads (R128): scalar, vector and predicate sources, its governing predicate, and the
destination of a vector operation under a predicate other than p0, VSEL apart (R116). -/
def opReads (o : Op) : List (RegFile × Nat) :=
  (.predicate, o.pred) :: match o with
    | .nop _ _ => []
    | .sc o f =>
      if o.isPred then [(.predicate, f.ra.toNat), (.predicate, f.rb.toNat)]
      else if o = .mfsr then [(.special, srOf f)]
      else if o.isImm then (if o.usesA then [(.scalar, f.ra.toNat)] else [])
      else [(.scalar, f.ra.toNat), (.scalar, f.rb.toNat)]
    | .br o f => if o = .jr then [(.scalar, f.ra.toNat)] else []
    | .vec o f =>
      (if o.usesVa then [(.vector, f.va.toNat)] else []) ++ (if o.usesVb then [(.vector, f.vb.toNat)] else []) ++
      (if o.usesVc then [(.vector, f.vc.toNat)] else []) ++ (if o = .vbcast then [(.scalar, f.s1.toNat)] else []) ++
      (if o = .vcvt ∨ o = .vqblk then [(.scalar, f.s2.toNat), (.scalar, f.s3.toNat)] else []) ++
      (if f.pred ≠ 0 ∧ o ≠ .vsel ∧ o.usesVd then
        [((if o.isCmp then RegFile.predicate else RegFile.vector), f.vd.toNat)] else [])
    | .ls o f =>
      (.scalar, f.ra.toNat) :: (if o.isStore then
        [if o.isVec then (.vector, f.vr.toNat) else (.scalar, f.sr.toNat)] else [])
    | .feed v f => (if v then [(.vector, f.vs.toNat)] else [(.scalar, f.ra.toNat)]) ++ [(.scalar, f.rs.toNat)]
    | .ldw _ f => [(.scalar, f.ra.toNat), (.scalar, f.rs.toNat)]
    | .pass _ _ => []
    | .drain _ _ => []
    | .dmac f => [(.scalar, f.rsrc.toNat), (.scalar, f.rdst.toNat), (.scalar, f.rlen.toNat)]
    | .dmad f => [(.scalar, f.ra.toNat)]

/-- Registers that an operation writes, with its latency (R128, R129). A write to s0 takes part in no hazard check; R115 says no such thing
of p0, whose writes are discarded too (log entry 15). -/
def opWrites (o : Op) : List (RegFile × Nat × Nat) :=
  ((match o with
    | .sc o f =>
      if o.isCmp || o.isPred then [(.predicate, f.rd.toNat, o.latency)]
      else if o = .mtsr then [(.special, srOf f, 1)]
      else [(.scalar, f.rd.toNat, o.latency)]
    | .br o f => if o = .bl then [(.scalar, f.rd.toNat, 1)] else []
    | .vec o f =>
      (if o.usesVd then [((if o.isCmp then RegFile.predicate else RegFile.vector), f.vd.toNat, vecLatency o f.lt.toNat)]
        else []) ++
      (if o = .vext ∨ o = .vqblk then [(.scalar, f.s1.toNat, vecLatency o f.lt.toNat)] else [])
    | .ls o f =>
      if o.isStore then [] else if o.isVec then [(.vector, f.vr.toNat, 5)] else [(.scalar, f.sr.toNat, 4)]
    | _ => []) : List (RegFile × Nat × Nat)).filter (fun w => !(w.1 = .scalar && w.2.1 = 0))

/-- The scalar registers whose poison an operation consumes (R159): the target of JR, a base register of an address, a DMA
source, destination or length, the value of MTSR. -/
def opConsumes (o : Op) : List Nat :=
  match o with
  | .sc .mtsr f => [f.ra.toNat]
  | .br .jr f => [f.ra.toNat]
  | .ls _ f => [f.ra.toNat]
  | .feed v f => if v then [] else [f.ra.toNat]
  | .ldw _ f => f.ra.toNat :: (if f.scl = 0 then [] else [f.rs.toNat])
  | .dmac f => [f.rsrc.toNat, f.rdst.toNat, f.rlen.toNat]
  | .dmad f => [f.ra.toNat]
  | _ => []

/-- Whether an operation consumes poison when it is decoded (R159): by its governing predicate, the VEC slot apart, or by
one of those registers. -/
def opPoisonUse (c : Site) (o : Op) : Bool :=
  (match o with
    | .vec _ _ => false
    | .nop i p => decide (i ≠ 3) && (c.preg p.toNat).poi
    | o => (c.preg o.pred).poi) || (opConsumes o).any (fun r => (c.sreg r).poi)

end Sys2Proof.Machine
end

