-- ==== Sys2Proof/Machine/Gate.lean ====
section
/-! DEFINITION. Tokens (R131 to R133), phases and marks (R24, R25, R142), commit pages (R222), the step block (R218), the
step record (R330), pending SHADOW values (R283 to R286), the opening of COMMIT (R219) and the step entry (R141). -/

set_option autoImplicit false

namespace Sys2Proof.Machine

/-! ## Tokens -/

/-- The header word of the bundle at CORE_PC (R151, R152). -/
def Site.header (c : Site) : Nat := (c.istore.dec (c.f CORE_PC_PC * 128)).1.toNat

/-- The token that the bundle at CORE_PC waits on, if it waits (R152). -/
def Site.waitTok (c : Site) : Option Nat :=
  let h := c.header
  if bitsOf h 22 17 = 0 then none else some (bitsOf h 16 12)

/-- One event of a token (R131, R132, R133): at 65,535 it is lost and sets the overflow bit; else the counter rises, and
an error sets the error bit. An error event that is lost sets no error bit. DESIGN CHOICE (log entry 104). -/
def Site.tokEvent (c : Site) (t : Nat) (err lost : Bool) : Site :=
  if c.f (CORE_TOK_CNT t) = 65535 then c.set (CORE_TOK_OVF t) 1
  else
    let c1 := c.set (CORE_TOK_CNT t) (c.f (CORE_TOK_CNT t) + 1)
    let c2 := if err then c1.set (CORE_TOK_ERR t) 1 else c1
    if err && lost then { c2 with lostToks := linsert t c2.lostToks } else c2

/-- Detail of DMAERR (R138): the token, and bit 7 for a lost transfer. Where an address error and a lost transfer have both marked the token,
the lost one decides the bit and with it the class: the rule does not say. DESIGN CHOICE (log entry 123). -/
def Site.dmaErrDetail (c : Site) (t : Nat) : Nat := t + (if t ∈ c.lostToks then 128 else 0)

/-- A core that stands stalled on a token whose error or overflow bit has just been set raises DMAERR or TOKOVF in that
cycle (R132, R133). -/
def State.wakeStalled (s : State) (n t : Nat) : State :=
  let c := s.site n
  if c.f CORE_STATE_STATE = 2 ∧ c.waitTok = some t then
    if c.f (CORE_TOK_ERR t) = 1 then s.takeException n 0x05 (c.dmaErrDetail t) 0 0
    else if c.f (CORE_TOK_OVF t) = 1 then s.takeException n 0x07 t 0 0
    else s
  else s

/-- A token event at a site, with its consequences for a stalled core. -/
def State.tokenEvent (s : State) (n t : Nat) (err lost : Bool) : State :=
  (s.onSite n (fun c => c.tokEvent t err lost)).wakeStalled n t

/-! ## Phases and marks -/

/-- The phase in effect: core.step.PHASE of every live core and the heartbeat's PHASE (R24, R118). -/
def State.setPhase (s : State) (p : Nat) : State :=
  let s1 := s.onLive (fun c => c.set CORE_STEP_PHASE p)
  { s1 with gate := { s1.gate with phase := p } }

/-- Progress marks of a role. -/
def State.marks (s : State) (role : Nat) : Marks := mget ⟨false, false, false⟩ s.gate.marks role

/-- Sets the progress marks of a role. -/
def State.setMarks (s : State) (role : Nat) (m : Marks) : State :=
  { s with gate := { s.gate with marks := mput ⟨false, false, false⟩ role m s.gate.marks } }

/-- BWD begins at the first backward micro-batch of any core (R25). -/
def State.bwdBegin (s : State) : State :=
  if s.gate.phase = 1 ∧ s.liveRoles.any (fun r => (s.marks r).bwdStart || (s.marks r).bwdDone) then s.setPhase 2 else s

/-- Whether a step is a digest step (R335). -/
def State.digestStep (s : State) (step : Nat) : Bool := match s.img with
  | some im => im.resil.dign ≠ 0xFFFF && step % (if im.resil.dign = 0 then 16 else im.resil.dign) = 0
  | none => false

/-- The module's partial of the CHECK reduction: norm, NaN, infinite and poisoned elements (R217, R315). -/
def State.modulePartial (s : State) : BitVec 64 × Nat × Nat × Nat :=
  let cs := s.liveSites.map (fun n => s.site n)
  let w := ndWin 0
  let q := (cs.map (fun c => c.f DRN_NORM_NORM) ++ [s.d w COL_NORM_NORM]).foldl (fun a v => add64 a (F64.dec v)) posZero
  let tot := fun (f g : Fld) => Nat.min ((cs.map (fun c => c.f f)).sum + s.d w g) (2 ^ 32 - 1)
  (word64 q, tot DRN_CNT_NCNT COL_CNT_NCNT, tot DRN_CNT_ICNT COL_CNT_ICNT, tot DRN_CNT_PCNT COL_CNT_PCNT)

/-- PEL_CGCFG as read. -/
def State.cgcfg (s : State) : Nat := PEL_CGCFG.flds.foldl (fun a x => a + s.hd x * 2 ^ x.lo) 0

/-- The digest records that the module contributes on a digest step (R336). -/
def State.digestRecs (s : State) : List DigestRec :=
  if !s.digestStep s.stepNo.toNat then []
  else match s.img with
    | some im =>
      let rcd := fun (mirror : Bool) (shard : Nat) (d : Option (BitVec 256)) =>
        (⟨BitVec.ofNat 32 shard, BitVec.ofNat 16 s.devidx, mirror, d.isNone, d.getD 0⟩ : DigestRec)
      rcd false im.resil.shardId s.rep.ownDigest :: s.rep.mirrorDigests.map (fun m => rcd true m.1 m.2)
    | none => []

/-! ## Commit pages -/

/-- The page list of a role's commit group (R273). -/
def State.pagesOf (s : State) (role : Nat) : List Nat := match s.img with
  | some im => match im.commit.find? (fun g => g.1 = role) with
    | some g => g.2
    | none => []
  | none => []

/-- The commit-page state of a role. -/
def State.pageSt (s : State) (role : Nat) : PageSt := mget ⟨[], 0, none⟩ s.gate.pages role

/-- Sets the commit-page state of a role. -/
def State.setPageSt (s : State) (role : Nat) (p : PageSt) : State :=
  { s with gate := { s.gate with pages := mput ⟨[], 0, none⟩ role p s.gate.pages } }

/-- The page cursor: the index of the first page that has not closed. -/
def State.cursor (s : State) (role : Nat) : Nat := (s.pageSt role).opens.headD (s.pageSt role).next

/-- Number of bytes of a destination row, the row's stride and the number of rows of a DMA (R186). -/
def Dma.dstRows (d : Dma) : Nat × Nat × Nat :=
  match d.kind with
  | .transpose e => (d.rows * e / 8, d.dstride, 8 * d.rbytes / e)
  | _ => (d.rbytes, d.dstride, d.rows)

/-- Pages of 64 KiB that n bytes from a on touch. -/
def pagesTouched (a n : Nat) : List Nat :=
  if n = 0 then [] else (List.range ((a + n - 1) / 65536 + 1 - a / 65536)).map (fun i => a / 65536 + i)

/-- The HBM pages that a DMA writes. -/
def Dma.pages (d : Dma) : List Nat :=
  if d.dstl then []
  else
    let r := d.dstRows
    ((List.range r.2.2).flatMap (fun i => pagesTouched (d.dst + i * r.2.1) r.1)).eraseDups

/-- Whether a DMA into a page is outstanding on the role's core. -/
def State.pageBusy (s : State) (role page : Nat) : Bool :=
  match s.siteOf role with
  | some n => (s.site n).dmas.any (fun d => !d.bad && page ∈ d.pages)
  | none => false

/-- Closes the open pages that no DMA writes any more, once the role has opened a later page or marked COMMITDONE
(R222). -/
def State.closePages (s : State) (role : Nat) : State :=
  let p := s.pageSt role
  let fin := (s.marks role).commitDone
  s.setPageSt role { p with opens := p.opens.filter (fun i =>
    s.pageBusy role ((s.pagesOf role).getD i 0) || (i + 1 = p.next && !fin)) }

/-! ## The step record -/

/-- Partners of the module that have not been declared failed (R330, R350). -/
def State.livePartners (s : State) : List (Nat × Nat) := match s.img with
  | some im => (im.resil.partners.map (fun p => (p.1, p.2.1))).filter (fun p => !s.declared p.2)
  | none => []

/-- Adds an entry to the module's record of a step and sends it to every tandem partner (R330). -/
def State.recordEntry (s : State) (step : BitVec 64) (e : StepEntry) : State :=
  let n := s.rep.nextEntry
  let recs := if s.rep.recs.any (fun r => r.1 = step)
    then s.rep.recs.map (fun r => if r.1 = step then (r.1, r.2 ++ [e]) else r)
    else s.rep.recs ++ [(step, [e])]
  let ps := s.livePartners.map (·.1)
  let una := s.rep.unacked ++ ps.map (fun p => (n, p))
  let s1 : State := { s with rep := { s.rep with recs := recs, nextEntry := n + 1, unacked := una } }
  if s.fenced then s1 else s1.emits (ps.map (fun p => .record p step n e))

/-! ## The step block (R218) -/

/-- The loss scale in force, as an F32 code. -/
def State.lscale (s : State) : Nat := s.hd PEL_CGLS_LSCALE

/-- Writes bytes of the step block into the store of a site, at an offset of the block. -/
def State.putBlock (s : State) (n off : Nat) (bs : Bytes) : State :=
  let a := s.hd PEL_CGSTATE_SBLK + off
  if a + bs.length ≤ 2 ^ 22 then s.onSite n (fun c => { c with store := c.store.write a bs false }) else s

/-- STEP and LSCALE, written before a step entry releases the core. -/
def State.putBlockHead (s : State) (n : Nat) : State :=
  s.putBlock n 0 (leBytes 8 s.stepNo.toNat ++ leBytes 4 s.lscale)

/-- The whole step block of a role, written before t30 is incremented: `gate.block` with the role's CPAGE. -/
def State.putBlockFull (s : State) (n : Nat) : State :=
  let cp := s.cursor ((s.site n).roleNo)
  s.putBlock n 0 (s.gate.block.take 36 ++ leBytes 2 cp ++ (s.gate.block.drop 38))

/-- The step block for a verdict, with CPAGE 0. -/
def State.blockOf (s : State) (gmul gnorm ncnt icnt pcnt : Nat) : Bytes :=
  leBytes 8 s.stepNo.toNat ++ leBytes 4 s.lscale ++ leBytes 4 gmul ++ leBytes 8 gnorm ++ leBytes 4 ncnt ++
    leBytes 4 icnt ++ leBytes 4 pcnt ++ leBytes 2 0 ++ leBytes 1 (s.hd PEL_CGSTATE_ATTEMPT) ++ leBytes 25 0

/-- The limit of a phase timer of the broom wagon: 1 TFB, 2 TRED, 3 TCHK, 4 TCOM (R319). -/
def State.phaseLimit (s : State) (t : Nat) : Nat := match s.img with
  | some im => if t = 1 then im.tfb else if t = 2 then im.tred else if t = 3 then im.tchk else im.tcom
  | none => 0

/-- Arms a phase timer in place of the one before: TIMER of BRM_STATUS. A limit of 0 disables the timer (R319). -/
def State.armTimer (s : State) (t : Nat) : State :=
  s.setD (ndWin 0) BRM_STATUS_TIMER (if s.phaseLimit t = 0 then 0 else t)

/-- COMMIT opens (R219): the step block is written, then t30 is incremented on every core. -/
def State.openCommit (s : State) : State :=
  let s1 := ((s.setGate gCOMMIT).setPhase 5).armTimer 4
  let s2 := s1.liveSites.foldl State.putBlockFull s1
  s2.liveSites.foldl (fun s n => s.tokenEvent n 30 false false) s2

/-! ## CHECK and the marks (R25, R27, R142, R217, R345) -/

/-- The entries of the module's record of a step. -/
def State.entriesOf (s : State) (step : BitVec 64) : List StepEntry :=
  ((s.rep.recs.filter (fun r => r.1 = step)).map (·.2)).flatten

/-- A catch-up replay skips CHECK (R345): COMMIT opens with the step block of the step record. -/
def State.catchUpCommit (s : State) : State :=
  match (s.entriesOf s.stepNo).findSome? (fun e => match e with
    | .stepBlock b => some b
    | _ => none) with
  | some b => State.openCommit { s with gate := { s.gate with block := b } }
  | none => s

/-! ## The CHECK reduction (R312, R315, R336) -/

/-- The largest power of two below n, doubling from h; the first argument bounds the doublings (R312). -/
def treeSplit : Nat → Nat → Nat → Nat
  | 0, h, _ => h
  | k + 1, h, n => if 2 * h < n then treeSplit k (2 * h) n else h

/-- Where a rank stands in the tree of R312 over ranks lo to hi - 1, a node standing at its lowest rank: the rank to which it passes its
value, if any, and the ranks from which it takes one, nearest first. The first argument bounds the depth. The place of a node is a DESIGN
CHOICE (log entry 108). -/
def checkNode : Nat → Nat → Nat → Nat → Option Nat → List Nat → Option Nat × List Nat
  | 0, _, _, _, up, kids => (up, kids)
  | k + 1, lo, hi, r, up, kids =>
    if hi - lo ≤ 1 then (up, kids)
    else
      let m := lo + treeSplit 64 1 (hi - lo)
      if r < m then checkNode k lo m r up (if r = lo then m :: kids else kids)
      else checkNode k m hi r (if r = m then some lo else up) kids

/-- This module's place in the CHECK tree of the slice. -/
def State.checkTree (s : State) : Option Nat × List Nat := match s.img with
  | some im => checkNode 64 0 im.slicen s.devidx none []
  | none => (none, [])

/-- Two values of the CHECK reduction combined (R315). -/
def CheckPart.combine (a b : CheckPart) : CheckPart :=
  let sat := fun (x y : Nat) => Nat.min (x + y) (2 ^ 32 - 1)
  { norm := word64 (add64 (F64.dec a.norm.toNat) (F64.dec b.norm.toNat)), ncnt := sat a.ncnt b.ncnt, icnt := sat a.icnt b.icnt,
    pcnt := sat a.pcnt b.pcnt, cfg := a.cfg, mismatch := a.mismatch || b.mismatch || a.cfg ≠ b.cfg, digests := a.digests ++ b.digests }

/-- A value as the slice totals. -/
def CheckPart.totals (p : CheckPart) : SliceTotals :=
  ⟨p.norm, BitVec.ofNat 32 p.ncnt, BitVec.ofNat 32 p.icnt, BitVec.ofNat 32 p.pcnt, p.mismatch, p.digests⟩

/-- A digest record as a number (R336). -/
def digestNat (r : DigestRec) : Nat :=
  r.shard.toNat + r.dev.toNat * 2 ^ 32 + (if r.mirror then 2 ^ 48 else 0) + (if r.poi then 2 ^ 49 else 0) + r.dig.toNat * 2 ^ 256

/-- A digest record from its number. -/
def digestOf (v : Nat) : DigestRec :=
  ⟨BitVec.ofNat 32 v, BitVec.ofNat 16 (v / 2 ^ 32), bitOf v 48, bitOf v 49, BitVec.ofNat 256 (v / 2 ^ 256)⟩

/-- The payload of a CHECK message. R299 names the message and lays out no payload: the norm; NCNT and ICNT; PCNT and the check of PEL_CGCFG;
the mismatch bit and the number of digest records; the records. DESIGN CHOICE (log entry 108). -/
def CheckPart.words (p : CheckPart) : List CodeWord :=
  let w := fun (v : Nat) => mkCode (BitVec.ofNat 64 v) false
  [mkCode p.norm false, w (p.ncnt + p.icnt * 2 ^ 32), w (p.pcnt + p.cfg.toNat * 2 ^ 32),
   w ((if p.mismatch then 1 else 0) + p.digests.length * 2 ^ 32)] ++
  p.digests.flatMap (fun r => (List.range 8).map (fun i => w (digestNat r / 2 ^ (64 * i))))

/-- Cuts words into digest records of eight; the first argument bounds them. -/
def digestsOf : Nat → List Nat → List DigestRec
  | 0, _ => []
  | k + 1, ws => digestOf (((ws.take 8).zipIdx.map (fun w => w.1 * 2 ^ (64 * w.2))).sum) :: digestsOf k (ws.drop 8)

/-- The value in the payload of a CHECK message, once all its words are here. A word that does not decode makes the counts of it unusable:
it is taken as poison of the partial, which fails CHECK. DESIGN CHOICE (log entry 108). -/
def CheckPart.ofWords (ws : List CodeWord) : Option CheckPart :=
  let v := ws.map (fun w => (cwDecode w).1.toNat)
  let val := fun (i : Nat) => v.getD i 0
  let n := val 3 / 2 ^ 32
  if ws.length < 4 ∨ ws.length < 4 + 8 * n then none
  else
    let bad := ws.any (fun w => (cwDecode w).2.bad)
    some { norm := BitVec.ofNat 64 (val 0), ncnt := val 1 % 2 ^ 32, icnt := val 1 / 2 ^ 32,
           pcnt := if bad then Nat.max 1 (val 2 % 2 ^ 32) else val 2 % 2 ^ 32, cfg := BitVec.ofNat 32 (val 2 / 2 ^ 32),
           mismatch := val 3 % 2 = 1, digests := digestsOf n (v.drop 4) }

/-- Replaces what is known of the CHECK reduction. -/
def State.setCheck (s : State) (c : CheckSt) : State := { s with rep := { s.rep with check := c } }

/-- Sends a CHECK message to a rank, MSG 0 for a partial on its way up and 1 for the result on its way down, in packets of at most 512 words
of the collective class, which the panniers keep (R299, R300, R325). -/
def State.sendCheck (s : State) (rank msg : Nat) (p : CheckPart) : State :=
  let ws := p.words
  (List.range ((ws.length + 511) / 512)).foldl (fun s j =>
    s.ualSend 1 1 rank 0xFFFF 0 (BitVec.ofNat 32 msg) (BitVec.ofNat 24 (512 * j)) ((ws.drop (512 * j)).take 512)) s

/-- The result goes down the tree, and stands for the gate (R315). -/
def State.checkResult (s : State) (p : CheckPart) : State :=
  s.checkTree.2.foldl (fun s k => s.sendCheck k 1 p) (s.setCheck { s.rep.check with own := none, total := some p.totals })

/-- Once its own partial and those of every subtree below are here, the module combines them in the order of the tree, and passes the value
up; at the root it is the result (R312, R315). -/
def State.checkCombine (s : State) : State :=
  let c := s.rep.check
  let t := s.checkTree
  match c.own with
  | none => s
  | some p =>
    if s.devidx ∉ s.slice ∨ !t.2.all (fun k => c.kids.any (fun x => x.1 = k)) then s
    else
      let v := t.2.foldl (fun a k => match c.kids.find? (fun x => x.1 = k) with
        | some x => a.combine x.2
        | none => a) p
      match t.1 with
      | some up => (s.setCheck { c with own := none }).sendCheck up 0 v
      | none => s.checkResult v

/-- Words of a CHECK message from a device (R299, R315): a complete partial of a subtree below is combined; a complete result is taken
from the module above, and goes on down. -/
def State.checkIn (s : State) (dev msg : Nat) (ws : List CodeWord) : State :=
  let c := s.rep.check
  let old := match c.words.find? (fun x => x.1 = dev && x.2.1 = msg) with
    | some x => x.2.2
    | none => []
  let rest := c.words.filter (fun x => !(x.1 = dev && x.2.1 = msg))
  let all := old ++ ws
  match CheckPart.ofWords all with
  | none => s.setCheck { c with words := rest ++ [(dev, msg, all)] }
  | some p =>
    let s1 := s.setCheck { c with words := rest }
    if msg = 0 ∧ dev ∈ s.checkTree.2 then (s1.setCheck { s1.rep.check with kids := c.kids ++ [(dev, p)] }).checkCombine
    else if msg = 1 ∧ s.checkTree.1 = some dev then s1.checkResult p
    else s1

/-- The module's partial enters the slice reduction (R217, R315). A fenced module sends none (R373). -/
def State.checkPart (s : State) : State :=
  let p := s.modulePartial
  let cfg := BitVec.ofNat 32 (Config.cfgCheck s.cgcfg)
  if s.fenced then s
  else
    let s1 := s.setCheck { s.rep.check with begun := false, own := some ⟨p.1, p.2.1, p.2.2.1, p.2.2.2, cfg, false, s.digestRecs⟩ }
    (s1.emit (.checkPartial p.1 p.2.1 p.2.2.1 p.2.2.2 cfg s.digestRecs)).checkCombine

/-- Whether the engine has delivered the module's last reduced shard (R25): none is in flight, and one has completed in the step where the
image names groups. How many there are in a step the spec does not say: DEDUCED (log entry 31). -/
def State.shardsDone (s : State) : Bool := s.col.colls = [] && (match s.img with
  | some im => im.groups = [] || s.d (ndWin 0) COL_STATUS_DONE ≠ 0
  | none => true)

/-- CHECK begins (R25, R27, R219, R319, R330): the gate waits under TCHK, and the packets of the steps before leave the panniers, and
their records with them. On a digest step the partial waits for the digests (R335). -/
def State.checkOpen (s : State) : State :=
  let s1 := ((s.setPhase 4).setGate gWAIT).armTimer 3
  let s2 : State := { s1 with rep := { s1.rep with recs := s1.rep.recs.filter (fun r => decide (s.stepNo.toNat ≤ r.1.toNat)),
                                                        partnerRecs := s1.rep.partnerRecs.filter (fun r => decide (s.stepNo.toNat ≤ r.2.1.toNat)) } }
  let s3 := s2.panDiscard (fun t => decide (t.toNat < s.stepNo.toNat))
  if s.digestStep s.stepNo.toNat ∧ !s.rep.digestReady then s3.setCheck { s3.rep.check with begun := true }
  else s3.checkPart

/-- CHECK begins once the last reduced shard is delivered (R25). A catch-up replay skips it (R345). -/
def State.checkBegin (s : State) : State :=
  if !s.hdRuns then s else
  if s.gate.phase ≠ 3 ∨ s.gateState ≠ gRUN ∨ !s.shardsDone then s
  else if s.gate.catchUp then s.catchUpCommit
  else s.checkOpen

/-- REDUCE begins when the last backward micro-batch of every core has drained (R25). -/
def State.reduceBegin (s : State) : State :=
  if s.hdRuns ∧ s.gate.phase = 2 ∧ s.liveRoles.all (fun r => (s.marks r).bwdDone) then ((s.setPhase 3).armTimer 2).checkBegin
  else s

/-- A progress mark of a role (R142). COMMITDONE counts only while the gate is in COMMIT (log entry 16). -/
def State.markRole (s : State) (role code : Nat) : State :=
  let m := s.marks role
  if code = 1 then (s.setMarks role { m with bwdStart := true }).bwdBegin
  else if code = 2 then ((s.setMarks role { m with bwdDone := true }).bwdBegin).reduceBegin
  else if code = 3 ∧ s.gateState = gCOMMIT then (s.setMarks role { m with commitDone := true }).closePages role
  else s

/-! ## Pending SHADOW values (R283 to R286) -/

/-- The field that a key of a site's field maps names. -/
def siteFieldAt (key : Nat) : Option Fld :=
  match siteReg (key / 64) with
  | some r => r.flds.find? (fun x => x.lo = key % 64)
  | none => none

/-- The field that a key of the die field maps names. -/
def dieFieldAt (key : Nat) : Option Fld :=
  let k := key % 2 ^ 30
  match winReg (key / 2 ^ 30) (k / 64) with
  | some r => r.flds.find? (fun x => x.lo = k % 64)
  | none => none

/-- Whether a key is a field of an ARR_REPAIRn, and of which array. -/
def repairArr (key : Nat) : Option Nat :=
  let off := key / 64
  if 0xA000 ≤ off ∧ off < 0xA100 ∧ off % 0x40 = 4 then some ((off - 0xA000) / 0x40) else none

/-- An array of a site. -/
def Site.arr (c : Site) (a : Nat) : Arr := mget Arr.reset c.arrs a

/-- Replaces an array of a site. -/
def Site.setArr (c : Site) (a : Nat) (x : Arr) : Site := { c with arrs := mput Arr.reset a x c.arrs }

/-- One pending value takes effect; an ARR_REPAIRn value waits for its array to idle (R87, R285). -/
def Site.applyKey (c : Site) (key v : Nat) : Site :=
  match repairArr key with
  | some a =>
    let cur := ((c.arr a).newRepair).getD (c.f (ARR_REPAIR_FROW a), c.f (ARR_REPAIR_FCOL a))
    let nxt := if key % 64 = 0 then (v, cur.2) else (cur.1, v)
    c.setArr a { c.arr a with newRepair := some nxt }
  | none => match siteFieldAt key with
    | some x => c.set x v
    | none => c

/-- Every pending value of a site and its tables take effect together (R285). -/
def Site.applyShadow (c : Site) : Site :=
  let c1 := c.shadow.foldl (fun c e => c.applyKey e.1 e.2) c
  { c1 with shadow := [], tables := c1.tableShadow.foldl (fun m e => mset e.1 e.2 m) c1.tables, tableShadow := [] }

/-- Pending values of die windows take effect (R284). -/
def State.applyDieShadow (s : State) : State :=
  let s1 := s.shadow.foldl (fun s e => match dieFieldAt e.1 with
    | some x => s.setD (e.1 / 2 ^ 30) x e.2
    | none => s) s
  { s1 with shadow := [] }

/-- The number of fields with a pending value, over the module (FRM_PEND.PEND). -/
def State.pendCount (s : State) : Nat :=
  s.shadow.length + (s.sites.map (fun e => e.2.shadow.length + e.2.tableShadow.length)).sum

/-! ## The step entry (R141) -/

/-- Whether no fixed-latency work is left on a site: no vector, load or row in flight. -/
def Site.quiet (c : Site) : Bool :=
  c.drainQ.all (fun r => r.terms.isSome) && c.arrs.all (fun e => e.2.vecs.isEmpty && e.2.loads.isEmpty)

/-- Weight buffers not ready, open passes ended (R141; log entry 17 for the passes). -/
def Site.clearTiles (c : Site) : Site :=
  (List.range 4).foldl (fun c a => c.setArr a { c.arr a with tiles := [], passes := [], lastFeed := [] }) c

/-- A channel at a step entry (R213, R214): empty, sequence numbers 0, a send channel's credits restored. -/
def Site.resetChans (c : Site) : Site :=
  let fresh := fun (k : Nat) => { Chan.reset with credits := if c.f (CORE_CH_DIR k) = 0 then c.f (CORE_CH_NSLM1 k) + 1 else 0 }
  let ms := (List.range 6).foldl (fun m k => if c.f (CORE_CH_EN k) = 1 then mput Chan.reset k (fresh k) m else m) []
  { c with chans := ms }

/-- Clears the norm and count partials (R216). -/
def Site.clearPartials (c : Site) : Site :=
  (((c.set DRN_NORM_NORM 0).set DRN_CNT_NCNT 0).set DRN_CNT_ICNT 0).set DRN_CNT_PCNT 0

/-- The register part of a step entry (R141): tokens and pending bits, the recorded exception, core.step, core.status,
core.vfl, HAZ and core.vctl; then the core is released at CORE_ENTRY. -/
def Site.enter (c : Site) (step : BitVec 64) (epoch phase : Nat) (replay : Bool) : Site :=
  let c1 := (List.range 32).foldl (fun c t =>
    ((c.set (CORE_TOK_CNT t) 0).set (CORE_TOK_ERR t) 0).set (CORE_TOK_OVF t) 0) c
  let c2 := ((c1.set CORE_STATE_CAUSE 0).set CORE_STATE_DETAIL 0).set CORE_STATE_RJCT 0
  let c3 := (((c2.set CORE_STEP_STEP step.toNat).set CORE_STEP_EPOCH epoch).set CORE_STEP_REPLAY
    (if replay then 1 else 0)).set CORE_STEP_PHASE phase
  let c4 := ((c3.set CORE_STATUS_POIW 0).set CORE_STATUS_FLAGS 0).set CORE_VFL_FLAGS 0
  let c5 := (List.range 4).foldl (fun c a => c.set (ARR_STATUS_HAZ a) 0) c4
  let c6 := ((c5.set CORE_VCTL_SAT 1).set CORE_VCTL_RMODE 0).set CORE_VCTL_FLUSH 0
  let c7 := ((c6.clearTiles).resetChans).clearPartials
  let c8 := { c7 with lostToks := [], lastVec := none, flight := [], branch := none, brShadow := 0, stall := 0, stallHeld := 0,
                      t30seen := false, poisonSig := false, gearOrd := 0 }
  (c8.set CORE_PC_PC (c.f CORE_ENTRY_ENTRY)).set CORE_STATE_STATE 1

end Sys2Proof.Machine
end

