-- ==== Sys2Proof/Machine/Scalar.lean ====
section
/-! DEFINITION. The scalar and branch slots: results and effects (R161, R162, R164 to R166). -/

set_option autoImplicit false

namespace Sys2Proof.Machine

/-- The 64-bit result of a scalar operation on sa, sb and the sign-extended immediate (R161). -/
def scalarResult (o : ScOp) (a b : Word) (imm : BitVec 48) : Word :=
  let x := imm.signExtend 64
  let cnt := b.toNat % 64
  let icnt := imm.toNat % 64
  match o with
  | .add => a + b
  | .sub => a - b
  | .and => a &&& b
  | .or => a ||| b
  | .xor => a ^^^ b
  | .shl => a <<< cnt
  | .shr => a >>> cnt
  | .sra => a.sshiftRight cnt
  | .min => if a.slt b then a else b
  | .max => if a.slt b then b else a
  | .minu => if a.ult b then a else b
  | .maxu => if a.ult b then b else a
  | .addi => a + x
  | .andi => a &&& x
  | .ori => a ||| x
  | .xori => a ^^^ x
  | .shli => a <<< icnt
  | .shri => a >>> icnt
  | .srai => a.sshiftRight icnt
  | .movi => x
  | .movh => (a &&& 0xFFFFFFFFFFFF#64) ||| ((imm.extractLsb' 0 16).setWidth 64 <<< 48)
  | .mul => a * b
  | .mulh => BitVec.ofInt 64 (a.toInt * b.toInt / 2 ^ 64)
  | .mulhu => BitVec.ofNat 64 (a.toNat * b.toNat / 2 ^ 64)
  | _ => 0

/-- The condition of a compare (R161). -/
def scalarCond (o : ScOp) (a b : Word) : Bool :=
  match o with
  | .ceq => a = b
  | .cne => a ≠ b
  | .clt => a.slt b
  | .cltu => a.ult b
  | .cge => !a.slt b
  | .cgeu => !a.ult b
  | _ => false

/-- The result of a predicate operation: all 128 bits (R161). -/
def predResult (o : ScOp) (a b : BitVec 128) : BitVec 128 :=
  match o with
  | .pand => a &&& b
  | .por => a ||| b
  | .pxor => a ^^^ b
  | .pandn => a &&& ~~~b
  | _ => 0

/-- core.id (R117). -/
def Site.coreId (n dev : Nat) (c : Site) : Nat := n % 104 + n / 104 * 2 ^ 8 + c.roleNo * 2 ^ 16 + dev * 2 ^ 32

/-- A special register's 64-bit word as MFSR and the view read it (R117); `hi` selects bits 127:64 of core.step. -/
def Site.special (c : Site) (n dev sr : Nat) (hi : Bool) : Nat :=
  if sr = 2 then c.coreId n dev
  else c.regVal (specialReg (0x9200 + 0x10 * sr + (if hi then 8 else 0)))

/-- MTSR to core.status, core.vfl and core.vctl (R119, R117, R120): the flags are RW1C. -/
def Site.writeSpecial (c : Site) (sr : Nat) (v : Word) : Site :=
  if sr = 0 then c.set CORE_STATUS_FLAGS (c.f CORE_STATUS_FLAGS &&& (127 ^^^ (v.toNat % 128)))
  else if sr = 4 then c.set CORE_VFL_FLAGS (c.f CORE_VFL_FLAGS &&& (127 ^^^ (v.toNat % 128)))
  else if sr = 5 then
    ((c.set CORE_VCTL_SAT (bitsOf v.toNat 3 3)).set CORE_VCTL_RMODE (bitsOf v.toNat 2 1)).set CORE_VCTL_FLUSH (bitsOf v.toNat 0 0)
  else c

/-- The effect of a scalar operation at site `n`: `pre` is the site in the issue cycle, whose operands it reads (R156);
nothing when bit 0 of its predicate is 0 (R116). -/
def scEffect (pre : Site) (o : ScOp) (f : ScF) (n : Nat) (s : State) : State :=
  let a := pre.sreg f.ra.toNat
  let b := pre.sreg f.rb.toNat
  if !pre.enabled f.pred.toNat then s
  else if o.isPred then
    let pa := pre.preg f.ra.toNat
    let pb := pre.preg f.rb.toNat
    s.onSite n (fun c => c.setP f.rd.toNat (predResult o pa.val pb.val) (pa.poi || pb.poi))
  else if o.isCmp then
    s.onSite n (fun c => c.setP f.rd.toNat (if scalarCond o a.val b.val then BitVec.allOnes 128 else 0) (a.poi || b.poi))
  else if o = .mfsr then
    s.onSite n (fun c => c.setS f.rd.toNat (BitVec.ofNat 64 (pre.special n s.devidx (srOf f) (decide (256 ≤ f.imm.toNat)))) false)
  else if o = .mtsr then
    if srOf f = 6 then (match pre.role with
      | some r => s.markRole r a.val.toNat
      | none => s)
    else s.onSite n (fun c => c.writeSpecial (srOf f) a.val)
  else
    let poi := (o.usesA && a.poi) || (!o.isImm && b.poi)
    s.onSite n (fun c => c.setS f.rd.toNat (scalarResult o a.val b.val f.imm) poi)

/-- The effect of B, BL and JR (R164): a taken branch keeps its target for after two delay bundles; the shadow counts the
delay bundles whether taken or not (R165). `pc` is the bundle's index. -/
def brEffect (pre : Site) (o : BrOp) (f : BrF) (pc n : Nat) (s : State) : State :=
  let on := pre.enabled f.pred.toNat
  let tgt := if o = .jr then (pre.sreg f.ra.toNat).val.toNat % 4096 else f.target.toNat
  s.onSite n (fun c =>
    let c1 := { c with brShadow := 2, branch := if on then some (2, tgt) else c.branch }
    if o = .bl ∧ on then c1.setS f.rd.toNat (BitVec.ofNat 64 ((pc + 3) % 4096)) false else c1)

/-! ## Barriers (R134) -/

/-- The barrier group bound to a token of a role. -/
def State.barrierOf (s : State) (role tok : Nat) : Option Nat := match s.img with
  | some im => (im.stages.barriers.find? (fun b => b.2.1 = tok ∧ b.2.2 = role)).map (·.1)
  | none => none

/-- ARRIVE (R134): the arrival of the role at the group bound to its token counts toward the next release. -/
def arriveEffect (pre : Site) (f : BrF) (s : State) : State :=
  if !pre.enabled f.pred.toNat then s
  else match pre.role with
    | some r => match s.barrierOf r (16 + f.bar.toNat) with
      | some g => { s with gate := { s.gate with arrivals := s.gate.arrivals ++ [(g, r)] } }
      | none => s
    | none => s

end Sys2Proof.Machine
end

