-- ==== Sys2Proof/Machine/Vector.lean ====
section
/-! DEFINITION. The vector slot (R166 to R174): lanes, flags, conversions, block quantisation and table lookup. -/

set_option autoImplicit false

namespace Sys2Proof.Machine

/-- Lane `i` of w bits of a vector register. -/
def lane (v : BitVec 2048) (w i : Nat) : Nat := elemAt v.toNat w i

/-- Whether a magnitude is a nonzero subnormal of a format. -/
def Fmt.isSub (f : Fmt) (v : FV) : Bool :=
  match v with
  | .fin _ m e => m ≠ 0 && magGt 1 f.emin m e
  | _ => false

/-- A zero of a value's sign. -/
def FV.zeroed (v : FV) : FV := .fin v.neg 0 0

/-- Reads an operand under flush mode (R56). -/
def flushIn (f : Fmt) (flush : Bool) (v : FV) : FV := if flush && f.isSub v then v.zeroed else v

/-- Rounds a floating result, with flush mode (R56) and the flags INV, SAT and UNF of R170. -/
def vecRound (f : Fmt) (flush : Bool) (r : FV × Bool) : FV × Flags :=
  if r.2 then (.nan, flINV)
  else
    let q := f.rnd false r.1
    let sub := flush && f.isSub q.v
    ((if sub then q.v.zeroed else q.v), flagIf q.ovf flSAT ||| flagIf (q.unf || sub) flUNF)

/-- One lane of floating arithmetic (R169, R170). -/
def fpLane (o : VecOp) (f : Fmt) (flush : Bool) (a b c : FV) : FV × Flags :=
  let nan1 := flagIf a.isNan flNANI
  let nan2 := flagIf (a.isNan || b.isNan) flNANI
  let opf := fun (l : List FV) => flagIf (l.any FV.isNan) flNANI ||| flagIf (l.any FV.isInf) flINFI
  let arith := fun (r : FV × Bool) (l : List FV) => let q := vecRound f flush r; (q.1, q.2 ||| opf l)
  match o with
  | .vadd => arith (a.add b) [a, b]
  | .vsub => arith (a.add b.negate) [a, b]
  | .vmul => arith (a.mul b) [a, b]
  | .vfma => arith (FV.fma a b c) [a, b, c]
  | .vfms => arith (FV.fma a b c.negate) [a, b, c]
  | .vmin => (a.min b, nan2)
  | .vmax => (a.max b, nan2)
  | .vabs => (a.abs, nan1)
  | .vneg => (a.negate, nan1)
  | _ => (.nan, 0)

/-- The condition of VFCMP (R170). -/
def fpCond (cc : Nat) (a b : FV) : Bool :=
  let un := a.isNan || b.isNan
  match cc with
  | 0 => a.eqv b
  | 1 => !a.eqv b
  | 2 => a.lt b
  | 3 => a.lt b || a.eqv b
  | 4 => b.lt a
  | 5 => b.lt a || a.eqv b
  | _ => un

/-- One lane of integer and bit operations (R169). -/
def intLane (o : VecOp) (w : Nat) (x y : Nat) : Nat :=
  let a := BitVec.ofNat w x
  let b := BitVec.ofNat w y
  let k := y % w
  (match o with
    | .viadd => a + b
    | .visub => a - b
    | .vand => a &&& b
    | .vor => a ||| b
    | .vxor => a ^^^ b
    | .vshl => a <<< k
    | .vshr => a >>> k
    | .vsra => a.sshiftRight k
    | .vimin => if a.slt b then a else b
    | .vimax => if a.slt b then b else a
    | _ => 0).toNat

/-- The condition of VICMP (R170). -/
def intCond (cc w x y : Nat) : Bool :=
  let a := BitVec.ofNat w x
  let b := BitVec.ofNat w y
  match cc with
  | 0 => a = b
  | 1 => a ≠ b
  | 2 => a.slt b
  | 3 => !b.slt a
  | 4 => a.ult b
  | _ => !b.ult a

/-- What a vector operation computes: a new value of VD and of S1, a new predicate, flags, poison. -/
structure VecOut where
  vd : Option (BitVec 2048)
  pd : Option (BitVec 128)
  s1 : Option Word
  flags : Flags
  poi : Bool
  deriving DecidableEq, Repr

/-- Bytes that an element takes for the lane count of a conversion: 6-bit elements count as 8 (R171). -/
def cvtWidth (f : Fmt) : Nat := if f.w = 6 then 8 else f.w

/-- The lane count of a conversion (R171). -/
def cvtLanes (a b : Fmt) : Nat := Nat.min 128 (2048 / Nat.max (cvtWidth a) (cvtWidth b))

/-- The rounding mode and saturation in effect (R167, R120). -/
def vecMode (pre : Site) (f : VecF) : RMode × Bool :=
  if f.useDef then (rmodeOf (pre.f CORE_VCTL_RMODE), pre.f CORE_VCTL_SAT = 1) else (rmodeOf f.rm.toNat, f.sat)

/-- The SR draw of lane `i` (R172, R46, R47). -/
def vecDraw (pre : Site) (f : VecF) (i : Nat) : Nat :=
  srBits (BitVec.ofNat 64 (pre.f CORE_STEP_STEP)) ((pre.sreg f.s2.toNat).val.toNat % 2 ^ 32)
    ((pre.sreg f.s3.toNat).val.toNat % 2 ^ 48 + i)

/-- A vector operation on the site as it stands in the issue cycle (R116, R158, R166 to R174). VEXT, whose flags R169 gives as none, sets
no POI for a poisoned result, and a poisoned predicate, which does not govern it lane by lane, does not poison it. DESIGN CHOICE (log
entry 105). -/
def vecOut (pre : Site) (o : VecOp) (f : VecF) : VecOut :=
  let va := pre.vreg f.va.toNat
  let vb := pre.vreg f.vb.toNat
  let vc := pre.vreg f.vc.toNat
  let old := pre.vreg f.vd.toNat
  let p := pre.preg f.pred.toNat
  let on := fun (i : Nat) => p.val.getLsbD i
  let lt := f.lt.toNat
  let imm := f.imm8.toNat
  let w := vecWidth o lt
  let n := 2048 / w
  let flush := pre.f CORE_VCTL_FLUSH = 1
  let src := (o.usesVa && va.poi) || (o.usesVb && vb.poi) || (o.usesVc && vc.poi) || p.poi
  -- poison that a kept lane of the destination brings (R158)
  let kept := fun (k : Nat) (dp : Bool) => decide (f.pred ≠ 0) && dp && (List.range k).any (fun i => !on i)
  -- lanes of the result, the flags of enabled lanes
  let build := fun (g : Nat → Nat × Flags) =>
    let ls := (List.range n).map (fun i => if on i then g i else (lane old.val w i, 0))
    let poi := src || kept n old.poi
    VecOut.mk (some (BitVec.ofNat 2048 (packElems w (ls.map (·.1))))) none none
      (ls.foldl (fun a l => a ||| l.2) 0 ||| flagIf poi flPOI) poi
  let compare := fun (g : Nat → Bool × Flags) =>
    let pd := pre.preg f.vd.toNat
    let bits := (List.range n).map (fun i => if on i then ((if (g i).1 then 1 else 0), (g i).2)
      else ((if pd.val.getLsbD i then 1 else 0), 0))
    let poi := src || kept n pd.poi
    VecOut.mk none (some (BitVec.ofNat 128 (packElems 1 (bits.map (·.1))))) none
      (bits.foldl (fun a l => a ||| l.2) 0 ||| flagIf poi flPOI) poi
  match o with
  | .vfcmp =>
    let ff := (fmtOf lt).getD F32
    compare (fun i =>
      let a := flushIn ff flush (ff.dec (lane va.val w i))
      let b := flushIn ff flush (ff.dec (lane vb.val w i))
      (fpCond imm a b, flagIf (a.isNan || b.isNan) flNANI))
  | .vicmp => compare (fun i => (intCond imm w (lane va.val w i) (lane vb.val w i), 0))
  | .vsel =>
    let ls := (List.range n).map (fun i => lane (if on i then va.val else vb.val) w i)
    ⟨some (BitVec.ofNat 2048 (packElems w ls)), none, none, flagIf src flPOI, src⟩
  | .vrot => build (fun i => (lane va.val w ((i + imm) % n), 0))
  | .vbcast =>
    let s := pre.sreg f.s1.toNat
    let r := build (fun _ => (s.val.toNat % 2 ^ w, 0))
    { r with poi := r.poi || s.poi, flags := r.flags ||| flagIf s.poi flPOI }
  | .vext =>
    if on 0 then ⟨none, none, some (BitVec.ofNat 64 (lane va.val w imm)), 0, va.poi⟩
    else ⟨none, none, none, 0, false⟩
  | .vcvt =>
    let fs := (fmtOf lt).getD F32
    let fd := (fmtOf f.df.toNat).getD F32
    let k := cvtLanes fs fd
    let m := vecMode pre f
    let ls := (List.range k).map (fun i =>
      if on i then fd.convert m.1 m.2 (vecDraw pre f i) (fs.dec (elemAt va.val.toNat fs.w i))
      else (elemAt old.val.toNat fd.w i, 0))
    let poi := src || (pre.sreg f.s2.toNat).poi || (pre.sreg f.s3.toNat).poi || kept k old.poi
    ⟨some (BitVec.ofNat 2048 (packElems fd.w (ls.map (·.1)))), none, none,
      ls.foldl (fun a l => a ||| l.2) 0 ||| flagIf poi flPOI, poi⟩
  | .vqblk =>
    let fd := (fmtOf f.df.toNat).getD F8A
    let m := vecMode pre f
    let sz := if imm % 2 = 0 then 16 else 32
    let blks := (List.range (64 / sz)).map (fun b =>
      quantBlock fd m.1 m.2 (fun j => vecDraw pre f (sz * b + j))
        ((List.range sz).map (fun j => F32.dec (lane va.val 32 (sz * b + j)))))
    let poi := va.poi || (pre.sreg f.s2.toNat).poi || (pre.sreg f.s3.toNat).poi
    ⟨some (BitVec.ofNat 2048 (packElems fd.w (blks.flatMap (fun b => b.2.1)))), none,
      some (BitVec.ofNat 64 (packElems 8 (blks.map (·.1)))),
      blks.foldl (fun a b => a ||| b.2.2) 0 ||| flagIf poi flPOI, poi⟩
  | .vtlu =>
    let t := (mfind pre.tables (imm % 32)).getD Table.blank
    build (fun i => let y := t.eval (F32.dec (lane va.val 32 i)); (F32.enc y.1, y.2))
  | _ =>
    if o.isFloat then
      let ff := (fmtOf lt).getD F32
      let rd := fun (v : VVal) (i : Nat) => flushIn ff flush (ff.dec (lane v.val w i))
      build (fun i =>
        let y := fpLane o ff flush (rd va i) (rd vb i) (rd vc i)
        (ff.enc y.1, y.2))
    else build (fun i => (intLane o w (lane va.val w i) (lane vb.val w i), 0))

/-- The effect of a vector operation at site `n`. Its flags stand in core.vfl from its issue cycle on, and their write takes part in no
hazard check; the spec gives them no latency. DESIGN CHOICE (log entry 105). -/
def vecEffect (pre : Site) (o : VecOp) (f : VecF) (n : Nat) (s : State) : State :=
  let r := vecOut pre o f
  s.onSite n (fun c =>
    let c1 := match r.vd with
      | some v => c.setV f.vd.toNat v r.poi
      | none => c
    let c2 := match r.pd with
      | some v => c1.setP f.vd.toNat v r.poi
      | none => c1
    let c3 := match r.s1 with
      | some v => c2.setS f.s1.toNat v r.poi
      | none => c2
    c3.orVfl r.flags)

end Sys2Proof.Machine
end

