-- ==== Sys2Proof/Machine/Store.lean ====
section
/-! DEFINITION. The core-local memory map and its accesses: the core store with the visibility of R124, the site window,
record sets and stream channel ports (R121 to R126, R175, R176, R203, R205, R211 to R213). -/

set_option autoImplicit false

namespace Sys2Proof.Machine

/-! ## What a read that is no LS access sees (R124) -/

/-- Size of the core store. -/
def storeSize : Nat := 0x400000

/-- Undoes one store. -/
def undoStore (m : Mem) (r : Recent) : Mem :=
  { data := putBytes r.addr r.old m.data, syn := r.oldPoi.foldl (fun d p => mput 0 p.1 p.2 d) m.syn }

/-- The core store as a fixed-latency read of active cycle `x` sees it: without the stores of cycles x - 1 and x. -/
def Site.viewAt (c : Site) (x : Nat) : Mem :=
  (c.recent.filter (fun r => decide (x ≤ r.cyc + 1))).foldl undoStore c.store

/-- Stores into the core store and keeps what stood there for the reads of R124. -/
def Site.storeAt (c : Site) (x a : Nat) (bs : List (Byte × Bool)) : Site :=
  let ws := wordsOf a bs.length
  let old := ws.flatMap (fun w => leBytes 8 (c.store.raw w).toNat)
  let syn := ws.map (fun w => (w, c.store.synAt w))
  { c with store := c.store.store a bs, recent := ⟨x, a / 8 * 8, old, syn⟩ :: c.recent }

/-- A fixed-latency read of `n` bytes in cycle `x`: bytes with poison, and the site with CORRECTED words rewritten and
both kinds of errors counted (R109, R468). -/
def Site.fixedRead (c : Site) (x a n : Nat) : List (Byte × Bool) × Site :=
  let m := c.viewAt x
  let c1 := c.countWords (m.classCount .corrected a n) (m.classCount .uncorrectable a n)
  (m.marks a n, { c1 with store := c1.store.healRange a n })

/-- Bytes of marked bytes as a number, and whether one is poisoned. -/
def marksNat (l : List (Byte × Bool)) : Nat := leNat (l.map (·.1))
def marksPoi (l : List (Byte × Bool)) : Bool := l.any (·.2)

/-- A read of `n` bytes of a memory for a requester other than the core: CORRECTED words are rewritten (R109). -/
def Site.touchStore (c : Site) (a n : Nat) : Site :=
  { c.countWords (c.store.classCount .corrected a n) (c.store.classCount .uncorrectable a n) with store := c.store.healRange a n }

/-! ## Port X (R122) -/

/-- Banks that `n` bytes from `a` on touch (R121). -/
def banksOf (a n : Nat) : List Nat :=
  if n = 0 then [] else (List.range ((a + n - 1) / 128 + 1 - a / 128)).map (fun i => (a / 128 + i) % 32)

/-- Books port X of banks for a cycle. -/
def Site.book (c : Site) (l : List (Nat × Nat)) : Site := { c with portX := c.portX ++ l }

/-- Whether a booking of a cycle and bank stands. -/
def Site.booked (c : Site) (b : Nat × Nat) : Bool := b ∈ c.portX

/-! ## The site window as the program reads it (R117, R125) -/

/-- Ready bits of a buffer, quarter 3 to 0 (R85). -/
def Arr.ready (x : Arr) (buf : Nat) : Nat :=
  ((List.range 4).map (fun q => if (mfind x.tiles (buf * 4 + q)).isSome then 2 ^ q else 0)).sum

/-- BUSY of an array (R85): a valid vector is in flight to its accumulator write, which comes 20 cycles after its feed. Every array
receives every vector (R60). -/
def Site.arrBusy (c : Site) (a : Nat) : Bool := !(c.arr a).vecs.isEmpty || c.lastVec.any (fun t => decide (c.active ≤ t + 20))

/-- ARR_STATUSn as read (R85). -/
def Site.arrStatus (c : Site) (a : Nat) : Nat :=
  let x := c.arr a
  c.f (ARR_STATUS_HAZ a) * 2 ^ 16 + (if x.loads.isEmpty then 0 else 2 ^ 9) + (if c.arrBusy a then 2 ^ 8 else 0) +
    x.ready 1 * 16 + x.ready 0

/-- ARR_SKEWn.DLY (R67, R86). -/
def Site.arrSkew (c : Site) (a : Nat) : Nat :=
  let f := c.f (ARR_REPAIR_FROW a)
  if f < 16 then 0xFFFF / 2 ^ f * 2 ^ f else 0

/-- Whether a selected event is privileged (R469 to R471). -/
def eventPriv (e : Nat) : Bool := (0x18 ≤ e && e ≤ 0x1A) || e = 0x104 || e = 0x107 || e = 0x108 || e = 0x10B ||
  e = 0x10D || (0x10E ≤ e && e ≤ 0x113)

/-- First and last member of the chain that counter `i` belongs to. -/
def chainLow (ch : Nat → Bool) : Nat → Nat
  | 0 => 0
  | i + 1 => if ch (i + 1) then chainLow ch i else i + 1

/-- Members of the chain of counter `i` of `k` counters. -/
def chainOf (ch : Nat → Bool) (k i : Nat) : List Nat :=
  (List.range k).filter (fun j => decide (chainLow ch j = chainLow ch i))

/-- Whether a core counter is privileged (R471, R472). -/
def Site.ctrPriv (c : Site) (i : Nat) : Bool :=
  (chainOf (fun j => c.f (PMC_SEL_CHAIN j) = 1) 16 i).any (fun j => eventPriv (c.f (PMC_SEL_EVENT j)))

/-- Whether a die counter is privileged. -/
def State.dctrPriv (s : State) (w i : Nat) : Bool :=
  (chainOf (fun j => s.d w (PMC_DSEL_CHAIN j) = 1) 64 i).any (fun j => eventPriv (s.d w (PMC_DSEL_EVENT j)))

/-- A register of a site window as read; `n` is the site and `dev` the device index. Offsets without a register read 0. -/
def Site.readReg (c : Site) (n dev off : Nat) : Nat :=
  match siteReg off with
  | none => 0
  | some r =>
    if off = 0x9220 then c.coreId n dev
    else if 0xA000 ≤ off ∧ off < 0xA100 ∧ off % 0x40 = 8 then c.arrStatus ((off - 0xA000) / 0x40)
    else if 0xA000 ≤ off ∧ off < 0xA100 ∧ off % 0x40 = 12 then c.arrSkew ((off - 0xA000) / 0x40)
    else if 0xC080 ≤ off ∧ off < 0xC100 then
      c.regVal r + (if c.ctrPriv ((off - 0xC080) / 8) then 2 ^ 15 else 0)
    else c.regVal r

/-- The 8 bytes at an 8-aligned offset of a site window: two 32-bit registers or one 64-bit register. -/
def Site.winWord (c : Site) (n dev off : Nat) : Nat :=
  match siteReg off with
  | some r => if r.wid = 32 then c.readReg n dev off + c.readReg n dev (off + 4) * 2 ^ 32 else c.readReg n dev off
  | none => c.readReg n dev (off + 4) * 2 ^ 32

/-- Bytes of a site window. -/
def Site.winBytes (c : Site) (n dev off k : Nat) : Bytes :=
  (((wordsOf off k).flatMap (fun w => leBytes 8 (c.winWord n dev w))).drop (off % 8)).take k

/-! ## Record sets (R203, R205, R208) -/

/-- Table for exp() of a merge by a store. The spec names none for it, so its number is a free value (log entry 18). -/
def Site.mergeExpt (c : Site) (set : Nat) : Table := (mfind c.tables (Config.mergeTable set % 32)).getD Table.blank

/-- The record at an offset of the record sets. -/
def recordAt (m : Mem) (a : Nat) : Rec := Rec.ofNat (m.num a 32)

/-- Merges stored records into the resident ones in increasing address (R208); poison marks the record's FLAGS. -/
def mergeRecords (expt : Nat → Table) : Nat → Mem → Nat → List (Byte × Bool) → Mem
  | 0, m, _, _ => m
  | k + 1, m, a, bs =>
    let b := bs.take 32
    let r := Rec.merge (expt (a / 0x2000)) (recordAt m a) (Rec.ofNat (marksNat b))
    let poi := marksPoi b || m.poisoned a 32
    mergeRecords expt k (m.write a (leBytes 32 r.toNat) poi) (a + 32) (bs.drop 32)

/-! ## Stream channels (R211 to R214) -/

/-- A channel of a site. -/
def Site.chan (c : Site) (k : Nat) : Chan := mget Chan.reset c.chans k

/-- Replaces a channel. -/
def Site.setChan (c : Site) (k : Nat) (x : Chan) : Site := { c with chans := mput Chan.reset k x c.chans }

/-- Slots of a channel's ring. -/
def Site.nsl (c : Site) (k : Nat) : Nat := c.f (CORE_CH_NSLM1 k) + 1

/-- Bytes of a slot. -/
def Site.slotBytes (c : Site) (k : Nat) : Nat := 2 ^ c.f (CORE_CH_SLOG k)

/-- Whether a channel sends. -/
def Site.sends (c : Site) (k : Nat) : Bool := c.f (CORE_CH_DIR k) = 0

/-- Whether channel `k` is in use. -/
def Site.chanOn (c : Site) (k : Nat) : Bool := c.f (CORE_CH_EN k) = 1

/-- The local address of byte `o` of slot `i`. -/
def Site.slotAddr (c : Site) (k i o : Nat) : Nat := c.f (CORE_CH_RBASE k) * 256 + i * c.slotBytes k + o

/-- STATUS of a channel (R212). -/
def Site.chanStatus (c : Site) (k : Nat) : Nat :=
  let x := c.chan k
  x.head + x.tail * 2 ^ 8 + x.filled * 2 ^ 16 + (if c.sends k then x.credits else 0) * 2 ^ 25 + (if x.ovr then 2 ^ 34 else 0)

/-- Sets OVR; firmware halts the job at the next gear point (R213). -/
def Chan.overrun (x : Chan) : Chan := { x with ovr := true }

/-- Slots that may still be posted: filled by the program and not posted yet. A ring slot that is free and not posted
counts as filled when the program names it (R213). -/
def Site.postable (c : Site) (k : Nat) : Nat := c.nsl k - (c.chan k).filled

/-- Posts k slots at the tail (R212, R213): the first takes the micro-batch index of MB, and so do those after it. A POST of a slot that
rows have filled in part leaves the write cursor where it stands, and later rows start there in the next slot: R213 does not say.
DESIGN CHOICE (log entry 122). -/
def Site.postSlots (c : Site) (k n : Nat) : Site :=
  let x := c.chan k
  let m := Nat.min n (c.postable k)
  let x1 := { x with tail := (x.tail + m) % c.nsl k, filled := x.filled + m, posted := x.posted ++ List.replicate m x.mb }
  c.setChan k (if m < n then x1.overrun else x1)

/-- The slots that a RELEASE of n frees: those filled, at most n (R213). -/
def Site.releasable (c : Site) (k n : Nat) : Nat := Nat.min n (c.chan k).filled

/-- Frees the n oldest slots of a receive channel (R212). -/
def Site.releaseSlots (c : Site) (k n : Nat) : Site :=
  let x := c.chan k
  let m := c.releasable k n
  let x1 := { x with head := (x.head + m) % c.nsl k, filled := x.filled - m }
  c.setChan k (if m < n then x1.overrun else x1)

/-- A POST that names slots (R212): k is bits 8:0, from 1 to 256; other values post nothing (log entry 19). -/
def postCount (v : Word) : Nat := let k := v.toNat % 512; if k ≤ 256 then k else 0

/-- A store to a channel port. -/
def Site.portStore (c : Site) (k off : Nat) (v : Word) : Site :=
  if off = 0 then (if c.sends k then c.postSlots k (postCount v) else c.releaseSlots k (postCount v))
  else if c.sends k then c.setChan k { c.chan k with mb := v.setWidth 16 }
  else c

/-- A store to a channel port and what leaves by it: a RELEASE returns the credits of the slots that it frees to the peer channel
(R212). -/
def State.portStore (s : State) (n k off : Nat) (v : Word) : State :=
  let c := s.site n
  let s1 := s.onSite n (fun c => c.portStore k off v)
  let m := c.releasable k (postCount v)
  if off = 0 ∧ !c.sends k ∧ m ≠ 0 then s1.emit (.credit (c.f (CORE_CH_PDEV k)) (c.f (CORE_CH_PROLE k)) (c.f (CORE_CH_PCH k)) m)
  else s1

/-! ## LS accesses (R124, R125, R175, R176, R205, R212) -/

/-- Where a local address lies. -/
inductive LocalPlace where
  | store | window (off : Nat) | istore (off : Nat) | record (off : Nat) | alias_ (off : Nat) | port (ch off : Nat) | none
  deriving DecidableEq, Repr

/-- The place of a 32-bit local address (R125, R203, R212). -/
def placeOf (a : Nat) : LocalPlace :=
  if a < storeSize then .store
  else if 0x800000 ≤ a ∧ a < 0x810000 then .window (a - 0x800000)
  else if 0x1000000 ≤ a ∧ a < 0x1080000 then .istore (a - 0x1000000)
  else if 0x2000000 ≤ a ∧ a < 0x2004000 then .record (a - 0x2000000)
  else if 0x2004000 ≤ a ∧ a < 0x2008000 then .alias_ (a - 0x2004000)
  else if 0x2008000 ≤ a ∧ a < 0x2010000 then .port ((a - 0x2008000) / 256) ((a - 0x2008000) % 256)
  else .none

/-- ACCESS details (R138). -/
def acBANK : Nat := 1
def acALIGN : Nat := 2
def acUNMAP : Nat := 3
def acSPILL : Nat := 4
def acIHALF : Nat := 5
def acPRIV : Nat := 6
def acSTATIC : Nat := 7

/-- Whether bytes a to a + n - 1 of the core store touch the spill region of an array with SEN set (R97, R99). -/
def Site.inSpill (c : Site) (a n : Nat) : Bool :=
  (List.range 4).any (fun i => c.f (ACC_CFG_SEN i) = 1 &&
    decide (a < 0x20000 * (c.f (ACC_CFG_SBASE i) + 1) ∧ 0x20000 * c.f (ACC_CFG_SBASE i) < a + n))

/-- Whether a port access names a port of an enabled channel in its direction (R212, R226). An access in the direction that the table does
not list, a load of POST or a store to STATUS, has no stated outcome: the model counts it as unmapped. DESIGN CHOICE (log entry 122). -/
def Site.portOk (c : Site) (ch off : Nat) (store : Bool) : Bool :=
  decide (ch < 6) && c.chanOn ch && (if store then off = 0 || off = 16 else off = 8)

/-- Whether n bytes at an offset of a site window hold part of a STATIC field (R281). -/
def statTouched (off n : Nat) : Bool :=
  (wordsOf off n).any (fun w => [w, w + 4].any (fun o => match siteReg o with
    | some r => r.flds.any (fun x => x.cls = .stat && decide (o + x.lo / 8 < off + n ∧ off ≤ o + x.hi / 8))
    | none => false))

/-- ACCESS details that a load or store of `n` bytes breaks, at the 64-bit sum `ea`. A store into the site window breaks R125, and R281 as
well where it names a STATIC field (log entry 40). -/
def lsDetails (c : Site) (o : LsOp) (ea : Word) : List Nat :=
  let n := o.bytes
  let a := ea.toNat % 2 ^ 32
  let al := if ea.toNat % n ≠ 0 then [acALIGN] else []
  let own := if 2 ^ 32 ≤ ea.toNat then [acUNMAP] else match placeOf a with
    | .store => if o.isStore && c.inSpill a n then [acSPILL] else []
    | .window off =>
      if o.isStore then acPRIV :: (if statTouched off n then [acSTATIC] else [])
      else if 0xC000 ≤ off && off < 0xC800 then [acPRIV] else []
    | .istore _ => [acPRIV]
    | .record _ => if n = 8 ∨ n = 128 ∨ n = 256 then [] else [acALIGN]
    | .alias_ _ => if n = 128 ∨ n = 256 ∨ (n = 8 ∧ !o.isStore) then [] else [acALIGN]
    | .port ch off => if n = 8 && c.portOk ch off o.isStore then [] else [acUNMAP]
    | .none => [acUNMAP]
  al ++ own

/-- The record set that an LS access touches. -/
def lsRecordSet (ea : Word) : Option Nat :=
  match placeOf ea.toNat with
  | .record o => some (o / 0x2000)
  | .alias_ o => some (o / 0x2000)
  | _ => none

/-- Extends loaded bytes to 64 bits (R176). -/
def lsExtend (o : LsOp) (v : Nat) : Word :=
  match o with
  | .ld1s => (BitVec.ofNat 8 v).signExtend 64
  | .ld2s => (BitVec.ofNat 16 v).signExtend 64
  | .ld4s => (BitVec.ofNat 32 v).signExtend 64
  | _ => BitVec.ofNat 64 v

/-- Bytes that a load delivers, with poison; and the site after it, with words rewritten and counted (R109). -/
def Site.loadBytes (c : Site) (n dev a k : Nat) : List (Byte × Bool) × Site :=
  match placeOf a with
  | .store =>
    let c1 := c.countWords (c.store.classCount .corrected a k) (c.store.classCount .uncorrectable a k)
    (c.store.marks a k, { c1 with store := c1.store.healRange a k })
  | .window off => ((c.winBytes n dev off k).map (fun b => (b, false)), c)
  | .record off => (c.recs.marks off k, { c with recs := c.recs.healRange off k })
  | .alias_ off => (c.recs.marks off k, { c with recs := c.recs.healRange off k })
  | .port ch _ => ((leBytes 8 (c.chanStatus ch)).map (fun b => (b, false)), c)
  | _ => (List.replicate k (0, false), c)

/-- A store of marked bytes by an LS operation issued in active cycle `x`. -/
def Site.storeBytes (c : Site) (x a : Nat) (bs : List (Byte × Bool)) : Site :=
  match placeOf a with
  | .store => c.storeAt x a bs
  | .record off => { c with recs := c.recs.store off bs }
  | .alias_ off => { c with recs := mergeRecords c.mergeExpt (bs.length / 32) c.recs off bs }
  | .port ch off => c.portStore ch off (BitVec.ofNat 64 (marksNat bs))
  | _ => c

/-- The place of a local address is a channel port: its channel and offset. -/
def portAt (a : Nat) : Option (Nat × Nat) :=
  match placeOf a with
  | .port ch off => some (ch, off)
  | _ => none

/-- The registers that a load reads from the site window or a channel port, as they stand in the issue cycle (R156); memory sees every
store issued before (R124). -/
def Site.loadFrom (pre c : Site) (n dev a k : Nat) : List (Byte × Bool) × Site :=
  match placeOf a with
  | .window _ => ((pre.loadBytes n dev a k).1, c)
  | .port _ _ => ((pre.loadBytes n dev a k).1, c)
  | _ => c.loadBytes n dev a k

/-- The effect of a load or store at site `n` (R175, R176). `pre` is the site in the issue cycle. A load is poisoned by a
loaded word and by its base register (R158). -/
def lsEffect (pre : Site) (o : LsOp) (f : LsF) (n : Nat) (s : State) : State :=
  let a := (pre.ea f.ra f.off).toNat
  let k := o.bytes
  if !pre.enabled f.pred.toNat then s
  else if o.isStore then
    let v := if o.isVec then (pre.vreg f.vr.toNat).val.toNat else (pre.sreg f.sr.toNat).val.toNat
    let poi := if o.isVec then (pre.vreg f.vr.toNat).poi else (pre.sreg f.sr.toNat).poi
    match portAt a with
    | some p => s.portStore n p.1 p.2 (BitVec.ofNat 64 v)
    | none => s.onSite n (fun c => c.storeBytes c.active a ((leBytes k v).map (fun b => (b, poi))))
  else
    let dev := s.devidx
    s.onSite n (fun c =>
      let r := pre.loadFrom c n dev a k
      let v := marksNat r.1
      let poi := marksPoi r.1 || (pre.sreg f.ra.toNat).poi
      if o.isVec then r.2.setV f.vr.toNat (BitVec.ofNat 2048 v) poi
      else r.2.setS f.sr.toNat (lsExtend o v) poi)

end Sys2Proof.Machine
end

