-- ==== Sys2Proof/Machine/Arrays.lean ====
section
/-! DEFINITION. The matrix arrays: weight loads, products and column sums, the accumulator with its crumb, spills and the
drain port (R59 to R87, R88 to R103, R196, R197). -/

set_option autoImplicit false

namespace Sys2Proof.Machine

/-! ## Products and column sums (R88 to R91, R101) -/

/-- A floating product with its flags (R88, R89). -/
def prodR89 (x w : FV) : FV × Flags :=
  let q := x.mul w
  let ops := flagIf (x.isNan || w.isNan) flNANI ||| flagIf (x.isInf || w.isInf) flINFI
  if q.2 then (.nan, flINV ||| ops)
  else
    let r := F32.rnd true q.1
    (r.v, ops ||| flagIf r.ovf flSAT ||| flagIf r.unf flUNF)

/-- An element of a vector or of a tile's column under its X8 scale: `blk` is the block size, 0 for none (R35, R62). -/
def scaledElem (f : Fmt) (blk : Nat) (scales : List Nat) (c k : Nat) : FV :=
  if blk = 0 then f.dec c else scaled f c (some (scales.getD (k / blk) 0))

/-- column_sum of R90 over the unmasked elements, in increasing k. -/
def columnSum (xs ws : List FV) : FV × Flags :=
  (xs.zip ws).foldl (fun p e =>
    let q := prodR89 e.1 e.2
    let t := sumR91 p.1 q.1
    (t.1, p.2 ||| q.2 ||| t.2)) (negZero, 0)

/-- The value of an integer element code (R37). -/
def intElem (f : Fmt) (c : Nat) : Int := (BitVec.ofNat f.w c).toInt

/-- The exact column sum of an integer pass (R101). -/
def columnSumInt (xs ws : List Int) : Int := ((xs.zip ws).map (fun e => e.1 * e.2)).sum

/-- Saturates an integer to n-bit two's complement; the second result says it did. -/
def satInt (n : Nat) (v : Int) : Int × Bool :=
  if v < -(2 ^ (n - 1) : Int) then (-(2 ^ (n - 1) : Int), true)
  else if (2 ^ (n - 1) : Int) ≤ v then ((2 ^ (n - 1) : Int) - 1, true)
  else (v, false)

/-! ## The accumulator (R92 to R102, R109) -/

/-- A row's hidden state in a quarter. -/
def Arr.rowSt (x : Arr) (row q : Nat) : RowSt := mget RowSt.reset x.rows (row * 4 + q)

/-- Writes it. -/
def Arr.setRow (x : Arr) (row q : Nat) (r : RowSt) : Arr := { x with rows := mput RowSt.reset (row * 4 + q) r x.rows }

/-- An accumulator word as stored. -/
def Arr.word (x : Arr) (row n : Nat) : AccWord := mget AccWord.reset x.acc (row * 64 + n)

/-- Writes an accumulator word. -/
def Arr.setWord (x : Arr) (row n : Nat) (w : AccWord) : Arr :=
  { x with acc := mput AccWord.reset (row * 64 + n) w x.acc }

/-- An accumulator word as its decoder delivers it (R109). -/
def AccWord.dec (w : AccWord) : AccWord × WordClass :=
  let d := decodeWord (w.crumb ++ w.sum) w.syn
  (⟨d.1.extractLsb' 0 32, d.1.extractLsb' 32 32, if d.2 = .corrected then 0 else w.syn⟩, d.2)

/-- A floating sum and crumb as a word. -/
def accF (s c : FV) : AccWord := ⟨BitVec.ofNat 32 (F32.enc s), BitVec.ofNat 32 (F32.enc c), 0⟩

/-- An integer sum as a word; the crumb field holds 0 (R101). -/
def accI (v : Int) : AccWord := ⟨BitVec.ofInt 32 v, 0, 0⟩

/-- The word of a new sum, or of a masked column under CLR (R93). -/
def accIdent (isInt : Bool) : AccWord := if isInt then accI 0 else accF negZero negZero

/-- The column sum of column n of a tile for a vector, as a word for a new sum with the flags raised, and the add of it
into an old word (R93, R94, R101). -/
def colAdd (v : VecIn) (t : Tile) (n : Nat) (old : Option AccWord) : AccWord × Flags :=
  let fx := (fmtOf v.fmt.toNat).getD I8
  let fw := (fmtOf t.fmt.toNat).getD I8
  let ks := List.range (Nat.min t.kv v.codes.length)
  let wc := t.codes.getD n []
  if fx.kind = .int then
    let x := columnSumInt (ks.map (fun k => intElem fx (v.codes.getD k 0))) (ks.map (fun k => intElem fw (wc.getD k 0)))
    match old with
    | none => (accI x, 0)
    | some w => let s := satInt 32 (w.sum.toInt + x); (accI s.1, flagIf s.2 flSAT)
  else
    let sc := t.scales.getD n []
    let x := columnSum (ks.map (fun k => scaledElem fx v.blk v.scales (v.codes.getD k 0) k))
      (ks.map (fun k => scaledElem fw t.blk sc (wc.getD k 0) k))
    match old with
    | none => (accF x.1 negZero, x.2)
    | some w =>
      let r := compAdd (F32.dec w.sum.toNat) (F32.dec w.crumb.toNat) x.1
      (accF r.1 r.2.1, x.2 ||| r.2.2)

/-- Whether a vector's pass is an integer pass. -/
def VecIn.isInt (v : VecIn) : Bool := v.fmt = 9 || v.fmt = 10

/-- The spill slot's address (R97). -/
def Site.spillAddr (c : Site) (a row n : Nat) : Nat := 0x20000 * c.f (ACC_CFG_SBASE a) + 8 * (64 * row + n)

/-- Spills column n of a row (R96, R101). -/
def Site.spillCol (a row : Nat) (r : RowSt) (cf : Site × Flags) (n : Nat) : Site × Flags :=
  let c := cf.1
  let x := c.arr a
  let wd := (x.word row n).dec
  let w := wd.1
  let ad := c.spillAddr a row n
  let d := c.store.dec ad
  let bad := wd.2.bad || (r.spillValid && d.2.bad)
  let cw := c.countWords (if wd.2 = .corrected then 1 else 0) (if wd.2 = .uncorrectable then 1 else 0)
  let c0 := if r.spillValid then cw.countWords (if d.2 = .corrected then 1 else 0) (if d.2 = .uncorrectable then 1 else 0) else cw
  let v : Word × Bool :=
    if r.isInt then
      let s := satInt 64 ((if r.spillValid then d.1.toInt else 0) + w.sum.toInt)
      (BitVec.ofInt 64 s.1, s.2)
    else
      let p := addSat64 (F32.dec w.sum.toNat) (F32.dec w.crumb.toNat)
      if r.spillValid then
        let t := addSat64 (F64.dec d.1.toNat) p.1
        (word64 t.1, p.2 || t.2)
      else (word64 p.1, p.2)
  let inv := !r.isInt && r.spillValid && (FV.add (F64.dec d.1.toNat) (F32.dec w.sum.toNat)).2
  let c1 := { c0.setArr a (x.setWord row n (accIdent r.isInt)) with store := c0.store.putWord ad v.1 false }
  (c1.count 0x00B 1, cf.2 ||| flagIf v.2 flSAT ||| flagIf bad flPOI ||| flagIf inv flINV)

/-- Spills a row of a quarter when its count calls for it (R95). -/
def Site.spillRow (c : Site) (a row q : Nat) (drn : Bool) : Site :=
  let r := (c.arr a).rowSt row q
  if c.f (ACC_CFG_SEN a) = 1 ∧ !drn ∧ 2 ^ c.f (ACC_CFG_SLOG a) ≤ r.n then
    let z := ((List.range 16).map (fun i => 16 * q + i)).foldl (Site.spillCol a row r) (c, 0)
    z.1.setArr a ((z.1.arr a).setRow row q { r with n := 0, spillValid := true, flags := r.flags ||| z.2 })
  else c

/-- Adds column n of a quarter; the accumulated flags are the second part. -/
def addCol (v : VecIn) (t : Tile) (q : Nat) (cf : Site × Arr × Flags) (i : Nat) : Site × Arr × Flags :=
  let n := 16 * q + i
  let x := cf.2.1
  if v.clr then
    if i < t.ncols then
      let r := colAdd v t i none
      (cf.1, x.setWord v.row n r.1, cf.2.2 ||| r.2)
    else (cf.1, x.setWord v.row n (accIdent v.isInt), cf.2.2)
  else if i < t.ncols then
    let d := (x.word v.row n).dec
    let c1 := cf.1.countWords (if d.2 = .corrected then 1 else 0) (if d.2 = .uncorrectable then 1 else 0)
    let r := colAdd v t i (some d.1)
    (c1, x.setWord v.row n r.1, cf.2.2 ||| r.2 ||| flagIf d.2.bad flPOI)
  else cf

/-- The flags that column sums of a quarter raise, for an add that meets the other kind (R102). -/
def sumFlags (v : VecIn) (t : Tile) : Flags :=
  (List.range t.ncols).foldl (fun fl i => fl ||| (colAdd v t i none).2) 0

/-- The add of a vector into one quarter of its row (R93, R94, R102, R107), then the spill. -/
def Site.addQuarter (a : Nat) (v : VecIn) (c : Site) (qt : Nat × Tile) : Site :=
  let q := qt.1
  let t := qt.2
  let x := c.arr a
  let r := x.rowSt v.row q
  let poi := flagIf (v.poi || t.poi) flPOI
  let mixed := !v.clr && r.isInt ≠ v.isInt
  let c1 := if mixed then
      let x1 := (List.range 16).foldl (fun x i => x.setWord v.row (16 * q + i) (accF .nan negZero)) x
      c.setArr a (x1.setRow v.row q { r with n := Nat.min (r.n + 1) 65536, isInt := false, ncols := t.ncols,
                                             flags := r.flags ||| flINV ||| sumFlags v t ||| poi })
    else
      let z := (List.range 16).foldl (addCol v t q) (c, x, 0)
      let r1 := if v.clr then RowSt.mk 1 false v.isInt (z.2.2 ||| poi) t.ncols
        else { r with n := Nat.min (r.n + 1) 65536, flags := r.flags ||| z.2.2 ||| poi, ncols := t.ncols }
      z.1.setArr a (z.2.1.setRow v.row q r1)
  c1.spillRow a v.row q v.drn

/-- The accumulator write of a captured vector (R65, R92 to R96, R101, R102). -/
def Site.addVec (a : Nat) (c : Site) (v : VecIn) : Site := v.tiles.foldl (Site.addQuarter a v) c

/-! ## The drain port (R76, R100, R105, R109) -/

/-- Reads one column for the drain: its word, and its spill slot where valid. The flags say what the read found. -/
def Site.readCol (a row : Nat) (cf : Site × List (Nat × AccWord × Option Word) × Flags) (pn : Nat × Nat) :
    Site × List (Nat × AccWord × Option Word) × Flags :=
  let c := cf.1
  let n := pn.2
  let x := c.arr a
  let r := x.rowSt row (n / 16)
  let d := (x.word row n).dec
  let c1 := c.countWords (if d.2 = .corrected then 1 else 0) (if d.2 = .uncorrectable then 1 else 0)
  let c2 := c1.setArr a (x.setWord row n d.1)
  if r.spillValid then
    let ad := c.spillAddr a row n
    let e := c.store.dec ad
    let c3 := c2.countWords (if e.2 = .corrected then 1 else 0) (if e.2 = .uncorrectable then 1 else 0)
    ({ c3 with store := c3.store.heal ad }, cf.2.1 ++ [(pn.1, d.1, some e.1)], cf.2.2 ||| flagIf (d.2.bad || e.2.bad) flPOI)
  else (c2, cf.2.1 ++ [(pn.1, d.1, none)], cf.2.2 ||| flagIf d.2.bad flPOI)

/-- Packing mode of an array (R79). -/
def Site.packMode (c : Site) (a : Nat) : Nat := c.f (ARR_CFG_PACK a)

/-- Unmasked columns of a pack's row, counted from the pack's first. The spec does not say whose mask a drain operation delivers a row
under: the model takes the mask of the last pass into it, and no masked column for a row never written. DESIGN CHOICE (log entry 103). -/
def Site.rowCols (c : Site) (a pack row : Nat) : Nat :=
  ((quartersOf (c.packMode a) pack).map (fun q => ((c.arr a).rowSt row q).ncols)).sum

/-- Column numbers of a pack's row as (column in the pack, logical column of the array). -/
def packCols (mode pack k : Nat) : List (Nat × Nat) := (List.range k).map (fun n => (n, packWidth mode * pack + n))

/-- The drain port's read of a row, with flags as they stand; an uncorrectable word marks the row (R109). -/
def Site.portRead (c : Site) (d : DrainRow) : Site × RowCap :=
  let mode := c.packMode d.arr
  let k := c.rowCols d.arr d.pack d.row
  let z := (packCols mode d.pack k).foldl (Site.readCol d.arr d.row) (c, [], 0)
  let qs := quartersOf mode d.pack
  let x := qs.foldl (fun x q =>
    let r := x.rowSt d.row q
    x.setRow d.row q { r with flags := r.flags ||| z.2.2 }) (z.1.arr d.arr)
  let fl := qs.foldl (fun f q => f ||| (x.rowSt d.row q).flags) 0
  let q0 := qs.headD 0
  ((z.1.setArr d.arr x).count 0x009 1, ⟨z.2.1, (x.rowSt d.row q0).isInt, fl⟩)

/-! ## Weight loads (R70 to R72, R182, R196, R197) -/

/-- Bits an element takes in the source of a load: 6-bit elements take a byte (R71, R196). -/
def srcWidth (fmt : Nat) : Nat := if fmt = 2 ∨ fmt = 3 then 16 else if fmt = 8 ∨ fmt = 10 then 4 else 8

/-- The element code of source bits: bits 7:6 of a 6-bit element's byte are ignored. -/
def srcElem (fmt v : Nat) : Nat := if fmt = 6 ∨ fmt = 7 then v % 64 else v

/-- bw, L and the number of transposed tiles of a square (R196, R197). -/
def squareBw (fmt : Nat) : Nat := 128 / srcWidth fmt
def squareL (fmt : Nat) : Nat := 64 / squareBw fmt
def squareQs (fmt : Nat) : Nat := if srcWidth fmt = 16 then 4 else if srcWidth fmt = 8 then 2 else 1

/-- q and base of a transposed source address (R197). -/
def squareQ (fmt addr : Nat) : Nat := addr / 2048 % squareQs fmt
def squareBase (fmt addr : Nat) : Nat := addr - 2048 * squareQ fmt addr

/-- The line of block (r, c) of a square (R196). -/
def squareLine (fmt base r c : Nat) : Nat := base + 128 * (squareL fmt * r + (c + r) % squareL fmt)

/-- The block column that row j of a transposed tile reads (R197). -/
def transCol (fmt addr j : Nat) : Nat := (16 * gOf fmt * squareQ fmt addr + gOf fmt * j) / squareBw fmt

/-- The byte ranges that row j of a load reads: (address, length). -/
def loadRanges (mode fmt : Nat) (tr : Bool) (addr j : Nat) : List (Nat × Nat) :=
  if tr then
    (List.range 8).map (fun r => (squareLine fmt (squareBase fmt addr) r (transCol fmt addr j), 128))
  else [(addr + 2 * packWidth mode * j, 2 * packWidth mode)]

/-- The element codes of row j of a load, in the order n * g + s over the pack's columns, from the bytes of its ranges. -/
def loadRowCodes (mode pack fmt : Nat) (tr : Bool) (addr j : Nat) (data : List Nat) : List Nat :=
  let w := srcWidth fmt
  let g := gOf fmt
  let p := packWidth mode
  (List.range (p * g)).map (fun i =>
    if tr then
      let k := p * pack + i / g
      let n := 16 * g * squareQ fmt addr + g * j + i % g
      srcElem fmt (elemAt (data.getD (k / 8) 0) w (k % 8 * squareBw fmt + n % squareBw fmt))
    else srcElem fmt (elemAt (data.getD 0 0) w i))

/-- Scale bytes of a column: nb = 16 g / block size (R182). -/
def scaleBytes (fmt blk : Nat) : Nat := if blk = 0 then 0 else 16 * gOf fmt / blk

/-- Reads row `l.rows.length` of a load in active cycle x. -/
def Site.loadRow (mode : Nat) (x : Nat) (cl : Site × LoadJob) : Site × LoadJob :=
  let l := cl.2
  let j := l.rows.length
  let rs := loadRanges mode l.fmt.toNat l.tr l.addr j
  let z := rs.foldl (fun (a : Site × List Nat × Bool) r =>
    let v := a.1.fixedRead x r.1 r.2
    (v.2, a.2.1 ++ [marksNat v.1], a.2.2 || marksPoi v.1)) (cl.1, [], false)
  (z.1, { l with rows := l.rows ++ [loadRowCodes mode l.pack l.fmt.toNat l.tr l.addr j z.2.1], poi := l.poi || z.2.2 })

/-- The tile that a finished load puts into the i-th quarter of its pack (R62, R70, R77). -/
def LoadJob.tile (l : LoadJob) (i : Nat) : Tile :=
  let g := gOf l.fmt.toNat
  let col := fun (n : Nat) => (List.range (16 * g)).map (fun k => (l.rows.getD (k / g) []).getD ((16 * i + n) * g + k % g) 0)
  { fmt := l.fmt, blk := l.blk, kv := l.kv, ncols := Nat.min (l.nv - 16 * i) 16, codes := (List.range 16).map col,
    scales := (List.range 16).map (fun n => l.scales.getD (16 * i + n) []), poi := l.poi }

/-- What the loads of array `a` do in active cycle x: a load issued in x - 1 clears the ready bits, rows are read, a
load issued in x - 17 sets them (R71). -/
def Site.settleLoads (x : Nat) (c : Site) (a : Nat) : Site :=
  let mode := c.packMode a
  (c.arr a).loads.foldl (fun c l =>
    let qs := quartersOf mode l.pack
    let ar := c.arr a
    let ar1 := if x = l.t0 + 1 then { ar with tiles := qs.foldl (fun m q => mdel (l.buf * 4 + q) m) ar.tiles } else ar
    if x = l.t0 + 17 then
      let ts := (qs.zipIdx).foldl (fun m q => mset (l.buf * 4 + q.1) (l.tile q.2) m) ar1.tiles
      c.setArr a { ar1 with tiles := ts, loads := ar1.loads.filter (fun k => k.t0 ≠ l.t0) }
    else if l.rows.length < 16 ∧ x = l.t0 + l.rows.length then
      let r := Site.loadRow mode x (c, l)
      r.1.setArr a { ar1 with loads := ar1.loads.map (fun k => if k.t0 = l.t0 then r.2 else k) }
    else c.setArr a ar1) c

/-- A repair map that waits takes effect when the array is idle, and clears every ready bit (R87). -/
def Site.applyRepair (c : Site) (a : Nat) : Site :=
  let x := c.arr a
  match x.newRepair with
  | some m =>
    if !c.arrBusy a && x.loads.isEmpty then
      ((c.set (ARR_REPAIR_FROW a) m.1).set (ARR_REPAIR_FCOL a) m.2).setArr a { x with tiles := [], newRepair := none }
    else c
  | none => c

/-- The accumulator write of the oldest vector in flight in an array. -/
def Site.addOldest (c : Site) (a : Nat) : Site :=
  match (c.arr a).vecs with
  | [] => c
  | v :: rest => Site.addVec a (c.setArr a { c.arr a with vecs := rest }) v

/-- The adds that array `a` writes in active cycle x: those of vectors fed in x - 20 or before (R65). -/
def Site.settleAdds (x : Nat) (c : Site) (a : Nat) : Site :=
  (c.arr a).vecs.foldl (fun c v => if v.cyc + 20 ≤ x then c.addOldest a else c) c

end Sys2Proof.Machine
end

