-- ==== Sys2Proof/Machine/Drain.lean ====
section
/-! DEFINITION. The drain units: descriptors in force, final values, functions, conversion, record updates, partials and
the write of a row (R100, R105, R106, R136, R189 to R195, R204, R213, R216). -/

set_option autoImplicit false

namespace Sys2Proof.Machine

/-- A descriptor's values as in force, with the tables it names (R224). -/
def Site.desc (c : Site) (i : Nat) : DrainDesc :=
  { ofmt := c.f (DRN_DESC_OFMT i), rm := c.f (DRN_DESC_RM i), sat := c.f (DRN_DESC_SAT i) = 1,
    dst := c.f (DRN_DESC_DST i), ch := c.f (DRN_DESC_CH i), func := c.f (DRN_DESC_FUNC i), red := c.f (DRN_DESC_RED i),
    rset := c.f (DRN_DESC_RSET i), rms := c.f (DRN_DESC_RMS i) = 1, nrm := c.f (DRN_DESC_NRM i) = 1,
    cnt := c.f (DRN_DESC_CNT i) = 1, afmt := c.f (DRN_DESC_AFMT i), dstride := c.f (DRN_DESC_DSTRIDE i),
    daddr := c.f (DRN_DESC_DADDR i), astride := c.f (DRN_DESC_ASTRIDE i), aaddr := c.f (DRN_DESC_AADDR i),
    tid := c.f (DRN_DESC_TID i), eps := c.f (DRN_DESC_EPS i), ebase := c.f (DRN_DESC_EBASE i),
    erow := c.f (DRN_DESC_EROW i), tab := mfind c.tables (c.f (DRN_DESC_TAB i)),
    expt := mfind c.tables (c.f (DRN_DESC_EXPT i)) }

/-- The output format. -/
def DrainDesc.fmt (d : DrainDesc) : Fmt := (fmtOf d.ofmt).getD F32

/-- Bytes of an output element (R192). -/
def DrainDesc.esize (d : DrainDesc) : Nat := d.fmt.w / 8

/-- Format and bytes of an aux element (R192, R224). -/
def DrainDesc.auxFmt (d : DrainDesc) : Fmt := if d.afmt = 2 then F16 else if d.afmt = 3 then B16 else F32
def DrainDesc.asize (d : DrainDesc) : Nat := d.auxFmt.w / 8

/-- Whether a row takes an aux operand (R193). -/
def DrainDesc.usesAux (d : DrainDesc) : Bool := d.func = 2 || d.func = 4 || d.red = 2

/-- Whether a row belongs to the record sequence (R204). -/
def DrainDesc.inSeq (d : DrainDesc) : Bool := d.red ≠ 0 || d.func = 3 || d.func = 4 || d.func = 5

/-- Whether a row reads or updates its record. -/
def DrainDesc.usesRec (d : DrainDesc) : Bool := d.inSeq

/-- The final value of a column with its flags (R100, R101). -/
def finalValue (isInt : Bool) (w : AccWord) (slot : Option Word) : FV × Flags :=
  if isInt then
    match slot with
    | some t => let r := satInt 64 (t.toInt + w.sum.toInt); (ofInt r.1, flagIf r.2 flSAT)
    | none => (ofInt w.sum.toInt, 0)
  else
    let p := addSat64 (F32.dec w.sum.toNat) (F32.dec w.crumb.toNat)
    let b := match slot with
      | some t => F64.dec t.toNat
      | none => negZero
    let q := addSat64 b p.1
    (q.1, flagIf (p.2 || q.2) flSAT ||| flagIf (FV.add b p.1).2 flINV)

/-- The SR draw of a column (R194). -/
def DrainDesc.draw (d : DrainDesc) (step : Nat) (r col : Nat) : Nat :=
  srBits (BitVec.ofNat 64 step) d.tid (d.ebase + d.erow * r + col)

/-- A function of one element, FUNC 1 to 5 (R191, R202, R209). -/
def DrainDesc.apply (d : DrainDesc) (rec : Rec) (x z : FV) : FV × Flags :=
  if d.func = 1 then (d.tab.getD Table.blank).eval x
  else if d.func = 2 then
    let t := (d.tab.getD Table.blank).eval z
    let y := f32Op (x.mul t.1)
    (y.1, t.2 ||| y.2)
  else if d.func = 0 then (x, 0)
  else rec.apply d.func (d.expt.getD Table.blank) d.rms d.eps x z

/-- What the drain makes of a row: delivered codes by column, flags, the new record. -/
structure Drained where
  codes : List (Nat × Nat)
  flags : Flags
  rcd : Option Rec
  deriving DecidableEq, Repr

/-- drain_element of R191 over a row, with the record read or updated (R203 to R209). `rec` is the record as read. -/
def DrainRow.drained (r : DrainRow) (step pw : Nat) (rec : Rec) (recBad : Bool) : Drained :=
  match r.cap with
  | none => ⟨[], 0, none⟩
  | some cap =>
    let d := r.desc
    let f := d.fmt
    let aux := match r.aux with
      | some a => a.1
      | none => []
    let auxPoi := match r.aux with
      | some a => a.2
      | none => false
    let vs := (cap.cols.zipIdx).map (fun c =>
      let v := finalValue cap.isInt c.1.2.1 c.1.2.2
      (c.1.1, v.1, v.2, F32.dec (aux.getD c.2 0).toNat))
    let fl0 := vs.foldl (fun a v => a ||| v.2.2.1) (cap.flags ||| flagIf auxPoi flPOI)
    let draw := fun (n : Nat) => d.draw step r.row (pw * r.pack + n)
    if d.func = 0 ∧ d.red = 0 then
      let ys := vs.map (fun v => (v.1, f.convertDrain (rmodeOf d.rm) d.sat (draw v.1) v.2.1))
      ⟨ys.map (fun y => (y.1, y.2.1)), ys.foldl (fun a y => a ||| y.2.2) fl0, none⟩
    else
      let xs := vs.map (fun v => (v.1, F32.convertDrain .rne d.sat 0 v.2.1, v.2.2.2))
      let fl1 := xs.foldl (fun a x => a ||| x.2.1.2) fl0
      let val := fun (x : Nat × (Nat × Flags) × FV) => F32.dec x.2.1.1
      let up := if d.red = 0 then (rec, (0 : Flags))
        else Rec.update d.red (d.expt.getD Table.blank) rec (xs.map (fun x => x.2.2)) (xs.map val)
          (auxPoi || recBad || (fl1 &&& flPOI) ≠ 0)
      let readsPoi := decide (3 ≤ d.func) && (recBad || (rec.flags &&& flPOI) ≠ 0)
      let ys := xs.map (fun x =>
        let y := d.apply rec (val x) x.2.2
        let z := f.convertDrain (rmodeOf d.rm) d.sat (draw x.1) y.1
        (x.1, z.1, y.2 ||| z.2))
      ⟨ys.map (fun y => (y.1, y.2.1)), ys.foldl (fun a y => a ||| y.2.2) (fl1 ||| up.2 ||| flagIf readsPoi flPOI),
        if d.red = 0 then none else some up.1⟩

/-- The elements of `e` bytes in `n` bytes at `a`, with what they hold. -/
def Mem.contents (m : Mem) (a n e : Nat) : List (Nat × Bytes) := (List.range (n / e)).map (fun i => (a + e * i, m.read (a + e * i) e))

/-- Poisons the words of the listed elements that still hold the bytes they are listed with, whatever other writes made of the rest of their
word (R107, R193). -/
def Mem.poisonHeld (m : Mem) (l : List (Nat × Bytes)) : Mem :=
  l.foldl (fun m w => if m.read w.1 w.2.length = w.2 then m.putWord (w.1 / 8 * 8) (m.raw (w.1 / 8 * 8)) true else m) m

/-- Writes a row's elements into the core store at the addresses of R192: its unmasked columns lie side by side, and they are one
write. The second part lists the elements written. -/
def Site.writeRowStore (c : Site) (r : DrainRow) (pw : Nat) (codes : List (Nat × Nat)) (poi : Bool) : Site × List (Nat × Bytes) :=
  let e := r.desc.esize
  let base := r.desc.daddr + r.desc.dstride * r.row + e * (pw * r.pack)
  let bs := codes.flatMap (fun y => leBytes e y.2)
  if base + bs.length ≤ storeSize then
    let m := c.store.write base bs poi
    ({ c with store := m }, m.contents base bs.length e)
  else (c, [])

/-- Writes a row into a send channel at its write cursor, masked columns as 0; a full slot is posted (R213). -/
def Site.writeRowChan (c : Site) (r : DrainRow) (pw : Nat) (codes : List (Nat × Nat)) (poi : Bool) : Site × List (Nat × Bytes) :=
  let k := r.desc.ch
  let x := c.chan k
  let e := r.desc.esize
  if c.nsl k ≤ x.filled then (c.setChan k x.overrun, [])
  else
    let row := (List.range pw).flatMap (fun n => leBytes e (((codes.find? (fun y => y.1 = n)).map (·.2)).getD 0))
    let a := c.slotAddr k x.tail x.cursor
    let m := if a + row.length ≤ storeSize then c.store.write a row poi else c.store
    let cur := x.cursor + row.length
    let c1 := { c with store := m }
    (if c.slotBytes k ≤ cur then (c1.setChan k { x with cursor := 0 }).postSlots k 1 else c1.setChan k { x with cursor := cur },
      m.contents a row.length e)

/-- Whether a delivered code is a NaN, or an infinity (R216). -/
def codeNan (f : Fmt) (y : Nat) : Bool := (f.dec y).isNan
def codeInf (f : Fmt) (y : Nat) : Bool := (f.dec y).isInf

/-- Adds to DRN_CNT the elements of a row, `poi` of them of a tile with POI set (R216). -/
def Site.addCounts (c : Site) (f : Fmt) (codes : List (Nat × Nat)) (poi : Nat) : Site :=
  ((c.bump DRN_CNT_NCNT (codes.filter (fun y => codeNan f y.2)).length).bump DRN_CNT_ICNT
    (codes.filter (fun y => codeInf f y.2)).length).bump DRN_CNT_PCNT poi

/-- The norm terms of a row (R216). -/
def normTerms (f : Fmt) (codes : List (Nat × Nat)) : List (BitVec 64) :=
  codes.map (fun y => word64 (mul64 (f.dec y.2) (f.dec y.2)))

/-- Adds norm terms in order. -/
def Site.addNorm (c : Site) (ts : List (BitVec 64)) : Site :=
  c.set DRN_NORM_NORM (ts.foldl (fun a t => (word64 (add64 (F64.dec a) (F64.dec t.toNat))).toNat) (c.f DRN_NORM_NORM))

/-- Adds the waiting norm terms at the head of the rows in program order (R216); the first argument bounds the rows. -/
def Site.flushNorm : Nat → Site → Site
  | 0, c => c
  | k + 1, c => match c.drainQ with
    | [] => c
    | r :: rest => match r.terms with
      | some ts => Site.flushNorm k ({ c with drainQ := rest }.addNorm ts)
      | none => if r.desc.nrm then c else
          let c1 := Site.flushNorm k { c with drainQ := rest }
          { c1 with drainQ := r :: c1.drainQ }

/-- Counts an event for each bit of a flag word (R106). -/
def Site.countFlags (c : Site) (fl : Flags) : Site :=
  (List.range 7).foldl (fun c i => if fl.getLsbD i then c.count (0x010 + i) 1 else c) c

/-- Local offset of a row's record in the record sets (R203). -/
def DrainRow.recAddr (r : DrainRow) : Nat := 0x2000 * r.desc.rset + 32 * r.row

/-- A row's record update, or the rewriting of the words of the record that it reads (R109, R190). -/
def Site.writeRec (c : Site) (r : DrainRow) (n : Option Rec) : Site :=
  match n with
  | some n => { c with recs := c.recs.write r.recAddr (leBytes 32 n.toNat) false }
  | none => if r.desc.usesRec then { c with recs := c.recs.healRange r.recAddr 32 } else c

/-- The destination write of a row, with the elements written (R136). -/
def Site.writeDst (c : Site) (r : DrainRow) (pw : Nat) (codes : List (Nat × Nat)) (poi : Bool) : Site × List (Nat × Bytes) :=
  if r.desc.dst = 1 then c.writeRowStore r pw codes poi
  else if r.desc.dst = 2 then c.writeRowChan r pw codes poi else (c, [])

/-- A delivered row enters its tile: what the tile holds after it. -/
def DrainTile.add (t : DrainTile) (fl : Flags) (ws : List (Nat × Bytes)) (n : Nat) : DrainTile :=
  if (fl &&& flPOI) ≠ 0 then ⟨fl, [], 0⟩ else ⟨fl, t.held ++ ws, t.elems + n⟩

/-- The WR stage of a row (R136, R190, R105, R106, R107, R216), on the site without the row. The tile flag word so far goes into
core.status and ACC_FLAGSn; each bit new in it counts as an event, so that a tile cut short counts as well. When POI is new in it, the
elements of the tile written before are poisoned where they still stand, and counted (log entry 38). An SR draw takes core.step.STEP as it
stands at this write: R46 does not say which moment of a row's way is the request of its conversion. DESIGN CHOICE (log entry 121). -/
def Site.writeRow (c : Site) (r : DrainRow) : Site :=
  let pw := packWidth (c.packMode r.arr)
  let rec0 := recordAt c.recs r.recAddr
  let bad := r.desc.usesRec && c.recs.poisoned r.recAddr 32
  let o := r.drained (c.f CORE_STEP_STEP) pw rec0 bad
  let t := mget DrainTile.reset c.outTiles r.tile
  let tf := t.flags ||| o.flags
  let poi := (tf &&& flPOI) ≠ 0
  let c1 := c.writeRec r o.rcd
  let c2 := if poi then { c1 with store := c1.store.poisonHeld t.held } else c1
  let w := c2.writeDst r pw o.codes poi
  let n := if r.desc.cnt then o.codes.length else 0
  let c3 := if r.desc.cnt then w.1.addCounts r.desc.fmt o.codes (if poi then t.elems + n else 0) else w.1
  let c4 := (c3.set CORE_STATUS_FLAGS (c3.f CORE_STATUS_FLAGS ||| tf.toNat)).set (ACC_FLAGS_FLAGS r.arr)
    (c3.f (ACC_FLAGS_FLAGS r.arr) ||| tf.toNat)
  let c5 := (if poi then c4.set CORE_STATUS_POIW 1 else c4).countFlags (tf &&& ~~~t.flags)
  let c6 := { c5 with outTiles := if r.last then mdel r.tile c5.outTiles
                                  else mput DrainTile.reset r.tile (t.add tf w.2 n) c5.outTiles }
  if r.desc.nrm then
    { c6 with drainQ := c6.drainQ ++ [{ r with terms := some (normTerms r.desc.fmt o.codes) }] }
  else c6

/-- Takes a row through WR, its norm terms in program order. -/
def Site.finishRow (c : Site) (r : DrainRow) : Site :=
  let pre := c.drainQ.takeWhile (fun q => q ≠ r)
  let post := (c.drainQ.dropWhile (fun q => q ≠ r)).drop 1
  let c1 := Site.writeRow { c with drainQ := pre } r
  Site.flushNorm (pre.length + post.length + 1) { c1 with drainQ := c1.drainQ ++ post }

/-- The aux operands of a row, as F32 codes, read in active cycle x (R192, R193). -/
def Site.auxRead (c : Site) (x : Nat) (r : DrainRow) : Site × DrainRow :=
  match r.desc.usesAux, r.cap with
  | true, some cap =>
    let a := r.desc.asize
    let pw := packWidth (c.packMode r.arr)
    let base := r.desc.aaddr + r.desc.astride * r.row + a * (pw * r.pack)
    let v := c.fixedRead x base (a * cap.cols.length)
    let d := marksNat v.1
    (v.2, { r with aux := some ((List.range cap.cols.length).map (fun i =>
      BitVec.ofNat 32 (F32.enc (r.desc.auxFmt.dec (elemAt d (8 * a) i)))), marksPoi v.1) })
  | _, _ => (c, r)

/-- Replaces a row of the queue. -/
def Site.putRow (c : Site) (old new : DrainRow) : Site :=
  { c with drainQ := c.drainQ.map (fun q => if q = old then new else q) }

/-- The drain-port reads of active cycle x. -/
def Site.settleReads (x : Nat) (c : Site) : Site :=
  c.drainQ.foldl (fun c r => if r.rd = x ∧ r.cap.isNone then
    let p := c.portRead r
    p.1.putRow r { r with cap := some p.2 } else c) c

/-- The aux reads of active cycle x, cycle 3 of the drain unit. -/
def Site.settleAux (x : Nat) (c : Site) : Site :=
  c.drainQ.foldl (fun c r => if r.rd + 4 = x ∧ r.cap.isSome ∧ r.aux.isNone ∧ r.terms.isNone then
    let p := c.auxRead x r
    p.1.putRow r p.2 else c) c

/-- The row writes of active cycle x, cycle 14 of the drain unit, in the order in which the rows were scheduled. -/
def Site.settleRows (x : Nat) (c : Site) : Site :=
  c.drainQ.foldl (fun c r => if r.rd + 15 = x ∧ r.terms.isNone then c.finishRow r else c) c

/-- Brings a row to WR at once: its drain-port read and its aux read where they are still to come. -/
def Site.forceRow (c : Site) (r : DrainRow) : Site :=
  let p := if r.cap.isNone then (let q := c.portRead r; (q.1, { r with cap := some q.2 })) else (c, r)
  let a := if p.2.aux.isNone then p.1.auxRead c.active p.2 else p
  (a.1.putRow r a.2).finishRow a.2

/-- What the fixed-latency pipeline of a site does in active cycle x before the bundle of that cycle issues (R65, R71,
R76, R87, R130, R190). -/
def Site.settle (x : Nat) (c : Site) : Site :=
  let c1 := c.settleReads x
  let c2 := (List.range 4).foldl (Site.settleAdds x) c1
  let c3 := (c2.settleAux x).settleRows x
  let c4 := (List.range 4).foldl (Site.settleLoads x) c3
  let c5 := (List.range 4).foldl Site.applyRepair c4
  let c6 := c5.count 0x00A (c5.portX.filter (fun b => b.1 = x)).length
  { c6 with portX := c6.portX.filter (fun b => decide (x ≤ b.1)), recent := c6.recent.filter (fun r => decide (x ≤ r.cyc + 1)),
            flight := c6.flight.filter (fun w => decide (x < w.land)) }

end Sys2Proof.Machine
end

