-- ==== Sys2Proof/Machine/Dma.lean ====
section
/-! DEFINITION. The DMA slots: descriptors, the checks at issue, grants, and the moves of a completion (R133, R183 to
R188, R232, R272, R309, R471). -/

set_option autoImplicit false

namespace Sys2Proof.Machine

/-- Size of HBM, and the bases of control space and of a doorbell (R229, R308). -/
def hbmSize : Nat := 0x1B000000000
def ctlBase : Nat := 0xF0000000000
def doorBase : Nat := 0xF0009000000 + 0x680000

/-- The doorbell number that a module address names, if it lies in the doorbell range (R308). -/
def doorOf (a : Nat) : Option Nat := if doorBase ≤ a ∧ a < doorBase + 0x40 * 800 then some ((a - doorBase) / 0x40) else none

/-- Whether buffers cover n bytes from a on; the first argument bounds the buffers used. -/
def covers : Nat → List Buf → Nat → Nat → Bool
  | 0, _, _, n => n = 0
  | k + 1, bs, a, n =>
    if n = 0 then true
    else match bs.find? (fun b => decide (b.base ≤ a ∧ a < b.base + b.len)) with
      | some b => if a + n ≤ b.base + b.len then true else covers k bs (b.base + b.len) (a + n - (b.base + b.len))
      | none => false

/-- The buffers granted to a role with an access (1 read, 2 write) (R272). -/
def State.buffersOf (s : State) (role acc : Nat) : List Buf := match s.img with
  | some im => im.buffers.filter (fun b => (b.role = role || b.role = 0xFFFF) && (b.acc / acc) % 2 = 1)
  | none => []

/-- Whether a role may access n bytes of HBM from a on. -/
def State.granted (s : State) (role acc a n : Nat) : Bool :=
  let bs := s.buffersOf role acc
  n = 0 || (decide (a + n ≤ hbmSize) && covers (bs.length + 1) bs a n)

/-! ## Transfers -/

/-- What a DMA operation asks for, before its checks. -/
structure Xfer where
  kind : DmaKind
  srcl : Bool
  dstl : Bool
  src : Nat
  dst : Nat
  rows : Nat
  rbytes : Nat
  sstride : Nat
  dstride : Nat
  deriving DecidableEq, Repr

/-- An Xfer as an outstanding DMA. -/
def Xfer.dma (x : Xfer) (tok : Nat) (bad : Bool) (tag : Option Nat) : Dma :=
  ⟨tok, x.kind, x.srcl, x.dstl, x.src % 2 ^ 44, x.dst % 2 ^ 44, x.rows, x.rbytes, x.sstride, x.dstride, bad, none, tag⟩

/-- Source ranges as (address, bytes), and destination ranges (R186). -/
def Xfer.srcRanges (x : Xfer) : List (Nat × Nat) := (List.range x.rows).map (fun r => (x.src + r * x.sstride, x.rbytes))
def Xfer.dstRanges (x : Xfer) : List (Nat × Nat) :=
  let d := (x.dma 0 false none).dstRows
  (List.range d.2.2).map (fun r => (x.dst + r * d.2.1, d.1))

/-- The transfer of a DMAC (R184). -/
def dmacXfer (c : Site) (f : DmacF) : Xfer :=
  { kind := .copy, srcl := f.srcl, dstl := f.dstl, src := (c.sreg f.rsrc.toNat).val.toNat,
    dst := (c.sreg f.rdst.toNat).val.toNat, rows := 1, rbytes := (c.sreg f.rlen.toNat).val.toNat % 2 ^ 32,
    sstride := 0, dstride := 0 }

/-- Element width of an ESIZE code (R185). -/
def esizeBits (e : Nat) : Option Nat :=
  match e with
  | 0 => some 4 | 1 => some 6 | 2 => some 8 | 3 => some 16 | 4 => some 32 | 5 => some 64
  | _ => none

/-- The transfer of a DMAD descriptor given as its 512-bit number. -/
def dmadXfer (v : Nat) : Xfer :=
  { kind := if bitsOf v 3 0 = 1 then .transpose ((esizeBits (bitsOf v 6 4)).getD 8) else .copy,
    srcl := bitOf v 8, dstl := bitOf v 9, src := bitsOf v 127 64, dst := bitsOf v 191 128, rows := bitsOf v 223 192,
    rbytes := bitsOf v 255 224, sstride := bitsOf v 287 256, dstride := bitsOf v 319 288 }

/-- Whether a descriptor breaks R185 to R187 in its fields. -/
def dmadIllegal (v : Nat) : Bool :=
  let mode := bitsOf v 3 0
  let es := bitsOf v 6 4
  let rows := bitsOf v 223 192
  let rb := bitsOf v 255 224
  let e := (esizeBits es).getD 8
  decide (2 ≤ mode) || decide (6 ≤ es) || bitsOf v 7 7 ≠ 0 || bitsOf v 63 10 ≠ 0 || bitsOf v 511 320 ≠ 0 ||
  !decide (1 ≤ rows ∧ rows ≤ 65536) || !decide (1 ≤ rb ∧ rb ≤ 16777216) ||
  (if mode = 0 then es ≠ 0
   else (e = 4 && rows % 2 ≠ 0) || (e = 6 && (rb % 3 ≠ 0 || rows % 4 ≠ 0)) || (decide (8 ≤ e) && rb % (e / 8) ≠ 0) ||
     decide (65536 < 8 * rb / e))

/-- ACCESS details that a local range breaks as a source or a destination (R187, R212). `half` is the instruction-store half of the
bundle being issued. -/
def localDetails (c : Site) (half : Nat) (dst : Bool) (r : Nat × Nat) : List Nat :=
  let a := r.1
  let n := r.2
  if n = 0 then []
  else
    let inside := fun (lo hi : Nat) => decide (lo ≤ a ∧ a + n ≤ hi)
    let mapped := inside 0 storeSize || inside 0x800000 0x810000 || inside 0x1000000 0x1080000 || inside 0x2000000 0x2008000
    let touches := fun (lo hi : Nat) => decide (a < hi ∧ lo < a + n)
    (if mapped then [] else [acUNMAP]) ++
    (if dst && touches 0x800000 0x810000 then [acPRIV] else []) ++
    (if dst && c.inSpill a n then [acSPILL] else []) ++
    (if dst && touches (0x1000000 + 0x40000 * half) (0x1040000 + 0x40000 * half) then [acIHALF] else [])

/-- ACCESS details of a transfer (R184, R187). -/
def Xfer.details (x : Xfer) (c : Site) (half : Nat) : List Nat :=
  (if x.srcl then (if 2 ^ 32 ≤ x.src then [acUNMAP] else x.srcRanges.flatMap (localDetails c half false)) else []) ++
  (if x.dstl then (if 2 ^ 32 ≤ x.dst then [acUNMAP] else x.dstRanges.flatMap (localDetails c half true)) else [])

/-- The destination ranges of a DMA in HBM. -/
def Dma.hbmTargets (d : Dma) : List (Nat × Nat) :=
  if d.dstl then [] else let r := d.dstRows; (List.range r.2.2).map (fun i => (d.dst + i * r.2.1, r.1))

/-- Instruction-store halves that are the destination of a DMA, whatever becomes of its data (R126, R157). -/
def Dma.halves (d : Dma) : List Nat :=
  if d.dstl then
    let r := d.dstRows
    [0, 1].filter (fun h => (List.range r.2.2).any (fun i =>
      decide (r.1 ≠ 0 ∧ d.dst + i * r.2.1 < 0x1040000 + 0x40000 * h ∧ 0x1000000 + 0x40000 * h < d.dst + i * r.2.1 + r.1)))
  else []

/-- Whether a half is the destination of an outstanding DMA. -/
def Site.halfBusy (c : Site) (h : Nat) : Bool := c.dmas.any (fun d => h ∈ d.halves)

/-- A read of the own site window that meets a counter the program may not read (R471). -/
def Site.privRead (c : Site) (r : Nat × Nat) : Bool :=
  r.2 ≠ 0 && (List.range 16).any (fun i =>
    let no := c.ctrPriv i || c.f (PMC_SEL_USER i) ≠ 1
    let hit := fun (lo n : Nat) => decide (r.1 < 0x800000 + lo + n ∧ 0x800000 + lo < r.1 + r.2)
    no && (hit (0xC000 + 8 * i) 8 || (c.ctrPriv i && hit (0xC080 + 8 * i) 8)))

/-- The module address range of a site's own window: (base, end) (R229). -/
def siteWindow (n : Nat) : Nat := ctlBase + 0x1000000 * (n / 104) + 0x10000 * (n % 104)

/-- Whether a module range is a read of the own site window (R125, R471). -/
def ownWindow (n : Nat) (r : Nat × Nat) : Bool := decide (siteWindow n ≤ r.1 ∧ r.1 + r.2 ≤ siteWindow n + 0x10000)

/-- The window range as a local range. -/
def ownLocal (n : Nat) (r : Nat × Nat) : Nat × Nat := (r.1 - siteWindow n + 0x800000, r.2)

/-- Whether a transfer ends with the error of R133 for its addresses (R133, R184, R232, R272, R309, R471): outside HBM, whose buffers the
image grants, only the own site window and the own doorbell are within a role's reach. -/
def State.badXfer (s : State) (n : Nat) (x : Xfer) : Bool :=
  let c := s.site n
  let role := c.roleNo
  let rd := fun (r : Nat × Nat) => s.granted role 1 r.1 r.2 || (ownWindow n r && !c.privRead (ownLocal n r))
  let src := if x.srcl then x.srcRanges.any (fun r => c.privRead r)
    else decide (2 ^ 44 ≤ x.src) || x.srcRanges.any (fun r => !rd r)
  let door := !x.dstl && x.rows = 1 && x.rbytes = 64 && x.dst = doorBase + 0x40 * role
  let dst := if x.dstl || door then false
    else decide (2 ^ 44 ≤ x.dst) || x.dstRanges.any (fun r => !s.granted role 2 r.1 r.2)
  src || dst

/-! ## The moves of a completion -/

/-- Reads marked bytes at a local address, for a DMA. -/
def Site.dmaRead (c : Site) (n dev a k : Nat) : List (Byte × Bool) :=
  match placeOf a with
  | .store => c.store.marks a k
  | .window off => (c.winBytes n dev off k).map (fun b => (b, false))
  | .istore off => c.istore.marks off k
  | .record off => c.recs.marks off k
  | .alias_ off => c.recs.marks off k
  | _ => List.replicate k (0, false)

/-- What a read of n bytes at a local address leaves: CORRECTED words are rewritten (R109). -/
def Site.dmaTouch (c : Site) (a k : Nat) : Site :=
  match placeOf a with
  | .store => c.touchStore a k
  | .istore off => { c with istore := c.istore.healRange off k }
  | .record off => { c with recs := c.recs.healRange off k }
  | .alias_ off => { c with recs := c.recs.healRange off k }
  | _ => c

/-- Reads marked bytes of a DMA source. -/
def State.dmaRead (s : State) (n : Nat) (local_ : Bool) (a k : Nat) : List (Byte × Bool) :=
  if k = 0 then []
  else if local_ then (s.site n).dmaRead n s.devidx a k
  else if ownWindow n (a, k) then (s.site n).dmaRead n s.devidx (ownLocal n (a, k)).1 k
  else s.hbm.marks a k

/-- Writes marked bytes to a local address, for a DMA. An alias range is written plainly (log entry 20). -/
def Site.dmaWrite (c : Site) (a : Nat) (bs : List (Byte × Bool)) : Site :=
  match placeOf a with
  | .store => { c with store := c.store.store a bs }
  | .istore off => { c with istore := c.istore.store off bs }
  | .record off => { c with recs := c.recs.store off bs }
  | .alias_ off => { c with recs := c.recs.store off bs }
  | _ => c

/-- Writes marked bytes to a DMA destination. -/
def State.dmaWrite (s : State) (n : Nat) (local_ : Bool) (a : Nat) (bs : List (Byte × Bool)) : State :=
  if bs = [] then s
  else if local_ then s.onSite n (fun c => c.dmaWrite a bs)
  else if hbmSize ≤ a then s
  else { s with hbm := s.hbm.store a bs }

/-- Column c of a transposed block: element (r, c) of every row packed in order (R186). A byte is poisoned when an element
in it comes from a poisoned byte. -/
def transposeCol (e : Nat) (rows : List (Nat × List Bool)) (c : Nat) : List (Byte × Bool) :=
  let v := packElems e (rows.map (fun r => elemAt r.1 e c))
  let bad := rows.map (fun r => r.2.getD (e * c / 8) false || r.2.getD ((e * c + e - 1) / 8) false)
  let nb := e * rows.length / 8
  (leBytes nb v).zipIdx.map (fun b => (b.1, (List.range rows.length).any (fun r =>
    bad.getD r false && decide (e * r / 8 ≤ b.2 ∧ b.2 ≤ (e * r + e - 1) / 8))))

/-- The destination rows of a DMA with their contents, as (address, marked bytes), from the source as it stands (R186). -/
def State.dmaRows (s : State) (n : Nat) (d : Dma) : List (Nat × List (Byte × Bool)) :=
  match d.kind with
  | .transpose e =>
    let rows := (List.range d.rows).map (fun r =>
      let b := s.dmaRead n d.srcl (d.src + r * d.sstride) d.rbytes
      (marksNat b, b.map (·.2)))
    (List.range (8 * d.rbytes / e)).map (fun c => (d.dst + c * d.dstride, transposeCol e rows c))
  | .copy => (List.range d.rows).map (fun r => (d.dst + r * d.dstride, s.dmaRead n d.srcl (d.src + r * d.sstride) d.rbytes))
  | .collective _ _ => []

/-- Moves a DMA's data row by row, each source row read when it is moved. Of words stored since the issue R188 allows the old value or
the new one; the model takes the one that stands at the completion. DESIGN CHOICE (log entry 104). -/
def State.dmaMove (s : State) (n : Nat) (d : Dma) : State :=
  match d.kind with
  | .copy => (List.range d.rows).foldl (fun s r =>
      s.dmaWrite n d.dstl (d.dst + r * d.dstride) (s.dmaRead n d.srcl (d.src + r * d.sstride) d.rbytes)) s
  | _ => (s.dmaRows n d).foldl (fun s r => s.dmaWrite n d.dstl r.1 r.2) s

/-- A lost transfer (R133): each destination word holds its old or its new value, a free choice (log entry 5). -/
def State.dmaLost (s : State) (n : Nat) (d : Dma) : State :=
  let rows := s.dmaRows n d
  rows.foldl (fun s r => (wordsOf r.1 r.2.length).foldl (fun s w =>
    let lo := Nat.max w r.1
    let hi := Nat.min (w + 8) (r.1 + r.2.length)
    let s1 := if Config.freeBit s.free then s.dmaWrite n d.dstl lo ((r.2.drop (lo - r.1)).take (hi - lo)) else s
    s1.skipFree) s) s

end Sys2Proof.Machine
end

