-- ==== Sys2Proof/Machine/Hbm.lean ====
section
/-! DEFINITION. HBM as the fabric sees it, and routes between dies: placement of module addresses, the ECC events of a read, the error log, patrol,
rewrites, rechecks and page retirement (R228 to R244, R256, R340). -/

set_option autoImplicit false

namespace Sys2Proof.Machine

/-! ## Requests at a controller (R246, R248) -/

/-- The address of a packet, from its header. -/
def hAddr (h : Nat) : Nat := bitsOf h 95 52

/-- Bytes that a request of HBM may touch: those of its payload, or for RD up to the end of the 256-byte block. -/
def hbmLen (h : Nat) (data : List (Byte × Bool)) : Nat := if data.isEmpty then 256 - hAddr h % 256 else data.length

/-! ## Routes of the NoC (R15, R265) -/

/-- Whether the ring carries a packet: one of the stream class between neighbouring compute dies (R15). Ring link 1 of CDd comes from
CD(d-1) and link 2 from CD(d+1); that CD0 and CD7 are neighbours is DEDUCED from R257 (log entry 109). -/
def ringLink (d e cls : Nat) : Option Nat :=
  if cls ≠ 2 ∨ 8 ≤ d ∨ 8 ≤ e then none else if e = (d + 7) % 8 then some 1 else if e = (d + 1) % 8 then some 2 else none

/-- The link by which die d sends toward another die: through HD between dies (R15, R265). -/
def dieRoute (d e cls : Nat) : Nat :=
  if d = hdWin then (if e < 8 then e else if e = 11 then 10 else e - 1) else (ringLink d e cls).getD 0

/-- Key of a route. -/
def routeKey (d e cls : Nat) : Nat := (d * 16 + e) * 4 + cls

/-- The router of a die's mesh at which a node stands: x + 16 y. Node 256 is the gateway, 257 + k the controller of stack k of the die. The
place of a node is not stated. DESIGN CHOICE (log entry 109). -/
def meshNode (d n : Nat) : Nat := let p := Config.nodeAt d n; p.1 % 16 + 16 * (p.2 % 16)

/-- The routers of a way through a mesh behind its first, in dimension order, x before y (R265); the first argument bounds the hops. Which
dimension comes first is a DESIGN CHOICE (log entry 109). -/
def meshPath : Nat → Nat → Nat → List Nat
  | 0, _, _ => []
  | k + 1, r, g =>
    if r = g then []
    else
      let q := if r % 16 < g % 16 then r + 1 else if g % 16 < r % 16 then r - 1 else if r < g then r + 16 else r - 16
      q :: meshPath k q g

/-- The routers between two nodes of a die, the last node's included, the first's not. -/
def diePath (d a b : Nat) : List Nat := meshPath 32 (meshNode d a) (meshNode d b)

/-- Key of a way between two nodes of a die. -/
def pathKey (d a b : Nat) : Nat := (d * 512 + a) * 512 + b

/-! ## The error log (R256) -/

/-- Shows an event in HBM_ERRLOGk. -/
def State.showHbmEvent (s : State) (stack : Nat) (e : HbmEvent) : State :=
  let w := stack / 3
  let k := stack % 3
  (((((((s.setD w (HBM_ERRLOG_VALID k) 1).setD w (HBM_ERRLOG_TYPE k) e.typ).setD w (HBM_ERRLOG_SYM k) e.sym).setD w
    (HBM_ERRLOG_PC k) e.pc).setD w (HBM_ERRLOG_BANK k) e.bank).setD w (HBM_ERRLOG_COL k) e.col).setD w (HBM_ERRLOG_ROW k)
    e.row).setD w (HBM_ERRLOG_LAST k) (if e.last then 1 else 0)

/-- Logs an event of the word at module address a; a log of 16 events takes no more. -/
def State.logHbm (s : State) (a typ sym : Nat) (last : Bool) : State :=
  let stack := hbmStack a
  let x := hbmAddr a
  let e : HbmEvent := ⟨typ, sym, bitsOf x 11 6, bitsOf x 21 16, bitsOf x 15 12, bitsOf x 36 22, last⟩
  let l := mget [] s.fab.errLog stack
  if s.d (stack / 3) (HBM_ERRLOG_VALID (stack % 3)) = 0 then s.showHbmEvent stack e
  else if l.length < 15 then { s with fab := { s.fab with errLog := mput [] stack (l ++ [e]) s.fab.errLog } }
  else s

/-- The symbol that a CORRECTED word names: 0 to 15 data, 16 to 19 check (R234). -/
def symbolOf (v : Word) (syn : BitVec 16) : Nat :=
  let d := v ^^^ (decodeWord v syn).1
  if d ≠ 0 then ((List.range 16).find? (fun j => symOf d j ≠ 0)).getD 31
  else ((List.range 4).find? (fun j => syn.extractLsb' (4 * j) 4 ≠ 0#4)).elim 31 (fun j => 16 + j)

/-! ## What a read meets (R240, R241, R340) -/

/-- Pages of buffers with USE 3 or 4, which the poison page list watches. -/
def State.watchedPage (s : State) (page : Nat) : Bool := match s.img with
  | some im => im.buffers.any (fun b => (b.use = 3 || b.use = 4) && decide (b.base < (page + 1) * 65536 ∧ page * 65536 < b.base + b.len))
  | none => false

/-- An error event of a word waits for its recheck. -/
def State.awaitRecheck (s : State) (a typ : Nat) : State :=
  let sym := if typ = 1 then symbolOf (s.hbm.raw a) (s.hbm.synAt a) else 31
  if s.fab.rechecks.any (fun e => e.1 = a / 8 * 8) then s
  else { s with fab := { s.fab with rechecks := s.fab.rechecks ++ [(a / 8 * 8, typ, sym)] } }

/-- Poison found in a watched page lists the page (R340). -/
def State.listPoison (s : State) (a : Nat) : State :=
  if s.watchedPage (a / 65536) then { s with rep := { s.rep with poison := linsert (a / 65536) s.rep.poison } } else s

/-- A read of one HBM word that does not decode CLEAN: counted, a CORRECTED word queued for its rewrite, an error for its recheck,
poison logged and its page listed. -/
def State.readEvent (s : State) (a : Nat) : State :=
  let cls := (s.hbm.dec a).2
  let w := hbmDie a
  let k := hbmStack a % 3
  match cls with
  | .clean => s
  | .corrected =>
    let s1 := ((s.bumpD w (HBM_ECC_CE k) 1).countD w 0x107 1).awaitRecheck a 1
    { s1 with fab := { s1.fab with rewrites := linsert (a / 8 * 8) s1.fab.rewrites } }
  | .poison => (s.logHbm a 3 31 false).listPoison a
  | .uncorrectable => (((s.bumpD w (HBM_ECC_UE k) 1).countD w 0x108 1).awaitRecheck a 2).listPoison a

/-- What a read of n bytes of HBM from a on leaves behind. -/
def State.hbmNote (s : State) (a n : Nat) : State :=
  ((s.hbm.syn.filter (fun e => decide (a < e.1 + 8 ∧ e.1 < a + n))).map (·.1)).foldl State.readEvent
    (s.countBursts 0x105 a n)

/-- What a read of whole pages of 64 KiB leaves behind. -/
def State.notePages (s : State) (ps : List Nat) : State := ps.foldl (fun s p => s.hbmNote (p * 65536) 65536) s

/-- Whether accesses to a module range stall: for a page that is being retired (R242), or at controllers whose die has stopped (R20). -/
def State.retiring (s : State) (a n : Nat) : Bool :=
  (List.range 8).any (fun d => !s.dieRuns d && decide (a < (d + 1) * dieBytes ∧ d * dieBytes < a + n)) ||
  s.fab.copying.any (fun e => (pagesTouched a n).any (fun p =>
    (List.range 16).any (fun i => hbmStack (p * 65536 + i * 4096) = e.1 && stackPage (hbmAddr (p * 65536 + i * 4096)) = e.2)))

/-- Whether a checkpoint round holds a write to a page: protected and not copied yet (R389). -/
def State.snapHeld (s : State) (page : Nat) : Bool := match s.ckp.round with
  | some r => r.armed && page ∈ r.protect && page ∉ r.copied
  | none => false

/-- Whether an earlier request of the NoC waits for one of the 64-byte bursts of a module range (R248). -/
def burstHeld (held : List (Nat × Nat × List (Byte × Bool))) (a n : Nat) : Bool :=
  held.any (fun r =>
    let b := hAddr r.2.1
    decide (b / 64 ≤ (a + n - 1) / 64 ∧ a / 64 ≤ (b + hbmLen r.2.1 r.2.2 - 1) / 64))

/-- Whether a read of a module range waits: for the retirement of its page (R242), or behind an earlier request of one of its bursts
(R248). -/
def State.readWaits (s : State) (a n : Nat) : Bool := n ≠ 0 && (s.retiring a n || burstHeld s.fab.held a n)

/-- Whether a write to a module range waits: as a read does, or for the copy that a checkpoint round makes (R389). -/
def State.writeWaits (s : State) (a n : Nat) : Bool := s.readWaits a n || (pagesTouched a n).any s.snapHeld

/-! ## Retirement (R242 to R244) -/

/-- Consumed poison signalled by a block other than a core, a fault of R28 (R239). -/
def State.blockPoison (s : State) (w : Nat) : State := (s.emit (.fwSignal (832 + w) sigPoison)).reportFault 0x03 noBlame 0 false

/-- Module addresses of the words of the DRAM row that holds address a: 16 column bursts of one pseudo-channel. -/
def rowWords (a : Nat) : List Nat :=
  let x := hbmAddr a
  (List.range 16).flatMap (fun c => (List.range 8).map (fun i =>
    hbmModule (hbmStack a) (x / 65536 * 65536 + c * 4096 + x / 64 % 64 * 64 + 8 * i)))

/-- A row becomes lasting with no free reserve page: its words that do not read CLEAN are poisoned, and the module reports itself at
the next step boundary (R244). -/
def State.reserveGone (s : State) (a : Nat) : State :=
  let hbm := (rowWords a).foldl (fun (m : Mem) w => if (m.dec w).2 = .clean then m else m.putWord w (m.dec w).1 true) s.hbm
  let s1 : State := { s with hbm := hbm, pel := { s.pel with selfReports := s.pel.selfReports + 1 } }
  s1.refit { s1 with test := { s1.test with stackGone := true } }

/-- Reserve pages of the stack of address a that are free for the page that holds it: those of RSVFREE, less one for every other page with a
lasting row that waits for its copy or is being copied (R242, R244). -/
def State.reserveLeft (s : State) (a : Nat) : Nat :=
  let stack := hbmStack a
  let lasts := (s.test.table.filter (fun e => e.kind = ukHBMROW && e.state = seLASTING && e.unit % 32 = stack)).map
    (fun e => e.unit / 2 ^ 17 * 64 + e.unit / 2 ^ 11 % 64)
  let waits := lasts.eraseDups.filter (fun p => p ≠ stackPage (hbmAddr a) && (mfind s.fab.retired (stack * 2 ^ 21 + p)).isNone)
  s.d (hbmDie a) (HBM_STATUS_RSVFREE (stack % 3)) - waits.length

/-- A lasting row's stack page: its copy to a reserve page begins, unless it is retired already (R242). -/
def State.retirePage (s : State) (stack page : Nat) : State :=
  let w := stack / 3
  let k := stack % 3
  if (mfind s.fab.retired (stack * 2 ^ 21 + page)).isSome ∨ (mfind s.fab.copying stack).isSome ∨ s.d w (HBM_STATUS_RSVFREE k) = 0 then s
  else { s with fab := { s.fab with copying := mset stack page s.fab.copying } }

/-- The first reserve page from i on that no retired page uses; the first argument bounds the search (R242). -/
def freeReserve : Nat → List Nat → Nat → Nat
  | 0, _, i => i
  | n + 1, used, i => if i ∈ used then freeReserve n used (i + 1) else i

/-- The retirement copy is complete: words keep value and poison, UNCORRECTABLE ones become poisoned, and the page is redirected. -/
def State.retireDone (s : State) (stack : Nat) : State :=
  match mfind s.fab.copying stack with
  | none => s
  | some page =>
    let w := stack / 3
    let k := stack % 3
    let free := s.d w (HBM_STATUS_RSVFREE k)
    let used := (s.fab.retired.filter (fun e => e.1 / 2 ^ 21 = stack)).map (·.2)
    let mine := (s.hbm.syn.map (·.1)).filter (fun a => hbmStack a = stack && stackPage (hbmAddr a) = page)
    let hbm := mine.foldl (fun (m : Mem) a => match (m.dec a).2 with
      | .uncorrectable => m.putWord a (m.dec a).1 true
      | .corrected => m.heal a
      | _ => m) s.hbm
    let s1 : State := { s with hbm := hbm, fab := { s.fab with copying := mdel stack s.fab.copying,
                                                               retired := mset (stack * 2 ^ 21 + page) (freeReserve (used.length + 1) used 0) s.fab.retired } }
    let s2 := (s1.setD w (HBM_STATUS_RSVFREE k) (free - 1)).setD w (HBM_STATUS_RETIRED k) (s1.d w (HBM_STATUS_RETIRED k) + 1)
    if free = 256 then s2.alert 4 else s2

/-! ## Commands -/

/-- HBM_PATROL (R240): reads one burst; a CORRECTED word is rewritten with its corrected value. A stack is patrolled while it
is in service; the last burst ends the period. -/
def execHbmPatrol (stack : Fin 24) (burst : Nat) (s : State) : Host.Outcome State Fault Refusal :=
  let w := stack.val / 3
  let k := stack.val % 3
  let total := 0x1200000000 / 64
  .next (if total ≤ burst ∨ !s.dieRuns w then s
    else
      let a := hbmModule stack.val (burst * 64)
      let s1 := s.hbmNote a 64
      let s2 : State := { s1 with hbm := s1.hbm.healRange a 64,
                                  fab := { s1.fab with rewrites := s1.fab.rewrites.filter (fun r => !decide (a ≤ r ∧ r < a + 64)),
                                                       patrol := mput 0 stack.val ((mget 0 s1.fab.patrol stack.val + 1) % total) s1.fab.patrol } }
      s2.setD w (HBM_STATUS_SCRUB k) (if mget 0 s2.fab.patrol stack.val = 0 then 0 else 1))

/-- HBM_CORRECTION_REWRITE (R240): a word that a read queued is rewritten if it still decodes CORRECTED. -/
def execHbmCorrectionRewrite (word : Nat) (s : State) : Host.Outcome State Fault Refusal :=
  let a := word / 8 * 8
  .next (if a ∈ s.fab.rewrites ∧ s.dieRuns (hbmDie a) then { s with hbm := s.hbm.heal a, fab := { s.fab with rewrites := s.fab.rewrites.filter (· ≠ a) } } else s)

/-- The word of an error event is written back: a CORRECTED one as it was corrected, an UNCORRECTABLE one as poison (R241). -/
def State.writeBack (s : State) (a : Nat) : State :=
  let d := s.hbm.dec a
  { s with hbm := match d.2 with
      | .corrected => s.hbm.heal a
      | .uncorrectable => s.hbm.putWord a d.1 true
      | _ => s.hbm }

/-- HBM_ERROR_RECHECK (R241): the word of a CORRECTED or UNCORRECTABLE event is written back, the latter as poison, and read again.
A second failure, or a second event of the row within 24 hours, makes the row lasting; the event is logged. -/
def execHbmErrorRecheck (word : Nat) (rereadFails : Bool) (s : State) : Host.Outcome State Fault Refusal :=
  let a := word / 8 * 8
  .next (if !s.reaches (hbmDie a) then s else match s.fab.rechecks.find? (fun e => e.1 = a) with
    | none => s
    | some ev =>
      let s0 : State := { s with fab := { s.fab with rechecks := s.fab.rechecks.filter (fun e => e.1 ≠ a) } }
      let r := (if rereadFails then s0 else s0.writeBack a).fault24 ukHBMROW (rowUnit a) rereadFails
      let free := s.reserveLeft a
      let s1 := r.1.logHbm a (if !r.2 then ev.2.1 else if free = 0 then 5 else 4) ev.2.2 r.2
      (if r.2 ∧ free = 0 then s1.reserveGone a else s1).writeBack a)

/-- PAGE_RETIRE (R242): of a stack page that holds a lasting row. -/
def execPageRetire (stack : Fin 24) (page : Nat) (s : State) : Host.Outcome State Fault Refusal :=
  .next (if s.reaches (stack.val / 3) && s.test.table.any (fun e => e.kind = ukHBMROW && e.state = seLASTING && e.unit % 32 = stack.val &&
      e.unit / 2 ^ 11 % 64 = page % 64 && e.unit / 2 ^ 17 = page / 64)
    then s.retirePage stack.val page else s)

end Sys2Proof.Machine
end

