-- ==== Sys2Proof/Machine/Collect.lean ====
section
/-! DEFINITION. The collectives engine and the broom wagon: posts, leaves and trees, decisions, chunks, completion, deadlines
(R308 to R319, R324, R375, R376). -/

set_option autoImplicit false

namespace Sys2Proof.Machine

/-! ## Groups and shards (R311, R316, R320) -/

/-- Operations (R309). -/
def opALLRED : Nat := 0
def opREDSCAT : Nat := 1
def opALLGATH : Nat := 2
def opBCAST : Nat := 3
def opRECMERGE : Nat := 4

/-- Members of a group as (rank, device). -/
def State.members (s : State) (gid : Nat) : List (Nat × Nat) := match s.img with
  | some im => (im.groups.filter (fun g => g.gid = gid)).map (fun g => (g.rank, g.dev))
  | none => []

/-- Size of a group. -/
def State.nranks (s : State) (gid : Nat) : Nat := (s.members gid).length

/-- This module's rank in a group. -/
def State.rankIn (s : State) (gid : Nat) : Option Nat := ((s.members gid).find? (fun m => m.2 = s.devidx)).map (·.1)

/-- The device of a rank. -/
def State.rankDev (s : State) (gid rank : Nat) : Nat := match (s.members gid).find? (fun m => m.1 = rank) with
  | some m => m.2
  | none => noBlame

/-- The DEADLINES entry of a group (R321). -/
def State.groupDl (s : State) (gid : Nat) : GroupDl := match s.img with
  | some im => (im.groupDl.find? (fun g => g.gid = gid)).getD ⟨gid, 0, 0, 0, 0⟩
  | none => ⟨gid, 0, 0, 0, 0⟩

/-- Bytes of an element by DT. -/
def dtBytes (dt : Nat) : Nat := if dt = 0 then 4 else if dt = 1 then 8 else 32

/-- First element of shard r of `nr` (R311). -/
def shardLo (len nr r : Nat) : Nat := if nr = 0 then 0 else r * len / nr

/-- Chunks of elements lo to hi - 1 as (first, count): at most 64 KiB each (R316). -/
def chunksOf (e lo hi : Nat) : List (Nat × Nat) :=
  let per := 65536 / e
  (List.range ((hi - lo + per - 1) / per)).map (fun k => (lo + k * per, Nat.min per (hi - (lo + k * per))))

/-- Chunks of shard r. -/
def shardChunks (e len nr r : Nat) : List (Nat × Nat) := chunksOf e (shardLo len nr r) (shardLo len nr (r + 1))

/-- Chunks of shard r as (number, first, count): numbered from 0 within the shard (R316), on top of `base`. -/
def shardPieces (e len nr r base : Nat) : List (Nat × Nat × Nat) :=
  (shardChunks e len nr r).zipIdx.map (fun p => (base + p.2, p.1.1, p.1.2))

/-- Chunks of the largest shard. -/
def shardMax (e len nr : Nat) : Nat := ((List.range nr).map (fun r => (shardChunks e len nr r).length)).foldl Nat.max 0

/-- Chunks of every shard in order. A number tells the shard and the number within it. DESIGN CHOICE (log entry 27). -/
def allPieces (e len nr : Nat) : List (Nat × Nat × Nat) :=
  let m := shardMax e len nr
  (List.range nr).flatMap (fun r => shardPieces e len nr r (r * m))

/-- The chunks that a rank contributes to what rank `me` forms, as (number, first, count). -/
def Coll.pieces (c : Coll) (nr me rank : Nat) : List (Nat × Nat × Nat) :=
  let e := dtBytes c.dt
  if c.op = opREDSCAT then shardPieces e c.len nr me 0
  else if c.op = opALLGATH then shardPieces e c.len nr rank 0
  else if c.op = opBCAST then (if rank = c.root then allPieces e c.len nr else [])
  else allPieces e c.len nr

/-- The elements that a collective writes on rank `me`, as (first, end). -/
def Coll.span (c : Coll) (nr me : Nat) : Nat × Nat :=
  if c.op = opREDSCAT then (shardLo c.len nr me, shardLo c.len nr (me + 1)) else (0, c.len)

/-- Whether a collective reduces. -/
def Coll.reduces (c : Coll) : Bool := c.op = opALLRED || c.op = opREDSCAT || c.op = opRECMERGE

/-- Whether rank `me` was late and folds its contribution into the next step (R318). -/
def Coll.folds (c : Coll) (me : Nat) : Bool := match c.decision with
  | some d => d.2 && c.reduces && me ∈ d.1
  | none => false

/-! ## The step record (R330) -/

/-- The decision recorded for a bucket in the step in flight, when the step is a replay (R318). -/
def State.recorded (s : State) (gid bucket : Nat) : Option (List Nat × Bool) :=
  if !s.gate.replay then none
  else (s.entriesOf s.stepNo).findSome? (fun e => match e with
    | .straggler g b late fold => if g.toNat = gid ∧ b.toNat = bucket then some (late, fold) else none
    | _ => none)

/-! ## Contributions -/

/-- Words of a chunk that carries bytes with their poison: a word is poisoned when a byte of it is. -/
def chunkWords : Nat → List (Byte × Bool) → List CodeWord
  | 0, _ => []
  | n + 1, bs => mkCode (BitVec.ofNat 64 (marksNat (bs.take 8))) (marksPoi (bs.take 8)) :: chunkWords n (bs.drop 8)

/-- The marked bytes that words carry (R236). -/
def wordMarksOf (ws : List CodeWord) : List (Byte × Bool) :=
  ws.flatMap (fun w => let d := cwDecode w; (leBytes 8 d.1.toNat).map (fun b => (b, d.2.bad)))

/-- Bytes that an element of a rank's chunk takes: a folded F32 leaf travels as sum and crumb (log entry 27). -/
def leafBytes (dt : Nat) (folded : Bool) : Nat := if dt = 0 ∧ folded then 8 else dtBytes dt

/-- Ranks whose contribution of the step before is folded in, where they are included in this step (R318). -/
def State.foldRanks (s : State) (c : Coll) (late : List Nat) : List Nat :=
  ((s.col.foldIn.filter (fun f => f.1 + 1 = s.stepNo.toNat && f.2.1 = c.gid && f.2.2.1 = c.bucket && f.2.2.2.2 = c.len)).map
    (fun f => f.2.2.2.1)).filter (fun r => r ∉ late)

/-- The fold buffer of a step (R318). -/
def Coll.foldBase (c : Coll) (step : Nat) : Nat := c.fold + step % 2 * (dtBytes c.dt * c.len)

/-- A leaf: a value with its crumb, or a record; and its poison. -/
inductive LeafV where
  | pair (s c : FV)
  | dbl (v : FV)
  | rcd (r : Rec)

structure Leaf where
  v : LeafV
  poi : Bool

/-- The leaf of a late rank (R317). -/
def lateLeaf (dt : Nat) : Leaf :=
  if dt = 0 then ⟨.pair negZero negZero, false⟩ else if dt = 1 then ⟨.dbl negZero, false⟩ else ⟨.rcd (Rec.ofNat 0), false⟩

/-- A leaf from its marked bytes. -/
def leafOf (dt : Nat) (folded : Bool) (b : List (Byte × Bool)) : Leaf :=
  let v := marksNat b
  let l := if dt = 0 then LeafV.pair (F32.dec (v % 2 ^ 32)) (if folded then F32.dec (v / 2 ^ 32 % 2 ^ 32) else negZero)
    else if dt = 1 then .dbl (F64.dec v) else .rcd (Rec.ofNat v)
  ⟨l, marksPoi b⟩

/-- combine of R312; `t` is the table of exp() in a merge of records. -/
def combine (t : Table) (a b : Leaf) : Leaf :=
  let v := match a.v, b.v with
    | .pair s1 c1, .pair s2 c2 =>
      let z := compAdd s1 negZero s2
      .pair z.1 (sumR91 (sumR91 c1 c2).1 z.2.1).1
    | .dbl x, .dbl y => .dbl (add64 x y)
    | .rcd x, .rcd y => .rcd (Rec.merge t x y)
    | x, _ => x
  ⟨v, a.poi || b.poi⟩

/-- tree(lo, hi) of R312 over leaves; the first argument bounds the depth. -/
def treeOf (t : Table) : Nat → List Leaf → Leaf → Leaf
  | 0, _, d => d
  | k + 1, ls, d =>
    match ls with
    | [] => d
    | [x] => x
    | l =>
      let h := treeSplit 64 1 l.length
      combine t (treeOf t k (l.take h) d) (treeOf t k (l.drop h) d)

/-- The delivered element of a reduction as bytes (R312). -/
def Leaf.deliver (l : Leaf) : Bytes :=
  match l.v with
  | .pair s c => leBytes 4 (F32.enc (F32.rnd true (add64 s c)).v)
  | .dbl v => leBytes 8 (F64.enc v)
  | .rcd r => leBytes 32 r.toNat

/-- Bytes of a leaf as a folded chunk carries it. -/
def Leaf.carry (l : Leaf) : Bytes :=
  match l.v with
  | .pair s c => leBytes 4 (F32.enc s) ++ leBytes 4 (F32.enc c)
  | .dbl v => leBytes 8 (F64.enc v)
  | .rcd r => leBytes 32 r.toNat

/-- The table of the engine's merges, among those of the posting core (log entry 18). -/
def State.engineTable (s : State) (c : Coll) : Table := (mfind (s.site c.site).tables (Config.mergeTable 2 % 32)).getD Table.blank

/-- Bytes that lie in the first word of a chunk before it: a chunk's words are those of the source as its first element stands at a multiple of
8 bytes, so that a copy moves words with their poison (R311). Folded leaves take a word each. -/
def Coll.pad (c : Coll) (nr rank lo : Nat) (folded : Bool) : Nat :=
  if folded && c.reduces then 0 else dtBytes c.dt * (lo - (if c.op = opALLGATH then shardLo c.len nr rank else 0)) % 8

/-- Marked bytes of element i of this module's own contribution, as the source holds it. -/
def State.ownElem (s : State) (c : Coll) (nr me i : Nat) : List (Byte × Bool) :=
  let e := dtBytes c.dt
  let base := if c.op = opALLGATH then shardLo c.len nr me else 0
  s.hbm.marks (c.src + e * (i - base)) e

/-- This module's leaf of element i: its new contribution, with the held one where it is folded in (R318). -/
def State.ownLeaf (s : State) (c : Coll) (nr me i : Nat) (folded : Bool) : Leaf :=
  let e := dtBytes c.dt
  let new := leafOf c.dt false (s.ownElem c nr me i)
  if folded then
    combine (s.engineTable c) new (leafOf c.dt false (s.hbm.marks (c.foldBase (s.stepNo.toNat - 1) + e * i) e))
  else new

/-- Marked bytes of a chunk of this module's contribution. -/
def State.ownChunk (s : State) (c : Coll) (nr me : Nat) (p : Nat × Nat) (folded : Bool) : List (Byte × Bool) :=
  (List.range p.2).flatMap (fun j =>
    if folded ∧ c.reduces then
      let l := s.ownLeaf c nr me (p.1 + j) true
      l.carry.map (fun b => (b, l.poi))
    else s.ownElem c nr me (p.1 + j))

/-- The words of a chunk of this module's contribution. -/
def State.chunkCode (s : State) (c : Coll) (nr me : Nat) (p : Nat × Nat) (folded : Bool) : List CodeWord :=
  let pad := c.pad nr me p.1 folded
  let b := s.ownChunk c nr me p folded
  chunkWords ((pad + b.length + 7) / 8) (List.replicate pad (0, false) ++ b)

/-! ## Chunks out (R308, R312) -/

/-- Sends a chunk in packets of at most 512 words. The bucket travels in MB (log entry 27). -/
def State.sendChunk (s : State) (c : Coll) (dev k : Nat) (ws : List CodeWord) : State :=
  (List.range ((ws.length + 511) / 512)).foldl (fun s j =>
    s.ualSend 1 0 dev (BitVec.ofNat 16 c.gid) (BitVec.ofNat 16 c.bucket) (BitVec.ofNat 32 k) (BitVec.ofNat 24 (512 * j))
      ((ws.drop (512 * j)).take 512)) s

/-- What the engine's reads of a contribution, and of the one held before where it is folded in, leave in HBM's error state (R240). -/
def State.collRead (s : State) (c : Coll) (folded : Bool) : State :=
  let e := dtBytes c.dt
  let nr := s.nranks c.gid
  let me := (s.rankIn c.gid).getD 0
  let n := if c.op = opALLGATH then shardLo c.len nr (me + 1) - shardLo c.len nr me else c.len
  let s1 := if c.op = opBCAST ∧ me ≠ c.root then s else s.hbmNote c.src (e * n)
  if folded then s1.hbmNote (c.foldBase (s.stepNo.toNat - 1)) (e * c.len) else s1

/-- Sends this module's contribution to every other rank that takes it, once the decision includes this rank. -/
def State.sendChunks (s : State) (c : Coll) : State :=
  match s.rankIn c.gid, c.decision with
  | some me, some (late, _) =>
    if me ∈ late then s
    else
      let nr := s.nranks c.gid
      let folded := decide (me ∈ s.foldRanks c late)
      (List.range nr).foldl (fun s r =>
        if r = me then s
        else (c.pieces nr r me).foldl (fun s p =>
          s.sendChunk c (s.rankDev c.gid r) p.1 (s.chunkCode c nr me p.2 folded)) s) (s.collRead c folded)
  | _, _ => s

/-! ## Decisions (R317, R318) -/

/-- The collective of a bucket in flight. -/
def State.coll (s : State) (gid bucket : Nat) : Option Coll := s.col.colls.find? (fun c => c.gid = gid && c.bucket = bucket)

/-- Replaces a collective in flight. -/
def State.setColl (s : State) (c : Coll) : State :=
  { s with col := { s.col with colls := s.col.colls.map (fun d => if d.gid = c.gid && d.bucket = c.bucket then c else d) } }

/-- Shows COL_STATUS.INFLIGHT. -/
def State.showInflight (s : State) : State := s.setD (ndWin 0) COL_STATUS_INFLIGHT s.col.colls.length

/-- Shows an entry in BRM_LOG (R324). -/
def State.showBrm (s : State) (e : Nat × Nat × Nat × Nat) : State :=
  let w := ndWin 0
  ((((s.setD w BRM_LOG_VALID 1).setD w BRM_LOG_DEC e.1).setD w BRM_LOG_GID e.2.1).setD w BRM_LOG_RANK e.2.2.1).setD w
    BRM_LOG_BUCKET e.2.2.2

/-- Enters (DEC, GID, RANK, BUCKET) in the broom wagon's log of 16 entries. -/
def State.brm (s : State) (e : Nat × Nat × Nat × Nat) : State :=
  if s.d (ndWin 0) BRM_LOG_VALID = 0 then s.showBrm e
  else if s.col.brmLog.length < 15 then { s with col := { s.col with brmLog := s.col.brmLog ++ [e] } }
  else s

/-- A late rank of this module writes its contribution to the fold buffer (R318). -/
def State.writeFold (s : State) (c : Coll) (me : Nat) : State :=
  let e := dtBytes c.dt
  let bs := (List.range c.len).flatMap (fun i => s.ownElem c (s.nranks c.gid) me i)
  let s1 := s.collRead c false
  if bs.length = e * c.len then { s1 with hbm := s1.hbm.store (c.foldBase s.stepNo.toNat) bs } else s1

/-- The ranges of HBM that a collective reads on rank `me`: its source, and a contribution held from the step before. -/
def State.collSources (s : State) (c : Coll) (me : Nat) : List (Nat × Nat) :=
  let nr := s.nranks c.gid
  let e := dtBytes c.dt
  let n := if c.op = opALLGATH then shardLo c.len nr (me + 1) - shardLo c.len nr me else if c.op = opBCAST ∧ me ≠ c.root then 0 else c.len
  let held := match c.decision with
    | some d => decide (me ∈ s.foldRanks c d.1)
    | none => false
  [(c.src, e * n)] ++ (if held then [(c.foldBase (s.stepNo.toNat - 1), e * c.len)] else [])

/-- Whether a read of a collective's source waits at its controller (R242, R248). -/
def State.collWaits (s : State) (c : Coll) (me : Nat) : Bool := (s.collSources c me).any (fun r => s.readWaits r.1 r.2)

/-- The chunks of a decided collective leave, once the reads of its source need not wait (R242). -/
def State.feedColl (s : State) (c : Coll) : State :=
  match s.rankIn c.gid, c.decision with
  | some me, some _ => if c.fed ∨ s.collWaits c me then s
    else
      let c1 := { c with fed := true }
      (s.setColl c1).sendChunks c1
  | _, _ => s

/-- The chunks of every decided collective whose reads waited. -/
def State.feedColls (s : State) : State :=
  s.col.colls.foldl (fun s c => match s.coll c.gid c.bucket with
    | some d => s.feedColl d
    | none => s) s

/-- A decision in force on this module: the bucket's ranks may combine, and folded contributions are noted. -/
def State.applyDecision (s : State) (c : Coll) (late : List Nat) (fold : Bool) : State :=
  let c1 := { c with decision := some (late, fold) }
  let s1 := s.setColl c1
  let s2 : State := if fold ∧ c.reduces then
      { s1 with col := { s1.col with foldIn := s1.col.foldIn ++ late.map (fun r => (s.stepNo.toNat, c.gid, c.bucket, r, c.len)) } }
    else s1
  s2.feedColl c1

/-- DECIDE as a rank takes it (R317): entered in the step record, unless the step replays it, and applied to the collective
once it is posted. -/
def State.takeDecision (s : State) (gid bucket : Nat) (late : List Nat) (fold : Bool) : State :=
  if s.col.decisions.any (fun d => d.1 = gid && d.2.1 = bucket) then s
  else
    let s1 : State := { s with col := { s.col with decisions := s.col.decisions ++ [(gid, bucket, late, fold)] } }
    let s2 := if (s.recorded gid bucket).isSome then s1
      else s1.recordEntry s1.stepNo (.straggler (BitVec.ofNat 16 gid) (BitVec.ofNat 16 bucket) late fold)
    match s2.coll gid bucket with
    | some c => s2.applyDecision c late fold
    | none => s2

/-- Payload of DECIDE: the policy, then the late ranks (log entry 28). -/
def decideWords (late : List Nat) (fold : Bool) : List CodeWord :=
  ((if fold then 1 else 0) :: late).map (fun v => mkCode (BitVec.ofNat 64 v) false)

/-- The decider decides a bucket (R317). -/
def State.announce (s : State) (gid bucket : Nat) (late : List Nat) (fold : Bool) : State :=
  let w := ndWin 0
  let s1 : State := { s with col := { s.col with cutoffs := s.col.cutoffs.filter (fun c => c ≠ (gid, bucket)) } }
  let s2 := (s1.setD w BRM_STATUS_LATE (s1.d w BRM_STATUS_LATE + late.length)).countD w 0x10D late.length
  let s3 := late.foldl (fun s r => s.brm (if fold then 1 else 2, gid, r, bucket)) s2
  let s4 := (s3.members gid).foldl (fun s m => if m.2 = s.devidx then s
    else s.ualSend 2 2 m.2 (BitVec.ofNat 16 gid) 0 (BitVec.ofNat 32 bucket) 0 (decideWords late fold)) s3
  s4.takeDecision gid bucket late fold

/-- Ranks ready for a bucket. -/
def State.readyRanks (s : State) (gid bucket : Nat) : List Nat :=
  match s.col.ready.find? (fun r => r.1 = gid && r.2.1 = bucket) with
  | some r => r.2.2
  | none => []

/-- Ranks of a group that are not ready for a bucket. -/
def State.lateRanks (s : State) (gid bucket : Nat) : List Nat :=
  (List.range (s.nranks gid)).filter (fun r => r ∉ s.readyRanks gid bucket)

/-- READY at the decider (R317): the first starts the cutoff timer; when every rank awaited is ready, the decider decides. A
replay awaits the ranks recorded as included and applies the recorded decision (R318). -/
def State.readyIn (s : State) (gid bucket rank : Nat) : State :=
  if s.rankIn gid ≠ some 0 ∨ s.nranks gid ≤ rank ∨ s.col.decisions.any (fun d => d.1 = gid && d.2.1 = bucket) then s
  else
    let old := s.readyRanks gid bucket
    let l := linsert rank old
    let rest := s.col.ready.filter (fun r => !(r.1 = gid && r.2.1 = bucket))
    let late0 := decide (old ≠ [] ∧ (gid, bucket) ∉ s.col.cutoffs)
    let s1 : State := { s with col := { s.col with ready := rest ++ [(gid, bucket, l)],
                                                   cutoffs := if old = [] then s.col.cutoffs ++ [(gid, bucket)] else s.col.cutoffs } }
    match s.recorded gid bucket with
    | some (late, fold) =>
      if (List.range (s.nranks gid)).all (fun r => r ∈ l || r ∈ late) then s1.announce gid bucket late fold else s1
    | none =>
      let s2 := if late0 then s1.brm (0, gid, rank, bucket) else s1
      if (List.range (s.nranks gid)).all (fun r => r ∈ l) then s2.announce gid bucket [] false else s2

/-! ## Posts (R309, R310) -/

/-- A descriptor as a collective. -/
def collOf (v n : Nat) (step : BitVec 64) : Coll :=
  { op := bitsOf v 3 0, dt := bitsOf v 5 4, nrm := bitOf v 6, cnt := bitOf v 7, tok := bitsOf v 11 8, gid := bitsOf v 31 16,
    bucket := bitsOf v 47 32, root := bitsOf v 63 48, src := bitsOf v 107 64, dst := bitsOf v 171 128, len := bitsOf v 223 192,
    fold := bitsOf v 299 256, crec := bitsOf v 363 320, site := n, step := step, sent := false, fed := false, decision := none, contrib := [], acked := [] }

/-- The errors of R310 apart from addresses; a group that does not exist, and a field outside the range of R309, are counted
among them (log entry 29). -/
def State.badDesc (s : State) (v : Nat) (c : Coll) : Bool :=
  let nr := s.nranks c.gid
  decide (5 ≤ c.op) || c.dt = 3 || bitsOf v 15 12 ≠ 0 || bitsOf v 127 108 ≠ 0 || bitsOf v 191 172 ≠ 0 || bitsOf v 255 224 ≠ 0 ||
  bitsOf v 319 300 ≠ 0 || bitsOf v 511 364 ≠ 0 || ((c.nrm || c.cnt) && decide (2 ≤ c.op)) ||
  (decide (c.dt = 2) != decide (c.op = opRECMERGE)) || s.col.seen.any (fun x => x.2.1 = c.bucket) || ((s.groupDl c.gid).policy = 1 && c.fold = 0) ||
  nr = 0 || c.len = 0 || c.crec % 64 ≠ 0 || (if c.op = opBCAST then decide (nr ≤ c.root) else c.root ≠ 0)

/-- Whether an address range of a descriptor lies outside the role's granted buffers (R310, R311, R318). -/
def State.badCollAddr (s : State) (role : Nat) (c : Coll) : Bool :=
  let nr := s.nranks c.gid
  let me := (s.rankIn c.gid).getD 0
  let e := dtBytes c.dt
  let shard := e * (shardLo c.len nr (me + 1) - shardLo c.len nr me)
  let srcN := if c.op = opALLGATH then shard else if c.op = opBCAST ∧ me ≠ c.root then 0 else e * c.len
  let dstN := if c.op = opREDSCAT then shard else e * c.len
  !s.granted role 1 c.src srcN || !s.granted role 2 c.dst dstN || !s.granted role 2 c.crec 64 ||
  (c.fold ≠ 0 && (!s.granted role 1 c.fold (2 * e * c.len) || !s.granted role 2 c.fold (2 * e * c.len)))

/-- A collective as a DMA of the posting core (R310). -/
def Coll.dma (c : Coll) : Dma :=
  ⟨c.tok, .collective c.gid c.bucket, false, false, c.src, c.dst, 0, 0, 0, 0, false, none, none⟩

/-- The ranges of HBM that a collective writes on rank `me`: its result, its completion record, and a late contribution that it folds. -/
def State.collTargets (s : State) (c : Coll) (me : Nat) : List (Nat × Nat) :=
  let sp := c.span (s.nranks c.gid) me
  let e := dtBytes c.dt
  [(c.dst, e * (sp.2 - sp.1)), (c.crec, 64)] ++ (if c.folds me then [(c.foldBase s.stepNo.toNat, e * c.len)] else [])

/-- Whether the source of a collective is complete: no DMA outstanding on this module still writes into it, and none of the collectives that
were posted before, which are DMAs as well (R310, R317). -/
def State.sourceDone (s : State) (c : Coll) : Bool :=
  let n := s.nranks c.gid
  let me := (s.rankIn c.gid).getD 0
  let k := if c.op = opALLGATH then shardLo c.len n (me + 1) - shardLo c.len n me else if c.op = opBCAST ∧ me ≠ c.root then 0 else c.len
  let hit := fun (r : Nat × Nat) => decide (r.1 < c.src + dtBytes c.dt * k ∧ c.src < r.1 + r.2)
  let before := s.col.colls.takeWhile (fun x => !(x.gid = c.gid && x.bucket = c.bucket))
  !s.liveSites.any (fun m => (s.site m).dmas.any (fun d => !d.bad && d.hbmTargets.any hit)) &&
  !before.any (fun x => (s.collTargets x ((s.rankIn x.gid).getD 0)).any hit)

/-- READY of a posted collective to the decider, once its source is complete (R317). -/
def State.sendReady (s : State) (c : Coll) : State :=
  if c.sent ∨ !s.sourceDone c then s
  else
    let s1 := s.setColl { c with sent := true }
    match s1.rankIn c.gid with
    | some 0 => s1.readyIn c.gid c.bucket 0
    | some _ => s1.ualSend 2 1 (s1.rankDev c.gid 0) (BitVec.ofNat 16 c.gid) 0 (BitVec.ofNat 32 c.bucket) 0 []
    | none => s1

/-- READY of every posted collective whose source has become complete. -/
def State.sendReadies (s : State) : State :=
  s.col.colls.foldl (fun s c => match s.coll c.gid c.bucket with
    | some d => s.sendReady d
    | none => s) s

/-- A descriptor written to the doorbell of site n's role (R309, R310): an error completes at once on CTOK; else the
collective is in flight, and READY goes to the decider (R317). A catch-up replay applies the decision of its step record (R345). -/
def State.collPost (s : State) (n v : Nat) : State :=
  let c := collOf v n s.stepNo
  let w := ndWin 0
  if s.badDesc v c then ((s.bumpD w COL_STATUS_ERRS 1).onSite n (fun x => x.count 0x00C 1)).tokenEvent n c.tok true false
  else if s.badCollAddr (s.site n).roleNo c then (s.onSite n (fun x => x.count 0x00C 1)).tokenEvent n c.tok true false
  else
    let s1 : State := { s with col := { s.col with colls := s.col.colls ++ [c], seen := s.col.seen ++ [(c.gid, c.bucket, c.len)] } }
    let s2 := (s1.onSite n (fun x => { x with dmas := x.dmas ++ [c.dma] })).showInflight
    let s3 := match s2.col.decisions.find? (fun d => d.1 = c.gid && d.2.1 = c.bucket) with
      | some d => s2.applyDecision c d.2.2.1 d.2.2.2
      | none => match (if s2.gate.catchUp then s2.recorded c.gid c.bucket else none) with
        | some d => s2.takeDecision c.gid c.bucket d.1 d.2
        | none => s2
    s3.sendReadies

/-! ## Chunks in (R308, R312) -/

/-- Sends CHUNKACK for a chunk of a rank. -/
def State.ackChunk (s : State) (gid bucket rank chunk : Nat) : State :=
  s.ualSend 2 3 (s.rankDev gid rank) (BitVec.ofNat 16 gid) (BitVec.ofNat 16 bucket) (BitVec.ofNat 32 chunk) 0 []

/-- A chunk of a rank's contribution (R308, R312): kept once, acknowledged; one that is held already is discarded by number. -/
def State.chunkIn (s : State) (gid bucket rank chunk : Nat) (ws : List CodeWord) : State :=
  match s.coll gid bucket, s.rankIn gid with
  | some c, some me =>
    let nr := s.nranks gid
    let folded := match c.decision with
      | some d => decide (rank ∈ s.foldRanks c d.1)
      | none => decide (rank ∈ s.foldRanks c [])
    match (c.pieces nr me rank).find? (fun p => p.1 = chunk) with
    | some p =>
      let n := (c.pad nr rank p.2.1 folded + leafBytes c.dt (folded && c.reduces) * p.2.2 + 7) / 8
      if rank = me ∨ nr ≤ rank ∨ ws.length ≠ n then s
      else if c.contrib.any (fun x => x.1 = rank && x.2.1 = chunk) then s.ackChunk gid bucket rank chunk
      else ((s.setColl { c with contrib := c.contrib ++ [(rank, chunk, ws)] }).countD (ndWin 0) 0x10C 1).ackChunk gid bucket rank chunk
    | none => s
  | _, _ => s

/-! ## Completion (R311 to R314, R316) -/

/-- Whether a collective can complete: every included rank's chunks are here, this module's own have left, the source of a late contribution to
fold is complete, and none of its reads and writes waits (R242, R248, R389). -/
def State.collReady (s : State) (c : Coll) (me : Nat) (late : List Nat) : Bool :=
  let nr := s.nranks c.gid
  (List.range nr).all (fun r => r = me || r ∈ late || (c.pieces nr me r).all (fun k =>
    c.contrib.any (fun x => x.1 = r && x.2.1 = k.1))) &&
  (me ∈ late || c.fed) && (!c.folds me || s.sourceDone c) && !s.collWaits c me && !(s.collTargets c me).any (fun r => s.writeWaits r.1 r.2)

/-- The words of chunk k of rank r that hold element i, with the chunk's first element: this module's own as it would carry them, so that every
rank reduces the same words (R311). -/
def State.chunkAt (s : State) (c : Coll) (me r i : Nat) (folded : Bool) : Option (Nat × List CodeWord) :=
  let nr := s.nranks c.gid
  match (c.pieces nr me r).find? (fun p => decide (p.2.1 ≤ i ∧ i < p.2.1 + p.2.2)) with
  | some p => if r = me then some (p.2.1, s.chunkCode c nr me p.2 folded)
    else (c.contrib.find? (fun x => x.1 = r && x.2.1 = p.1)).map (fun x => (p.2.1, x.2.2))
  | none => none

/-- Marked bytes of element i of rank r, of e bytes, from the words of its chunk. -/
def State.carried (s : State) (c : Coll) (me r i e : Nat) (folded : Bool) : Option (List (Byte × Bool)) :=
  (s.chunkAt c me r i folded).map (fun x =>
    ((wordMarksOf x.2).drop (c.pad (s.nranks c.gid) r x.1 folded + e * (i - x.1))).take e)

/-- The leaf of rank r for element i, from its chunks. -/
def State.leafAt (s : State) (c : Coll) (me r i : Nat) (late fr : List Nat) : Leaf :=
  let folded := decide (r ∈ fr)
  if r ∈ late then lateLeaf c.dt
  else match s.carried c me r i (leafBytes c.dt folded) folded with
    | some b => leafOf c.dt folded b
    | none => lateLeaf c.dt

/-- Marked bytes of element i that a copying collective delivers, words with their poison unchanged (R311). -/
def State.copyAt (s : State) (c : Coll) (me i : Nat) (late : List Nat) : List (Byte × Bool) :=
  let nr := s.nranks c.gid
  let e := dtBytes c.dt
  let r := if c.op = opBCAST then c.root
    else ((List.range nr).find? (fun r => decide (shardLo c.len nr r ≤ i ∧ i < shardLo c.len nr (r + 1)))).getD 0
  if r ∈ late then (lateLeaf c.dt).deliver.map (fun b => (b, false))
  else (s.carried c me r i e false).getD []

/-- Marked bytes of the delivered elements, in element order. -/
def State.collResult (s : State) (c : Coll) (me : Nat) (late fr : List Nat) : List (List (Byte × Bool)) :=
  let nr := s.nranks c.gid
  let sp := c.span nr me
  let t := s.engineTable c
  (List.range (sp.2 - sp.1)).map (fun j =>
    if c.reduces then
      let l := treeOf t 64 ((List.range nr).map (fun r => s.leafAt c me r (sp.1 + j) late fr)) (lateLeaf c.dt)
      l.deliver.map (fun b => (b, l.poi))
    else s.copyAt c me (sp.1 + j) late)

/-- Codes of the elements of this rank's shard among delivered elements, with their poison. -/
def shardCodes (c : Coll) (nr me : Nat) (res : List (List (Byte × Bool))) : List (Nat × Bool) :=
  let lo := (c.span nr me).1
  let a := shardLo c.len nr me
  let b := shardLo c.len nr (me + 1)
  ((res.drop (a - lo)).take (b - a)).map (fun e => (marksNat e, marksPoi e))

/-- The engine's partials of a bucket (R314): (norm, NaN, infinite, poisoned). -/
def bucketParts (c : Coll) (es : List (Nat × Bool)) : BitVec 64 × Nat × Nat × Nat :=
  let f := if c.dt = 1 then F64 else F32
  let q := if c.nrm then es.foldl (fun a e => add64 a (mul64 (f.dec e.1) (f.dec e.1))) posZero else posZero
  let n := fun (p : Nat × Bool → Bool) => if c.cnt then (es.filter p).length else 0
  (word64 q, n (fun e => codeNan f e.1), n (fun e => codeInf f e.1), n (fun e => e.2))

/-- Inserts a bucket's partials in increasing bucket. -/
def insertPart (x : Nat × BitVec 64 × Nat × Nat × Nat) : List (Nat × BitVec 64 × Nat × Nat × Nat) → List (Nat × BitVec 64 × Nat × Nat × Nat)
  | [] => [x]
  | y :: l => if x.1 < y.1 then x :: y :: l else y :: insertPart x l

/-- Shows the engine's partial in COL_NORM and COL_CNT (R314); a count saturates as in DRN_CNT (R225, R324). -/
def State.showParts (s : State) : State :=
  let w := ndWin 0
  let l := s.col.qb
  let q := l.foldl (fun a x => add64 a (F64.dec x.2.1.toNat)) posZero
  let put := fun (s : State) (f : Fld) (n : Nat) => s.setD w f (satAdd f.width 0 n)
  put (put (put (s.setD w COL_NORM_NORM (if l = [] then 0 else (word64 q).toNat)) COL_CNT_NCNT ((l.map (fun x => x.2.2.1)).sum))
    COL_CNT_ICNT ((l.map (fun x => x.2.2.2.1)).sum)) COL_CNT_PCNT ((l.map (fun x => x.2.2.2.2)).sum)

/-- The completion record (R316). -/
def collRecord (c : Coll) (incl folded : Nat) (poi : Bool) : Bytes :=
  leBytes 8 c.step.toNat ++ leBytes 2 c.gid ++ leBytes 2 c.bucket ++ leBytes 2 incl ++ leBytes 2 folded ++
    leBytes 48 (if poi then 1 else 0)

/-- A collective completes (R311 to R318): the result, its partials, the completion record and a folded contribution are written, and CTOK
counts. -/
def State.collComplete (s : State) (c : Coll) (me : Nat) (late : List Nat) : State :=
  let nr := s.nranks c.gid
  let fr := s.foldRanks c late
  let res := s.collResult c me late fr
  let out := res.flatten
  let poi := marksPoi out
  let s0 := if c.folds me then s.writeFold c me else if me ∈ late then s else s.collRead c (decide (me ∈ fr))
  let s1 : State := { s0 with hbm := (s0.hbm.store c.dst out).write c.crec (collRecord c (nr - late.length)
    (if c.reduces then fr.length else 0) poi) false }
  let parts := bucketParts c (shardCodes c nr me res)
  let s2 : State := if c.nrm || c.cnt then { s1 with col := { s1.col with qb := insertPart (c.bucket, parts) s1.col.qb } } else s1
  let bc := if c.op = opBCAST then linsert (c.gid, s.rankDev c.gid c.root) s2.col.bcasts else s2.col.bcasts
  let s3 : State := { s2 with col := { s2.col with colls := s2.col.colls.filter (fun d => !(d.gid = c.gid && d.bucket = c.bucket)), bcasts := bc } }
  let w := ndWin 0
  let s4 := ((s3.showParts).setD w COL_STATUS_DONE (s3.d w COL_STATUS_DONE + 1)).showInflight
  let s5 := s4.onSite c.site (fun x =>
    { x with dmas := x.dmas.filter (fun d => d.kind ≠ DmaKind.collective c.gid c.bucket) }.count 0x00C 1)
  s5.tokenEvent c.site c.tok false false

/-! ## Missed deadlines (R319, R375 to R377) -/

/-- The rule of R376 for a deadline that blames this module: missed again by the replay, or a second one within 24 hours, is lasting. It
then reports itself, or without captains the job halts. A second miss in the attempt of the first adds nothing (log entry 30). -/
def State.blameSelf (s : State) (seen : Bool) : State :=
  if seen && !s.gate.replay then s
  else
    let r := s.fault24 ukBLAME 0 seen
    if r.2 then r.1.selfLasting else r.1

/-- Notes a missed deadline of the step in flight; the second result tells whether it was missed before. -/
def State.noteDeadline (s : State) (detail b : Nat) : State × Bool :=
  let key := (s.stepNo.toNat, detail, b)
  ({ s with pel := { s.pel with deadlines := linsert key s.pel.deadlines } }, decide (key ∈ s.pel.deadlines))

/-- The same for another module, in a slice without captains: it is lost when the replay misses the deadline again, or at the second one within
24 hours, and the job halts (R354, R376). -/
def State.blameOther (s : State) (b : Nat) (seen : Bool) : State :=
  if b = noBlame ∨ (seen ∧ !s.gate.replay) then s
  else if seen || s.blamedLately b then (s.noteBlame b).haltJob 0x06
  else s.noteBlame b

/-- A missed deadline: counted, logged and reported with its DETAIL, once for each module blamed. -/
def State.missDeadline (s : State) (detail : Nat) (blame : List Nat) (gid rank bucket : Nat) : State :=
  let w := ndWin 0
  let s1 := (s.bumpD w BRM_STATUS_MISS 1).brm (3, gid, rank, bucket)
  let who := if blame = [] then [noBlame] else blame
  who.foldl (fun s b =>
    let n := s.noteDeadline detail b
    let s3 := n.1.reportFault 0x02 b detail false
    if b = s.devidx then s3.blameSelf n.2
    else if s.loaded && !s.hasCaptains then s3.blameOther b n.2
    else s3) s1

/-- Devices still awaited by a collective: the ranks late at the decider, or those that have not acknowledged a chunk (R375). -/
def State.collBlame (s : State) (gid bucket : Nat) : List Nat :=
  let nr := s.nranks gid
  if s.rankIn gid = some 0 ∧ !s.col.decisions.any (fun d => d.1 = gid && d.2.1 = bucket) then
    (s.lateRanks gid bucket).map (fun r => s.rankDev gid r)
  else match s.coll gid bucket, s.rankIn gid with
    | some c, some me =>
      ((List.range nr).filter (fun r => r ≠ me && (c.pieces nr r me).any (fun k => (r, k.1) ∉ c.acked))).map
        (fun r => s.rankDev gid r)
    | _, _ => []

end Sys2Proof.Machine
end

