-- ==== Sys2Proof/Machine/Issue.lean ====
section
/-! DEFINITION. What a set of operations breaks when it issues, and what it does: the checks of R122, R126, R128, R154,
R181, R187, R193, R204, R205 and the array hazards of R82, then the effects in slot order (R127, R156). -/

set_option autoImplicit false

namespace Sys2Proof.Machine

/-- A broken rule: the slot (12 for none), the cause and detail of R138, the hazard bit of an array (R82), and the
pack whose pass stops. -/
structure Viol where
  slot : Nat
  cause : Nat
  detail : Nat
  haz : Option (Nat × Nat)
  stop : Option Nat
  deriving DecidableEq, Repr

/-- Causes (R138). -/
def exILLEGAL : Nat := 1
def exISSUE : Nat := 2
def exARRAY : Nat := 3
def exACCESS : Nat := 4
def exDMAERR : Nat := 5
def exWAITTO : Nat := 6
def exTOKOVF : Nat := 7
def exIFETCH : Nat := 8

/-- Hazard bits of ARR_STATUSn.HAZ, from bit 16 of the register (R82). -/
def hzLDBUSY : Nat := 0
def hzLDOVL : Nat := 1
def hzNRDY : Nat := 2
def hzFMT : Nat := 3
def hzPASSOVL : Nat := 4
def hzACCOVL : Nat := 5
def hzCFG : Nat := 6

def violIllegal (slot : Nat) : Viol := ⟨slot, exILLEGAL, slot, none, none⟩
def violAccess (slot d : Nat) : Viol := ⟨slot, exACCESS, d, none, none⟩
def violArray (slot a h : Nat) : Viol := ⟨slot, exARRAY, a, some (a, h), none⟩
def violStop (a p h : Nat) : Viol := ⟨8, exARRAY, a, some (a, h), some p⟩

/-! ## Operands of the array operations -/

/-- R499: UNMAP, or else ALIGN, for n bytes at a 64-bit value. -/
def coreStoreDetails (v : Word) (n al : Nat) : List Nat :=
  if storeSize < v.toNat + n then [acUNMAP] else if v.toNat % al ≠ 0 then [acALIGN] else []

/-- Bytes and alignment of a FEED (R178). -/
def feedBytes (fmt : Nat) : Nat := if fmt = 6 ∨ fmt = 7 then 24 else 32
def feedDetails (v : Word) (fmt : Nat) : List Nat :=
  if fmt = 6 ∨ fmt = 7 then
    let d := coreStoreDetails v 24 8
    if d = [] ∧ 128 < v.toNat % 128 + 24 then [acALIGN] else d
  else coreStoreDetails v 32 32

/-- Source range of an LDW as (first byte, bytes, alignment) (R179, R197). -/
def ldwRange (mode fmt : Nat) (tr : Bool) (v : Word) : List Nat :=
  if tr then
    if v.toNat % 2048 ≠ 0 then coreStoreDetails v 1 2048
    else
      let b := squareBase fmt v.toNat
      if storeSize < b + 2048 * squareQs fmt then [acUNMAP] else []
  else coreStoreDetails v (32 * packWidth mode) (2 * packWidth mode)

/-- Port-X accesses of an LDW issued in cycle x: (cycle, bank) (R122, R182). -/
def ldwPorts (c : Site) (a : Nat) (f : LdwF) (x : Nat) : List (Nat × Nat) :=
  let mode := c.packMode a
  let v := (c.ea f.ra f.off).toNat
  let rows := (List.range 16).flatMap (fun j =>
    (loadRanges mode f.wfmt.toNat f.tr v j).flatMap (fun r => (banksOf r.1 r.2).map (fun b => (x + j, b))))
  let nb := scaleBytes f.wfmt.toNat (blkOf f.scl.toNat) * packWidth mode
  rows ++ (banksOf (c.sreg f.rs.toNat).val.toNat nb).map (fun b => (x, b))

/-- ACCESS details of an LDW (R179, R182, R499). -/
def ldwDetails (c : Site) (a : Nat) (f : LdwF) : List Nat :=
  let mode := c.packMode a
  ldwRange mode f.wfmt.toNat f.tr (c.ea f.ra f.off) ++
  (if f.scl = 0 then []
   else coreStoreDetails (c.sreg f.rs.toNat).val (scaleBytes f.wfmt.toNat (blkOf f.scl.toNat) * packWidth mode) 256)

/-- Whether an array is in use and its mode contains a pack (R75, R181). -/
def Site.packOk (c : Site) (a p : Nat) : Bool := c.f (ARR_CFG_EN a) = 1 && decide (p < packCount (c.packMode a))

/-! ## Captures (R73 to R76) -/

/-- A vector that a pass captures: the array, the pack, the pass as it stands, whether the pass is a new one. -/
structure Capture where
  arr : Nat
  pack : Nat
  pass : Pass
  fresh : Bool
  deriving DecidableEq, Repr

/-- The open pass of a pack. -/
def Site.pass (c : Site) (a p : Nat) : Option Pass := mfind (c.arr a).passes p

/-- The enabled FEED or FEEDV of a list of operations. -/
def feedOf (c : Site) (ops : List Op) : Option (Bool × FeedF) :=
  ops.findSome? (fun o => match o with
    | .feed v f => if c.enabled f.pred.toNat then some (v, f) else none
    | _ => none)

/-- The enabled PASS on array `a`. -/
def passOf (c : Site) (ops : List Op) (a : Nat) : Option PassF :=
  ops.findSome? (fun o => match o with
    | .pass b f => if b = a ∧ c.enabled f.pred.toNat then some f else none
    | _ => none)

/-- The number of the tile that a PASS or a DRAIN issued now delivers from a pack (R105). -/
def Site.tileNo (c : Site) (op : Bool) (a p : Nat) : Nat := c.nextTile * 64 + (if op then 32 else 0) + 4 * a + p

/-- A PASS as the pass of one pack. -/
def Site.openPass (c : Site) (a p : Nat) (f : PassF) : Pass :=
  ⟨if f.buf then 1 else 0, f.base.toNat, f.mm1.toNat + 1, 0, f.clr, f.drn, f.ddi.toNat, c.tileNo false a p⟩

/-- Array and pack numbers of a site. -/
def Site.packs (c : Site) : List (Nat × Nat) :=
  (List.range 4).flatMap (fun a => (List.range (packCount (c.packMode a))).map (fun p => (a, p)))

/-- Tiles of the pack's quarters in the pass's buffer. -/
def Site.packTiles (c : Site) (a p buf : Nat) : List (Nat × Option Tile) :=
  (quartersOf (c.packMode a) p).map (fun q => (q, mfind (c.arr a).tiles (buf * 4 + q)))

/-- PASSOVL: a PASS on a pack whose earlier pass still needs a vector after the one fed now (R75). -/
def passOvl (c : Site) (ops : List Op) (a : Nat) (f : PassF) : Bool :=
  let fed := if (feedOf c ops).isSome then 1 else 0
  c.enabled f.pred.toNat && (List.range 4).any (fun p => f.pmask.getLsbD p && (match c.pass a p with
    | some q => decide (q.done + fed < q.m)
    | none => false))

/-- CFG and NRDY of an enabled PASS (R75). A PASS on an absent pack beside a pack whose buffer is not ready sets CFG alone: the spec does not
say which bits several broken conditions of one operation set. DESIGN CHOICE (log entry 125). -/
def passHaz (c : Site) (a : Nat) (f : PassF) : List Nat :=
  let ps := (List.range 4).filter (fun p => f.pmask.getLsbD p)
  if ps.any (fun p => !c.packOk a p) then [hzCFG]
  else if ps.any (fun p => (c.packTiles a p (if f.buf then 1 else 0)).any (fun t => t.2.isNone)) then [hzNRDY] else []

/-- The captures of a fed vector: by a pack's open pass, or by a PASS of the same bundle (R73). -/
def capturesOf (c : Site) (ops : List Op) : List Capture :=
  if (feedOf c ops).isNone then []
  else c.packs.filterMap (fun ap =>
    match c.pass ap.1 ap.2 with
    | some p => some ⟨ap.1, ap.2, p, false⟩
    | none => match passOf c ops ap.1 with
      | some f => if f.pmask.getLsbD ap.2 && passHaz c ap.1 f = [] && !passOvl c ops ap.1 f
          then some ⟨ap.1, ap.2, c.openPass ap.1 ap.2 f, true⟩ else none
      | none => none)

/-- The accumulator row that a capture adds into. -/
def Capture.row (k : Capture) : Nat := (k.pass.base + k.pass.done) % 256

/-- Unmasked columns of a pack's tiles. -/
def tileCols (l : List (Nat × Option Tile)) : Nat := (l.map (fun t => match t.2 with
  | some x => x.ncols
  | none => 0)).sum

/-- Rows scheduled and not yet written. -/
def Site.pendingRows (c : Site) : List DrainRow := c.drainQ.filter (fun r => r.terms.isNone)

/-- NRDY and FMT of a capture (R61, R75). -/
def Capture.tileHaz (k : Capture) (c : Site) (fmt : Nat) : List Nat :=
  let ts := c.packTiles k.arr k.pack k.pass.buf
  if ts.any (fun t => t.2.isNone) then [hzNRDY]
  else if ts.any (fun t => match t.2 with
    | some x => classOf x.fmt.toNat ≠ classOf fmt
    | none => false) then [hzFMT] else []

/-- ACCOVL of a capture in cycle x against the drain operations issued before (R76). Where the drain read of a vector captured under DRN
meets a read of such an operation, the pass stops and the DRAIN reads on: R76 states this order for row writes only. DESIGN CHOICE (log
entry 125). -/
def Capture.accOvl (k : Capture) (c : Site) (x : Nat) : Bool :=
  c.pendingRows.any (fun r => r.op && r.arr = k.arr && r.pack = k.pack &&
    ((r.row = k.row && decide (x + 20 ≤ r.rd)) || (k.pass.drn && r.rd = x + 21)))

/-! ## Rows that a bundle schedules (R74, R76, R193, R204) -/

/-- A row to be scheduled, by the slot that schedules it, with its unmasked columns. -/
structure RowPlan where
  slot : Nat
  row : DrainRow
  ncols : Nat
  deriving DecidableEq, Repr

/-- The unmasked columns that a pack's row will have at a later read: of a vector captured in the same bundle, of the newest vector on its
way, or of the row. -/
def Site.rowColsSoon (c : Site) (caps : List Capture) (a p row : Nat) : Nat :=
  match caps.find? (fun k => k.arr = a && k.pack = p && k.row = row) with
  | some k => tileCols (c.packTiles a p k.pass.buf)
  | none => match ((c.arr a).vecs.filter (fun v => v.pack = p ∧ v.row = row)).getLast? with
    | some v => (v.tiles.map (fun t => t.2.ncols)).sum
    | none => c.rowCols a p row

/-- The row of a capture by a pass with DRN set, in cycle x (R74). -/
def Capture.plan (k : Capture) (c : Site) (x : Nat) : RowPlan :=
  ⟨8, ⟨k.arr, k.pack, k.row, false, x + 21, k.pass.tile, k.pass.done + 1 = k.pass.m, c.desc k.pass.ddi, none, none, none⟩,
    tileCols (c.packTiles k.arr k.pack k.pass.buf)⟩

/-- The rows of a DRAIN of cycle x beside the captures of its bundle, in the order in which it reads them (R76). -/
def drainPlans (c : Site) (caps : List Capture) (a : Nat) (f : DrainF) (x : Nat) : List RowPlan :=
  let p := f.pack.toNat
  if c.enabled f.pred.toNat && c.packOk a p then
    (List.range (f.cntm1.toNat + 1)).map (fun i =>
      let r := (f.first.toNat + i) % 256
      ⟨4 + a, ⟨a, p, r, true, x + 1 + i, c.tileNo true a p, i = f.cntm1.toNat, c.desc f.ddi.toNat, none, none, none⟩,
        c.rowColsSoon caps a p r⟩)
  else []

/-- The rank of a row among those placed at one bundle: by array, then pack, then row (R204). -/
def RowPlan.rank (r : RowPlan) : Nat := (r.row.arr * 4 + r.row.pack) * 256 + r.row.row

/-- Puts a row behind those of its bundle that do not rank after it. -/
def insertPlan (r : RowPlan) : List RowPlan → List RowPlan
  | [] => [r]
  | q :: l => if r.rank < q.rank then r :: q :: l else q :: insertPlan r l

/-- Rows that the captures of passes with DRN set and the DRAINs of a bundle of cycle x schedule, ordered by array, then
pack, then row (R204). -/
def rowPlans (c : Site) (ops : List Op) (x : Nat) : List RowPlan :=
  let caps := capturesOf c ops
  ((caps.filter (fun k => k.pass.drn)).map (fun k => k.plan c x) ++
    ops.flatMap (fun o => match o with
      | .drain a f => drainPlans c caps a f x
      | _ => [])).foldl (fun l r => insertPlan r l) []

/-- Destination range of a row in the core store, and its aux range (R192, R193). -/
def RowPlan.dstRange (r : RowPlan) (c : Site) : Nat × Nat :=
  let d := r.row.desc
  (d.daddr + d.dstride * r.row.row + d.esize * (packWidth (c.packMode r.row.arr) * r.row.pack), d.esize * r.ncols)
def RowPlan.auxRange (r : RowPlan) (c : Site) : Nat × Nat :=
  let d := r.row.desc
  (d.aaddr + d.astride * r.row.row + d.asize * (packWidth (c.packMode r.row.arr) * r.row.pack), d.asize * r.ncols)

/-- ACCESS details of a range of elements of e bytes (R193). -/
def rowDetails (c : Site) (e : Nat) (dst : Bool) (r : Nat × Nat) : List Nat :=
  if r.2 = 0 then []
  else (if r.1 % e ≠ 0 then [acALIGN] else []) ++ (if storeSize < r.1 + r.2 then [acUNMAP] else []) ++
    (if dst && c.inSpill r.1 r.2 then [acSPILL] else [])

/-- ACCESS details of a scheduled row apart from its channel slot. A disabled channel counts as unmapped (log entry 21). -/
def RowPlan.details (r : RowPlan) (c : Site) : List Nat :=
  let d := r.row.desc
  (if d.dst = 1 then rowDetails c d.esize true (r.dstRange c) else []) ++
  (if d.dst = 2 ∧ !c.chanOn d.ch then [acUNMAP] else []) ++
  (if d.usesAux then rowDetails c d.asize false (r.auxRange c) else [])

/-- Bytes that a row takes in a channel slot (R213). -/
def chanRowBytes (c : Site) (r : DrainRow) : Nat := packWidth (c.packMode r.arr) * r.desc.esize

/-- Rows among the plans that would cross a slot of their channel, from the cursor on over the rows that are written before (R213). -/
def chanCross (c : Site) (plans : List RowPlan) : List RowPlan :=
  let before := c.pendingRows
  (plans.zipIdx).filterMap (fun p =>
    let r := p.1.row
    if r.desc.dst = 2 ∧ c.chanOn r.desc.ch then
      let same := fun (q : DrainRow) => q.desc.dst = 2 ∧ q.desc.ch = r.desc.ch
      let sum := ((before.filter (fun q => same q && decide (q.rd ≤ r.rd))).map (chanRowBytes c)).sum +
        (((plans.zipIdx).filter (fun q => same q.1.row && decide (q.1.row.rd < r.rd ∨ (q.1.row.rd = r.rd ∧ q.2 < p.2)))).map
          (fun q => chanRowBytes c q.1.row)).sum
      let sl := c.slotBytes r.desc.ch
      if sl < ((c.chan r.desc.ch).cursor + sum) % sl + chanRowBytes c r then some p.1 else none
    else none)

/-- Port-X accesses of a row: the aux read and the write (R122, R193). -/
def RowPlan.ports (r : RowPlan) (c : Site) : List (Nat × Nat) :=
  let d := r.row.desc
  (if d.dst = 1 then (banksOf (r.dstRange c).1 (r.dstRange c).2).map (fun b => (r.row.rd + 15, b)) else []) ++
  (if d.usesAux then (banksOf (r.auxRange c).1 (r.auxRange c).2).map (fun b => (r.row.rd + 4, b)) else [])

/-- Arrays of rows that would reach their drain input before a row that precedes them in the record sequence (R204). -/
def seqBreaks (c : Site) (plans : List RowPlan) : List RowPlan :=
  let old := (c.pendingRows.filter (fun r => r.desc.inSeq)).map (·.rd)
  let new := plans.filter (fun p => p.row.desc.inSeq)
  (new.zipIdx).filterMap (fun (p : RowPlan × Nat) =>
    let rd := p.1.row.rd
    if old.any (fun t => decide (rd < t)) || (new.take p.2).any (fun (q : RowPlan) => decide (rd < q.row.rd)) then some p.1
    else none)

/-- ACCOVL of a drain operation's row: a drain read of the same quarters in the same cycle, or an add that is not written
in an earlier cycle, of a vector fed before or in the same bundle of cycle x (R76). `new` lists the other rows of the bundle. -/
def drainOvl (c : Site) (caps : List Capture) (x : Nat) (new : List RowPlan) (r : RowPlan) : Bool :=
  let d := r.row
  r.row.op && (c.pendingRows.any (fun q => q.arr = d.arr && q.pack = d.pack && q.rd = d.rd) ||
    new.any (fun q => !q.row.op && q.row.arr = d.arr && q.row.pack = d.pack && q.row.rd = d.rd) ||
    (c.arr d.arr).vecs.any (fun v => v.pack = d.pack && v.row = d.row && decide (d.rd ≤ v.cyc + 20)) ||
    caps.any (fun k => k.arr = d.arr && k.pack = d.pack && k.row = d.row && decide (d.rd ≤ x + 20)))

/-! ## Broken rules -/

/-- The encoding check of an operation (R154 and the rules of its slot). -/
def opLegal (c : Site) (o : Op) (shadow : Bool) : Bool :=
  match o with
  | .nop _ _ => true
  | .sc p f => scOk c p f
  | .br p f => brOk shadow p f
  | .vec p f => vecOk c p f
  | .ls p f => lsOk p f
  | .feed v f => feedOk c v f
  | .ldw a f => ldwOk (c.packMode a) f
  | .pass _ f => passOk f
  | .drain _ _ => true
  | .dmac _ => true
  | .dmad _ => true

/-- The descriptor of a DMAD as its read in cycle x sees it, with poison (R185). -/
def dmadDesc (c : Site) (f : DmadF) (x : Nat) : Nat × Bool :=
  let l := (c.viewAt x).marks (c.ea f.ra f.off).toNat 64
  (marksNat l, marksPoi l)

/-- Rules that one operation breaks by itself in cycle x; `pc` is the bundle's index (R126, R155, R178 to R187, R499). -/
def opViols (c : Site) (o : Op) (x pc : Nat) (shadow : Bool) : List Viol :=
  let sl := o.slot
  if !opLegal c o shadow then [violIllegal sl]
  else match o with
    | .br p f =>
      let tgt := if p = .jr then (c.sreg f.ra.toNat).val.toNat % 4096 else f.target.toNat
      if p ≠ .arrive && c.halfBusy (tgt / 2048) then [violAccess sl acIHALF] else []
    | .ls p f =>
      let ea := c.ea f.ra f.off
      let ds := lsDetails c p ea
      ds.map (violAccess sl) ++
      (if ds = [] && c.enabled f.pred.toNat then match lsRecordSet ea with
        | some set => ((c.pendingRows.filter (fun r => r.desc.inSeq && r.desc.rset = set)).map (fun r => violArray sl r.arr hzACCOVL))
        | none => [] else [])
    | .feed v f => if v then [] else (feedDetails (c.ea f.ra f.off) f.fmt.toNat).map (violAccess sl)
    | .ldw a f =>
      (if c.enabled f.pred.toNat then
        (if !c.packOk a f.pack.toNat then [violArray sl a hzCFG]
         else
          (match mfind (c.arr a).lastFeed ((if f.buf then 4 else 0) + f.pack.toNat) with
            | some t => if x < t + 3 then [violArray sl a hzLDBUSY] else []
            | none => []) ++
          (match (c.arr a).lastLoad with
            | some t => if x < t + 16 then [violArray sl a hzLDOVL] else []
            | none => []))
       else []) ++ (ldwDetails c a f).map (violAccess sl)
    | .pass a f =>
      if !c.enabled f.pred.toNat then []
      else (passHaz c a f).map (violArray sl a)
    | .drain a f =>
      if c.enabled f.pred.toNat && !c.packOk a f.pack.toNat then [violArray sl a hzCFG] else []
    | .dmac f => ((dmacXfer c f).details c (pc / 2048)).map (violAccess sl)
    | .dmad f =>
      let ds := coreStoreDetails (c.ea f.ra f.off) 64 64
      if ds ≠ [] then ds.map (violAccess sl)
      else
        let d := dmadDesc c f x
        if d.2 then [] else if dmadIllegal d.1 then [violIllegal sl]
        else ((dmadXfer d.1).details c (pc / 2048)).map (violAccess sl)
    | _ => []

/-- A DRAIN as though it took effect: its addresses are checked whatever bit 0 of its predicate is (R155). -/
def Op.drainForced : Op → Op
  | .drain a f => .drain a { f with pred := 0 }
  | o => o

/-- Rules that the operations break together, in cycle x: captures, rows, passes, a load beside a feed (R72 to R76, R193,
R204, R213). The addresses of a disabled DRAIN's rows are checked too (R155). -/
def groupViols (c : Site) (ops : List Op) (x : Nat) : List Viol :=
  let caps := capturesOf c ops
  let plans := rowPlans c ops x
  let fmt := match feedOf c ops with
    | some f => f.2.fmt.toNat
    | none => 0
  caps.flatMap (fun k => (k.tileHaz c fmt).map (violStop k.arr k.pack) ++
    (if k.accOvl c x then [violStop k.arr k.pack hzACCOVL] else [])) ++
  (rowPlans c (ops.map Op.drainForced) x).flatMap (fun r => (r.details c).map (violAccess r.slot)) ++
  (plans.filter (fun r => drainOvl c caps x plans r)).map (fun r => violArray r.slot r.row.arr hzACCOVL) ++
  (chanCross c plans).map (fun r => violAccess r.slot acALIGN) ++
  (seqBreaks c plans).map (fun r => violArray r.slot r.row.arr hzACCOVL) ++
  ops.flatMap (fun o => match o with
    | .pass a f => if passOvl c ops a f then [violArray o.slot a hzPASSOVL] else []
    | .ldw a f =>
      if c.enabled f.pred.toNat && caps.any (fun k => k.arr = a && k.pack = f.pack.toNat && k.pass.buf = (if f.buf then 1 else 0))
      then [violArray o.slot a hzLDBUSY] else []
    | _ => [])

/-- The details that the address check of an operation finds (R126, R178, R179, R185, R499). -/
def opAddress (c : Site) (o : Op) : List Nat :=
  match o with
  | .ls p f => lsDetails c p (c.ea f.ra f.off)
  | .feed v f => if v then [] else feedDetails (c.ea f.ra f.off) f.fmt.toNat
  | .ldw a f => ldwDetails c a f
  | .dmad f => coreStoreDetails (c.ea f.ra f.off) 64 64
  | _ => []

/-- Port-X accesses of an operation in cycle x (R122). An access that fails its address check is not scheduled. DEDUCED (log entry 49). -/
def opPorts (c : Site) (o : Op) (x : Nat) : List (Nat × Nat) :=
  if opAddress c o ≠ [] then [] else match o with
  | .ls p f => (match placeOf (c.ea f.ra f.off).toNat with
    | .store => (banksOf (c.ea f.ra f.off).toNat p.bytes).map (fun b => (x, b))
    | _ => [])
  | .feed v f => if v then [] else (banksOf (c.ea f.ra f.off).toNat (feedBytes f.fmt.toNat)).map (fun b => (x, b))
  | .ldw a f => ldwPorts c a f x
  | .dmad f => (banksOf (c.ea f.ra f.off).toNat 64).map (fun b => (x, b))
  | _ => []

/-- All port-X accesses of a bundle, with their slots. -/
def slotPorts (c : Site) (ops : List Op) (x : Nat) : List (Nat × Nat × Nat) :=
  ops.flatMap (fun o => (opPorts c o x).map (fun b => (o.slot, b))) ++
  ((rowPlans c ops x).filter (fun r => r.details c = [])).flatMap (fun r => (r.ports c).map (fun b => (r.slot, b)))

/-- An operation as though it took effect: under p0 (R155). -/
def Op.forced : Op → Op
  | .nop i _ => .nop i 0
  | .sc o f => .sc o { f with pred := 0 }
  | .br o f => .br o { f with pred := 0 }
  | .vec o f => .vec o { f with pred := 0 }
  | .ls o f => .ls o { f with pred := 0 }
  | .feed v f => .feed v { f with pred := 0 }
  | .ldw a f => .ldw a { f with pred := 0 }
  | .pass a f => .pass a { f with pred := 0 }
  | .drain a f => .drain a { f with pred := 0 }
  | .dmac f => .dmac { f with pred := 0 }
  | .dmad f => .dmad { f with pred := 0 }

/-- BANK: an access that meets one already scheduled, or another of the bundle (R122). Both slots are marked. Every slot is checked as
though it took effect (R155). -/
def bankViols (c : Site) (ops : List Op) (x : Nat) : List Viol :=
  let ps := slotPorts c (ops.map Op.forced) x
  ((ps.zipIdx).filter (fun p => c.booked p.1.2 || (ps.zipIdx).any (fun q => q.2 ≠ p.2 && q.1.2 = p.1.2))).map
    (fun p => violAccess p.1.1 acBANK)

/-- RAW and WAW against the writes in flight and within the bundle (R128). -/
def issueViols (c : Site) (ops : List Op) (x : Nat) : List Viol :=
  let ws := (ops.zipIdx).flatMap (fun o => (opWrites o.1).map (fun w => (o.1.slot, o.2, w)))
  ops.flatMap (fun o =>
    (if (opReads o).any (fun r => c.flight.any (fun w => w.file = r.1 && w.idx = r.2 && decide (x < w.land)))
      then [⟨o.slot, exISSUE, 1, none, none⟩] else [])) ++
  ws.flatMap (fun w =>
    if c.flight.any (fun v => v.file = w.2.2.1 && v.idx = w.2.2.2.1 && decide (x + w.2.2.2.2 ≤ v.land)) ||
       ((ws.zipIdx).filter (fun u => u.1.2.2.1 = w.2.2.1 && u.1.2.2.2.1 = w.2.2.2.1)).length ≥ 2
    then [⟨w.1, exISSUE, 2, none, none⟩] else [])

/-! ## Effects -/

/-- What a FEED or FEEDV feeds: codes, scales, poison (R63, R64, R178), and the site after the read. -/
def feedData (c : Site) (v : Bool) (f : FeedF) (x : Nat) : List Nat × List Nat × Bool × Site :=
  let fmt := f.fmt.toNat
  let w := ((fmtOf fmt).getD I8).w
  let blk := blkOf f.scl.toNat
  let rs := c.sreg f.rs.toNat
  let scales := if blk = 0 then [] else (List.range (vecElems fmt / blk)).map (fun j => elemAt rs.val.toNat 8 j)
  let spoi := decide (blk ≠ 0) && rs.poi
  let codes := fun (d : Nat) => (List.range (vecElems fmt)).map (fun i => elemAt d w i)
  if v then
    let r := c.vreg f.vs.toNat
    (codes (elemAt r.val.toNat 256 f.chunk.toNat), scales, r.poi || spoi, c)
  else
    let r := c.fixedRead x (c.ea f.ra f.off).toNat (feedBytes fmt)
    (codes (marksNat r.1), scales, marksPoi r.1 || spoi, r.2)

/-- The captured vector of a pack, and its pass after the capture (R73). -/
def Site.capture (x : Nat) (fmt : BitVec 4) (blk : Nat) (codes scales : List Nat) (poi : Bool) (c : Site) (k : Capture) : Site :=
  let ts := (c.packTiles k.arr k.pack k.pass.buf).filterMap (fun t => t.2.map (fun y => (t.1, y)))
  let v : VecIn := ⟨x, k.pack, k.row, fmt, blk, codes, scales, poi, k.pass.clr, k.pass.drn, ts⟩
  let ar := c.arr k.arr
  let ps := if k.pass.done + 1 < k.pass.m then mset k.pack { k.pass with done := k.pass.done + 1 } ar.passes
    else mdel k.pack ar.passes
  let lf := mset (k.pass.buf * 4 + k.pack) x ar.lastFeed
  c.setArr k.arr { ar with vecs := ar.vecs ++ [v], passes := ps, lastFeed := lf }

/-- Installs the passes of a PASS on the packs of its mask (R73). -/
def Site.openPasses (a : Nat) (f : PassF) (c : Site) : Site :=
  let c1 := (List.range 4).foldl (fun c p =>
    if f.pmask.getLsbD p then c.setArr a { c.arr a with passes := mset p (c.openPass a p f) (c.arr a).passes } else c) c
  c1.count 0x008 1

/-- The array side of the feeder and the passes of a bundle in cycle x: earlier passes capture first, then new passes
open, and a new pass on a pack without an earlier one captures the same vector (R73). -/
def Site.feedAndPass (x : Nat) (ops : List Op) (pre c : Site) : Site :=
  let old := (capturesOf pre ops).filter (fun k => !k.fresh)
  let data := (feedOf pre ops).map (fun f => (f.2, feedData pre f.1 f.2 x))
  let run := fun (ks : List Capture) (c : Site) => match data with
    | some (f, d) => ks.foldl (Site.capture x f.fmt (blkOf f.scl.toNat) d.1 d.2.1 d.2.2.1) c
    | none => c
  let c0 := match feedOf pre ops with
    | some (false, f) => { (c.fixedRead x (pre.ea f.ra f.off).toNat (feedBytes f.fmt.toNat)).2.count 0x005 1 with lastVec := some x }
    | some (true, _) => { c.count 0x005 1 with lastVec := some x }
    | none => c
  let c1 := run old c0
  let c2 := (List.range 4).foldl (fun c a => match passOf pre ops a with
    | some f => Site.openPasses a f c
    | none => c) c1
  run ((capturesOf pre ops).filter (fun k => k.fresh)) c2

/-- Schedules the rows of a bundle (R74, R76). -/
def Site.scheduleRows (x : Nat) (ops : List Op) (pre c : Site) : Site :=
  { c with drainQ := c.drainQ ++ (rowPlans pre ops x).map (·.row), nextTile := c.nextTile + 1 }

/-- Starts a weight load in cycle x: scales and row 0 are read (R71, R182). -/
def Site.startLoad (x a : Nat) (f : LdwF) (pre c : Site) : Site :=
  if !pre.enabled f.pred.toNat then c
  else
    let mode := pre.packMode a
    let fmt := f.wfmt.toNat
    let blk := blkOf f.scl.toNat
    let nb := scaleBytes fmt blk
    let rs := (pre.sreg f.rs.toNat).val.toNat
    let r := c.fixedRead x rs (nb * packWidth mode)
    let d := marksNat r.1
    let scales := if blk = 0 then [] else (List.range (packWidth mode)).map (fun n => (List.range nb).map (fun b => elemAt d 8 (nb * n + b)))
    let l : LoadJob := { buf := if f.buf then 1 else 0, pack := f.pack.toNat, tr := f.tr, addr := (pre.ea f.ra f.off).toNat, t0 := x,
                         fmt := f.wfmt, kv := f.kvm1.toNat + 1, nv := f.nvm1.toNat + 1, blk := blk, scales := scales, rows := [],
                         poi := marksPoi r.1 }
    let z := Site.loadRow mode x (r.2, l)
    let ar := z.1.arr a
    (z.1.setArr a { ar with loads := ar.loads ++ [z.2], lastLoad := some x }).count 0x007 1

/-- Starts a DMA (R131, R183): it is outstanding until its completion. -/
def startDma (x : Xfer) (tok n : Nat) (tag : Option Nat) (s : State) : State :=
  let bad := s.badXfer n x
  s.onSite n (fun c => { c with dmas := c.dmas ++ [x.dma tok bad tag] })

/-- The DMA that an operation starts, if it starts one: the transfer and its token (R184, R185). -/
def dmaOf (pre : Site) (o : Op) (x : Nat) : Option (Xfer × Nat) :=
  match o with
  | .dmac f => if pre.enabled f.pred.toNat then some (dmacXfer pre f, f.tok.toNat) else none
  | .dmad f =>
    let d := dmadDesc pre f x
    if pre.enabled f.pred.toNat && !d.2 then some (dmadXfer d.1, f.tok.toNat) else none
  | _ => none

/-- The effect of one operation apart from the feeder, passes and drains, which act together. -/
def opEffect (pre : Site) (o : Op) (x pc n : Nat) (tag : Option Nat) (s : State) : State :=
  match o with
  | .nop _ _ => s
  | .sc p f => scEffect pre p f n s
  | .br p f => if p = .arrive then arriveEffect pre f s else brEffect pre p f pc n s
  | .vec p f =>
    let s1 := vecEffect pre p f n s
    if (vecOut pre p f).flags ≠ 0 then s1.onSite n (fun c => c.count 0x017 1) else s1
  | .ls p f => lsEffect pre p f n s
  | .ldw a f => s.onSite n (Site.startLoad x a f pre)
  | .dmac _ => match dmaOf pre o x with
    | some d => startDma d.1 d.2 n tag s
    | none => s
  | .dmad f =>
    let s1 := s.onSite n (fun c => (c.fixedRead x (pre.ea f.ra f.off).toNat 64).2)
    match dmaOf pre o x with
    | some d => startDma d.1 d.2 n tag s1
    | none => s1
  | _ => s

/-- Whether an operation consumes poison, a poisoned DMAD descriptor included (R159, R185). -/
def consumesPoison (pre : Site) (o : Op) (x : Nat) : Bool :=
  opPoisonUse pre o || (match o with
    | .dmad f => (dmadDesc pre f x).2
    | _ => false)

/-- Signals poison that decoded operations consume, whether or not their bundle then issues (R159). -/
def State.notePoison (pre : Site) (ops : List Op) (x n : Nat) (s : State) : State :=
  if ops.any (fun o => consumesPoison pre o x) then s.consumePoison n else s

/-- MTSR to core.vfl clears what stood there in the issue cycle, so that flags that a vector operation of its bundle raises stay set
(R156). DEDUCED (log entry 105). -/
def isMtsrVfl (o : Op) : Bool := match o with
  | .sc .mtsr f => srOf f = 4
  | _ => false

/-- Operations that the arrays, their stream and their drains take part in together. -/
def Op.isStream : Op → Bool
  | .feed _ _ => true
  | .pass _ _ => true
  | .drain _ _ => true
  | _ => false

/-- The effects of the operations of a bundle, or of one operation, in cycle x (R127, R156). -/
def applyOps (pre : Site) (ops : List Op) (x pc n : Nat) (tag : Option Nat) (s : State) : State :=
  let s1 := if ops.any Op.isStream then s.onSite n (fun c => Site.scheduleRows x ops pre (Site.feedAndPass x ops pre c)) else s
  let order := ops.filter isMtsrVfl ++ ops.filter (fun o => !isMtsrVfl o)
  (order.foldl (fun s o => opEffect pre o x pc n tag s) s1).notePoison pre ops x n

/-! ## Raising the exception of a set of broken rules (R82, R138) -/

/-- The lowest of a list of numbers, from a start. -/
def least (d : Nat) (l : List Nat) : Nat := l.foldl Nat.min d

/-- The recorded cause, its detail, the slots marked. -/
def pickViol (vs : List Viol) : Nat × Nat × Nat :=
  let cause := least 255 (vs.map (·.cause))
  let own := vs.filter (fun v => v.cause = cause)
  let slot := least 12 (own.map (·.slot))
  let detail := least 255 ((own.filter (fun v => v.slot = slot)).map (·.detail))
  (cause, detail, ((List.range 12).map (fun i => if vs.any (fun v => v.slot = i) then 2 ^ i else 0)).sum)

/-- The exception of broken rules: hazard bits are set when ARRAY is among them, and passes whose vector broke a rule stop. A store to a
STATIC field among them leaves code 0x01 in RJCT (R139, R281). -/
def State.raise (s : State) (n : Nat) (vs : List Viol) : State :=
  let p := pickViol vs
  let s1 := s.onSite n (fun c => vs.foldl (fun c v => match v.haz with
    | some (a, h) =>
      let c1 := c.set (ARR_STATUS_HAZ a) (c.f (ARR_STATUS_HAZ a) ||| 2 ^ h)
      (match v.stop with
        | some p => c1.setArr a { c1.arr a with passes := mdel p (c1.arr a).passes }
        | none => c1)
    | none => c) c)
  s1.takeException n p.1 p.2.1 p.2.2 (if vs.any (fun v => v.cause = exACCESS && v.detail = acSTATIC) then 1 else 0)

end Sys2Proof.Machine
end

