-- ==== Sys2Proof/Machine/Bundle.lean ====
section
/-! DEFINITION. Bundles: the decoding of their slots, token waits, the power cap, tagging, and one ACLK cycle of a core
site (R127, R130, R132, R151 to R157, R165, R166, R477 to R479, R483, R487). -/

set_option autoImplicit false

namespace Sys2Proof.Machine

/-! ## Slot layouts (R160, R163, R167, R175, R177, R179, R180, R183) -/

def bv (w v hi lo : Nat) : BitVec w := BitVec.ofNat w (bitsOf v hi lo)

def scF (sc1 : Bool) (v : Nat) : ScF := ⟨sc1, bv 48 v 79 32, bv 6 v 29 24, bv 6 v 23 18, bv 6 v 17 12, bv 4 v 11 8⟩

def brF (v : Nat) : BrF := ⟨bv 3 v 38 36, bv 12 v 35 24, bv 6 v 23 18, bv 6 v 17 12, bv 4 v 11 8⟩

def vecF (v : Nat) : VecF :=
  ⟨bv 8 v 69 62, bv 6 v 61 56, bv 6 v 55 50, bv 6 v 49 44, bitOf v 43, bitOf v 42, bv 2 v 41 40, bv 4 v 39 36, bv 4 v 35 32,
    bv 5 v 31 27, bv 5 v 26 22, bv 5 v 21 17, bv 5 v 16 12, bv 4 v 11 8⟩

def lsF (v : Nat) : LsF := ⟨bv 24 v 52 29, bv 6 v 28 23, bv 5 v 22 18, bv 6 v 17 12, bv 4 v 11 8⟩

def feedF (v : Nat) : FeedF :=
  ⟨bv 3 v 61 59, bv 5 v 58 54, bv 6 v 53 48, bv 2 v 47 46, bv 4 v 45 42, bv 24 v 41 18, bv 6 v 17 12, bv 4 v 11 8⟩

def ldwF (v : Nat) : LdwF :=
  ⟨bv 6 v 69 64, bv 2 v 63 62, bv 6 v 61 56, bv 6 v 55 50, bv 4 v 49 46, bv 24 v 45 22, bv 6 v 21 16, bitOf v 15, bitOf v 14,
    bv 2 v 13 12, bv 4 v 11 8⟩

def passF (v : Nat) : PassF :=
  ⟨bv 4 v 38 35, bitOf v 34, bitOf v 33, bv 8 v 32 25, bv 8 v 24 17, bitOf v 16, bv 4 v 15 12, bv 4 v 11 8⟩

def drainF (v : Nat) : DrainF := ⟨bv 4 v 33 30, bv 8 v 29 22, bv 8 v 21 14, bv 2 v 13 12, bv 4 v 11 8⟩

def dmacF (dma1 : Bool) (v : Nat) : DmacF :=
  ⟨dma1, bitOf v 35, bitOf v 34, bv 6 v 33 28, bv 6 v 27 22, bv 6 v 21 16, bv 4 v 15 12, bv 4 v 11 8⟩

def dmadF (dma1 : Bool) (v : Nat) : DmadF := ⟨dma1, bv 24 v 45 22, bv 6 v 21 16, bv 4 v 15 12, bv 4 v 11 8⟩

/-- Opcodes of the scalar slots (R161). -/
def scOps : List (Nat × ScOp) :=
  [(0x01, .add), (0x02, .sub), (0x03, .and), (0x04, .or), (0x05, .xor), (0x06, .shl), (0x07, .shr), (0x08, .sra),
   (0x09, .min), (0x0A, .max), (0x0B, .minu), (0x0C, .maxu), (0x11, .addi), (0x13, .andi), (0x14, .ori), (0x15, .xori),
   (0x16, .shli), (0x17, .shri), (0x18, .srai), (0x20, .movi), (0x21, .movh), (0x28, .mul), (0x29, .mulh), (0x2A, .mulhu),
   (0x30, .ceq), (0x31, .cne), (0x32, .clt), (0x33, .cltu), (0x34, .cge), (0x35, .cgeu), (0x40, .pand), (0x41, .por),
   (0x42, .pxor), (0x43, .pandn), (0x48, .mfsr), (0x49, .mtsr)]

/-- Opcodes of the branch slot (R164). -/
def brOps : List (Nat × BrOp) := [(0x01, .b), (0x02, .bl), (0x03, .jr), (0x04, .arrive)]

/-- Opcodes of the vector slot (R169). -/
def vecOps : List (Nat × VecOp) :=
  [(0x01, .vadd), (0x02, .vsub), (0x03, .vmul), (0x04, .vfma), (0x05, .vfms), (0x06, .vmin), (0x07, .vmax), (0x08, .vabs),
   (0x09, .vneg), (0x10, .vfcmp), (0x11, .vicmp), (0x18, .viadd), (0x19, .visub), (0x1A, .vand), (0x1B, .vor), (0x1C, .vxor),
   (0x1D, .vshl), (0x1E, .vshr), (0x1F, .vsra), (0x20, .vimin), (0x21, .vimax), (0x28, .vsel), (0x29, .vrot),
   (0x2A, .vbcast), (0x2B, .vext), (0x30, .vcvt), (0x31, .vqblk), (0x38, .vtlu)]

/-- Opcodes of the load and store slot (R176). -/
def lsOps : List (Nat × LsOp) :=
  [(0x01, .ld1u), (0x02, .ld1s), (0x03, .ld2u), (0x04, .ld2s), (0x05, .ld4u), (0x06, .ld4s), (0x07, .ld8), (0x09, .st1),
   (0x0A, .st2), (0x0B, .st4), (0x0C, .st8), (0x10, .vld128), (0x11, .vld256), (0x14, .vst128), (0x15, .vst256)]

/-- An operation when the reserved bits are 0. -/
def ifZero (r : Nat) (o : Op) : Option Op := if r = 0 then some o else none

/-- The operation that the 80 bits of slot `i` spell; none for an unlisted opcode or a nonzero reserved field (R154). -/
def decodeSlot (i v : Nat) : Option Op :=
  let op := v % 256
  if op = 0 then ifZero (bitsOf v 79 12) (.nop i (bv 4 v 11 8))
  else if i < 2 then (mfind scOps op).bind (fun o => ifZero (bitsOf v 31 30) (.sc o (scF (i = 1) v)))
  else if i = 2 then (mfind brOps op).bind (fun o => ifZero (bitsOf v 79 39) (.br o (brF v)))
  else if i = 3 then (mfind vecOps op).bind (fun o => ifZero (bitsOf v 79 70) (.vec o (vecF v)))
  else if i < 8 then
    if op = 1 then ifZero (bitsOf v 79 70) (.ldw (i - 4) (ldwF v))
    else if op = 2 then ifZero (bitsOf v 79 39) (.pass (i - 4) (passF v))
    else if op = 3 then ifZero (bitsOf v 79 34) (.drain (i - 4) (drainF v))
    else none
  else if i = 8 then
    if op = 1 then ifZero (bitsOf v 79 62) (.feed false (feedF v))
    else if op = 2 then ifZero (bitsOf v 79 62) (.feed true (feedF v))
    else none
  else if i = 9 then (mfind lsOps op).bind (fun o => ifZero (bitsOf v 79 53) (.ls o (lsF v)))
  else
    if op = 1 then ifZero (bitsOf v 79 36) (.dmac (dmacF (i = 11) v))
    else if op = 2 then ifZero (bitsOf v 79 46) (.dmad (dmadF (i = 11) v))
    else none

/-- The bundle at an index: its 1,024 bits, and whether a word of it is not clean (R151, R239). -/
def Site.fetch (c : Site) (pc : Nat) : Nat × Bool :=
  let l := c.istore.marks (pc * 128) 128
  (marksNat l, marksPoi l)

/-- The slots of a bundle that are decoded, each with its operation (R151 to R154). -/
def bundleSlots (b : Nat) : List (Nat × Option Op) :=
  ((List.range 12).filter (fun i => bitOf b i)).map (fun i => (i, decodeSlot i (bitsOf b (64 + 80 * i + 79) (64 + 80 * i))))

/-- All rules that a bundle's operations break in cycle x. A branch whose target half becomes a DMA destination only in its own bundle or in a
delay bundle raises nothing: the bundle at the target raises IHALF when it would issue, and so does any bundle of a half under such a DMA. It
marks no slot, since the half is the bundle's own, and ranks behind every slot. R126 and R138 do not say. DESIGN CHOICE (log entry 126). -/
def bundleViols (c : Site) (sl : List (Nat × Option Op)) (x pc : Nat) : List Viol :=
  let ops := sl.filterMap (·.2)
  let bad := (sl.filter (fun p => p.2.isNone)).map (fun p => violIllegal p.1)
  let legal := ops.filter (fun o => opLegal c o (decide (0 < c.brShadow)))
  bad ++ ops.flatMap (fun o => opViols c o x pc (decide (0 < c.brShadow))) ++ groupViols c legal x ++ bankViols c legal x ++
    issueViols c ops x ++ (if c.halfBusy (pc / 2048) then [⟨12, exACCESS, acIHALF, none, none⟩] else [])

/-! ## The power cap (R130, R483, R487) -/

/-- Whether issue is withheld at a site in the current ACLK cycle. -/
def State.withheld (s : State) (n : Nat) : Bool :=
  let cyc := (s.site n).f CORE_CYCLE_CYCLE
  (s.hd PWR_STATUS_EMERG = 1 && cyc % 2 = 1) ||
  (match s.img with
    | some im => (match im.caps with
      | some (_, es) => (match es[s.hd PWR_STATUS_ENTRY]? with
        | some e => !e.pattern.getLsbD (cyc % e.len)
        | none => false)
      | none => false)
    | none => false)

/-! ## Tagging (R477 to R479) -/

/-- lfsr_step of R477. -/
def lfsrStep (x : BitVec 32) : BitVec 32 := if x.getLsbD 0 then (x >>> 1) ^^^ 0x80200003#32 else x >>> 1

/-- Steps the LFSR and loads the countdown. -/
def Site.tagReload (c : Site) : Site :=
  let x := lfsrStep c.tag.lfsr
  { c with tag := { c.tag with lfsr := x, down := 1 + x.toNat % (2 * c.f PMC_TAGCFG_MEAN - 1) } }

/-- Unread records in the ring. -/
def Site.tagCount (c : Site) : Nat := if c.f PMC_TSTAT_FULL = 1 then 16 else c.f PMC_TSTAT_COUNT

/-- Shows a number of unread records. -/
def Site.setTagCount (c : Site) (k : Nat) : Site := (c.set PMC_TSTAT_COUNT (k % 16)).set PMC_TSTAT_FULL (if k = 16 then 1 else 0)

/-- The index of the next record. -/
def Site.tagNext (c : Site) : Nat := (c.f PMC_THEAD_HEAD + c.tagCount) % 16

/-- Whether the next bundle that issues is tagged. -/
def Site.tagDue (c : Site) : Bool := c.f PMC_TAGCFG_EN = 1 && decide (c.tag.down ≤ 1)

/-- Writes the eight words of record j. -/
def Site.putRecord (c : Site) (j : Nat) (v : Nat) : Site :=
  (List.range 8).foldl (fun c w => c.set (PMC_TREC_RECORD j w) (v / 2 ^ (64 * w) % 2 ^ 64)) c

/-- The record of a tagged bundle as it stands at issue (R478). The sample is signalled in the issue cycle, so that SKID is 0
and SIGPC the next bundle (log entry 22). -/
def tagRecord (pre : Site) (b pc next : Nat) (fed : Bool) (dmas : Nat) : Nat :=
  packElems 1 [] + pre.f CORE_CYCLE_CYCLE + pre.f CORE_STEP_STEP * 2 ^ 64 + pc * 2 ^ 128 + b % 2 ^ 12 * 2 ^ 140 +
    pre.roleNo * 2 ^ 152 + pre.f CORE_STEP_PHASE * 2 ^ 162 + (if fed then 2 ^ 165 else 0) +
    (if dmas = 0 then 0 else 2 ^ 166) + Nat.min pre.stall (2 ^ 24 - 1) * 2 ^ 168 +
    Nat.min pre.stallHeld (2 ^ 24 - 1) * 2 ^ 192 + next * 2 ^ 224

/-- Tagging at the issue of a bundle. The index of its record, when one is written, is where its DMAs report. -/
def State.tagIssue (s : State) (n : Nat) (pre : Site) (b pc next : Nat) (fed : Bool) (dmas : Nat) : State :=
  if pre.f PMC_TAGCFG_EN ≠ 1 then s
  else if !pre.tagDue then s.onSite n (fun c => { c with tag := { c.tag with down := c.tag.down - 1 } })
  else
    let s1 := s.onSite n (fun c =>
      let c1 := (c.count 0x00F 1).tagReload
      if c1.tagCount = 16 then c1.bump PMC_TSTAT_DROP 1
      else
        let j := c1.tagNext
        let c2 := (c1.putRecord j (tagRecord pre b pc next fed dmas)).setTagCount (c1.tagCount + 1)
        { c2 with tag := { c2.tag with opened := c2.tag.opened ++ [(j, pre.f CORE_CYCLE_CYCLE, dmas)] } })
    if pre.f PMC_CTL_IRQ = 1 then s1.emit (.fwSignal n sigSample) else s1

/-! ## One cycle (R127, R130, R132) -/

/-- What every ACLK cycle adds: core.cycle and the count of cycles. -/
def Site.tick (c : Site) : Site := (c.set CORE_CYCLE_CYCLE (c.f CORE_CYCLE_CYCLE + 1)).count 0x001 1

/-- A stalled cycle (R132, R135). -/
def Site.stallCycle (c : Site) (held : Bool) : Site :=
  { c with stall := c.stall + 1, stallHeld := c.stallHeld + (if held then 1 else 0) }.count 0x004 (if held then 0 else 1)

/-- A token wait that has stalled for more than the limit raises WAITTO, except at a gear point (R135). Firmware takes it as a missed
deadline. -/
def State.waitLimit (s : State) (n : Nat) : State :=
  let c := s.site n
  if c.f CORE_STATE_STATE = 2 ∧ c.f CORE_WAITLIM_LIM ≠ 0 ∧ 1024 * c.f CORE_WAITLIM_LIM < c.stall then
    let r := s.noteDeadline 0x06 s.devidx
    (r.1.takeException n exWAITTO (c.waitTok.getD 0) 0 0).blameSelf r.2
  else s

/-- Whether the bundle that waits stands at a gear point (R144). -/
def Site.atGear (c : Site) (tok k : Nat) : Bool :=
  tok = 31 && k = 1 && c.dmas.isEmpty && (List.range 4).all (fun a => !c.arrBusy a)

/-- Whether a stalled core has come to a gear point: the bundle that it holds stands at one. -/
def Site.gearReached (c : Site) : Bool :=
  let b := (c.fetch (c.f CORE_PC_PC)).1
  c.atGear (bitsOf b 16 12) (bitsOf b 22 17)

/-- The bundle index after a bundle at `pc` (R157, R164): two delay bundles, then the target. -/
def nextPc (br : Option (Nat × Nat)) (pc : Nat) : Nat × Option (Nat × Nat) :=
  match br with
  | some (1, t) => (t, none)
  | some (k, t) => ((pc + 1) % 4096, some (k - 1, t))
  | none => ((pc + 1) % 4096, none)

/-- The issue of a bundle whose wait is met and which breaks no rule. -/
def State.issueBundle (s : State) (n : Nat) (b x pc : Nat) (ops : List Op) : State :=
  let pre := s.site n
  let cnt := bitsOf b 22 17
  let tok := bitsOf b 16 12
  let np := nextPc pre.branch pc
  let dmas := (ops.filter (fun o => (dmaOf pre o x).isSome)).length
  let tag := if pre.tagDue && decide (pre.tagCount < 16) then some pre.tagNext else none
  let s1 := s.onSite n (fun c =>
    let c1 := if cnt = 0 then c else c.set (CORE_TOK_CNT tok) (c.f (CORE_TOK_CNT tok) - cnt)
    let c2 := { c1 with t30seen := c1.t30seen || (decide (cnt ≠ 0) && tok = 30), branch := np.2, brShadow := c1.brShadow - 1 }
    (c2.set CORE_STATE_STATE 1).count 0x002 1)
  let s2 := applyOps pre ops x pc n tag s1
  -- a vector operation writes its destination lane by lane, VEXT by bit 0 of its predicate (R169)
  let on := fun (o : Op) => match o with
    | .vec p f => p ≠ VecOp.vext || pre.enabled f.pred.toNat
    | o => pre.enabled o.pred
  let fl := ops.flatMap (fun o => if on o then (opWrites o).map (fun w => (⟨w.1, w.2.1, x + w.2.2⟩ : Flight)) else [])
  let ps := slotPorts pre (ops.filter (fun o => pre.enabled o.pred)) x
  let s3 := s2.onSite n (fun c =>
    let c1 := { c with flight := c.flight ++ fl, stall := 0, stallHeld := 0 }.set CORE_PC_PC np.1
    ((c1.book (ps.map (·.2))).count 0x00A (ps.filter (fun p => p.2.1 = x)).length).count 0x006
      (if (feedOf pre ops).isSome then 0 else 1))
  s3.tagIssue n pre b pc np.1 (feedOf pre ops).isSome dmas

/-- The attempt of a running, stalled or gear-point core to issue the bundle at CORE_PC in active cycle x. A core that waits on t31 and
stands at no gear point shows STATE 0b010, which the table of R147 lists for other tokens only. DESIGN CHOICE (log entry 107). -/
def State.tryIssue (s : State) (n x : Nat) : State :=
  let pre := s.site n
  let pc := pre.f CORE_PC_PC
  let f := pre.fetch pc
  let b := f.1
  let cnt := bitsOf b 22 17
  let tok := bitsOf b 16 12
  let s0 := s.onSite n (fun c => { c with istore := c.istore.healRange (pc * 128) 128 })
  -- no vector is fed in a cycle without an issue: an invalid entry enters the stream (R64)
  let sx := s0.onSite n (fun c => c.count 0x006 1)
  if f.2 then sx.takeException n exIFETCH 0 0 0
  else
    let wait : List Viol := if cnt = 0 then []
      else if pre.f (CORE_TOK_ERR tok) = 1 then [⟨12, exDMAERR, pre.dmaErrDetail tok, none, none⟩]
      else if pre.f (CORE_TOK_OVF tok) = 1 then [⟨12, exTOKOVF, tok, none, none⟩] else []
    if cnt = 0 ∨ cnt ≤ pre.f (CORE_TOK_CNT tok) then
      let sl := bundleSlots b
      let vs := bundleViols pre sl x pc ++ wait
      if vs = [] then s0.issueBundle n b x pc (sl.filterMap (·.2))
      else (State.notePoison pre (sl.filterMap (·.2)) x n sx).raise n vs
    else if wait ≠ [] then sx.raise n wait
    else
      let gear := pre.atGear tok cnt
      sx.onSite n (fun c =>
        let c1 := if gear && c.f CORE_STATE_STATE ≠ 5 then c.count 0x00E 1 else c
        (c1.set CORE_STATE_STATE (if gear then 5 else 2)).stallCycle false)

/-- One ACLK cycle of a core site (R127, R130). In a withheld cycle the fixed-latency pipeline holds; a core stalled on t31 whose last DMA has
ended stands at its gear point from then on (R144). In any other the
pipeline advances, and a core that is not stopped tries to issue its next bundle. A stall that passes the limit ends in WAITTO (R135).
A die that has stopped its clocks has no cycle (R20). -/
def State.coreCycle (s : State) (n : Nat) : State :=
  let c := s.site n
  if !s.dieRuns (n / 104) then s
  else if s.withheld n then
    (s.onSite n (fun c =>
      let c1 := c.tick.count 0x003 1
      let st := c1.f CORE_STATE_STATE
      if st = 2 ∧ c1.gearReached then ((c1.count 0x00E 1).set CORE_STATE_STATE 5).stallCycle true
      else if st = 2 ∨ st = 5 then c1.stallCycle true else c1)).waitLimit n
  else
    let x := c.active + 1
    let s1 := s.onSite n (fun c => Site.settle x { c with active := x })
    let s2 := if (s1.site n).active? then s1.tryIssue n x else s1.onSite n (fun c => c.count 0x006 1)
    (s2.onSite n Site.tick).waitLimit n

/-! ## One operation as a command -/

/-- Rules that an operation breaks when it is commanded by itself: its encoding, its accesses and the array hazards. It
stands in no bundle, so the rules between bundles (R122, R128) do not bear on it (log entry 7). -/
def soloViols (c : Site) (o : Op) (x pc : Nat) : List Viol :=
  opViols c o x pc (decide (0 < c.brShadow)) ++ (if opLegal c o (decide (0 < c.brShadow)) then groupViols c [o] x else [])

/-- An array as an operation commanded by itself finds it: the loads and feeds that have come to their end do not bear on it (log
entry 7), a load in progress and a vector in flight do (R72). -/
def Arr.solo (x : Arr) : Arr :=
  { x with lastLoad := if x.loads.isEmpty then none else x.lastLoad, lastFeed := if x.vecs.isEmpty then [] else x.lastFeed }

/-- A site as an operation commanded by itself finds it: reads see every store (log entry 7). -/
def Site.solo (c : Site) : Site := { c with recent := [], arrs := c.arrs.map (fun e => (e.1, e.2.solo)) }

/-- Takes the loads of array `a` that start in active cycle x to their end (R71). -/
def Site.finishLoads (x a : Nat) (c : Site) : Site := (List.range 18).foldl (fun c i => Site.settleLoads (x + i) c a) c

/-- The state that an operation commanded by itself acts on: those that read the core store by way of an array, the feeder or the DMA
engine find it as `Site.solo` gives it. -/
def soloBase (pre : Site) (n : Nat) (o : Op) (s : State) : State :=
  match o with
  | .feed _ _ => s.setSite n pre
  | .ldw _ _ => s.setSite n pre
  | .pass _ _ => s.setSite n pre
  | .drain _ _ => s.setSite n pre
  | .dmad _ => s.setSite n pre
  | _ => s

/-- An operation of a slot as a command of its own (log entry 7): a running core performs it whole in its current active
cycle, on the state as it stands; its program counter does not move. A load runs to its end. -/
def soloOp (n : Nat) (o : Op) (s : State) : State :=
  let pre := (s.site n).solo
  let x := pre.active
  let pc := pre.f CORE_PC_PC
  if pre.f CORE_STATE_STATE ≠ 1 ∨ !s.dieRuns (n / 104) then s
  else
    let vs := soloViols pre o x pc
    if vs = [] then
      let s1 := applyOps pre [o] x pc n none (soloBase pre n o s)
      match o with
      | .ldw a _ => s1.onSite n (Site.finishLoads x a)
      | _ => s1
    else (State.notePoison pre [o] x n s).raise n vs

end Sys2Proof.Machine
end

