-- ==== Sys2Proof/Machine/Events.lean ====
section
/-! DEFINITION. What happens to cores without their issuing anything: DMA completions, barrier releases, stream-channel slots and
credits, wait limits, HALT and GO, tag records and counters (R131 to R135, R146, R166, R213, R214, R471 to R478). -/

set_option autoImplicit false

namespace Sys2Proof.Machine

/-! ## Tag records (R478) -/

/-- A DMA of a tagged bundle is complete; the last one makes the record final. -/
def Site.tagDma (c : Site) (j : Nat) : Site :=
  match c.tag.opened.find? (fun t => t.1 = j) with
  | none => c
  | some t =>
    if 1 < t.2.2 then
      { c with tag := { c.tag with opened := c.tag.opened.map (fun u => if u.1 = j then (u.1, u.2.1, u.2.2 - 1) else u) } }
    else
      let n := Nat.min (c.f CORE_CYCLE_CYCLE - t.2.1) (2 ^ 32 - 1)
      let c1 := c.set (PMC_TREC_RECORD j 4) (c.f (PMC_TREC_RECORD j 4) / 2 ^ 33 * 2 ^ 33 + 2 ^ 32 + n)
      { c1 with tag := { c1.tag with opened := c1.tag.opened.filter (fun u => u.1 ≠ j) } }

/-- TAG_RECORD_DONE (R478): a record without a DMA outstanding becomes final. -/
def execTagRecordDone (c : SiteNo) (j : Fin 16) (s : State) : Host.Outcome State Fault Refusal :=
  .next (if !s.dieRuns (c.val / 104) then s else s.onSite c.val (fun c => match c.tag.opened.find? (fun t => t.1 = j.val) with
    | some t => if t.2.2 = 0 then
        let c1 := c.set (PMC_TREC_RECORD j.val 4) (c.f (PMC_TREC_RECORD j.val 4) ||| 2 ^ 32)
        { c1 with tag := { c1.tag with opened := c1.tag.opened.filter (fun u => u.1 ≠ j.val) } }
      else c
    | none => c))

/-- Frees the oldest tag record (R480). -/
def Site.tagPop (c : Site) : Site :=
  if c.tagCount = 0 then c
  else
    let h := c.f PMC_THEAD_HEAD
    let c1 := (c.setTagCount (c.tagCount - 1)).set PMC_THEAD_HEAD ((h + 1) % 16)
    { c1 with tag := { c1.tag with opened := c1.tag.opened.filter (fun u => u.1 ≠ h) } }

/-- TAG_POP (R480). -/
def execTagPop (c : SiteNo) (s : State) : Host.Outcome State Fault Refusal :=
  .next (if s.reaches (c.val / 104) then s.onSite c.val Site.tagPop else s)

/-! ## DMA completion (R131, R133, R222, R223, R239) -/

/-- Whether a page is listed in the commit table, for whichever role (R222, R273). -/
def State.listedPage (s : State) (page : Nat) : Bool := match s.img with
  | some im => im.commit.any (fun g => page ∈ g.2)
  | none => false

/-- What the page rules of R222 and R223 say of a DMA of a role: `none` it is held, else whether it is refused. Of the listed pages it may
write the role's open ones, and its next one once that is open; any other listed page, another role's included, refuses it. -/
def State.pageRule (s : State) (role : Nat) (d : Dma) : Option Bool :=
  if s.gateState ≠ gCOMMIT then some false
  else
    let p := s.pageSt role
    let l := s.pagesOf role
    let fresh := d.pages.filter (fun a => s.listedPage a && a ∉ p.opens.map (fun i => l.getD i 0))
    if fresh = [] then some false
    else if s.gate.stopped then some true
    else if p.next < l.length ∧ fresh = [l.getD p.next 0] then none
    else some true

/-- The end of a DMA: it leaves the outstanding ones, counts, and completes on its token. -/
def State.dmaEnd (s : State) (n k : Nat) (d : Dma) (err lost : Bool) : State :=
  let s1 := s.onSite n (fun c =>
    let c1 := { c with dmas := ldrop c.dmas k }.count 0x00C 1
    match d.tag with
    | some j => c1.tagDma j
    | none => c1)
  (s1.tokenEvent n d.tok err lost).closePages (s1.site n).roleNo

/-- The source ranges of a DMA in HBM. -/
def Dma.hbmSources (d : Dma) (n : Nat) : List (Nat × Nat) :=
  if d.srcl then [] else ((List.range d.rows).map (fun r => (d.src + r * d.sstride, d.rbytes))).filter (fun r => !ownWindow n r)

/-- The source ranges of a DMA in its own site, as local addresses. -/
def Dma.localSources (d : Dma) : List (Nat × Nat) :=
  if d.srcl then (List.range d.rows).map (fun r => (d.src + r * d.sstride, d.rbytes)) else []

/-- Reading a DMA's source: the words of its own site, and of HBM, that decode CORRECTED are rewritten (R109, R240). -/
def State.dmaSourceRead (s : State) (n : Nat) (d : Dma) : State :=
  (d.hbmSources n).foldl (fun s r => s.hbmNote r.1 r.2) (s.onSite n (fun c => d.localSources.foldl (fun c r => c.dmaTouch r.1 r.2) c))

/-- A DMA that writes the doorbell of its role (R308, R309): the descriptor is read; one that carries poison is discarded as a
control-space write with poison (R239). -/
def State.doorbell (s : State) (n k : Nat) (d : Dma) : State :=
  let b := s.dmaRead n d.srcl d.src d.rbytes
  let s2 := (s.dmaSourceRead n d).dmaEnd n k d false false
  if marksPoi b then s2.blockPoison hdWin else s2.collPost n (marksNat b)

/-- The data of a DMA moves, and the HBM controllers see its reads and writes; poison that reaches an open commit page is
signalled as consumed (R239). Until then a word of its destination reads as before; R188 allows the new value as well. DESIGN CHOICE (log
entry 104). -/
def State.dmaPerform (s : State) (n k : Nat) (d : Dma) (lost : Bool) : State :=
  let s1 := s.dmaSourceRead n d
  let s2 := d.hbmTargets.foldl (fun s r => s.countBursts 0x106 r.1 r.2) s1
  let role := (s.site n).roleNo
  let opens := (s.pageSt role).opens.map (fun i => (s.pagesOf role).getD i 0)
  let hit := s.gateState = gCOMMIT && (s.dmaRows n d).any (fun r => (r.2.zipIdx).any (fun b => b.1.2 && decide ((r.1 + b.2) / 65536 ∈ opens)))
  let s3 := if lost then s2.dmaLost n d else s2.dmaMove n d
  let s4 := s3.dmaEnd n k d lost lost
  if hit && !d.dstl then s4.blockPoison (hbmDie d.dst) else s4

/-- Completion of the k-th outstanding DMA of a site. It waits while a page of it is held, protected by a snapshot, under
retirement, or on a stopped die, and behind the requests that wait for one of its bursts (R248); a collective completes with its own record (R316). -/
def State.dmaDone (s : State) (n k : Nat) (lost : Bool) : State :=
  let c := s.site n
  match c.dmas[k]? with
  | none => s
  | some d =>
    let role := c.roleNo
    match d.kind with
    | .collective _ _ => s
    | _ =>
      if d.bad then s.dmaEnd n k d true false
      else if !d.dstl ∧ d.dst = doorBase + 0x40 * role ∧ d.rows = 1 ∧ d.rbytes = 64 then
        (if lost then s.dmaEnd n k d true true else s.doorbell n k d)
      else match s.pageRule role d with
        | none => s
        | some true => s.dmaEnd n k d true false
        | some false =>
          if (d.hbmSources n).any (fun r => s.readWaits r.1 r.2) ∨ d.hbmTargets.any (fun r => s.writeWaits r.1 r.2) then s
          else s.dmaPerform n k d lost

/-- DMA_COMPLETE (R131, R133); the source of a collective that waited for it may be complete with it (R317). -/
def execDmaComplete (c : SiteNo) (k : Nat) (lost : Bool) (s : State) : Host.Outcome State Fault Refusal :=
  .next (if s.dieRuns (c.val / 104) then (s.dmaDone c.val k lost).sendReadies else s)

/-! ## Barriers (R134) -/

/-- Members of a barrier group as (token, role). -/
def State.barrierMembers (s : State) (g : Nat) : List (Nat × Nat) := match s.img with
  | some im => (im.stages.barriers.filter (fun b => b.1 = g)).map (·.2)
  | none => []

/-- Removes the first arrival of a role at a group. -/
def dropArrival (g r : Nat) : List (Nat × Nat) → List (Nat × Nat)
  | [] => []
  | x :: l => if x = (g, r) then l else x :: dropArrival g r l

/-- BARRIER_RELEASE (R134): once every member has arrived for the generation, each member's token counts. A stopped die counts nothing
(R20), and with HD stopped no group releases (R21). -/
def execBarrierRelease (g : Nat) (s : State) : Host.Outcome State Fault Refusal :=
  let ms := s.barrierMembers g
  .next (if ms = [] ∨ !s.hdRuns ∨ !ms.all (fun m => (g, m.2) ∈ s.gate.arrivals) then s
    else
      let s1 : State := { s with gate := { s.gate with arrivals := ms.foldl (fun l m => dropArrival g m.2 l) s.gate.arrivals } }
      ms.foldl (fun s m => match s.siteOf m.2 with
        | some n => if s.dieRuns (n / 104) then (s.onSite n (fun c => c.count 0x00D 1)).tokenEvent n m.1 false false else s
        | none => s) s1)

/-! ## Stream channels (R213, R214) -/

/-- The code words of a slot in the core store; reading them rewrites those that decode CORRECTED (R109). -/
def Site.slotWords (c : Site) (k i : Nat) : List CodeWord :=
  (List.range (c.slotBytes k / 8)).map (fun j =>
    let d := c.store.dec (c.slotAddr k i (8 * j))
    mkCode d.1 d.2.bad)

/-- Sends a slot's data to its peer: on this module over the fabric, or in packets of the bulk class (R214, R298). -/
def State.sendSlot (s : State) (dev role ch : Nat) (m : SlotMsg) : State :=
  if dev = s.devidx then s.emit (.slot dev role ch m)
  else (List.range ((m.words.length + 511) / 512)).foldl (fun s j =>
    s.ualSend 0 0 dev (BitVec.ofNat 16 (role + ch * 2 ^ 10)) m.mb m.seq (BitVec.ofNat 24 (512 * j)) ((m.words.drop (512 * j)).take 512)) s

/-- The oldest posted slot leaves, if a credit is held (R213): its data is sent, the slot is free, and the token counts. -/
def State.slotSent (s : State) (n k : Nat) : State :=
  let c := s.site n
  let x := c.chan k
  match x.posted with
  | [] => s
  | mb :: rest =>
    if !c.chanOn k ∨ !c.sends k ∨ x.credits = 0 then s
    else
      let m : SlotMsg := ⟨s.stepNo, BitVec.ofNat 32 s.epoch, mb, BitVec.ofNat 32 x.txSeq, c.slotWords k x.head⟩
      let s1 := s.sendSlot (c.f (CORE_CH_PDEV k)) (c.f (CORE_CH_PROLE k)) (c.f (CORE_CH_PCH k)) m
      let y := { x with head := (x.head + 1) % c.nsl k, filled := x.filled - 1, credits := x.credits - 1, txSeq := x.txSeq + 1,
                        posted := rest }
      let s2 := s1.onSite n (fun c => (c.touchStore (c.slotAddr k x.head 0) (c.slotBytes k)).setChan k y)
      s2.tokenEvent n (24 + k) false false

/-- CHANNEL_SLOT_SENT (R213). -/
def execChannelSlotSent (c : SiteNo) (ch : Fin 6) (s : State) : Host.Outcome State Fault Refusal :=
  .next (if s.dieRuns (c.val / 104) then s.slotSent c.val ch.val else s)

/-- A slot arrives on a receive channel (R214): a duplicate is discarded, one ahead of its turn is an unrecoverable link. -/
def State.slotIn (s : State) (n k : Nat) (m : SlotMsg) : State :=
  let c := s.site n
  let x := c.chan k
  let seq := m.seq.toNat
  if !c.chanOn k ∨ c.sends k ∨ m.words.length * 8 ≠ c.slotBytes k then s
  else if seq < x.rxSeq then s
  else if x.rxSeq < seq then s.reportFault 0x05 noBlame 0 false
  else if c.nsl k ≤ x.filled then s
  else
    let s1 := s.onSite n (fun c =>
      let c1 := { c with store := c.store.store (c.slotAddr k x.tail 0) (wordMarksOf m.words) }
      c1.setChan k { x with tail := (x.tail + 1) % c.nsl k, filled := x.filled + 1, rxSeq := x.rxSeq + 1 })
    s1.tokenEvent n (24 + k) false false

/-- CHANNEL_SLOT_ARRIVE (R214). -/
def execChannelSlotArrive (c : SiteNo) (ch : Fin 6) (m : SlotMsg) (s : State) : Host.Outcome State Fault Refusal :=
  .next (if s.dieRuns (c.val / 104) then s.slotIn c.val ch.val m else s)

/-- CHANNEL_CREDIT_RETURN (R213): credits come back to a send channel. -/
def execChannelCreditReturn (c : SiteNo) (ch : Fin 6) (n : BitVec 9) (s : State) : Host.Outcome State Fault Refusal :=
  .next (if !s.dieRuns (c.val / 104) then s else s.onSite c.val (fun c =>
    if c.chanOn ch.val ∧ c.sends ch.val then c.setChan ch.val { c.chan ch.val with credits := satAdd 9 (c.chan ch.val).credits n.toNat }
    else c))

/-- Credits of a send channel at a step entry: its peer's NSL (R213). The NSL of a peer on another module is not state of this one:
a free value from 1 to 256 (log entry 32). -/
def State.peerSlots (s : State) (c : Site) (k : Nat) : Nat :=
  let dev := c.f (CORE_CH_PDEV k)
  let role := c.f (CORE_CH_PROLE k)
  if dev = s.devidx then match s.siteOf role with
    | some m => (s.site m).nsl (c.f (CORE_CH_PCH k))
    | none => 0
  else Config.peerSlots dev role (c.f (CORE_CH_PCH k)) % 256 + 1

/-! ## Wait limits, HALT, GO (R135, R146, R166) -/

/-- WAIT_TIMEOUT (R135): a core stalled on a token for longer than CORE_WAITLIM, with the limit in force and not at a gear
point, raises WAITTO. -/
def execWaitTimeout (c : SiteNo) (s : State) : Host.Outcome State Fault Refusal :=
  .next (if s.dieRuns (c.val / 104) then s.waitLimit c.val else s)

/-- CORE_HALT (R146): the core stops before its next bundle issues. -/
def execCoreHalt (c : SiteNo) (s : State) : Host.Outcome State Fault Refusal :=
  .next (if s.reaches (c.val / 104) then s.onSite c.val Site.halt else s)

/-- GO (R146): a stopped core starts issuing at CORE_PC, keeping the last recorded exception. -/
def Site.go (c : Site) : Site := if c.active? then c else { c with stall := 0, stallHeld := 0 }.set CORE_STATE_STATE 1

/-- A write to CORE_PC (R148, R166): ignored unless the core is stopped; it discards a kept branch target. -/
def Site.writePc (c : Site) (v : Nat) : Site := if c.active? then c else { c with branch := none, brShadow := 0 }.set CORE_PC_PC v

/-- CORE_GO (R146, R147). -/
def execCoreGo (c : SiteNo) (s : State) : Host.Outcome State Fault Refusal :=
  .next (if s.reaches (c.val / 104) then s.onSite c.val Site.go else s)

/-- CORE_PC_WRITE (R148, R166). -/
def execCorePcWrite (c : SiteNo) (v : BitVec 32) (s : State) : Host.Outcome State Fault Refusal :=
  .next (if s.reaches (c.val / 104) then s.onSite c.val (fun c => c.writePc v.toNat) else s)

/-! ## Counters (R471 to R474) -/

/-- COUNTER_WRAP (R472): a counter at 2^48 - 1 counts one more event (log entry 33). -/
def execCounterWrap (b : BankId) (i : Fin 64) (s : State) : Host.Outcome State Fault Refusal :=
  .next (match b with
    | .core c =>
      let x := s.site c.val
      if s.dieRuns (c.val / 104) ∧ i.val < 16 ∧ x.f (PMC_CTR_VALUE i.val) = 2 ^ 48 - 1 ∧ x.f PMC_CTL_FRZ = 0 then
        s.onSite c.val (fun x => (x.ctrAdd 16 i.val 1).1)
      else s
    | .die d =>
      if s.dieRuns d.val ∧ s.d d.val (PMC_DCTR_VALUE i.val) = 2 ^ 48 - 1 ∧ s.d d.val PMC_DCTL_FRZ = 0 then s.dctrAdd 64 d.val i.val 1 else s)

/-- PMC_READ (R471, R473): the port samples a counter for a reader that may read it. -/
def execPmcRead (b : BankId) (i : Fin 64) (who : Writer) (s : State) : Host.Outcome State Fault Refusal :=
  .next (if !s.hdRuns then s
    else match b with
    | .core c =>
      let x := s.site c.val
      if s.dieRuns (c.val / 104) ∧ i.val < 16 ∧ (who = .firmware ∨ (x.f (PMC_SEL_USER i.val) = 1 ∧ !x.ctrPriv i.val)) then
        s.emit (.value (BitVec.ofNat 64 (x.f (PMC_CTR_VALUE i.val))))
      else s
    | .die d =>
      if s.dieRuns d.val ∧ (who = .firmware ∨ (who = .runtime ∧ s.d d.val (PMC_DSEL_USER i.val) = 1 ∧ !s.dctrPriv d.val i.val)) then
        s.emit (.value (BitVec.ofNat 64 (s.d d.val (PMC_DCTR_VALUE i.val))))
      else s)

/-- PMC_FREEZE (R474). -/
def execPmcFreeze (b : BankId) (on : Bool) (s : State) : Host.Outcome State Fault Refusal :=
  let v := if on then 1 else 0
  .next (match b with
    | .core c => if s.reaches (c.val / 104) then s.onSite c.val (fun x => x.set PMC_CTL_FRZ v) else s
    | .die d => if s.reaches d.val then s.setD d.val PMC_DCTL_FRZ v else s)

end Sys2Proof.Machine
end

