-- ==== Sys2Proof/Machine/Regs.lean ====
section
/-! DEFINITION. Reads and writes of user-visible registers: where an address leads, the values that reads compute, the classes
and writers, the rejection codes, and what a write sets off (R6 to R9, R117, R198, R199, R232, R281, R282, R289, R469 to R474). -/

set_option autoImplicit false

namespace Sys2Proof.Machine

/-! ## Places (R229, R232) -/

/-- Where a control-space address leads: a register of a site window, or of a die window beside them. -/
inductive RegPlace where
  | site (n off : Nat) | die (w off : Nat)
  deriving DecidableEq, Repr

/-- The register that a module address names. A site without a live role is absent while an image is in force (R232). -/
def State.placeReg (s : State) (addr : Nat) : Option RegPlace :=
  if addr < ctlBase ∨ ctlBase + 12 * 2 ^ 24 ≤ addr then none
  else
    let w := (addr - ctlBase) / 2 ^ 24
    let off := (addr - ctlBase) % 2 ^ 24
    if w < 8 ∧ off < 0x680000 then
      let n := w * 104 + off / 0x10000
      if s.loaded ∧ (s.site n).role.isNone then none
      else if (siteReg (off % 0x10000)).isSome then some (.site n (off % 0x10000)) else none
    else if (winReg w off).isSome then some (.die w off) else none

/-- The register at a place. -/
def RegPlace.reg : RegPlace → Option Reg
  | .site _ off => siteReg off
  | .die w off => winReg w off

/-! ## Reads -/

/-- Failures of a port or half within the last 24 hours (R306, R322). -/
def State.fails24 (s : State) (unit : Nat) : Nat :=
  (s.test.fails.filter (fun f => f.1 = unit && decide (s.tsec - f.2 ≤ daySecs))).length

/-- Watchers of this module that have not been declared failed, and the subjects that it watches (R353, R360, R365). -/
def State.watchers (s : State) : List Nat := match s.img with
  | some im => im.resil.watchers.filter (fun d => !s.declared d)
  | none => []
def State.subjects (s : State) : List Nat := match s.img with
  | some im => im.resil.subjects.filter (fun d => !s.declared d)
  | none => []

/-- Units of time in 2 ms and 4 ms. -/
def quorumSpan : Nat := 80
def fenceSpan : Nat := 160

/-- Whether a device has been heard within the last 2 ms (R360). -/
def State.heardLately (s : State) (dev : Nat) : Bool := match mfind s.pel.heard dev with
  | some h => decide (s.time - h.time ≤ quorumSpan)
  | none => false

/-- Watchers heard within the last 2 ms. -/
def State.quorum (s : State) : Nat := (s.watchers.filter s.heardLately).length

/-- Planes of the last heartbeat of a device. -/
def State.planesOf (s : State) (dev : Nat) : Nat := match mfind s.pel.heard dev with
  | some h => h.planes
  | none => 0

/-- State of a UCIe module: 0 in service, 1 a flit failed once, 2 retraining, 3 removed. -/
def State.linkSt (s : State) (m : Nat) : Nat := mget 0 s.host.links m

/-- Whether a UCIe module carries traffic. -/
def State.linkUp (s : State) (m : Nat) : Bool := s.host.hxUp && decide (s.linkSt m < 2)

/-- UCI_STATUS.STATE (R449, R466): UP or DEGRADED with a module in service; TRAINING while none is and one retrains; SIDEBAND with HX held in
reset on a link that has trained; else DOWN. When each is shown is DEDUCED (log entry 128). -/
def State.linkState (s : State) : Nat :=
  let n := ((List.range 4).filter s.linkUp).length
  if !s.host.hxUp then (if s.host.stage = 10 ∧ s.dieRuns 11 then 1 else 0)
  else if n = 4 then 3 else if n ≠ 0 then 4 else if (List.range 4).any (fun m => decide (s.linkSt m = 2)) then 2 else 0

/-- A key slot (R426). -/
def State.keySlot (s : State) (k : Nat) : KeySlot := mget ⟨0, 0, 0⟩ s.sec.slots k

/-- The state and the KEYID of a root key's slot, from its fuses (R426, R427). -/
def State.rootInfo (s : State) (i : Nat) : Nat × Nat :=
  let d := (s.sec.roots.getD i 0).toNat
  if d = 0 then (0, 0) else (if i ∈ s.sec.rootsRevoked then 2 else 1, d % 2 ^ 32)

/-- The state and the KEYID of a slot as SEC_KINFO shows them. -/
def State.keyInfo (s : State) (k : Nat) : Nat × Nat :=
  let x := s.keySlot k
  if 10 ≤ k ∧ k < 14 then s.rootInfo (k - 10) else
  (if k = 15 then 0 else x.state, if k = 15 ∨ x.state = 0 then 0 else leNat ((keyId x.x x.y).take 4))

/-- The 16 bytes of an entry of the spare-mapping table as a number. -/
def State.spareWord (s : State) (i : Nat) : Nat := match s.test.table[i]? with
  | some e => leNat e.bytes
  | none => 0

/-- Sites of a die that are LASTING, as bits. -/
def State.failMask (s : State) (d : Nat) : Nat :=
  ((List.range 104).map (fun i => if s.siteBad (d * 104 + i) then 2 ^ i else 0)).sum

/-- The selected rail (R497). -/
def State.rail (s : State) : Rail := mget ⟨0, 0, 0x1F, 0⟩ s.pwr.rails (s.hd PWR_RSEL_RAIL)

/-- A field of the hub die's window as read: those that other state tells, else what is stored. -/
def State.hdField (s : State) (x : Fld) : Nat :=
  let ps := s.pageSt (s.hd PEL_CGCUR_ROLE)
  if x = PEL_CGCUR_OPEN then (if ps.opens.isEmpty then 0 else 1)
  else if x = PEL_CGCUR_CURSOR then s.cursor (s.hd PEL_CGCUR_ROLE)
  else if x = FRM_PEND_PEND then Nat.min s.pendCount 65535
  else if x = TDM_POIS_PENDING then s.rep.poison.length
  else if x = TDM_STATUS_LOSS24 then (((s.test.losses.filter (fun l => decide (s.tsec - l.2 ≤ daySecs))).map (·.1)).eraseDups).length
  else if x = PEL_STATUS_QUORUM then s.quorum
  else if x = PEL_STATUS_LEAD then (if s.isLead then 1 else 0)
  else if x = PEL_STATUS_CAPROLE then (match s.captains.find? (fun c => c.2.1 = s.devidx) with
    | some c => c.1
    | none => 3)
  else if x = PEL_STATUS_OUTQ then (match s.pel.outSince with
    | some t => Nat.min ((s.time - t) / hbUnits) 255
    | none => 0)
  else if 0x34_0010 ≤ x.off ∧ x.off < 0x34_0050 ∧ x.lo = 40 then
    (match mfind s.pel.heard (s.hd (PEL_WATCH_DEV ((x.off - 0x34_0010) / 8))) with
    | some h => Nat.min (s.time - h.time) 255
    | none => 255)
  else if 0x34_0010 ≤ x.off ∧ x.off < 0x34_0050 ∧ x.lo = 37 then s.planesOf (s.hd (PEL_WATCH_DEV ((x.off - 0x34_0010) / 8)))
  else if 0x34_0080 ≤ x.off ∧ x.off < 0x34_0100 ∧ x.lo = 36 then s.planesOf (s.hd (PEL_SUBJ_DEV ((x.off - 0x34_0080) / 8)))
  else if x = BIST_STATUS_TCVER then leNat ((s.test.pkg.drop 8).take 4)
  else if x = BIST_STATUS_STATE then (if s.hd SEC_STATUS_SCAN = 1 then 4 else if s.test.running ≠ 0 then s.test.running else if s.test.visit.isSome then 3 else 0)
  else if s.host.stage = 0 ∧ (x = SPR_SUMMARY_SITEFREE ∨ x = SPR_SUMMARY_PORTS ∨ x = SPR_SUMMARY_CTLSP) then 0
  else if x = SPR_SUMMARY_SITEFREE then ((List.range 8).map (fun d => Nat.min (s.freeSites d).length 4 * 2 ^ (3 * d))).sum
  else if x = SPR_SUMMARY_ENTRIES then s.test.table.length
  else if x = SPR_SUMMARY_LASTING then (s.test.table.filter (fun e => e.state = seLASTING)).length
  else if x = SPR_SUMMARY_PORTS then Nat.min s.freePorts.length 2
  else if x = SPR_SUMMARY_CTLSP then (if s.badCtl = 0 ∧ s.test.ctlTest = none then 1 else 0)
  else if x = SPR_SUMMARY_UNFIT then (if s.unfit then 1 else 0)
  else if x = SPR_SUMMARY_DEGR then (if s.degraded then 1 else 0)
  else if x = SPR_SEC_SECS then s.tsec
  else if x.off = 0x3A_0018 then s.spareWord (s.hd SPR_IDX_IDX) % 2 ^ 64
  else if x.off = 0x3A_0020 then s.spareWord (s.hd SPR_IDX_IDX) / 2 ^ 64
  else if 0x3A_0100 ≤ x.off ∧ x.off < 0x3A_0180 then
    (if x.off % 16 = 0 then s.failMask ((x.off - 0x3A_0100) / 16) % 2 ^ 64 else s.failMask ((x.off - 0x3A_0100) / 16) / 2 ^ 64)
  else if x = SEC_STATUS_OWNED then (if (s.keySlot 14).state = 1 then 1 else 0)
  else if x = SEC_KINFO_KEYIDLO then (s.keyInfo (s.hd SEC_KSEL_SLOT)).2
  else if x = SEC_KINFO_STATE then (s.keyInfo (s.hd SEC_KSEL_SLOT)).1
  else if x = UCI_STATUS_FAIL24 then Nat.min ((s.host.retrainFails.filter (fun t => decide (s.time - t ≤ dayUnits))).length) 255
  else if x = UCI_STATUS_MODUP then ((List.range 4).map (fun m => if s.linkUp m then 2 ^ m else 0)).sum
  else if x = UCI_STATUS_STATE then s.linkState
  else if x = MGT_STATUS_PLA ∨ x = MGT_STATUS_PLB then (if s.loaded && bitOf (s.hd x) 1 then s.hd x + 4 else s.hd x)
  else if x = UCI_MSG_OUTST then s.host.outstanding
  else if x = PWR_RAIL_VOUT then s.rail.vout
  else if x = PWR_RAIL_IOUT then s.rail.iout
  else if x = PWR_RAIL_SPARE then s.rail.spare
  else if x = PWR_RAIL_PHOK then s.rail.phok.toNat
  else s.hd x

/-- STATE of a lane group (R255, R257): removed when the group is lasting, else whether spare lanes are mapped. -/
def State.groupState (s : State) (w l g : Nat) : Nat :=
  if s.lasting ukGROUP (groupUnit w l g) then 2 else if s.d w (D2D_GRP_FL0 l g) ≠ 0x7F ∨ s.d w (D2D_GRP_FL1 l g) ≠ 0x7F then 1 else 0

/-- A field of a die window as read. -/
def State.dieField (s : State) (w : Nat) (x : Fld) : Nat :=
  if 0xC0_0200 ≤ x.off ∧ x.off < 0xC0_0400 ∧ x.lo = 15 then (if s.dctrPriv w ((x.off - 0xC0_0200) / 8) then 1 else 0)
  else if w = hdWin ∧ x.off < 0x80_0000 then s.hdField x
  else if 0x40_0000 ≤ x.off ∧ x.off < 0x40_0900 ∧ x.off % 0x100 = 0x10 ∧ x.lo = 24 then
    let p := (w - 9) * 9 + (x.off - 0x40_0000) / 0x100
    Nat.min ((List.range 3).map (fun h => s.fails24 (p + 32 * h))).sum 255
  else if 0xA0_0000 ≤ x.off ∧ x.off < 0xA0_0A00 ∧ x.lo = 40 then
    s.groupState w ((x.off - 0xA0_0000) / 0x100) ((x.off - 0xA0_0000) % 0x100 / 8)
  else s.d w x

/-- A register as read: WO fields and reserved bits are 0 (R6, R9). -/
def State.readReg (s : State) (p : RegPlace) : Nat :=
  match p with
  | .site n off => (s.site n).readReg n s.devidx off
  | .die w off => match winReg w off with
    | some r => r.flds.foldl (fun a x => if x.cls = .wo then a else a + s.dieField w x * 2 ^ x.lo) 0
    | none => 0

/-- Whether the job runtime may not read a counter (R471). -/
def State.ctrHidden (s : State) (p : RegPlace) : Bool :=
  match p with
  | .site n off => decide (0xC000 ≤ off ∧ off < 0xC080) &&
      ((s.site n).f (PMC_SEL_USER ((off - 0xC000) / 8)) ≠ 1 || (s.site n).ctrPriv ((off - 0xC000) / 8))
  | .die w off => decide (0xC0_0000 ≤ off ∧ off < 0xC0_0200) &&
      (s.d w (PMC_DSEL_USER ((off - 0xC0_0000) / 8)) ≠ 1 || s.dctrPriv w ((off - 0xC0_0000) / 8))

/-! ## Writes: the rejection code (R281, R282) -/

/-- The bits of a field that a mask covers, and whether that is part of the field only. -/
def Fld.covered (x : Fld) (mask : Nat) : Nat := bitsOf mask x.hi x.lo
def Fld.part (x : Fld) (mask : Nat) : Bool := x.covered mask ≠ 2 ^ x.width - 1

/-- The fields of a register that a mask covers and a write can change. -/
def Reg.hit (r : Reg) (mask : Nat) : List Fld := r.flds.filter (fun x => x.cls ≠ .ro && x.covered mask ≠ 0)

/-- Whether a rewritten drain descriptor is one that R224 refuses. `g` gives the values of its fields. -/
def descBad (c : Site) (i : Nat) (g : Fld → Nat) : Bool :=
  let known := fun (t : Nat) => (mfind c.tables t).isSome || (mfind c.tableShadow t).isSome
  let ofmt := g (DRN_DESC_OFMT i)
  let func := g (DRN_DESC_FUNC i)
  let red := g (DRN_DESC_RED i)
  let dst := g (DRN_DESC_DST i)
  let ch := g (DRN_DESC_CH i)
  !decide (ofmt ≤ 5) || g (DRN_DESC_RM i) = 3 || decide (2 < dst) || decide (5 < ch) || decide (5 < func) || decide (3 < red) ||
  ((func = 2 || func = 4 || red = 2) && g (DRN_DESC_AFMT i) = 0) || (red ≠ 0 && func ≠ 0 && func ≠ 1) ||
  (dst = 2 && c.f (CORE_CH_DIR ch) = 1) || ((func = 1 || func = 2) && !known (g (DRN_DESC_TAB i))) ||
  ((func = 3 || red = 1) && !known (g (DRN_DESC_EXPT i)))

/-- Whether a die has an event (R470). -/
def dieEvent (w ev : Nat) : Bool :=
  ev = 0 || (0x100 ≤ ev && ev ≤ 0x104) || (w < 8 && 0x105 ≤ ev && ev ≤ 0x109) ||
  ((w = 9 || w = 10) && 0x10A ≤ ev && ev ≤ 0x10D) || (w = 8 && 0x10E ≤ ev && ev ≤ 0x113) || (w = 11 && ev = 0x114)

/-- Whether a select register's fields are refused (R469 to R472, R480). -/
def selBad (i ev user chain : Nat) (known : Bool) : Bool :=
  !known || (user = 1 && eventPriv ev) || (chain = 1 && (i = 0 || ev ≠ 0))

/-- Whether the values that a site register would take are refused. `g` gives its fields as they would stand. -/
def siteBadValue (c : Site) (off : Nat) (g : Fld → Nat) : Bool :=
  if 0xA000 ≤ off ∧ off < 0xA100 ∧ off % 0x40 = 4 then
    let n := (off - 0xA000) / 0x40
    let fc := g (ARR_REPAIR_FCOL n)
    let fr := g (ARR_REPAIR_FROW n)
    decide (65 ≤ fc ∧ fc ≤ 126) || decide (17 ≤ fr ∧ fr ≤ 30)
  else if 0xB000 ≤ off ∧ off < 0xB400 then descBad c ((off - 0xB000) / 0x40) g
  else if 0xC080 ≤ off ∧ off < 0xC100 then
    let i := (off - 0xC080) / 8
    selBad i (g (PMC_SEL_EVENT i)) (g (PMC_SEL_USER i)) (g (PMC_SEL_CHAIN i)) (decide (g (PMC_SEL_EVENT i) ≤ 0x1A))
  else if off = 0xC108 then g PMC_TAGCFG_MEAN = 0
  else if off = 0x9250 then g CORE_VCTL_RMODE = 3
  else false

/-- Whether the values that a die register would take are refused. -/
def dieBadValue (w off : Nat) (g : Fld → Nat) : Bool :=
  if 0x80_0000 ≤ off ∧ off < 0x80_3000 ∧ w < 8 ∧ off % 0x1000 = 8 then g (HBM_CFG_SCRUBH ((off - 0x80_0000) / 0x1000)) = 0
  else if 0xA0_0000 ≤ off ∧ off < 0xA0_0A00 then
    let l := (off - 0xA0_0000) / 0x100
    let n := (off - 0xA0_0000) % 0x100 / 8
    let f1 := g (D2D_GRP_FL1 l n)
    let f0 := g (D2D_GRP_FL0 l n)
    decide (66 ≤ f1 ∧ f1 ≤ 126) || decide (66 ≤ f0 ∧ f0 ≤ 126) || (f0 ≠ 0x7F && decide (f1 ≤ f0))
  else if 0xC0_0200 ≤ off ∧ off < 0xC0_0400 then
    let i := (off - 0xC0_0200) / 8
    selBad i (g (PMC_DSEL_EVENT i)) (g (PMC_DSEL_USER i)) (g (PMC_DSEL_CHAIN i)) (dieEvent w (g (PMC_DSEL_EVENT i)))
  else false

/-- Whether the job runtime may not write a field (R281, R471). -/
def State.runtimeBarred (s : State) (p : RegPlace) (x : Fld) (v mask : Nat) : Bool :=
  match p with
  | .site n off =>
    let c := s.site n
    (0xA000 ≤ off && off < 0xA100 && off % 0x40 = 4) ||
    (0xC000 ≤ off && off < 0xC080 && c.ctrPriv ((off - 0xC000) / 8)) ||
    (0xC080 ≤ off && off < 0xC100 && c.ctrPriv ((off - 0xC080) / 8)) ||
    (x = PMC_CTL_OVF && (List.range 16).any (fun i => bitOf (v &&& mask) (16 + i) && c.ctrPriv i))
  | .die w off =>
    (0xA0_0000 ≤ off && off < 0xA0_0A00) || (w = hdWin && 0x3C_0000 ≤ off && off < 0x3D_0000 && x.cls ≠ .rw1c) ||
    (0xC0_0000 ≤ off && off < 0xC0_0200 && s.dctrPriv w ((off - 0xC0_0000) / 8)) ||
    (0xC0_0200 ≤ off && off < 0xC0_0400 && s.dctrPriv w ((off - 0xC0_0200) / 8)) ||
    (x = PMC_DOVF_OVF && (List.range 64).any (fun i => bitOf (v &&& mask) i && s.dctrPriv w i))

/-- The value that a field of a place holds or will hold: the pending one, or the one in effect. -/
def State.standing (s : State) (p : RegPlace) (x : Fld) : Nat :=
  match p with
  | .site n _ => (mfind (s.site n).shadow x.key).getD ((s.site n).f x)
  | .die w _ => (mfind s.shadow (dieKey w x)).getD (s.d w x)

/-- Offset of a place in its window. -/
def RegPlace.off : RegPlace → Nat
  | .site _ off => off
  | .die _ off => off

/-- The value that a field has after a write to a place: the written one where the write covers it. -/
def State.after (s : State) (p : RegPlace) (v mask : Nat) (x : Fld) : Nat :=
  if x.off ≠ p.off ∨ x.covered mask = 0 then s.standing p x else bitsOf v x.hi x.lo

/-- Numbers of the special-register view that firmware may write (R117). -/
def viewWritable (off : Nat) : Bool :=
  off = 0x9200 || off = 0x9210 || off = 0x9218 || off = 0x9240 || off = 0x9250 || decide (0x9400 ≤ off ∧ off < 0x9600 ∧ off % 16 = 0)

/-- The code of a write to the special-register view (R117). -/
def State.viewCode (s : State) (who : Writer) (n off v mask : Nat) : Nat :=
  let fs := (specialReg off).flds.filter (fun x => x.covered mask ≠ 0)
  if who ≠ .firmware ∨ !viewWritable off ∨ (s.site n).f CORE_STATE_STATE = 1 ∨ (s.site n).f CORE_STATE_STATE = 2 then 4
  else if fs.any (fun x => x.part mask) then 5
  else if siteBadValue (s.site n) off (s.after (.site n off) v mask) then 2
  else 0

/-- The rejection code of a write, 0 when it is accepted (R281, R282). -/
def State.writeCode (s : State) (who : Writer) (p : RegPlace) (r : Reg) (v mask : Nat) : Nat :=
  let fs := r.hit mask
  let view := match p with
    | .site n off => if 0x9200 ≤ off ∧ off < 0x9600 then some (s.viewCode who n off v mask) else none
    | .die _ _ => none
  match view with
  | some c => c
  | none =>
    if fs.any (fun x => x.cls = .shadow || x.cls = .live) ∧ s.hd FRM_STATUS_STATE ≠ 2 then 3
    else if fs.any (fun x => x.cls = .stat) then 1
    else if who ≠ .firmware ∧ fs.any (fun x => s.runtimeBarred p x v mask) then 4
    else if fs.any (fun x => x.part mask) then 5
    else if !fs.isEmpty && (match p with
      | .site n off => siteBadValue (s.site n) off (s.after p v mask)
      | .die w off => dieBadValue w off (s.after p v mask)) then 2
    else 0

/-! ## Writes: the effect -/

/-- The next event of a stack's log stands in HBM_ERRLOGk once VALID is cleared (R256). -/
def State.nextHbmEvent (s : State) (stack : Nat) : State :=
  match mget [] s.fab.errLog stack with
  | [] => s
  | e :: l => ({ s with fab := { s.fab with errLog := mput [] stack l s.fab.errLog } }).showHbmEvent stack e

/-- Shows an entry of the alarm log (R446). -/
def State.showAlarm (s : State) (e : Nat × Nat × Nat × Nat) : State :=
  ((((s.setHd SEC_ALMLOG_VALID 1).setHd SEC_ALMLOG_ALARM e.1).setHd SEC_ALMLOG_ACTION e.2.1).setHd SEC_ALMLOG_DIE e.2.2.1).setHd
    SEC_ALMLOG_TSEC e.2.2.2

/-- What the clearing of a log's VALID brings forward (R256, R324, R383, R446). -/
def State.bringForward (s : State) (w : Nat) (x : Fld) : State :=
  if x = PEL_FLOG_VALID then match s.pel.flog with
    | [] => s
    | e :: l => ({ s with pel := { s.pel with flog := l } }).showFault e
  else if x = SEC_ALMLOG_VALID then match s.sec.almLog with
    | [] => s
    | e :: l => ({ s with sec := { s.sec with almLog := l } }).showAlarm e
  else if x = BRM_LOG_VALID ∧ w = ndWin 0 then match s.col.brmLog with
    | [] => s
    | e :: l => ({ s with col := { s.col with brmLog := l } }).showBrm e
  else if w < 8 ∧ x.off % 0x1000 = 0x18 ∧ 0x80_0000 ≤ x.off ∧ x.off < 0x80_3000 then s.nextHbmEvent (3 * w + (x.off - 0x80_0000) / 0x1000)
  else s

/-- Tagging is enabled (R477): the LFSR starts from the seed, and the first countdown is loaded. -/
def Site.tagStart (c : Site) : Site :=
  let seed := if c.f PMC_SEED_SEED = 0 then 1 else c.f PMC_SEED_SEED
  { c with tag := { c.tag with lfsr := BitVec.ofNat 32 seed } }.tagReload

/-- One field of a site window takes a written value. -/
def Site.writeField (c : Site) (x : Fld) (v : Nat) : Site :=
  match x.cls with
  | .shadow => { c with shadow := mset x.key v c.shadow }
  | .rw1c => c.set x (c.f x - (c.f x &&& v))
  | .wo =>
    if x = CORE_CTRL_HALT then (if v = 1 then c.halt else c)
    else if x = CORE_CTRL_GO then (if v = 1 then c.go else c)
    else if x = PMC_TSTAT_POP then (if v = 1 then c.tagPop else c) else c
  | .rw => if x = CORE_PC_PC then c.writePc v else c.set x v
  | .live => if x = PMC_TAGCFG_EN ∧ c.f PMC_TAGCFG_EN = 0 ∧ v = 1 then (c.set x 1).tagStart else c.set x v
  | _ => c

/-- An accepted write to a register of a site window. HALT in CORE_CTRL overrides GO (R146). -/
def Site.writeReg (c : Site) (off : Nat) (r : Reg) (v mask : Nat) : Site :=
  if 0x9200 ≤ off ∧ off < 0x9600 then
    (r.flds.filter (fun x => x.covered mask ≠ 0)).foldl (fun c x => c.set x (bitsOf v x.hi x.lo)) c
  else
    let m := if off = 0x9000 ∧ bitOf (v &&& mask) 1 then 2 else mask
    (r.hit m).foldl (fun c x => c.writeField x (bitsOf v x.hi x.lo)) c

/-- One field of a die window takes a written value. -/
def State.writeField (s : State) (w : Nat) (x : Fld) (v : Nat) : State :=
  match x.cls with
  | .shadow => { s with shadow := mset (dieKey w x) v s.shadow }
  | .rw1c =>
    let s1 := s.setD w x (s.d w x - (s.d w x &&& v))
    if s.d w x ≠ 0 ∧ s1.d w x = 0 then s1.bringForward w x else s1
  | .rw => s.setD w x v
  | .live => if x = BIST_CFG_HOLD ∧ w = hdWin then (s.setD w x v).trySlice else s.setD w x v
  | _ => s

/-- An accepted write. -/
def State.writeReg (s : State) (p : RegPlace) (r : Reg) (v mask : Nat) : State :=
  match p with
  | .site n off => s.onSite n (fun c => c.writeReg off r v mask)
  | .die w off =>
    let s1 : State := if w = hdWin ∧ off = UCI_HXWD_EN.off then { s with host := { s.host with kicked := s.time } } else s
    (r.hit mask).foldl (fun s x => s.writeField w x (bitsOf v x.hi x.lo)) s1

/-- A rejected write is recorded in FRM_WREJ (R281, R289). -/
def State.recordRejection (s : State) (who code addr : Nat) : State :=
  (((s.setHd FRM_WREJ_VALID 1).setHd FRM_WREJ_CODE code).setHd FRM_WREJ_WRITER who).setHd FRM_WREJ_ADDR addr

/-! ## Tables (R198, R199) -/

/-- Bytes of a table. -/
def Table.bytes (t : Table) : Bytes :=
  leBytes 4 (t.lmode.toNat + 4 * t.rmode.toNat) ++ leBytes 4 t.lv.toNat ++ leBytes 4 t.lsl.toNat ++ leBytes 4 t.rv.toNat ++
    leBytes 4 t.rsl.toNat ++ leBytes 12 0 ++ (List.range 65).flatMap (fun i => leBytes 4 (t.b.getD i 0).toNat) ++ leBytes 28 0 ++
    (List.range 256).flatMap (fun i => leBytes 4 (t.c.getD i 0).toNat)

/-- The table that bytes spell. -/
def tableOf (b : Bytes) : Table :=
  let w := fun (o : Nat) => leNat ((b.drop o).take 4)
  { lmode := BitVec.ofNat 2 (w 0), rmode := BitVec.ofNat 2 (w 0 / 4), lv := BitVec.ofNat 32 (w 4), lsl := BitVec.ofNat 32 (w 8),
    rv := BitVec.ofNat 32 (w 12), rsl := BitVec.ofNat 32 (w 16), b := (List.range 65).map (fun i => BitVec.ofNat 32 (w (32 + 4 * i))),
    c := (List.range 256).map (fun i => BitVec.ofNat 32 (w (320 + 4 * i))) }

/-- Whether table bytes are ones that R199 accepts. -/
def tableOk (b : Bytes) : Bool :=
  let w := fun (o : Nat) => leNat ((b.drop o).take 4)
  let t := tableOf b
  let fin := fun (x : BitVec 32) => !codeNan F32 x.toNat && !codeInf F32 x.toNat
  b.length = 1344 && decide (w 0 < 16) && t.lmode ≠ 3 && t.rmode ≠ 3 && ((b.drop 20).take 12).all (· = 0) && ((b.drop 292).take 28).all (· = 0) &&
  t.b.all fin && t.c.all fin && (List.range 64).all (fun i => (F32.dec (t.b.getD i 0).toNat).lt (F32.dec (t.b.getD (i + 1) 0).toNat))

/-- The words of a table. -/
def tableWords : Nat := 168

/-- The bytes of a table as far as a write of it has come: those written, over what the table holds. -/
def Site.tableSoFar (c : Site) (t : Nat) : Bytes :=
  (mfind c.tableBuf t).getD ((mfind c.tableShadow t).getD ((mfind c.tables t).getD Table.blank)).bytes

/-- A write of one word of a table by firmware (R198, R199). The table write is complete with the last word of the table: it is then
judged whole, and the table becomes pending or is refused. DESIGN CHOICE (log entry 41). -/
def State.writeTable (s : State) (who : Writer) (n t w v : Nat) : State × Nat :=
  let old := (s.site n).tableSoFar t
  let new := old.take (8 * w) ++ leBytes 8 v ++ old.drop (8 * w + 8)
  if s.hd FRM_STATUS_STATE ≠ 2 then (s, 3)
  else if who ≠ .firmware then (s, 4)
  else if w + 1 < tableWords then (s.onSite n (fun c => { c with tableBuf := mset t new c.tableBuf }), 0)
  else
    let s1 := s.onSite n (fun c => { c with tableBuf := mdel t c.tableBuf })
    if !tableOk new then (s1, 2)
    else (s1.onSite n (fun c => { c with tableShadow := mset t (tableOf new) c.tableShadow }), 0)

/-! ## A write by firmware or the job runtime -/

/-- A write to an address: the state after it and its code, or `none` for an error response (R232). -/
def State.regWrite (s : State) (who : Writer) (addr v mask : Nat) : State × Option Nat :=
  match s.placeReg addr with
  | some p => match p.reg with
    | some r =>
      let code := s.writeCode who p r v mask
      if code = 0 then (s.writeReg p r v mask, some 0)
      else (s.recordRejection (if who = .firmware then 0 else 1) code addr, some code)
    | none => (s, none)
  | none => match Config.tableWord addr with
    | some t =>
      let x := s.writeTable who (t.1 % 832) (t.2.1 % 32) (t.2.2 % tableWords) v
      if x.2 = 0 then (x.1, some 0) else (x.1.recordRejection (if who = .firmware then 0 else 1) x.2 addr, some x.2)
    | none => (s, none)

/-- A write by the core program to its own site window: it raises ACCESS with detail PRIV (R125); one to a STATIC field breaks R281 too, whose
higher detail is not the one recorded (R138), and leaves code 0x01. Nothing else is within its reach. -/
def State.programWrite (s : State) (addr mask : Nat) : State :=
  match s.placeReg addr with
  | some (.site n off) =>
    if (s.site n).f CORE_STATE_STATE ≠ 1 ∨ !s.dieRuns (n / 104) then s
    else match siteReg off with
      | some r => s.takeException n exACCESS acPRIV (2 ^ 9) (if (r.hit mask).any (fun x => x.cls = .stat) then 1 else 0)
      | none => s
  | _ => s

/-- REG_WRITE (R281). -/
def execRegWrite (w : Writer) (addr : BitVec 44) (v mask : BitVec 64) (s : State) : Host.Outcome State Fault Refusal :=
  .next (if w = .program then s.programWrite addr.toNat mask.toNat
    else if s.hdRuns then (s.regWrite w addr.toNat v.toNat mask.toNat).1 else s)

end Sys2Proof.Machine
end

