-- ==== Sys2Proof/Machine/Ckpt.lean ====
section
/-! DEFINITION. Checkpoint rounds as shared operations: the lead captain's orders, arming, stored pages, manifests, slots
(R384 to R404). -/

set_option autoImplicit false

namespace Sys2Proof.Machine

/-! ## Messages (R386, R387, R397) -/

/-- The module in the lead captain's part. -/
def State.ckLead (s : State) : Nat := if s.hasCaptains then s.leadCaptain.getD 0xFFFF else 0

/-- The payload of a checkpoint message. -/
def ckPayload (typ status dev slot step ckseq jobLo step0 step1 : Nat) : Bytes :=
  leBytes 1 typ ++ leBytes 1 status ++ leBytes 2 dev ++ leBytes 4 slot ++ leBytes 8 step ++ leBytes 4 ckseq ++ leBytes 4 jobLo ++
    leBytes 8 step0 ++ leBytes 8 step1 ++ leBytes 24 0

/-- The lead captain sends an order to every module. -/
def State.ckOrderAll (s : State) (typ status slot step ckseq : Nat) : State :=
  s.slice.foldl (fun s d => s.mgtSend 0x20 0 0 [d] (ckPayload typ status d slot step ckseq s.jobLo 0 0)) s

/-- A module answers the lead captain. -/
def State.ckAnswer (s : State) (typ status slot step ckseq step0 step1 : Nat) : State :=
  s.mgtSend 0x20 0 0 [s.ckLead] (ckPayload typ status s.devidx slot step ckseq s.jobLo step0 step1)

/-- All ones: an empty slot, no boundary. -/
def noStep : Nat := 2 ^ 64 - 1

/-- Whether a message is one that R397 lets through: of the type, with an assigned status and of this job. -/
def State.ckMine (s : State) (m : CkMsg) (typ : Nat) : Bool :=
  s.loaded && m.typ.toNat = typ && decide (m.status.toNat < 4) && m.jobLo.toNat = s.jobLo

/-! ## The trigger (R386) -/

/-- The slot that does not hold the newest slice-complete checkpoint (R393). -/
def State.nextSlot (s : State) : Nat := if s.ckp.newest = some 0 then 1 else 0

/-- The lead captain orders a round for a boundary. -/
def State.orderRound (s : State) (b : Nat) : State :=
  let seq := s.ckp.nextSeq
  let s1 : State := { s with ckp := { s.ckp with lead := some (b, s.time), leadRound := true, again := false,
                                                 nextSeq := (seq + 1) % 2 ^ 32, dataOk := [], sealed := [] } }
  s1.ckOrderAll 1 0 s.nextSlot b seq

/-- The trigger, as the lead captain evaluates it when its gate enters COMMIT. -/
def State.ckTrigger (s : State) : State :=
  match s.img with
  | some im => match im.resil.ckTrig, s.ckp.lead with
    | some t, some (c, t0) =>
      let b := s.stepNo.toNat + 1
      if s.ckLead ≠ s.devidx ∨ s.ckp.leadRound then s
      else if s.ckp.again ∨ (t.steps ≠ 0 ∧ t.steps ≤ b - c) ∨ (t.secs ≠ 0 ∧ t.secs * 40000 ≤ s.time - t0) then s.orderRound b
      else s
    | _, _ => s
  | none => s

/-- The lead captain abandons the round of the slice (R396). -/
def State.leadAbandon (s : State) : State :=
  if !s.ckp.leadRound then s
  else
    let s1 : State := { s with ckp := { s.ckp with leadRound := false, again := true } }
    s1.ckOrderAll 5 3 s.nextSlot (match s.ckp.lead with | some (c, _) => c | none => 0) (s.ckp.nextSeq - 1)

/-! ## Objects (R384, R385, R392) -/

/-- The objects of the image as (format, base, length). -/
def State.ckObjs (s : State) : List (Nat × Nat × Nat) := match s.img with
  | some im => im.resil.ckObjs
  | none => []

/-- Pages of an object. -/
def objPages (o : Nat × Nat × Nat) : List Nat := (List.range (o.2.2 / 65536)).map (fun i => o.2.1 / 65536 + i)

/-- Stored bytes of an object of a length. -/
def storedLen (fmt len : Nat) : Nat := if fmt = 0 then len else len / 2

/-- Offset of object k in its slot. -/
def objOff (os : List (Nat × Nat × Nat)) (k : Nat) : Nat :=
  (os.take k).foldl (fun a o => a + (storedLen o.1 o.2.2 + 65535) / 65536 * 65536) 65536

/-- The narrow format of an FMT. -/
def ckFmt (fmt : Nat) : Fmt := if fmt = 1 then B16 else F16

/-- An F32 element as stored, and whether it counts in CVTCNT. -/
def narrowElem (fmt code : Nat) : Nat × Bool :=
  let r := (ckFmt fmt).convert .rne true 0 (F32.dec code)
  (r.1, (r.2 &&& (flCVT ||| flNANI)) ≠ 0)

/-- Bytes as stored, with the number of elements counted; the first argument bounds the elements. -/
def narrowBytes (fmt : Nat) : Nat → Bytes → Bytes × Nat
  | 0, _ => ([], 0)
  | n + 1, b =>
    let e := narrowElem fmt (leNat (b.take 4))
    let r := narrowBytes fmt n (b.drop 4)
    (leBytes 2 e.1 ++ r.1, r.2 + (if e.2 then 1 else 0))

/-- A page as stored. -/
def storedPage (fmt : Nat) (b : Bytes) : Bytes × Nat := if fmt = 0 then (b, 0) else narrowBytes fmt (b.length / 4) b

/-- Stored bytes widened at restore. -/
def widened (fmt : Nat) : Nat → Bytes → Bytes
  | 0, _ => []
  | n + 1, b => leBytes 4 (F32.enc ((ckFmt fmt).dec (leNat (b.take 2)))) ++ widened fmt n (b.drop 2)

/-- Bytes of an object as it stands in HBM. -/
def restoredBytes (fmt : Nat) (b : Bytes) : Bytes := if fmt = 0 then b else widened fmt (b.length / 2) b

/-! ## A round on this module (R388 to R392) -/

/-- Replaces the round in progress. -/
def State.setRound (s : State) (r : Round) : State := { s with ckp := { s.ckp with round := some r } }

/-- The die whose region holds a page. -/
def pageDie (p : Nat) : Nat := hbmDie (p * 65536)

/-- Stage pages of each die. -/
def State.stageLen (s : State) (d : Nat) : Nat := match s.img with
  | some im => match im.resil.ckTrig with
    | some t => if bitOf t.sdie d then t.slen else 0
    | none => 0
  | none => 0

/-- Module address of a stage page of a die. -/
def State.stageAddr (s : State) (d i : Nat) : Nat := match s.img with
  | some im => match im.resil.ckTrig with
    | some t => t.sbase + (d * t.slen + i) * 65536
    | none => 0
  | none => 0

/-- The lowest free stage page of a die. -/
def State.freeStage (s : State) (r : Round) (d : Nat) : Option Nat :=
  (List.range (s.stageLen d)).find? (fun i => !r.staged.any (fun e => pageDie e.1 = d && e.2 = i))

/-- Shows the pages left and staged on each die (R404). -/
def State.showRound (s : State) (r : Round) : State :=
  (List.range 8).foldl (fun s d =>
    let left := (r.protect.filter (fun p => pageDie p = d && p ∉ r.copied)).length
    let st := (r.staged.filter (fun e => pageDie e.1 = d)).length
    ((s.setD d SNP_STATUS_ARMED (if r.armed then 1 else 0)).setD d SNP_STATUS_LEFT left).setD d SNP_STATUS_STAGED st) s

/-- The snapshot engines arm at the module gear change that opens the round's step (R388, R389); the manifest area is overwritten
with zeros (R393). -/
def State.ckArm (s : State) : State :=
  match s.ckp.round with
  | none => s
  | some r =>
    if r.armed ∨ r.step ≠ s.stepNo then s
    else
      let r1 := { r with armed := true, protect := (s.ckObjs.flatMap objPages).eraseDups, epoch := s.epoch, lscale := s.lscale,
                         clean := s.hd PEL_CGSTATE_CLEAN }
      let s1 := ((((s.setRound r1).setHd CKP_STATUS_STATE 1).setHd CKP_STATUS_CVTCNT 0).setHd CKP_BYTES_BYTES 0)
      let s2 := (List.range 8).foldl (fun s d => (s.setD d SNP_STATUS_PRIO 0).setD d SNP_STALL_MAXNS 0) s1
      (s2.showRound r1).slotWrite r.slot 0 (List.replicate 65536 0)

/-- The next page that the snapshot engine writes: staged pages first, then by object and address (R392). A page with a held write waits for
its priority copy (R389), where its die has a stage region. -/
def State.nextWrite (s : State) (r : Round) : Option Nat :=
  match (r.staged.map (·.1)).find? (fun p => p ∉ r.acked) with
  | some p => some p
  | none => r.protect.find? (fun p => p ∉ r.acked && !(r.held.any (fun h => h.1 = p) && s.stageLen (pageDie p) ≠ 0))

/-- The object that holds a page: its index, format and base. -/
def State.objOf (s : State) (p : Nat) : Option (Nat × Nat × Nat) :=
  ((s.ckObjs.zipIdx.find? (fun o => p ∈ objPages o.1))).map (fun o => (o.2, o.1.1, o.1.2.1))

/-- Where a page of the round stands: its stage page, else its own place. -/
def State.pageAt (s : State) (r : Round) (p : Nat) : Nat :=
  match r.staged.find? (fun e => e.1 = p) with
  | some e => s.stageAddr (pageDie p) e.2
  | none => p * 65536

/-- A module abandons its part of a round and tells the lead captain (R396). -/
def State.ckFail (s : State) : State := match s.ckp.round with
  | some r => (s.ckAnswer 2 1 r.slot r.step.toNat r.ckseq 0 0).abandonRound
  | none => s

/-- A page of an object with a word that is delivered poisoned enters the poison page list (R396). -/
def State.pageSpoiled (s : State) (p : Nat) : State := { s with rep := { s.rep with poison := linsert p s.rep.poison } }

/-- A page is written to storage and acknowledged (R385, R392): its bytes count, and the last one completes the data. -/
def State.ckWritten (s : State) (r : Round) (p : Nat) : State :=
  match s.objOf p with
  | none => s
  | some (k, fmt, base) =>
    let a := s.pageAt r p
    if s.hbm.badIn a 65536 then ((s.hbmNote a 65536).pageSpoiled p).ckFail
    else
      let b := storedPage fmt (s.hbm.read a 65536)
      let off := objOff s.ckObjs k + (p * 65536 - base) / (if fmt = 0 then 1 else 2)
      let r1 := { r with acked := r.acked ++ [p], copied := linsert p r.copied, stored := r.stored ++ [(p, b.1)],
                         held := r.held.filter (fun h => h.1 ≠ p) }
      let s1 := (((s.hbmNote a 65536).setRound r1).showRound r1).slotWrite r.slot off b.1
      let s2 := (s1.bumpHd CKP_STATUS_CVTCNT b.2).setHd CKP_BYTES_BYTES (s1.hd CKP_BYTES_BYTES + b.1.length)
      if r1.protect.all (fun q => q ∈ r1.acked) then (s2.setHd CKP_STATUS_STATE 2).ckAnswer 2 0 r.slot r.step.toNat r.ckseq 0 0 else s2

/-! ## Manifests (R394, R395) -/

/-- SHARDID of the image. -/
def State.shardId (s : State) : Nat := match s.img with
  | some im => im.resil.shardId
  | none => 0

/-- JOBID of the image. -/
def State.jobId (s : State) : Nat := match s.img with
  | some im => im.jobid.toNat
  | none => 0

/-- The object table of a round's manifest. -/
def State.objTable (s : State) (r : Round) : Bytes :=
  s.ckObjs.zipIdx.flatMap (fun o =>
    let stored := (objPages o.1).flatMap (fun p => ((r.stored.find? (fun e => e.1 = p)).map (·.2)).getD [])
    leBytes 8 (o.1.2.1 + o.1.1 * 2 ^ 44) ++ leBytes 8 o.1.2.2 ++ leBytes 8 (objOff s.ckObjs o.2) ++ leBytes 8 (storedLen o.1.1 o.1.2.2) ++
      sha32 stored)

/-- The manifest of a round up to its object table. -/
def State.manifestBody (s : State) (r : Round) : Bytes :=
  leBytes 4 0x4D4B4354 ++ leBytes 1 1 ++ leBytes 1 r.slot ++ leBytes 2 s.devidx ++ leBytes 8 s.jobId ++ leBytes 8 r.step.toNat ++
    leBytes 4 r.ckseq ++ leBytes 4 r.epoch ++ leBytes 4 s.shardId ++ leBytes 4 r.lscale ++ leBytes 2 r.clean ++
    leBytes 2 s.ckObjs.length ++ leBytes 20 0 ++ s.objTable r

/-- The signed manifest of a round. -/
def State.manifest (s : State) (r : Round) : Bytes :=
  let b := s.manifestBody r
  let g := s.signature b
  b ++ g.1 ++ g.2 ++ leBytes 30 0

/-- Fields of a manifest. -/
def mfStep (b : Bytes) : Nat := numAt b 16 8
def mfNobj (b : Bytes) : Nat := numAt b 42 2

/-- Entry k of a manifest's object table as (base, format, length, stored bytes, digest). -/
def mfObj (b : Bytes) (k : Nat) : Nat × Nat × Nat × Nat × Bytes :=
  let o := 64 + 64 * k
  (numAt b o 8 % 2 ^ 44, numAt b o 8 / 2 ^ 44 % 16, numAt b (o + 8) 8, numAt b (o + 24) 8, (b.drop (o + 32)).take 32)

/-- Whether a manifest is valid for a slot of a place (R395). -/
def State.manifestOk (s : State) (dev slot : Nat) (b : Bytes) : Bool :=
  let n := mfNobj b
  let e := 64 + 64 * n
  b.length = e + 194 && numAt b 0 4 = 0x4D4B4354 && numAt b 4 1 = 1 && numAt b 5 1 = slot && numAt b 6 2 = dev && numAt b 8 8 = s.jobId &&
  decide (1 ≤ n ∧ n ≤ 256) && numAt b 44 20 = 0 && (List.range n).all (fun k => numAt b (64 + 64 * k) 8 / 2 ^ 48 = 0) &&
  numAt b (e + 164) 30 = 0 && numAt b (e + 32) 66 < 2 ^ 521 && numAt b (e + 98) 66 < 2 ^ 521 &&
  (match Config.devicePoint ((b.drop e).take 32) with
    | some q => (b.drop e).take 32 = keyId q.1 q.2 && ecdsaOk q.1 q.2 (b.take e) (numAt b (e + 32) 66) (numAt b (e + 98) 66)
    | none => false)

end Sys2Proof.Machine
end

