-- ==== Sys2Proof/Machine/Image.lean ====
section
/-! DEFINITION. The frame image as bytes: its header, section table, sections and signature, the checks of a load in their order, and
the image that its sections spell (R32, R83, R97, R197, R199, R224, R226, R227, R259 to R275, R277, R278, R288, R320, R321, R348, R350,
R354, R382, R402, R422, R486). -/

set_option autoImplicit false

namespace Sys2Proof.Machine

/-! ## Checks in order (R277, R278) -/

/-- A check: the other sections that it joins, and its code, 0 where it holds. -/
structure Chk where
  needs : List Nat
  code : Nat
  deriving DecidableEq, Repr

/-- A check of one section alone, and one that joins others. -/
def chk (code : Nat) (bad : Bool) : Chk := ⟨[], if bad then code else 0⟩
def chkWith (needs : List Nat) (code : Nat) (bad : Bool) : Chk := ⟨needs, if bad then code else 0⟩

/-- Whether an entry has a bit outside its fields, given as (lowest bit, width). -/
def strayBit (v : Nat) (fs : List (Nat × Nat)) : Bool :=
  let m := (fs.map (fun f => 2 ^ f.1 * (2 ^ f.2 - 1))).sum
  v ||| m ≠ m

/-- Whether two ranges overlap. -/
def overlap (a la b lb : Nat) : Bool := decide (a < b + lb ∧ b < a + la)

/-! ## Header and section table (R259 to R264) -/

/-- The header (R260). -/
structure Hdr where
  imglen : Nat
  sectab : Nat
  nsec : Nat
  devidx : Nat
  jobid : Nat
  umin : Nat
  umaj : Nat
  tdeg : Nat
  build : Nat
  slicen : Nat
  nspare : Nat
  deriving DecidableEq, Repr

/-- The header that bytes spell. -/
def hdrOf (b : Bytes) : Hdr :=
  { imglen := numAt b 8 8, sectab := numAt b 16 4, nsec := numAt b 20 1, devidx := numAt b 22 2, jobid := numAt b 24 8,
    umin := numAt b 32 1, umaj := numAt b 33 1, tdeg := numAt b 34 1, build := numAt b 36 4, slicen := numAt b 40 2, nspare := numAt b 42 2 }

/-- The code of the header: of R260 in table order with the lengths after it, then R261. DEDUCED (log entry 35). -/
def hdrCode (umaj : Nat) (b : Bytes) : Nat :=
  let h := hdrOf b
  if numAt b 0 4 ≠ 0x4D524654 then 0x10
  else if numAt b 4 1 ≠ 0 ∨ numAt b 5 1 ≠ 1 then 0x11
  else if numAt b 6 2 ≠ 0xA1 then 0x12
  else if h.sectab % 64 ≠ 0 ∨ h.nsec = 0 ∨ 32 < h.nsec ∨ numAt b 21 1 ≠ 0 ∨ numAt b 35 1 ≠ 0 ∨ h.slicen = 0 ∨ 8192 < h.slicen ∨ 1024 < h.nspare ∨
    numAt b 44 20 ≠ 0 then 0x10
  else if h.imglen % 64 ≠ 0 ∨ h.imglen < 65536 ∨ 2 ^ 32 < h.imglen ∨ h.sectab < 64 ∨ h.imglen < h.sectab + 96 * h.nsec + 256 then 0x13
  else if h.umaj ≠ umaj ∨ (h.tdeg ≠ 1 ∧ h.tdeg ≠ 2) then 0x20
  else 0

/-- An entry of the section table: type, version, offset, length, digest, and whether its reserved bits are 0. -/
structure SecEnt where
  typ : Nat
  ver : Nat
  off : Nat
  len : Nat
  dig : Bytes
  clean : Bool
  deriving DecidableEq, Repr

/-- The section table. -/
def secTable (h : Hdr) (b : Bytes) : List SecEnt :=
  (List.range h.nsec).map (fun i =>
    let o := h.sectab + 96 * i
    ⟨numAt b o 2, numAt b (o + 2) 2, numAt b (o + 8) 8, numAt b (o + 16) 8, (b.drop (o + 24)).take 64,
      numAt b (o + 4) 4 = 0 && numAt b (o + 88) 8 = 0⟩)

/-- Section types (R264). -/
def stSITEMAP : Nat := 1
def stPROGRAM : Nat := 2
def stREGS : Nat := 3
def stTABLES : Nat := 4
def stTENSORS : Nat := 5
def stBUFFERS : Nat := 6
def stCOMMIT : Nat := 7
def stNETWORK : Nat := 8
def stDEADLINES : Nat := 9
def stPOWERCAP : Nat := 10
def stSTAGES : Nat := 11
def stRESIL : Nat := 12

/-- The sections that an image must have. -/
def requiredSecs : List Nat := [stSITEMAP, stPROGRAM, stREGS, stBUFFERS, stCOMMIT, stNETWORK, stDEADLINES, stSTAGES, stRESIL]

/-- The parts of an image as (offset, length). -/
def imageParts (h : Hdr) (es : List SecEnt) : List (Nat × Nat) :=
  [(0, 64), (h.sectab, 96 * h.nsec), (h.imglen - 256, 256)] ++ es.map (fun e => (e.off, e.len))

/-- Whether two parts in a list overlap. -/
def anyOverlap : List (Nat × Nat) → Bool
  | [] => false
  | p :: l => l.any (fun q => overlap p.1 p.2 q.1 q.2) || anyOverlap l

/-- The code of the section table: each entry in turn, the overlaps, the required sections (R263, R264). A reserved bit that is set gives
0x17. DEDUCED (log entry 35). -/
def tableCode (h : Hdr) (es : List SecEnt) : Nat :=
  let one := fun (i : Nat) (e : SecEnt) =>
    if !e.clean ∨ e.typ = 0 ∨ 12 < e.typ ∨ (es.take i).any (fun f => f.typ = e.typ) ∨ e.ver ≠ 1 then 0x17
    else if e.off % 64 ≠ 0 ∨ e.len < 64 ∨ h.imglen < e.off + e.len then 0x13 else 0
  match (es.zipIdx.map (fun e => one e.2 e.1)).find? (· ≠ 0) with
  | some c => c
  | none => if anyOverlap (imageParts h es) then 0x13 else if requiredSecs.any (fun t => !es.any (fun e => e.typ = t)) then 0x18 else 0

/-- Whether a gap between parts holds a byte other than 0. -/
def gapBad (h : Hdr) (es : List SecEnt) (b : Bytes) : Bool :=
  (b.zipIdx).any (fun e => e.1 ≠ 0 && !(imageParts h es).any (fun p => decide (p.1 ≤ e.2 ∧ e.2 < p.1 + p.2)))

/-- Whether the signature block has the right SMAGIC and no reserved bit set (R274). -/
def sigShape (b : Bytes) : Bool :=
  let g := b.drop (b.length - 256)
  numAt g 0 4 = 0x47534654 && numAt g 5 3 = 0 && numAt g 172 84 = 0

/-- The code of the signature block (R274, R275), with the key of each slot that may sign and is VALID. A wrong SMAGIC or a reserved bit
that is set gives 0x14. DEDUCED (log entry 35). -/
def sigCode (key : Nat → Option (Nat × Nat)) (b : Bytes) : Nat :=
  let n := b.length
  let g := b.drop (n - 256)
  let slot := numAt g 4 1
  let r := numAt g 40 66
  let s := numAt g 106 66
  if !sigShape b then 0x14
  else match key slot with
    | none => 0x15
    | some k =>
      if (g.drop 8).take 32 ≠ keyId k.1 k.2 then 0x15
      else if r = 0 ∨ p521n ≤ r ∨ s = 0 ∨ p521n ≤ s then 0x14
      else if ecdsaOk k.1 k.2 (b.take (n - 256)) r s then 0 else 0x14

/-! ## Sections -/

/-- The sections of an image in table order. -/
abbrev Secs := List (Nat × Bytes)

/-- The bytes of a section, none where it is absent. -/
def secOf (ss : Secs) (t : Nat) : Bytes := match ss.find? (fun e => e.1 = t) with
  | some e => e.2
  | none => []

/-- Whether an image has a section. -/
def hasSec (ss : Secs) (t : Nat) : Bool := ss.any (fun e => e.1 = t)

/-- The count in a section header. -/
def cntOf (b : Bytes) : Nat := numAt b 0 4

/-- The shape of a section: its header, the length of its entries, its tail (R268). -/
def shape (b : Bytes) (hdr : List (Nat × Nat)) (stop : Nat) : Chk :=
  chk 0x13 (decide (b.length < 64) || strayBit (numAt b 0 64) hdr || decide (b.length < stop) || !(b.drop stop).all (· = 0))

/-- The n entries of a size from an offset on, as numbers. -/
def entsAt (b : Bytes) (start size n : Nat) : List Nat :=
  (List.range (Nat.min n (b.length / size))).map (fun i => numAt b (start + size * i) size)

/-- The 32-byte entries of a section. -/
def kindEnts (b : Bytes) : List Nat := entsAt b 64 32 (cntOf b)

/-- KIND of an entry. -/
def kindOf (v : Nat) : Nat := v % 16

/-- Entries of a kind. -/
def ofKind (b : Bytes) (k : Nat) : List Nat := (kindEnts b).filter (fun v => kindOf v = k)

/-- The role that stands for every live role. -/
def roleAll : Nat := 0xFFFF

/-! ### SITEMAP (R269) -/

/-- Whether a role is LIVE in the site map. -/
def smLive (b : Bytes) (r : Nat) : Bool := decide (r < 800) && bitOf (numAt b (64 + 4 * r) 4) 31

/-- Live roles. -/
def liveOf (ss : Secs) : List Nat := (List.range 800).filter (smLive (secOf ss stSITEMAP))

/-- Sites of the live roles by rising role; none where no site remains. `bad` tells the failed sites. -/
def placeRoles (bad : Nat → Bool) (b : Bytes) : List (Nat × Option Nat) :=
  (List.range 800).foldl (fun acc r =>
    if !smLive b r then acc
    else
      let p := numAt b (64 + 4 * r) 4 % 128
      let ok := fun (n : Nat) => !bad n && !acc.any (fun e => e.2 = some n)
      let d := r / 100
      acc ++ [(r, if decide (p ≤ 103) && ok (d * 104 + p) then some (d * 104 + p) else ((List.range 104).map (fun i => d * 104 + i)).find? ok)]) []

def checkSitemap (bad : Nat → Bool) (b : Bytes) : List Chk :=
  let ps := placeRoles bad b
  [shape b [(0, 32)] (64 + 4 * cntOf b), chk 0x1A (cntOf b ≠ 800)] ++ (List.range 800).flatMap (fun r =>
    let e := numAt b (64 + 4 * r) 4
    [chk 0x1A (strayBit e [(0, 7), (31, 1)] || decide (103 < e % 128)), chk 0x1E (ps.any (fun p => p.1 = r && p.2.isNone))])

/-- Whether a role field names a live role, or every one. -/
def roleLive (ss : Secs) (r : Nat) : Bool := r = roleAll || smLive (secOf ss stSITEMAP) r

/-- The checks of a role field: its range, and that it is live. -/
def checkRole (ss : Secs) (r : Nat) (all : Bool) : List Chk :=
  [chk 0x1A (decide (800 ≤ r) && !(all && r = roleAll)), chkWith [stSITEMAP] 0x1E (!(r = roleAll) && !roleLive ss r)]

/-! ### REGS (R266, R267) -/

/-- A register record: KIND, TARGET, OFFSET, VALUE, MASK. -/
structure RegRec where
  kind : Nat
  target : Nat
  off : Nat
  val : Nat
  mask : Nat
  deriving DecidableEq, Repr

def recOf (v : Nat) : RegRec := ⟨v % 16, bitsOf v 31 16, bitsOf v 63 32, bitsOf v 127 64, bitsOf v 191 128⟩

/-- The register records of an image. -/
def regRecs (ss : Secs) : List RegRec := (kindEnts (secOf ss stREGS)).map recOf

/-- The register that a record names; the special-register view is none (R117). -/
def RegRec.reg (r : RegRec) : Option Reg :=
  if r.kind = 0 then (if r.target < 8 ∧ r.off < 0x680000 then none else winReg r.target r.off)
  else if 0x9200 ≤ r.off ∧ r.off < 0x9600 then none else siteReg r.off

/-- The fields that a record sets, with their values. -/
def RegRec.sets (r : RegRec) : List (Fld × Nat) := match r.reg with
  | some g => (g.flds.filter (fun x => x.covered r.mask ≠ 0)).map (fun x => (x, bitsOf r.val x.hi x.lo))
  | none => []

/-- Whether a record names a register whose values come from the spare-mapping table. -/
def RegRec.spareReg (r : RegRec) : Bool :=
  if r.kind = 0 then decide (0xA0_0000 ≤ r.off ∧ r.off < 0xA0_0A00) else decide (0xA000 ≤ r.off ∧ r.off < 0xA100 ∧ r.off % 0x40 = 4)

/-- Values of single fields that a table marks as rejected, for the records of a core site. -/
def siteValueBad (off : Nat) (g : Fld → Nat) : Bool :=
  if 0xA000 ≤ off ∧ off < 0xA100 ∧ off % 0x40 = 0 then g (ARR_CFG_PACK ((off - 0xA000) / 0x40)) = 3
  else if 0xA000 ≤ off ∧ off < 0xA100 ∧ off % 0x40 = 16 then
    let n := (off - 0xA010) / 0x40
    decide (g (ACC_CFG_SLOG n) < 8) || decide (16 < g (ACC_CFG_SLOG n))
  else if 0x9100 ≤ off ∧ off < 0x9130 then
    let c := (off - 0x9100) / 8
    decide (800 ≤ g (CORE_CH_PROLE c)) || decide (6 ≤ g (CORE_CH_PCH c)) || decide (g (CORE_CH_SLOG c) < 8) || decide (16 < g (CORE_CH_SLOG c))
  else if 0xB000 ≤ off ∧ off < 0xB400 then
    let i := (off - 0xB000) / 0x40
    decide (5 < g (DRN_DESC_OFMT i)) || g (DRN_DESC_RM i) = 3 || decide (2 < g (DRN_DESC_DST i)) || decide (5 < g (DRN_DESC_CH i)) ||
      decide (5 < g (DRN_DESC_FUNC i)) || decide (3 < g (DRN_DESC_RED i))
  else siteBadValue Site.reset off g

/-- As `siteValueBad`, for the records of a die window. -/
def dieValueBad (w off : Nat) (g : Fld → Nat) : Bool :=
  if w = hdWin ∧ off = 0x30_0000 then g PEL_CGCFG_POL = 3
  else if w = hdWin ∧ off = 0x30_0010 then g PEL_CGSTATE_SBLK % 64 ≠ 0
  else dieBadValue w off g

/-- The value that a record gives a field of its register; any other field counts as at reset. -/
def RegRec.value (r : RegRec) (x : Fld) : Nat := if x.off ≠ r.off ∨ x.covered r.mask = 0 then x.reset else bitsOf r.val x.hi x.lo

/-- Whether a record names a reserved format code (R32). -/
def RegRec.badFormat (r : RegRec) : Bool :=
  r.kind = 1 && decide (0xB000 ≤ r.off ∧ r.off < 0xB400) && decide (12 ≤ r.value (DRN_DESC_OFMT ((r.off - 0xB000) / 0x40)))

/-- The checks of a record (R267). -/
def checkRecord (ss : Secs) (v : Nat) : List Chk :=
  let r := recOf v
  let place := [chk 0x1A (strayBit v [(0, 4), (16, 16), (32, 32), (64, 64), (128, 64)] || decide (1 < r.kind) || (r.kind = 0 && decide (11 < r.target)))] ++
    (if r.kind = 1 then checkRole ss r.target true else [])
  match r.reg with
  | none => place ++ [chk 0x1B true]
  | some g =>
    let named := (g.flds.map (fun x => 2 ^ x.lo * (2 ^ x.width - 1))).sum
    let hit := g.flds.filter (fun x => x.covered r.mask ≠ 0)
    place ++ [chk 0x1B (r.mask ||| named ≠ named || hit.any (fun x => x.part r.mask) || hit.any (fun x => x.cls = .ro || x.cls = .rw1c || x.cls = .wo) ||
        (r.spareReg && r.mask ≠ 0)),
      chk 0x19 r.badFormat,
      chk 0x1A ((if r.kind = 0 then dieValueBad r.target r.off r.value else siteValueBad r.off r.value) || r.val ||| r.mask ≠ r.mask)]

/-- A role's site registers as the records leave them. -/
def recordedSite (ss : Secs) (role : Nat) : Site :=
  (regRecs ss).foldl (fun c r =>
    if r.kind = 1 ∧ (r.target = role ∨ r.target = roleAll) then r.sets.foldl (fun c e => c.set e.1 e.2) c else c) Site.reset

/-- The ring of a channel and the spill region of an array, as (base, length). -/
def ringOf (c : Site) (k : Nat) : Nat × Nat :=
  (c.f (CORE_CH_RBASE k) * 256, (c.f (CORE_CH_NSLM1 k) + 1) * 2 ^ c.f (CORE_CH_SLOG k))
def spillOf (c : Site) (a : Nat) : Nat × Nat := (0x20000 * c.f (ACC_CFG_SBASE a), 0x20000)

/-- Rings of enabled channels, and spill regions in use. -/
def ringsOf (c : Site) : List (Nat × Nat) := ((List.range 6).filter (fun k => c.f (CORE_CH_EN k) = 1)).map (ringOf c)
def spillsOf (c : Site) : List (Nat × Nat) := ((List.range 4).filter (fun a => c.f (ACC_CFG_SEN a) = 1)).map (spillOf c)

/-! ### TABLES (R198, R199, R264) -/

/-- The table entries of an image. -/
def tableEnts (ss : Secs) : Option (List (Nat × Nat × Bytes)) := if hasSec ss stTABLES then Config.tableEntries (secOf ss stTABLES) else some []

/-- Tables of a role. -/
def tablesOf (ss : Secs) (role : Nat) : List (Nat × Bytes) :=
  (((tableEnts ss).getD []).filter (fun e => e.1 = role || e.1 = roleAll)).map (fun e => e.2)

def checkTables (ss : Secs) : List Chk :=
  let b := secOf ss stTABLES
  [shape b [(0, 32)] (Nat.max 64 (Config.tablesEnd b))] ++ match tableEnts ss with
  | none => [chk 0x1A true]
  | some es => es.flatMap (fun e => checkRole ss e.1 true ++ [chk 0x1A (decide (31 < e.2.1)), chk 0x1D (!tableOk e.2.2)])

/-- What the records of a role leave (R97, R224, R226), judged after all of them. -/
def checkRoleRegs (ss : Secs) (role : Nat) : List Chk :=
  let c := recordedSite ss role
  let all : Site := { c with tables := (List.range 32).map (fun t => (t, Table.blank)) }
  let own : Site := { c with tables := (tablesOf ss role).foldl (fun m e => mset e.1 (tableOf e.2) m) [] }
  let rs := ringsOf c
  let sp := spillsOf c
  let ring := fun (p : Nat × Nat) (k : Nat) => p.1 % 2 ^ c.f (CORE_CH_SLOG k) ≠ 0 || decide (2 ^ 22 < p.1 + p.2)
  [chkWith [stSITEMAP] 0x1A ((List.range 16).any (fun i => descBad all i c.f)),
   chkWith [stSITEMAP] 0x1A ((List.range 6).any (fun k => c.f (CORE_CH_EN k) = 1 && ring (ringOf c k) k)),
   chkWith [stSITEMAP] 0x1C (anyOverlap sp || anyOverlap rs || rs.any (fun r => sp.any (fun q => overlap r.1 r.2 q.1 q.2))),
   chkWith [stSITEMAP, stTABLES] 0x1A ((List.range 16).any (fun i => descBad own i c.f))]

def checkRegs (ss : Secs) : List Chk :=
  let b := secOf ss stREGS
  [shape b [(0, 32)] (64 + 32 * cntOf b)] ++ (kindEnts b).flatMap (checkRecord ss) ++ (liveOf ss).flatMap (checkRoleRegs ss)

/-! ### PROGRAM (R270) -/

/-- A placement: ROLE, KIND, BLOB, LADDR. -/
structure Placing where
  role : Nat
  kind : Nat
  blob : Nat
  laddr : Nat
  deriving DecidableEq, Repr

def nBlobs (b : Bytes) : Nat := cntOf b
def nPlaces (b : Bytes) : Nat := numAt b 4 4

/-- The blob entries as numbers, and blob k's offset and length. -/
def blobEnts (b : Bytes) : List Nat := entsAt b 64 32 (nBlobs b)
def blobAt (b : Bytes) (k : Nat) : Nat × Nat := (numAt b (64 + 32 * k) 8, numAt b (72 + 32 * k) 8)
def blobBytes (b : Bytes) (k : Nat) : Bytes := (b.drop (blobAt b k).1).take (blobAt b k).2

def placingEnts (b : Bytes) : List Nat := entsAt b (64 + 32 * nBlobs b) 16 (nPlaces b)
def placingOf (v : Nat) : Placing := ⟨bitsOf v 15 0, bitsOf v 19 16, bitsOf v 63 32, bitsOf v 95 64⟩

/-- The placements of an image. -/
def placingsOf (ss : Secs) : List Placing := (placingEnts (secOf ss stPROGRAM)).map placingOf

/-- Whether two placements serve one role. -/
def sameRole (a b : Nat) : Bool := a = b || a = roleAll || b = roleAll

def checkPlace (ss : Secs) (i v : Nat) : List Chk :=
  let b := secOf ss stPROGRAM
  let p := placingOf v
  let len := (blobAt b p.blob).2
  let before := ((placingsOf ss).take i).filter (fun q => q.kind = 1 && sameRole q.role p.role)
  let roles := if p.role = roleAll then liveOf ss else [p.role]
  [chk 0x1A (strayBit v [(0, 16), (16, 4), (32, 32), (64, 32)])] ++ checkRole ss p.role true ++
  [chk 0x1A (decide (1 < p.kind) || decide (nBlobs b ≤ p.blob)),
   chk 0x1A (p.kind = 0 && (p.laddr ≠ 0x1000000 || decide (524288 < len) || len % 128 ≠ 0)),
   chk 0x1A (p.kind = 1 && decide (2 ^ 22 < p.laddr + len)),
   chk 0x1C (p.kind = 1 && before.any (fun q => overlap q.laddr (blobAt b q.blob).2 p.laddr len)),
   chkWith [stREGS, stSITEMAP] 0x1C (p.kind = 1 && roles.any (fun r =>
     let c := recordedSite ss r
     (ringsOf c ++ spillsOf c).any (fun q => overlap q.1 q.2 p.laddr len)))]

def checkProgram (ss : Secs) : List Chk :=
  let b := secOf ss stPROGRAM
  let stop := 64 + 32 * nBlobs b + 16 * nPlaces b
  let blobs := (List.range (Nat.min (nBlobs b) b.length)).map (blobAt b)
  let tail := (b.zipIdx).any (fun e => e.1 ≠ 0 && decide (stop ≤ e.2) && !blobs.any (fun q => decide (q.1 ≤ e.2 ∧ e.2 < q.1 + q.2)))
  [chk 0x13 (decide (b.length < 64) || strayBit (numAt b 0 64) [(0, 64)] || decide (b.length < stop) || tail)] ++
  (blobEnts b).flatMap (fun v =>
    [chk 0x13 (bitsOf v 63 0 % 64 ≠ 0 || decide (b.length < bitsOf v 63 0 + bitsOf v 127 64)), chk 0x1A (strayBit v [(0, 128)])]) ++
  ((placingEnts b).zipIdx).flatMap (fun e => checkPlace ss e.2 e.1) ++
  (liveOf ss).map (fun r => chkWith [stSITEMAP] 0x1E (((placingsOf ss).filter (fun p => p.kind = 0 && sameRole p.role r)).length ≠ 1))

/-! ### TENSORS, BUFFERS, COMMIT (R271 to R273) -/

/-- A tensor entry as (TID, FMT, BLK, dimensions). -/
def tensorOf (v : Nat) : Nat × Nat × Nat × List Nat :=
  (bitsOf v 31 0, bitsOf v 35 32, bitsOf v 37 36, (List.range (bitsOf v 40 38)).map (fun i => bitsOf v (95 + 32 * i) (64 + 32 * i)))

def checkTensors (ss : Secs) : List Chk :=
  let b := secOf ss stTENSORS
  let vs := kindEnts b
  [shape b [(0, 32)] (64 + 32 * cntOf b)] ++ vs.zipIdx.flatMap (fun e =>
    let v := e.1
    let rank := bitsOf v 40 38
    [chk 0x19 (decide (12 ≤ bitsOf v 35 32)),
     chk 0x1A (bitsOf v 35 32 = 11 || bitsOf v 37 36 = 3 || rank = 0 || rank = 7 || bitsOf v 63 41 ≠ 0 ||
       (List.range 6).any (fun i => let d := bitsOf v (95 + 32 * i) (64 + 32 * i); if i < rank then d = 0 else d ≠ 0)),
     chk 0x1A ((vs.take e.2).any (fun u => bitsOf u 31 0 = bitsOf v 31 0))])

/-- End of HBM, and the host window (R17, R229). -/
def hbmEnd : Nat := 0x1B000000000
def hostLo : Nat := 0x17000000000

/-- A buffer entry. -/
def bufOf (v : Nat) : Buf := ⟨bitsOf v 15 0, bitsOf v 19 16, bitsOf v 21 20, bitsOf v 107 64, bitsOf v 191 128⟩

/-- The buffers of an image. -/
def bufsOf (ss : Secs) : List Buf := (kindEnts (secOf ss stBUFFERS)).map bufOf

/-- Whether two buffers overlap against R272. -/
def bufClash (p q : Buf) : Bool :=
  overlap p.base p.len q.base q.len && (sameRole p.role q.role || p.use = 3 || p.use = 4 || q.use = 3 || q.use = 4)

def checkBuffers (ss : Secs) : List Chk :=
  let b := secOf ss stBUFFERS
  [shape b [(0, 32)] (64 + 32 * cntOf b)] ++ (kindEnts b).zipIdx.flatMap (fun e =>
    let v := e.1
    let p := bufOf v
    let host := overlap p.base p.len hostLo (hbmEnd - hostLo)
    checkRole ss p.role true ++
    [chk 0x1A (decide (4 < p.use) || p.acc = 0 || strayBit v [(0, 22), (64, 44), (128, 64)]),
     chk 0x21 (p.base % 65536 ≠ 0 || p.len % 65536 ≠ 0 || decide (hbmEnd < p.base + p.len)),
     chk 0x1C (((bufsOf ss).take e.2).any (fun q => bufClash q p)),
     chk 0x21 ((host && p.use ≠ 2) || (p.use = 2 && decide (p.base < hostLo)))])

/-- Whether a range lies in a buffer that `ok` admits. -/
def inBuf (bs : List Buf) (ok : Buf → Bool) (a n : Nat) : Bool := bs.any (fun q => ok q && decide (q.base ≤ a ∧ a + n ≤ q.base + q.len))

/-- The groups of a commit table as (group entry, page entries), n of them from an offset on. -/
def commitGroups (b : Bytes) : Nat → Nat → List (Nat × List Nat)
  | 0, _ => []
  | n + 1, o =>
    let e := numAt b o 8
    let k := bitsOf e 31 16
    (e, (List.range k).map (fun i => numAt b (o + 8 + 8 * i) 8)) :: commitGroups b n (o + 8 + 8 * k)

/-- The commit groups of an image. -/
def commitOf (ss : Secs) : List (Nat × List Nat) :=
  let b := secOf ss stCOMMIT
  commitGroups b (Nat.min (cntOf b) 800) 64

/-- Role and page numbers of a group. -/
def groupRole (g : Nat × List Nat) : Nat := bitsOf g.1 15 0
def groupPages (g : Nat × List Nat) : List Nat := g.2.map (fun v => v % 2 ^ 28)

/-- The offset after the last page entry of the section, by the count of its header; groups beyond the section's bytes count 8 each (R268). -/
def commitStop (b : Bytes) : Nat :=
  64 + 8 * ((commitGroups b (Nat.min (cntOf b) (b.length / 8 + 1)) 64).map (fun g => 1 + g.2.length)).sum

def checkCommit (ss : Secs) : List Chk :=
  let b := secOf ss stCOMMIT
  let gs := commitOf ss
  [shape b [(0, 32)] (commitStop b), chk 0x1A (decide (800 < cntOf b))] ++ gs.zipIdx.flatMap (fun e =>
    let g := e.1
    let r := groupRole g
    checkRole ss r false ++
    [chk 0x1A (g.2 = [] || strayBit g.1 [(0, 32)] || (gs.take e.2).any (fun h => groupRole h = r))] ++ g.2.zipIdx.flatMap (fun p =>
      let pg := p.1 % 2 ^ 28
      [chk 0x1A (strayBit p.1 [(0, 28)]),
       chkWith [stBUFFERS] 0x21 (!inBuf (bufsOf ss) (fun q => (q.use = 3 || q.use = 4) && decide (2 ≤ q.acc) && (q.role = r || q.role = roleAll))
         (pg * 65536) 65536),
       chk 0x21 (pg ∈ (groupPages g).take p.2 || (gs.take e.2).any (fun h => pg ∈ groupPages h))]))

/-! ### NETWORK and DEADLINES (R320, R321) -/

/-- A PORT entry. -/
def portOf (v : Nat) : PortCfg :=
  { port := bitsOf v 8 4, sub := bitsOf v 10 9, use := bitsOf v 13 11, llr := bitOf v 14, ndev := bitsOf v 31 16, nport := bitsOf v 36 32,
    nsub := bitsOf v 38 37, spare := bitsOf v 44 40, prewired := bitOf v 45 }

/-- Ports, routes and groups of an image. -/
def portsOf (ss : Secs) : List PortCfg := (ofKind (secOf ss stNETWORK) 1).map portOf
def routesOf (ss : Secs) : List RouteEntry := (ofKind (secOf ss stNETWORK) 2).map (fun v =>
  ⟨BitVec.ofNat 16 (bitsOf v 31 16), BitVec.ofNat 16 (bitsOf v 47 32), BitVec.ofNat 18 (bitsOf v 65 48)⟩)
def groupsIn (ss : Secs) : List GroupCfg := (ofKind (secOf ss stNETWORK) 3).map (fun v =>
  ⟨bitsOf v 31 16, bitsOf v 47 32, bitsOf v 63 48, bitsOf v 79 64⟩)

/-- The GLOBAL entry. -/
def globalOf (ss : Secs) : Nat := (ofKind (secOf ss stNETWORK) 0).headD 0

/-- Group identifiers of an image, and the size of a group. -/
def gidsOf (ss : Secs) : List Nat := ((groupsIn ss).map (·.gid)).eraseDups
def groupSize (ss : Secs) (gid : Nat) : Nat := match (groupsIn ss).find? (fun g => g.gid = gid) with
  | some g => g.nrank
  | none => 0

def checkNetEntry (v : Nat) : List Chk :=
  let k := kindOf v
  if 3 < k then [chk 0x1B true]
  else if k = 0 then
    [chk 0x1A (strayBit v [(0, 4), (16, 25), (64, 64), (128, 20)] || (decide (0 < bitsOf v 31 16) && decide (bitsOf v 31 16 < 1024)) ||
      bitsOf v 35 32 = 0 || bitsOf v 39 36 = 0 || decide (bitsOf v 143 128 < 10) || bitsOf v 147 144 = 0)]
  else if k = 1 then
    let p := portOf v
    [chk 0x1A (strayBit v [(0, 15), (16, 23), (40, 6)] || decide (17 < p.port) || p.sub = 3 || decide (3 < p.use) ||
      (p.use = 1 && (p.ndev = 0xFFFF || p.nsub = 3)) || (decide (17 < p.spare) && p.spare ≠ 31))]
  else if k = 2 then [chk 0x1A (strayBit v [(0, 4), (16, 50)] || decide (bitsOf v 47 32 < bitsOf v 31 16))]
  else [chk 0x1A (strayBit v [(0, 4), (16, 64)] || bitsOf v 31 16 = 0xFFFF || bitsOf v 79 64 = 0 || decide (8192 < bitsOf v 79 64))]

/-- Whether a group lists its ranks once each and includes the module. -/
def groupOk (ss : Secs) (dev gid : Nat) : Bool :=
  let ms := (groupsIn ss).filter (fun g => g.gid = gid)
  let n := groupSize ss gid
  ms.length = n && ms.all (fun g => g.nrank = n) && (List.range n).all (fun r => ms.any (fun g => g.rank = r)) && ms.any (fun g => g.dev = dev)

def checkNetwork (h : Hdr) (ss : Secs) : List Chk :=
  let b := secOf ss stNETWORK
  let subs := fun (p : Nat) => ((portsOf ss).filter (fun q => q.port = p)).map (·.sub)
  [shape b [(0, 32)] (64 + 32 * cntOf b)] ++ (kindEnts b).flatMap checkNetEntry ++
  [chk 0x1A ((ofKind b 0).length ≠ 1), chk 0x1A ((List.range 18).any (fun p => subs p ≠ [0] && subs p ≠ [1, 2] && subs p ≠ [2, 1])),
   chk 0x1A ((gidsOf ss).any (fun g => !groupOk ss h.devidx g))]

/-- GROUP entries of the DEADLINES section. -/
def dlOf (ss : Secs) : List GroupDl := (ofKind (secOf ss stDEADLINES) 1).map (fun v =>
  ⟨bitsOf v 31 16, bitsOf v 63 32, bitsOf v 95 64, bitsOf v 97 96, bitsOf v 127 112⟩)

def checkDlEntry (ss : Secs) (v : Nat) : List Chk :=
  let k := kindOf v
  if 1 < k then [chk 0x1B true]
  else if k = 0 then [chk 0x1A (strayBit v [(0, 4), (32, 128)])]
  else
    let gid := bitsOf v 31 16
    [chk 0x1A (strayBit v [(0, 4), (16, 82), (112, 16)] || bitsOf v 97 96 = 3 || 1 < ((dlOf ss).filter (fun d => d.gid = gid)).length),
     chkWith [stNETWORK] 0x1A (gid ∉ gidsOf ss || decide (groupSize ss gid ≤ bitsOf v 127 112))]

def checkDeadlines (ss : Secs) : List Chk :=
  let b := secOf ss stDEADLINES
  [shape b [(0, 32)] (64 + 32 * cntOf b)] ++ (kindEnts b).flatMap (checkDlEntry ss) ++
  [chk 0x1A ((ofKind b 0).length ≠ 1), chkWith [stNETWORK] 0x18 ((gidsOf ss).any (fun g => !(dlOf ss).any (fun d => d.gid = g)))]

/-! ### POWERCAP and STAGES (R264, R486) -/

def capOf (v : Nat) : CapEntry := ⟨bitsOf v 15 0, bitsOf v 22 16, BitVec.ofNat 64 (bitsOf v 95 32)⟩

/-- DEFAULT and the entries of the power-cap table. -/
def capsOf (ss : Secs) : Option (Nat × List CapEntry) :=
  if hasSec ss stPOWERCAP then some (bitsOf (numAt (secOf ss stPOWERCAP) 0 8) 35 32, (kindEnts (secOf ss stPOWERCAP)).map capOf) else none

def checkPowercap (ss : Secs) : List Chk :=
  let b := secOf ss stPOWERCAP
  let vs := kindEnts b
  [chk 0x13 (decide (b.length < 64 + 32 * cntOf b) || !(b.drop (64 + 32 * cntOf b)).all (· = 0)),
   chk 0x1A (strayBit (numAt b 0 64) [(0, 36)] || cntOf b = 0 || decide (16 < cntOf b) || decide (cntOf b ≤ bitsOf (numAt b 0 8) 35 32))] ++
  vs.zipIdx.map (fun e =>
    let c := capOf e.1
    chk 0x1A (strayBit e.1 [(0, 23), (32, 64)] || decide (c.limit < 500) || decide (5500 < c.limit) || c.len = 0 || decide (64 < c.len) ||
      c.pattern = 0 || decide (2 ^ c.len ≤ c.pattern.toNat) || (vs.take e.2).any (fun u => decide ((capOf u).limit ≤ c.limit))))

def checkStages (ss : Secs) : List Chk :=
  let b := secOf ss stSTAGES
  [shape b [(0, 32)] (Nat.max 64 (Config.stagesEnd b))] ++ match Config.stages b with
  | none => [chk 0x1A true]
  | some g => g.barriers.flatMap (fun m => checkRole ss m.2.2 false)

/-! ### RESIL (R350, R354, R382, R402, R422) -/

def rsOf (ss : Secs) (k : Nat) : List Nat := ofKind (secOf ss stRESIL) k

/-- Panniers, partners, mirrors and pre-image entries of an image. -/
def pannierOf (v : Nat) : Nat × Nat × Nat := (bitsOf v 4 4, bitsOf v 107 64, bitsOf v 147 128)
def partnerOf (v : Nat) : Nat × Nat × Nat := (bitsOf v 4 4, bitsOf v 31 16, bitsOf v 47 32)
def preimgOf (v : Nat) : Nat × Nat × Nat × Nat := (bitsOf v 31 16, bitsOf v 107 64, bitsOf v 171 128, bitsOf v 211 192)
def captainOf (v : Nat) : Nat × Nat × Nat := (bitsOf v 5 4, bitsOf v 31 16, bitsOf v 39 32)
def trigOf (v : Nat) : CkTrig := ⟨bitsOf v 31 16, bitsOf v 63 32, bitsOf v 95 64, bitsOf v 103 96, bitsOf v 171 128, bitsOf v 211 192⟩
def slotOf (v : Nat) : Nat × Nat × Nat × Nat × Nat := (bitsOf v 4 4, bitsOf v 15 8, bitsOf v 47 16, bitsOf v 127 64, bitsOf v 191 128)
def objEnt (v : Nat) : Nat × Nat × Nat := (bitsOf v 7 4, bitsOf v 107 64, bitsOf v 191 128)

/-- DIGN of the image. -/
def dignOf (ss : Secs) : Nat := bitsOf ((rsOf ss 0).headD 0) 31 16

/-- Pages of a role's commit group. -/
def commitPages (ss : Secs) (role : Nat) : List Nat := match (commitOf ss).find? (fun g => groupRole g = role) with
  | some g => groupPages g
  | none => []

/-- The regions of a RESIL entry as (base, length). -/
def resilRegions (ss : Secs) (v : Nat) : List (Nat × Nat) :=
  let k := kindOf v
  if k = 1 then [((pannierOf v).2.1, (pannierOf v).2.2 * 65536)]
  else if k = 4 then
    let p := preimgOf v
    [(p.2.1, 65536 * (if dignOf ss = 0xFFFF then 1 else (commitPages ss p.1).length)), (p.2.2.1, p.2.2.2 * 65536)]
  else if k = 8 then
    let t := trigOf v
    ((List.range 8).filter (fun d => bitOf t.sdie d)).map (fun d => (t.sbase + d * t.slen * 65536, t.slen * 65536))
  else []

/-- Region checks of an entry, against what stands before it and against the buffers and the host window. -/
def checkRegions (ss : Secs) (i v : Nat) : List Chk :=
  let rs := resilRegions ss v
  let before := ((kindEnts (secOf ss stRESIL)).take i).flatMap (resilRegions ss)
  let hit := fun (r : Nat × Nat) (l : List (Nat × Nat)) => l.any (fun q => overlap r.1 r.2 q.1 q.2)
  let needs := if kindOf v = 4 then [stCOMMIT] else []
  [chkWith needs 0x21 (rs.any (fun r => decide (hbmEnd < r.1 + r.2))),
   chkWith needs 0x1C (anyOverlap rs || rs.any (fun r => hit r before || hit r [(hostLo, hbmEnd - hostLo)])),
   chkWith (stBUFFERS :: needs) 0x1C (rs.any (fun r => hit r ((bufsOf ss).map (fun q => (q.base, q.len)))))]

/-- Devices that may stand in a WATCH entry (R382). -/
def watchable (h : Hdr) (ss : Secs) : List Nat :=
  let caps := (rsOf ss 6).map captainOf
  ((portsOf ss).filter (fun p => p.use = 1)).map (·.ndev) ++ ((rsOf ss 2).map partnerOf).map (·.2.1) ++
    (match caps.find? (fun c => c.2.1 = h.devidx && decide (c.1 < 2)) with
      | some c => (caps.filter (fun d => decide (d.1 < 2) && d.2.2 = c.2.2 && d.2.1 ≠ h.devidx)).map (·.2.1)
      | none => [])

def checkResilEntry (h : Hdr) (ss : Secs) (i v : Nat) : List Chk :=
  let k := kindOf v
  let before := (kindEnts (secOf ss stRESIL)).take i
  if 11 < k then [chk 0x1B true]
  else if k = 0 then [chk 0x1A (strayBit v [(0, 4), (16, 48)] || bitsOf v 31 16 = 1 || before.any (fun u => kindOf u = 0))]
  else if k = 1 then
    let p := pannierOf v
    [chk 0x1A (strayBit v [(0, 5), (64, 44), (128, 20)] || p.2.1 % 65536 ≠ 0 || p.2.2 = 0 || before.any (fun u => kindOf u = 1 && (pannierOf u).1 = p.1))]
  else if k = 2 then
    let p := partnerOf v
    [chk 0x1A (strayBit v [(0, 5), (16, 32)] || decide (h.tdeg ≤ p.1) || p.2.1 = h.devidx ||
      before.any (fun u => kindOf u = 2 && ((partnerOf u).1 = p.1 || (partnerOf u).2.1 = p.2.1))),
     chkWith [stNETWORK] 0x1A (p.2.2 ∉ gidsOf ss)]
  else if k = 3 then
    [chk 0x1A (strayBit v [(0, 5), (16, 32)] || decide (h.tdeg ≤ bitsOf v 4 4) || decide (800 ≤ bitsOf v 47 32))] ++ checkRole ss (bitsOf v 31 16) false
  else if k = 4 then
    let p := preimgOf v
    [chk 0x1A (strayBit v [(0, 4), (16, 16), (64, 44), (128, 44), (192, 20)] || p.2.1 % 65536 ≠ 0 || p.2.2.1 % 65536 ≠ 0 ||
      before.any (fun u => kindOf u = 4 && (preimgOf u).1 = p.1))] ++ checkRole ss p.1 false
  else if k = 5 then
    [chk 0x1A (strayBit v [(0, 5), (16, 16)]), chkWith [stNETWORK] 0x1A (bitsOf v 31 16 ∉ watchable h ss)]
  else if k = 6 then
    let c := captainOf v
    [chk 0x1A (strayBit v [(0, 6), (16, 24)] || c.1 = 3 || decide (35 < c.2.2) || decide (h.slicen < 3))]
  else if k = 7 then [chk 0x1A (strayBit v [(0, 5), (16, 16), (128, 128)] || before.any (fun u => kindOf u = 7 && bitsOf u 4 4 = bitsOf v 4 4))]
  else if k = 8 then
    let t := trigOf v
    [chk 0x1A (strayBit v [(0, 4), (16, 88), (128, 44), (192, 20)] || t.ckto = 0 || (t.steps = 0 && t.secs = 0) || t.sbase % 65536 ≠ 0 || t.slen = 0 ||
      before.any (fun u => kindOf u = 8))]
  else if k = 9 then
    let q := slotOf v
    [chk 0x1A (strayBit v [(0, 5), (8, 40), (64, 128)] || q.2.2.2.1 % 65536 ≠ 0 || before.any (fun u => kindOf u = 9 && (slotOf u).1 = q.1) ||
      decide (q.2.2.2.2 < objOff ((rsOf ss 10).map objEnt) (rsOf ss 10).length))]
  else if k = 10 then
    let o := objEnt v
    [chk 0x1A (strayBit v [(0, 8), (64, 44), (128, 64)] || decide (2 < o.1) || o.2.1 % 65536 ≠ 0 || o.2.2 % 65536 ≠ 0 ||
      decide (256 ≤ (before.filter (fun u => kindOf u = 10)).length)),
     chk 0x21 (before.any (fun u => kindOf u = 10 && overlap (objEnt u).2.1 (objEnt u).2.2 o.2.1 o.2.2)),
     chkWith [stBUFFERS] 0x21 (!inBuf (bufsOf ss) (fun q => q.use ≠ 1 && (o.1 = 0 || q.use = 4)) o.2.1 o.2.2)]
  else [chk 0x1A (strayBit v [(0, 6), (16, 16)] || bitsOf v 5 4 = 3 || decide (720 < bitsOf v 31 16) || before.any (fun u => kindOf u = 11))]

/-- What the section must hold (R348, R350, R354, R382, R402). -/
def checkResilWhole (h : Hdr) (ss : Secs) : List Chk :=
  let caps := (rsOf ss 6).map captainOf
  let watch := (rsOf ss 5).map (fun v => (bitsOf v 4 4, bitsOf v 31 16))
  let dir := fun (d : Nat) => (watch.filter (fun w => w.1 = d)).map (·.2)
  let pods := (caps.filter (fun c => decide (c.1 < 2))).map (·.2.2)
  let big := decide (3 ≤ h.slicen)
  let other := match caps.find? (fun c => c.2.1 = h.devidx && decide (c.1 < 2)) with
    | some c => (caps.filter (fun (d : Nat × Nat × Nat) => decide (d.1 < 2) && d.2.2 = c.2.2 && d.2.1 ≠ h.devidx)).map (fun (d : Nat × Nat × Nat) => d.2.1)
    | none => []
  [chk 0x18 ((rsOf ss 0).length ≠ 1 || (rsOf ss 1).length ≠ 2 || (rsOf ss 2).length ≠ h.tdeg),
   chkWith [stCOMMIT] 0x18 ((commitOf ss).any (fun g => !(rsOf ss 4).any (fun v => (preimgOf v).1 = groupRole g))),
   chk 0x1A (decide (8 < (dir 0).length) || decide (16 < (dir 1).length) || pods.any (fun p =>
     (caps.filter (fun c => c.1 = 0 && c.2.2 = p)).length ≠ 1 || (caps.filter (fun c => c.1 = 1 && c.2.2 = p)).length ≠ 1) ||
     decide (1 < (caps.filter (fun c => c.1 = 2)).length)),
   chk 0x18 (big && (dir 0 = [] || !(rsOf ss 7).any (fun v => bitsOf v 4 4 = 0) || decide (caps.length < 3) ||
     (List.range ((h.slicen + 255) / 256)).any (fun p => p ∉ pods))),
   chk 0x18 (other.any (fun d => d ∉ dir 0 || d ∉ dir 1)),
   chk 0x18 (h.tdeg = 1 && rsOf ss 8 = []),
   chk 0x18 (rsOf ss 8 ≠ [] && ((rsOf ss 9).length ≠ 2 || rsOf ss 10 = []))]

def checkResil (h : Hdr) (ss : Secs) : List Chk :=
  let b := secOf ss stRESIL
  [shape b [(0, 32)] (64 + 32 * cntOf b)] ++
  (kindEnts b).zipIdx.flatMap (fun e => checkResilEntry h ss e.2 e.1 ++ checkRegions ss e.2 e.1) ++ checkResilWhole h ss

/-! ## Step 4 (R277, R278) -/

/-- The checks of a section in order. -/
def checksOf (h : Hdr) (bad : Nat → Bool) (ss : Secs) (t : Nat) : List Chk :=
  if t = stSITEMAP then checkSitemap bad (secOf ss t)
  else if t = stPROGRAM then checkProgram ss
  else if t = stREGS then checkRegs ss
  else if t = stTABLES then checkTables ss
  else if t = stTENSORS then checkTensors ss
  else if t = stBUFFERS then checkBuffers ss
  else if t = stCOMMIT then checkCommit ss
  else if t = stNETWORK then checkNetwork h ss
  else if t = stDEADLINES then checkDeadlines ss
  else if t = stPOWERCAP then checkPowercap ss
  else if t = stSTAGES then checkStages ss
  else checkResil h ss

/-- Index of a section in the section table; an absent section counts as read first. -/
def secPos (ss : Secs) (t : Nat) : Nat := (ss.findIdx? (fun e => e.1 = t)).getD 0

/-- The section whose turn a check falls in: the latest of its own and those that it joins. -/
def Chk.turn (ss : Secs) (own : Nat) (c : Chk) : Nat := c.needs.foldl (fun a t => Nat.max a (secPos ss t)) own

/-- The first check that fails, with the index of the section in whose turn it does. Within a turn the section's own checks come first
in their order, then what earlier sections have to check against it. -/
def sectionsCode (h : Hdr) (bad : Nat → Bool) (ss : Secs) : Option (Nat × Nat) :=
  let all := ss.zipIdx.map (fun e => (e.2, checksOf h bad ss e.1.1))
  let failed := fun (i : Nat) (l : Nat × List Chk) => l.2.find? (fun c => c.code ≠ 0 && c.turn ss l.1 = i)
  ((List.range ss.length).findSome? (fun i =>
    let order := (all.filter (fun l => l.1 = i)) ++ all.filter (fun l => decide (l.1 < i))
    (order.findSome? (failed i)).map (fun c => (c.code, i))))

/-! ## The image that the sections spell -/

/-- The image. -/
def imageOf (h : Hdr) (ss : Secs) (keySlot : Nat) (dieKeys : List Nat) : Image :=
  let g := globalOf ss
  let ph := (ofKind (secOf ss stDEADLINES) 0).headD 0
  let pol := (rsOf ss 11).headD 0
  let rg := (rsOf ss 0).headD 0
  { devidx := h.devidx, jobid := BitVec.ofNat 64 h.jobid, tdeg := h.tdeg, slicen := h.slicen, nspare := h.nspare, build := h.build, umin := h.umin,
    buffers := bufsOf ss, commit := (commitOf ss).map (fun g => (groupRole g, groupPages g)),
    tensors := if hasSec ss stTENSORS then (kindEnts (secOf ss stTENSORS)).map tensorOf else [],
    udpPort := if bitsOf g 31 16 = 0 then 49200 else bitsOf g 31 16, rto := bitsOf g 143 128, rtry := bitsOf g 147 144, wbulk := bitsOf g 35 32,
    wcol := bitsOf g 39 36, pfc := bitOf g 40, net64 := BitVec.ofNat 64 (beNat (leBytes 8 (bitsOf g 127 64))), ports := portsOf ss,
    routes := routesOf ss, groups := groupsIn ss, tfb := bitsOf ph 63 32, tred := bitsOf ph 95 64, tchk := bitsOf ph 127 96,
    tcom := bitsOf ph 159 128, groupDl := dlOf ss, caps := capsOf ss, stages := (Config.stages (secOf ss stSTAGES)).getD ⟨[], []⟩,
    resil := { dign := bitsOf rg 31 16, shardId := bitsOf rg 63 32, panniers := (rsOf ss 1).map pannierOf, partners := (rsOf ss 2).map partnerOf,
               mirrors := (rsOf ss 3).map (fun v => (bitsOf v 4 4, bitsOf v 31 16, bitsOf v 47 32)), preimg := (rsOf ss 4).map preimgOf,
               watchers := ((rsOf ss 5).filter (fun v => bitsOf v 4 4 = 0)).map (fun v => bitsOf v 31 16),
               subjects := ((rsOf ss 5).filter (fun v => bitsOf v 4 4 = 1)).map (fun v => bitsOf v 31 16),
               captains := (rsOf ss 6).map captainOf,
               ocs := (rsOf ss 7).map (fun v => (bitsOf v 4 4, bitsOf v 31 16, bitsOf v 255 128)), ckTrig := ((rsOf ss 8).map trigOf).head?,
               ckSlots := (rsOf ss 9).map slotOf, ckObjs := (rsOf ss 10).map objEnt, bistMode := bitsOf pol 5 4,
               bistPeriod := if bitsOf pol 31 16 = 0 then 24 else bitsOf pol 31 16 },
    keySlot := keySlot, dieKeys := dieKeys }

end Sys2Proof.Machine
end

