-- ==== Sys2Proof/Machine/NetCmds.lean ====
section
/-! DEFINITION. Commands of the network ports: identity exchange, Ualar packets and their acknowledgements, congestion, RoCEv2
notifications, link-level replay, port failure and takeover (R291 to R307). -/

set_option autoImplicit false

namespace Sys2Proof.Machine

/-! ## Identity exchange (R293, R294, R296) -/

/-- A field of an identity frame. -/
def idf (fr : BitVec 512) (lo n : Nat) : Nat := (fr.toNat / 2 ^ lo) % 2 ^ n

/-- Whether a frame is an identity frame with every reserved bit 0 (R293). -/
def idFrameOk (fr : BitVec 512) : Bool :=
  idf fr 0 16 = 0x4C49 && idf fr 16 8 = 1 && idf fr 25 7 = 0 && idf fr 119 9 = 0 && idf fr 151 1 = 0 && idf fr 168 8 = 0 &&
  idf fr 242 30 = 0 && idf fr 272 240 = 0 && idf fr 117 2 ≠ 3

/-- What a port reports of a neighbour that it does not take: SERIAL, DEVIDX, PORT, UMAJ and BUILD. R458 gives ALERT no such payload: DESIGN
CHOICE (log entry 111). -/
def reportOf (fr : BitVec 512) : Bytes :=
  leBytes 8 (idf fr 32 64) ++ leBytes 2 (idf fr 96 16) ++ leBytes 1 (idf fr 112 5) ++ leBytes 1 (idf fr 152 8) ++ leBytes 4 (idf fr 176 32)

/-- A port without an accepted neighbour. -/
def State.unaccept (s : State) (k : Nat) : State := s.setPort k { s.port k with accepted := false, confirmed := false }

/-- A port enters REFUSED or MISMATCH, which it reports on both management ports (R294, R458). -/
def State.badNeighbour (s : State) (k st : Nat) (fr : BitVec 512) : State :=
  if s.portState k = st then s else ((s.unaccept k).setPortState k st).alertWith 3 (reportOf fr)

/-- Records an accepted neighbour (R294, R322). -/
def State.acceptNeighbour (s : State) (k : Nat) (fr : BitVec 512) : State :=
  let s1 := ((((s.setPf k NET_PSTAT_PEERDEV (idf fr 96 16)).setPf k NET_PSTAT_PEERPORT (idf fr 112 5)).setPf k NET_PSTAT_PEERSUB
    (idf fr 117 2)).setPf k NET_PSTAT_PEERMAJ (idf fr 152 8)).setPf k NET_PSTAT_NEGMIN (Nat.min (idf fr 160 8) s.umin)
  let conf := idf fr 24 1 = 1
  let x := s.port k
  let s2 := s1.setPort k { x with accepted := true, confirmed := x.confirmed || decide conf,
                                  peerCaps := BitVec.ofNat 32 (idf fr 240 32) &&& BitVec.ofNat 32 ourCaps }
  s2.setPortState k (if (s2.port k).confirmed then psUP else psIDENT)

/-- The checks of R294 on an identity frame, in every state from IDENT on. A port that is UP answers; one whose neighbour no longer passes
carries no data: DEDUCED (log entry 111). -/
def State.identityIn (s : State) (k : Nat) (fr : BitVec 512) : State :=
  let st := s.portState k
  if !idFrameOk fr then s.bumpPerr k NET_PERR_DROPID 1
  else if st ≠ psUP ∧ st ≠ psIDENT ∧ st ≠ psNOIMG ∧ st ≠ psMISMATCH ∧ st ≠ psREFUSED then s
  else
    let s0 := s.setPort k { s.port k with peerSerial := BitVec.ofNat 64 (idf fr 32 64), peerBuild := idf fr 176 32 }
    if !s0.loaded then (s0.unaccept k).setPortState k psNOIMG
    else if idf fr 96 16 = 0xFFFF then (if st = psMISMATCH ∨ st = psREFUSED then s0 else (s0.unaccept k).setPortState k psIDENT)
    else if idf fr 152 8 ≠ s0.umaj then s0.badNeighbour k psREFUSED fr
    else match s0.expected k with
      | some c =>
        if idf fr 96 16 = c.ndev ∧ idf fr 112 5 = c.nport ∧ idf fr 117 2 = c.nsub ∧ idf fr 208 32 = s0.jobLo
        then
          let s1 := s0.acceptNeighbour k fr
          if st = psUP then s1.frameOut k (.identity (s1.identityOf k)) else s1
        else s0.badNeighbour k psMISMATCH fr
      | none => s0.badNeighbour k psMISMATCH fr

/-- IDENTITY_FRAME_SEND (R294): every 1 ms until the port leaves IDENT; a port without an accepted neighbour goes on. -/
def execIdentityFrameSend (p : PortId) (s : State) : Host.Outcome State Fault Refusal :=
  let k := portKey p
  let st := s.portState k
  .next (if st = psIDENT ∨ st = psNOIMG ∨ st = psMISMATCH ∨ st = psREFUSED then (if s.ndRuns k then s.emit (.identity p (s.identityOf k)) else s) else s)

/-- IDENTITY_FRAME_RECEIVE (R294). -/
def execIdentityFrameReceive (p : PortId) (fr : BitVec 512) (s : State) : Host.Outcome State Fault Refusal :=
  .next (if s.ndRuns (portKey p) then s.identityIn (portKey p) fr else s)

/-- PORT_LIGHT_RETURN (R296): a dark port, or one that takes another's place, trains. -/
def execPortLightReturn (p : PortId) (s : State) : Host.Outcome State Fault Refusal :=
  let k := portKey p
  let st := s.portState k
  .next (if s.ndRuns k ∧ (st = psDARK ∨ (st = psSPARE ∧ s.placeOfPort k ≠ k)) then s.setPortState k psTRAINING else s)

/-- Whether the image keeps a port as a spare that has taken no other's place (R320). -/
def State.idleSpare (s : State) (k : Nat) : Bool := (match s.portCfg k with
  | some c => c.use = 2
  | none => false) && s.placeOfPort k = k

/-- PORT_TRAINED (R294, R296): PMD training and RS-FEC lock are complete, and with them a retraining under way. The identity exchange starts
anew. -/
def execPortTrained (p : PortId) (s : State) : Host.Outcome State Fault Refusal :=
  let k := portKey p
  let s1 := s.setPort k { s.port k with accepted := false, confirmed := false, retraining := false }
  .next (if s.portState k ≠ psTRAINING ∨ !s.ndRuns k then s
    else if s.storagePort k then s1.setPortState k psUP
    else if s.idleSpare k then s1.setPortState k psSPARE
    else s1.setPortState k (if s.loaded then psIDENT else psNOIMG))

/-! ## Ualar packets (R301) -/

/-- Whether KIND is assigned in its class (R299, R361). -/
def kindOk (cls kind : Nat) : Bool :=
  if cls = 0 then kind = 0 else if cls = 1 then decide (kind ≤ 1) else if cls = 2 then decide (kind ≤ 3) else decide (kind ≤ 0x0D)

/-- The primary road captain of this module's pod. -/
def State.podPrimary (s : State) : List Nat :=
  ((s.captains.filter (fun c => c.2.2 = podOf s.devidx && c.1 = 0)).map (·.2.1))

/-- Where SYNC goes: to the primary captain of the pod, or from it to the other captains (R364, R365). -/
def State.syncTo (s : State) : List Nat :=
  if s.devidx ∈ s.podPrimary then (s.captains.map (·.2.1)).filter (· ≠ s.devidx) else s.podPrimary

/-- The peloton engine is told of an epoch or a step ahead: it asks for the declarations it lacks (R301, R365). -/
def State.askSync (s : State) : State :=
  s.pelSend 0x09 s.syncTo true (packWords 1 [(0, 32, s.epoch)])

/-- Bytes of a packet in a hold store. -/
def pktBytes (k : UalPkt) : Nat := 48 + 10 * k.words.length

/-- Delivers the packets that a stream holds, from the next expected one on; the first argument bounds them (R301). -/
def deliverHeld : Nat → Stream → Stream
  | 0, x => x
  | n + 1, x =>
    if x.held.any (fun p => p.h.seq.toNat = x.rxNext) then
      deliverHeld n { x with held := x.held.filter (fun p => p.h.seq.toNat ≠ x.rxNext), rxNext := x.rxNext + 1 }
    else x

/-- A delivered packet, where it carries a CHECK message (R299, R315). The other messages come in as commands of their own. -/
def State.checkMsg (s : State) (pkt : UalPkt) : State :=
  if pkt.h.cls = 1 ∧ pkt.h.kind = 1 then s.checkIn pkt.h.srcdev.toNat pkt.h.msg.toNat pkt.words else s

/-- The last three rows of R301, on a packet for this module and this step: duplicate, gap, delivery. -/
def State.inStream (s : State) (k : Nat) (pkt : UalPkt) : State :=
  let key := streamKey pkt.h.srcdev.toNat pkt.h.cls.toNat
  let ackKey := if pkt.h.cls = 2 ∧ pkt.h.kind = 0 then streamKey pkt.h.srcdev.toNat (pkt.h.msg.toNat % 4) else key
  let s1 := (s.ackStream ackKey pkt.h.ack.toNat)
  let s2 := if pkt.h.ece then s1.halveRate pkt.h.srcdev.toNat else s1
  let x0 := s2.stream key
  let x := { x0 with eceDue := x0.eceDue || pktCe pkt }
  let seq := pkt.h.seq.toNat
  if pkt.h.cls = 2 ∧ pkt.h.kind = 0 then s2.setStream key { x0 with eceDue := x.eceDue }
  else if seq < x.rxNext then ((s2.setStream key x).bumpD (ndWin (keyDie k)) UAL_RETX_DUP 1).sendAck key
  else if x.rxNext < seq then
    s2.setStream key (if x.held.any (fun p => p.h.seq = pkt.h.seq) then x else { x with held := x.held ++ [pkt] })
  else
    let y := deliverHeld x.held.length { x with rxNext := x.rxNext + 1, ackDue := true }
    let due := pkt :: (List.range (y.rxNext - x.rxNext - 1)).filterMap (fun i => x.held.find? (fun p => p.h.seq.toNat = x.rxNext + 1 + i))
    due.foldl State.checkMsg (s2.setStream key y)

/-- Whether the image enables PFC. -/
def State.pfcOn (s : State) : Bool := match s.img with
  | some im => im.pfc
  | none => false

/-- A hold store that has no room for another packet of the longest kind pauses the class of the packet that it took, where PFC is enabled:
priority 1 for bulk and 3 for collective, and no other (R300). The level at which it does so is a DESIGN CHOICE (log entry 110). -/
def State.pfcSend (s : State) (k cls used : Nat) : State :=
  let prio := if cls = 0 then 1 else 3
  if !s.pfcOn ∨ 2 ≤ cls ∨ used + 48 + 5120 ≤ 262144 ∨ (k, prio) ∈ s.net.paused then s
  else ({ s with net := { s.net with paused := s.net.paused ++ [(k, prio)] } } : State).frameOut k (.pfc prio true)

/-- The pauses that this module has sent end. -/
def State.pfcResume (s : State) : State :=
  s.net.paused.foldl (fun s p => s.frameOut p.1 (.pfc p.2 false)) { s with net := { s.net with paused := [] } }

/-- Whether a packet of the step in flight comes from the owner of a mirror that is BEHIND, and is no chunk of its tandem group: what a
catch-up replay sends beside the BCAST is discarded (R345). -/
def State.catchUpNoise (s : State) (h : UalHdr) : Bool := match s.img with
  | some im => im.resil.partners.any (fun p => p.2.1 = h.srcdev.toNat && mget 0 s.rep.mirrors p.1 = 1 &&
      !(h.cls = 1 && h.kind = 0 && h.stream.toNat = p.2.2))
  | none => false

/-- The checks of R301 in order, on a packet whose frame passes (R291, R297). A packet in transit leaves untagged. -/
def State.packetIn (s : State) (k : Nat) (pkt : UalPkt) : State :=
  let h := pkt.h
  let w := ndWin (keyDie k)
  let cur := s.stepNo.toNat
  let step := h.step.toNat
  let pel := h.cls.toNat = 3
  if !s.frameOk pkt.frame then s
  else if h.vmaj.toNat ≠ s.umaj ∨ !kindOk h.cls.toNat h.kind.toNat ∨ pkt.rsvd ∨ 512 < h.nwords.toNat ∨ pkt.lenBad ∨
      pkt.words.length ≠ h.nwords.toNat then s.bumpD w UAL_DROP_BAD 1
  else if !s.loaded ∨ h.job.toNat ≠ s.jobLo then s.bumpD w UAL_DROP_FOREIGN 1
  else if h.epoch.toNat < s.epoch then s.bumpD w UAL_DROP_OLDEP 1
  else if s.epoch < h.epoch.toNat ∧ ¬pel then (s.bumpD w UAL_DROP_NEWEP 1).askSync
  else if s.gate.catchUp ∧ ¬pel ∧ !(h.resend && decide (step = cur)) then s.bumpD w UAL_DROP_OLDEP 1
  else if ¬pel ∧ step = cur ∧ s.catchUpNoise h then s.bumpD w UAL_DROP_OLDEP 1
  else if ¬pel ∧ (step < cur ∨ (step = cur ∧ h.att.toNat < s.hd PEL_STATUS_ATT)) then s.bumpD w UAL_DROP_OLDEP 1
  else if h.dstdev.toNat ≠ s.devidx then
    match s.routePort h.srcdev.toNat h.dstdev.toNat h.cls.toNat with
    | some q => s.egress q { pkt with frame := { pkt.frame with tags := 0 } }
    | none => s.bumpD w UAL_DROP_FOREIGN 1
  else if step = cur + 1 then
    let used := ((s.net.hold.filter (fun p => keyDie p.1 = keyDie k)).map (fun p => pktBytes p.2)).sum
    if used + pktBytes pkt ≤ 262144 then
      ({ s with net := { s.net with hold := s.net.hold ++ [(k, pkt)] } } : State).pfcSend k h.cls.toNat (used + pktBytes pkt)
    else s
  else if ¬pel ∧ cur + 2 ≤ step then (s.bumpD w UAL_DROP_BAD 1).askSync
  else s.inStream k pkt

/-- Streams start again at 0 at a step entry, and the packets held for the step are taken (R301). -/
def State.streamsAtEntry (s : State) : State :=
  let due := s.net.hold
  let s1 : State := ({ s with net := { s.net with streams := [], hold := [], ctlWait := [] } } : State).pfcResume
  due.foldl (fun s p => s.packetIn p.1 p.2) s1

/-- UALAR_PACKET_RECEIVE (R301): on a port that is UP and carries Ualar (R304); a fenced module discards it (R373). -/
def execUalarPacketReceive (p : PortId) (k : UalPkt) (s : State) : Host.Outcome State Fault Refusal :=
  .next (if s.portState (portKey p) ≠ psUP ∨ !s.ndRuns (portKey p) ∨ s.portsFenced (portKey p) ∨ s.storagePort (portKey p) then s else s.packetIn (portKey p) k)

/-- UAL_ACK (R302). -/
def execUalAck (st : StreamId) (ack : BitVec 32) (s : State) : Host.Outcome State Fault Refusal :=
  .next (if s.fenced then s else s.ackStream (streamKey st.dev.toNat st.cls.toNat) ack.toNat)

/-- UAL_ACK_TIMER (R302): an acknowledgement that no reverse packet has carried within 5 us is sent by itself. -/
def execUalAckTimer (st : StreamId) (s : State) : Host.Outcome State Fault Refusal :=
  let key := streamKey st.dev.toNat st.cls.toNat
  .next (if (s.stream key).ackDue ∧ !s.fenced then s.sendAck key else s)

/-- Every unacknowledged packet of a stream is re-sent; one that has been re-sent RTRY times shows an unrecoverable link (R302). -/
def State.rtoExpiry (s : State) (key : Nat) : State :=
  let x := s.stream key
  if x.unacked = [] then s
  else if x.unacked.any (fun p => decide (s.d (ndWin 0) UAL_CFG_RTRY ≤ p.2.1)) then s.linkLost
  else
    let s1 := s.setStream key { x with unacked := x.unacked.map (fun p => (p.1, p.2.1 + 1, p.2.2)) }
    x.unacked.foldl (fun s p => s.resend p.2.2 none) s1

/-- UAL_RTO_EXPIRY (R302). -/
def execUalRtoExpiry (st : StreamId) (s : State) : Host.Outcome State Fault Refusal :=
  .next (if s.fenced then s else s.rtoExpiry (streamKey st.dev.toNat st.cls.toNat))

/-- ECN_ECHO (R303). -/
def execEcnEcho (dev : BitVec 16) (s : State) : Host.Outcome State Fault Refusal := .next (s.halveRate dev.toNat)

/-- ECN_RATE_RAISE (R303): every rate below the full one rises by 1/64 of the port rate. -/
def execEcnRateRaise (s : State) : Host.Outcome State Fault Refusal :=
  .next ((mkeys s.net.rates).foldl (fun s dev => s.setRate dev (raisedRate (s.rate dev))) s)

/-- ROCE_CNP (R304). -/
def execRoceCnp (nd : Fin 2) (qp : Fin 256) (s : State) : Host.Outcome State Fault Refusal :=
  let key := nd.val * 256 + qp.val
  let r := s.qpRate key
  .next { s with net := { s.net with qps := mset key (r.1, 2 * r.2, s.time) s.net.qps } }

/-- PFC_PAUSE (R300): honoured for priorities 1 and 3 when PFC is enabled; when a pause ends, what it kept back leaves. -/
def execPfcPause (p : PortId) (prio : Fin 8) (pause : Bool) (s : State) : Host.Outcome State Fault Refusal :=
  let k := portKey p
  .next (if !s.pfcOn ∨ s.portState k ≠ psUP ∨ !s.ndRuns k ∨ (prio.val ≠ 1 ∧ prio.val ≠ 3) then s
    else
      let x := s.port k
      let x1 := if prio.val = 1 then { x with pauseBulk := pause } else { x with pauseColl := pause }
      State.drainPort k x.queue.length (s.setPort k x1))

/-- NEIGHBOUR_SOLICITATION (R292): answered for the address of a port. -/
def execNeighbourSolicitation (p : PortId) (target : BitVec 128) (s : State) : Host.Outcome State Fault Refusal :=
  .next (match s.portAddr (portKey p) with
    | some a => if a = target ∧ s.ndRuns (portKey p) ∧ !s.portsFenced (portKey p) then s.frameOut (portKey p) (.advert a) else s
    | none => s)

/-! ## Link-level replay (R305, R306) -/

/-- A port takes a frame in sequence: every 16th is acknowledged (R305). -/
def State.llrTake (s : State) (p : PortId) (x : PortSt) : State :=
  let k := portKey p
  let x1 := { x with llrRx := (x.llrRx + 1) % 2 ^ 24, unackedRx := x.unackedRx + 1 }
  if x1.unackedRx < 16 then s.setPort k x1
  else (s.setPort k { x1 with unackedRx := 0 }).emit (.llr p x1.llrRx false)

/-- LLR_FRAME_RECEIVE (R305, R322): a good frame in sequence is accepted, every 16th acknowledged; else a replay is requested. -/
def execLlrFrameReceive (p : PortId) (fr : LlrFrame) (s : State) : Host.Outcome State Fault Refusal :=
  let k := portKey p
  let s1 := s.bumpPerr k NET_PERR_FECU fr.fecBad
  let x := s1.port k
  .next (if !s.ndRuns k then s
    else if s1.portState k ≠ psUP ∨ !s1.llrOn k then s1
    else if fr.ok && fr.seq.toNat = x.llrRx then s1.llrTake p x
    else (s1.setPort k { x with replayWanted := true }).emit (.llr p x.llrRx true))

/-- LLR_ACK_TIMER (R305): the acknowledgement due 2 us after the last one. -/
def execLlrAckTimer (p : PortId) (s : State) : Host.Outcome State Fault Refusal :=
  let k := portKey p
  let x := s.port k
  .next (if s.ndRuns k ∧ s.portState k = psUP ∧ s.llrOn k ∧ x.unackedRx ≠ 0
    then (s.setPort k { x with unackedRx := 0 }).emit (.llr p x.llrRx false) else s)

/-- Whether a frame carries a Ualar packet. -/
def PortFrame.isUal : PortFrame → Bool
  | .ual _ => true
  | _ => false

/-- The frames of a port's replay buffer are sent again, in order. -/
def State.replayFrames (s : State) (k : Nat) : State :=
  s.emits ((s.port k).llrBuf.map (fun f => f.2.numbered k f.1))

/-- LLR_ACK (R305): the frames before the next expected one leave the replay buffer; on a request for a replay the others are sent again
and stay in it; and what the full buffer kept back leaves. A fenced port replays what is no Ualar packet (R373). -/
def execLlrAck (p : PortId) (nextSeq : BitVec 24) (replay : Bool) (s : State) : Host.Outcome State Fault Refusal :=
  let k := portKey p
  let x := s.port k
  let behind := fun (q : Nat) => decide ((nextSeq.toNat + 2 ^ 24 - q) % 2 ^ 24 - 1 < 2 ^ 23 ∧ q ≠ nextSeq.toNat)
  .next (if s.ndRuns k ∧ s.portState k = psUP ∧ s.llrOn k then
      let s1 := s.setPort k { x with llrBuf := x.llrBuf.filter (fun f => !behind f.1) }
      State.drainPort k x.queue.length ((if replay then s1.replayFrames k else s1).sendFrames k)
    else s)

/-- A port failure enters the list of the last 24 hours (R306, R322). -/
def State.noteFail (s : State) (unit : Nat) : State :=
  { s with test := { s.test with fails := s.test.fails.filter (fun f => decide (s.tsec - f.2 ≤ daySecs)) ++ [(unit, s.tsec)] } }

/-- A port failure (R306): the port leaves UP and retrains once; a second one within 24 hours makes it lasting. -/
def State.portFails (s : State) (k : Nat) (unit cause : Nat) : State :=
  let r := (s.noteFail unit).fault24 ukPORT unit false
  let s1 := r.1.setPf k NET_PSTAT_CAUSE cause
  if r.2 then s1.retirePort k
  else
    let x := s1.port k
    ((s1.setPort k { x with retraining := true, replayWanted := false, accepted := false, confirmed := false }).setPortState k psTRAINING).bumpPerr k NET_PERR_RETRAIN 1

/-- LLR_REPLAY (R306): a frame delivered on its replay was a transient error, which is logged; a replay that fails is a port failure. -/
def execLlrReplay (p : PortId) (fr : LlrFrame) (s : State) : Host.Outcome State Fault Refusal :=
  let k := portKey p
  let x := s.port k
  .next (if s.portState k ≠ psUP ∨ !x.replayWanted ∨ !s.ndRuns k then s
    else if fr.ok && fr.seq.toNat = x.llrRx then
      let s1 := (s.llrTake p { x with replayWanted := false }).bumpPerr k NET_PERR_LLRTR 1
      { s1 with net := { s1.net with log := s1.net.log ++ [.replayed k fr.seq.toNat] } }
    else s.portFails k (portUnit p) 2)

/-- PORT_FAILURE (R306): of a port that is UP. CAUSE takes the codes 1 and 2 of R322. -/
def execPortFailure (p : PortId) (cause : BitVec 4) (s : State) : Host.Outcome State Fault Refusal :=
  .next (if s.ndRuns (portKey p) ∧ s.portState (portKey p) = psUP ∧ (cause = 1 ∨ cause = 2) then s.portFails (portKey p) (portUnit p) cause.toNat else s)

/-- PORT_RETRAIN_DONE (R306): a port that comes back had a transient failure, and goes on to the identity exchange (R296); else its failure
is lasting. -/
def execPortRetrainDone (p : PortId) (up : Bool) (s : State) : Host.Outcome State Fault Refusal :=
  let k := portKey p
  let x := s.port k
  .next (if !x.retraining ∨ !s.ndRuns k then s
    else
      let s1 := s.setPort k { x with retraining := false, accepted := false, confirmed := false }
      if up then s1.setPortState k (if s1.storagePort k then psUP else if s1.loaded then psIDENT else psNOIMG)
      else (s1.fault24 ukPORT (portUnit p) true).1.retirePort k)

/-- The ports whose spare the OCS has yet to connect: not prewired, and no light has come (R307). -/
def State.unconnected (s : State) : List (Nat × Nat) :=
  s.net.takeover.filter (fun t => s.portState t.2 = psSPARE && (match s.portCfg t.1 with
    | some c => !c.prewired
    | none => false))

/-- REPLACEMENT_ROUTES (R307): the entries apply at once, before those they replace. They come once the OCS has refused the spares that wait for
it, which are free again. With none, no path avoids the ports that wait, and their links are unrecoverable. -/
def execReplacementRoutes (rs : List RouteEntry) (s : State) : Host.Outcome State Fault Refusal :=
  .next (if !s.hdRuns then s else match s.img with
    | some im =>
      let open_ := s.unconnected
      let s1 : State := { s with img := some { im with routes := rs ++ im.routes },
                                 net := { s.net with nextWait := [], takeover := s.net.takeover.filter (fun t => t ∉ open_) } }
      if rs = [] then (s.net.nextWait ++ open_.map (·.1)).foldl (fun s _ => s.linkLost) s1 else s1
    | none => s)

end Sys2Proof.Machine
end

