-- ==== Sys2Proof/Machine/Gear.lean ====
section
/-! DEFINITION. Gear changes, role moves, the power-cap entry, and how a step is opened, rewound and entered again (R27, R141, R144,
R145, R216, R283 to R286, R318, R327, R342, R414, R462, R475, R483, R488). -/

set_option autoImplicit false

namespace Sys2Proof.Machine

/-! ## Role moves (R145, R414, R475) -/

/-- The physical row or column of an array that the spare-mapping table maps out (R67, R68, R84). -/
def State.mapped (s : State) (kind n a none' : Nat) : Nat :=
  match s.test.table.find? (fun e => e.kind = kind && e.state = seLASTING && e.unit % 2 ^ 13 = lineUnit n a 0) with
  | some e => e.unit / 2 ^ 13
  | none => none'

/-- ARR_REPAIRn of a site from the spare-mapping table (R84). -/
def State.setRepairs (s : State) (n : Nat) (c : Site) : Site :=
  (List.range 4).foldl (fun c a =>
    (c.set (ARR_REPAIR_FROW a) (s.mapped ukROW n a 31)).set (ARR_REPAIR_FCOL a) (s.mapped ukCOL n a 127)) c

/-- Whether a field goes with the role: those of the core, its channels, arrays and drains, apart from core.cycle, the arrays'
repair and status and flags, and of the counters PMC_SELi, IRQ and PMC_TAGCFG (R145, R475). -/
def goesAlong (key : Nat) : Bool :=
  let off := key / 64
  if off < 0xC000 then off ≠ CORE_CYCLE_CYCLE.off && !decide (0xA000 ≤ off ∧ off < 0xA100 ∧ (off % 0x40 = 4 ∨ off % 0x40 = 8)) &&
    !decide ((List.range 4).any (fun a => off = (ACC_FLAGS_FLAGS a).off))
  else decide (0xC080 ≤ off ∧ off < 0xC100) || key = PMC_CTL_IRQ.key || off = PMC_TAGCFG_EN.off

/-- A site with every fixed-latency operation in flight complete. -/
def Site.runDown (c : Site) : Site := (List.range 64).foldl (fun d i => Site.settle (c.active + i) d) c

/-- What of a site does not move with its role is left fresh. -/
def Site.leaveBehind (c : Site) : Site :=
  { c with regs := c.regs.filter (fun e => goesAlong e.1), arrs := [], recs := Mem.empty, drainQ := [], outTiles := [],
           tag := ⟨1, 0, []⟩ }

/-- The spill slots stay where they are (R114): in the region of each array with SEN set, the core store is that of the site `f`. -/
def Site.keepSpills (c f : Site) : Site :=
  { c with store := (List.range 4).foldl (fun m a =>
      if c.f (ACC_CFG_SEN a) = 1 then m.withRange f.store (0x20000 * c.f (ACC_CFG_SBASE a)) 0x20000 else m) c.store }

/-- A site as its role finds it on another site `f`: weight buffers, accumulators, spill slots, records and counters start afresh. The norm
and count partials go along, so that CHECK sums them as without the move. -/
def Site.moved (c f : Site) : Site :=
  let n := c.runDown.leaveBehind.keepSpills f
  if n.f PMC_TAGCFG_EN = 1 then n.tagStart else n

/-- The site that a role has left: stopped, its open tag records ended (R475). -/
def Site.vacated (c : Site) : Site :=
  let c1 := { c with role := none, dmas := [] }.abortTags
  { c1 with shadow := [], tableShadow := [] }.set CORE_STATE_STATE 0

/-- A role moves to another site of its die. -/
def State.moveRole (s : State) (n f : Nat) : State :=
  match (s.site n).role with
  | none => s
  | some r =>
    let s1 := (s.setSite f (s.setRepairs f ((s.site n).moved (s.site f)))).setSite n (s.site n).vacated
    { s1 with roleSite := mset r f s1.roleSite }

/-- Whether a role must leave its site: the site is LASTING, or its slice is due and it has not been tested in the visit. -/
def State.mustMove (s : State) (n : Nat) : Bool :=
  s.siteBad n || (match s.test.visit with
    | some v => n ∈ v.todo
    | none => false)

/-- Sites of the same die below one whose role waits for a free site too: the roles move in increasing site order (R414). -/
def State.movesBefore (s : State) (n : Nat) : Nat :=
  ((List.range (n % 104)).filter (fun i => (s.site (n / 104 * 104 + i)).role.isSome && s.mustMove (n / 104 * 104 + i))).length

/-- Moves the role of a site to the lowest free site of its die, if one is free beside those that lower sites wait for; the second result is
the role's site after it. -/
def State.tryMove (s : State) (n : Nat) : State × Nat :=
  if !s.mustMove n ∨ (s.freeSites (n / 104)).length ≤ s.movesBefore n then (s, n)
  else match s.freeSites (n / 104) with
    | [] => (s, n)
    | f :: _ => (if s.siteBad n then s.moveRole n f else (s.moveRole n f).bumpHd BIST_STATUS_MOVES 1, f)

/-! ## Pending values at a core gear change (R198, R283 to R286) -/

/-- Keys of tables in the step record. -/
def tableKey (t : Nat) : Nat := 2 ^ 40 + t

/-- The pending values of a site, tables as the number of their bytes. -/
def Site.pendList (c : Site) : List (Nat × Nat) := c.shadow ++ c.tableShadow.map (fun e => (tableKey e.1, leNat e.2.bytes))

/-- The value in effect of a field or table; 0 for a table not defined. -/
def Site.current (c : Site) (key : Nat) : Nat :=
  if 2 ^ 40 ≤ key then (match mfind c.tables (key - 2 ^ 40) with
    | some t => leNat t.bytes
    | none => 0)
  else match siteFieldAt key with
    | some x => c.f x
    | none => 0

/-- A field or table takes a value. A table is only ever replaced (R224): with 0, which stands for no table, it stays. -/
def Site.takeValue (c : Site) (key v : Nat) : Site :=
  if 2 ^ 40 ≤ key then (if v = 0 then c else { c with tables := mset (key - 2 ^ 40) (tableOf (leBytes 1344 v)) c.tables })
  else c.applyKey key v

/-- Pending values at gear point `o` of a role (R286): a replay takes the recorded values as long as some are recorded at this or a
later ordinal; else what is pending takes effect and enters the step record. -/
def State.gearValues (s : State) (n role o : Nat) : State :=
  let c := s.site n
  let recd := s.gate.gearRec.filter (fun e => e.1 = role)
  let more := s.gate.replay && recd.any (fun e => decide (o ≤ e.2.1))
  let vals := if more then (recd.filter (fun e => e.2.1 = o)).map (fun e => e.2.2) else c.pendList
  let olds := (vals.filter (fun v => !s.gate.gearOld.any (fun g => g.1 = role && g.2.1 = v.1))).map (fun v => (role, v.1, c.current v.1))
  let s1 : State := { s with gate := { s.gate with gearOld := s.gate.gearOld ++ olds } }
  let s2 := s1.onSite n (fun c =>
    let c1 := vals.foldl (fun c v => c.takeValue v.1 v.2) c
    if more then c1 else { c1 with shadow := [], tableShadow := [] })
  if more then s2 else vals.foldl (fun s v => s.recordEntry s.stepNo (.gear role o v.1 v.2)) s2

/-- A rewind returns what core gear changes of the attempt had set, and notes the values recorded for the replay (R286). -/
def State.ungear (s : State) : State :=
  let s1 := s.gate.gearOld.foldl (fun s g => match s.siteOf g.1 with
    | some n => s.onSite n (fun c => c.takeValue g.2.1 g.2.2)
    | none => s) s
  let recd := (s1.entriesOf s1.stepNo).filterMap (fun e => match e with
    | .gear r o k v => some (r, o, k, v)
    | _ => none)
  { s1 with gate := { s1.gate with gearOld := [], gearRec := recd } }

/-- The F32 code of 2^e, e from -128 to 127. -/
def pow2Code (e : Int) : Nat := if -126 ≤ e then (e + 127).toNat * 2 ^ 23 else 2 ^ (149 + e).toNat

/-- A signed 8-bit field. -/
def int8 (v : Nat) : Int := if v < 128 then v else (v : Int) - 256

/-! ## The power-cap entry (R462, R483, R488) -/

/-- Firmware selects an entry and lifts the emergency throttle. -/
def State.powerSelect (s : State) : State :=
  let t := s.hd PWR_TARGET_TARGET
  let therm := s.pwr.hot || s.pwr.rise
  let s0 := s.setHd THM_STATUS_THERM (if therm then 1 else 0)
  match s.img with
  | some im => match im.caps with
    | none => (s0.setHd PWR_STATUS_LIMITLOW (if t = 0 then 0 else 1)).setHd PWR_STATUS_EMERG 0
    | some (d, es) =>
      let last := es.length - 1
      let pick := (es.zipIdx.find? (fun e => decide (d ≤ e.2) && (t = 0 || decide (e.1.limit ≤ t)))).map (·.2)
      let base := pick.getD last
      let a := if therm then base + 1 else base
      let b := if s.hd PWR_STATUS_EMERG = 1 then Nat.max a (s.hd PWR_STATUS_ENTRY + 1) else a
      ((s0.setHd PWR_STATUS_ENTRY (Nat.min b last)).setHd PWR_STATUS_LIMITLOW (if pick.isNone then 1 else 0)).setHd PWR_STATUS_EMERG 0
  | none => s0

/-! ## The module gear change (R283, R284, R389, R414) -/

/-- At a visit of slice 31 the work of a control core goes to the spare one, where it is free, and the core freed is to be tested where an entry
of the visit's package is for control cores (R414). -/
def State.ctlMove (s : State) : State := match s.test.visit with
  | some v =>
    if v.slice = 31 ∧ !v.ctlMoved ∧ s.badCtl = 0 then
      { s with test := { s.test with ctlCore := v.no % 5, ctlTest := if v.testsCtl then some (v.no % 5) else none, visit := some { v with ctlMoved := true } } }
    else s
  | none => s

/-- Every pending value of the module takes effect together; firmware selects the power-cap entry, and the snapshot engines arm. -/
def State.moduleGear (s : State) : State :=
  let s1 := (s.onLive Site.applyShadow).applyDieShadow
  let s2 := s1.setHd FRM_PEND_GEARS (s1.hd FRM_PEND_GEARS + 1)
  (s2.powerSelect.ckArm).ctlMove

/-- Roles that move at a step boundary: those on LASTING sites, and at the third boundary after the slice fell due those that wait.
A site for which no site is free, while none of its die is still under test, is skipped. -/
def State.boundaryMoves (s : State) : State :=
  let s1 : State := match s.test.visit with
    | some v => { s with test := { s.test with visit := some { v with boundaries := v.boundaries + 1 } } }
    | none => s
  let forced := match s1.test.visit with
    | some v => decide (3 ≤ v.boundaries)
    | none => false
  State.closeVisit ((List.range 832).foldl (fun s n =>
    if (s.site n).role.isNone ∨ !s.mustMove n ∨ (!forced ∧ !s.siteBad n) then s
    else
      let r := s.tryMove n
      if r.2 ≠ n then r.1
      else match s.test.visit with
        | some v =>
          if n ∈ v.todo ∧ !(v.testing ++ v.todo).any (fun m => decide (m / 104 = n / 104) && (s.site m).role.isNone) then
            ({ s with test := { s.test with visit := some { v with todo := v.todo.filter (· ≠ n) } } }).bumpHd BIST_STATUS_SKIP 1
          else s
        | none => s) s1)

/-! ## Proposals (R364, R368) -/

/-- HALT to every module (R371). -/
def State.sendHalt (s : State) (cause : Nat) : State := s.pelSend 0x0C s.slice true (packWords 1 [(0, 8, cause)])

/-- PROPOSE to every member of the captain set, on both management planes. -/
def State.sendPropose (s : State) (p : Proposal) : State :=
  let caps : List Nat := s.captains.map (fun c => c.2.1)
  ({ s with pel := { s.pel with proposal := some p } } : State).pelSend 0x04 caps false
    (packWords 1 [(0, 32, p.newEp), (32, 16, p.subj), (48, 8, p.cause)])

/-- A captain proposes a declaration; one that would pass the last epoch halts the job instead. A proposal under way is finished first. -/
def State.propose (s : State) (subj cause : Nat) : State :=
  if s.declared subj then s
  else if s.epoch = 2 ^ 32 - 1 then (if s.isLead then s.sendHalt 0x0B else s.reportFault 0x0B noBlame 0 false)
  else match s.pel.proposal with
    | some p => if p.subj = subj then s else { s with pel := { s.pel with wish := linsert (subj, cause) s.pel.wish } }
    | none => s.sendPropose ⟨s.epoch + 1, subj, cause, []⟩

/-! ## Opening a step -/

/-- Folded contributions of the step before whose bucket was not posted again with the same length are dropped, which is logged (R318). -/
def State.dropFolds (s : State) : State :=
  let m := s.stepNo.toNat
  let gone := s.col.foldIn.filter (fun f => f.1 + 1 = m && (f.2.1, f.2.2.1, f.2.2.2.2) ∉ s.col.seen)
  let s1 := gone.foldl (fun s f => s.brm (2, f.2.1, f.2.2.2.1, f.2.2.1)) s
  { s1 with col := { s1.col with foldIn := s1.col.foldIn.filter (fun f => decide (m ≤ f.1)) } }

/-- The engines start the step afresh: no collective in flight, no partials, no digests, streams from 0 (R217, R301, R314, R335). -/
def State.freshEngines (s : State) : State :=
  let s1 := s.onLive (fun c => { c with dmas := c.dmas.filter (fun d => match d.kind with
    | .collective _ _ => false
    | _ => true) })
  let s2 : State := { s1 with col := { s1.col with colls := [], seen := [], qb := [], ready := [], cutoffs := [], decisions := [], bcasts := [] },
                              rep := { s1.rep with ownDigest := none, mirrorDigests := [], digestReady := false, check := CheckSt.reset } }
  let w := ndWin 0
  (((s2.showParts.showInflight).setD w COL_STATUS_DONE 0).setD w BRM_STATUS_LATE 0).streamsAtEntry

/-- The marks, pages and roles of a step that is to be entered. -/
def State.dueAll (s : State) (step : BitVec 64) (replay : Bool) : State :=
  { s with gate := { s.gate with step := step, replay := replay, resuming := false, stopped := false, marks := [], pages := [],
                                 due := s.liveRoles } }

/-- The gate enters RUN in FWD (R25, R219, R319). -/
def State.enterRun (s : State) : State := (((s.setGate gRUN).setPhase 1).armTimer 1).trySlice

/-- ATT of the last REWIND or DECLARE for a boundary, or 0 (R369). -/
def State.attOf (s : State) (b : Nat) : Nat := match s.pel.rewinds.find? (fun r => r.1 = b) with
  | some r => r.2
  | none => 0

/-- A site whose channels have overrun (R213). -/
def State.overrunSite (s : State) : Option Nat := s.liveSites.find? (fun n => (s.site n).chans.any (fun e => e.2.ovr))

/-- A channel overrun found at a gear point halts the job and is reported as a program error (R213). -/
def State.haltOverrun (s : State) (n : Nat) : State :=
  ((s.notify 0x03 (s.site n).programArg).haltJob 0x09).reportFault 0x09 noBlame 0 false

/-- The step that opens (R219, R283): a module gear change. -/
def State.openStepNow (s : State) (step : BitVec 64) : State :=
  let s1 := (s.dropFolds.dueAll step false)
  let s2 : State := { s1 with gate := { s1.gate with gearOld := [], gearRec := [] } }
  let s3 := ((s2.setHd PEL_CGSTATE_ATTEMPT 0).setHd PEL_STATUS_ATT (s.attOf step.toNat)).freshEngines
  s3.boundaryMoves.moduleGear.enterRun

/-- A new step opens, unless a channel has overrun: its step entry is the gear point at which that halts the job (R144, R213). -/
def State.openStep (s : State) (step : BitVec 64) : State := match s.overrunSite with
  | some n => s.haltOverrun n
  | none => s.openStepNow step

/-- Entries of the step that some partner has not acknowledged leave the record at a rewind (R286). The entries of the step are the
newest ones. -/
def State.dropUnacked (s : State) : State :=
  let es := s.entriesOf s.stepNo
  let base := s.rep.nextEntry - es.length
  let keep := ((es.zipIdx base).filter (fun e => !s.rep.unacked.any (fun u => u.1 = e.2))).map (·.1)
  { s with rep := { s.rep with recs := s.rep.recs.map (fun r => if r.1 = s.stepNo then (r.1, keep) else r), unacked := [] } }

/-- The module rewinds to the boundary of the step in flight (R28, R286, R327, R342): the cores stop with REWIND, and the step is to be
entered again with REPLAY. Nothing is undone in COMMIT or DONE (R30), and a skipped step counts as checked (R220). -/
def State.rewind (s : State) : State :=
  if s.gateState = gCOMMIT then s.commitStop
  else if s.gateState = gDONE ∨ s.gateState = gSKIP ∨ s.gateState = gIDLE ∨ s.gateState = gHALT then s
  else
    let s1 := ((s.stopAll 1).dropUnacked.ungear).panDiscard (fun t => decide (s.stepNo.toNat ≤ t.toNat))
    let s2 : State := { s1 with col := { s1.col with foldIn := s1.col.foldIn.filter (fun f => decide (f.1 < s.stepNo.toNat)) } }
    ((s2.dueAll s.stepNo true).freshEngines).setGate gREWIND

/-- What the replay or the resumption of COMMIT waits for: restored pages, repaired copies, the referee, the recovery (R339, R340,
R342, R343). -/
def State.restored (s : State) : Bool :=
  s.rep.poison = [] && s.rep.losing = [] && s.rep.verdictWait = [] && s.rep.tier2 = [] && !s.rep.tier3

end Sys2Proof.Machine
end

