-- ==== Sys2Proof/Machine/Job.lean ====
section
/-! DEFINITION. The host message layer's answers, the meter link, and a job's admission and release as shared operations (R280, R374,
R387, R400, R440 to R445, R451, R452, R457, R463 to R465). -/

set_option autoImplicit false

namespace Sys2Proof.Machine

/-! ## Requests and responses (R451, R452, R458) -/

/-- STATUS codes of a response (R451). -/
def rsOK : Nat := 0
def rsREJECTED : Nat := 1
def rsREFUSED : Nat := 2
def rsBADMSG : Nat := 3

/-- Answers a request. -/
def State.answer (s : State) (h : HostHdr) (status code : Nat) (arg0 : BitVec 64) (payload : Bytes) : State :=
  s.emit (.hostRsp h.via h.typ h.tag status code arg0 payload)

/-- One of the codes of R288 that stand for a rejection, by a number. -/
def rejectCode (n : Nat) : Nat := if n % 25 < 5 then n % 25 + 1 else n % 25 + 11

/-- Answers REJECTED with a CODE that no rule states: a free value, which is none of the codes that R288 reserves (log entry 58). -/
def State.answerFree (s : State) (h : HostHdr) : State := (s.answer h rsREJECTED (rejectCode (Config.freeNat s.free)) 0 []).skipFree

/-- The port that a request came on is up: the host link, or bit 0 of a management plane's state in MGT_STATUS. -/
def State.viaUp (s : State) (v : Via) : Bool := match v with
  | .hx => s.host.hxUp
  | .mgtA => bitOf (s.hd MGT_STATUS_PLA) 0
  | .mgtB => bitOf (s.hd MGT_STATUS_PLB) 0

/-- A message that a management port discards is counted (R466). -/
def State.mgtDiscard (s : State) (v : Via) : State := match v with
  | .hx => s
  | .mgtA => s.bumpHd MGT_CNT_DROPA 1
  | .mgtB => s.bumpHd MGT_CNT_DROPB 1

/-- Payload bytes of the longest message: 65,536, and 8,192 on a management port (R451, R457). -/
def payloadMax (v : Via) : Nat := match v with
  | .hx => 65536
  | _ => 8192

/-- Whether a TYPE allows a PLEN (R452): REGWR has a mask of 8 bytes, ATTEST a nonce of 32, SIGNREQ, TCINSTALL and FWINSTALL as many bytes as
come, every other request none. -/
def plenOk (typ n : Nat) : Bool :=
  if typ = 0x02 then n = 8 else if typ = 0x08 then n = 32 else typ = 0x07 || typ = 0x09 || typ = 0x0A || n = 0

/-- Whether a request is answered BADMSG where the message of a TYPE is taken (R452): another TYPE, a reserved bit, a PLEN that is not
allowed. -/
def hdrBad (h : HostHdr) (typ : Nat) : Bool :=
  h.typ.toNat ≠ typ || h.rsvd || !plenOk typ h.plen.toNat || decide (payloadMax h.via < h.plen.toNat)

/-- A request of the host message layer, of a TYPE. A bad one, or one that a management port does not take, is answered BADMSG; one of the job
runtime beyond the 64th is REFUSED. In recovery the management ports answer only what `recov` allows (R430) and discard the rest. A message
marked as a response answers nothing here, and is discarded: DESIGN CHOICE (log entry 128). -/
def State.request (s : State) (h : HostHdr) (typ : Nat) (mgt recov : Bool) (f : State → State) : State :=
  if !s.hdRuns ∨ !s.viaUp h.via then s
  else if (s.hd SEC_STATUS_RECOV = 1 ∧ !recov) ∨ h.rsp then s.mgtDiscard h.via
  else if hdrBad h typ || (h.via ≠ .hx && !mgt) then (s.bumpHd UCI_MSG_BAD 1).answer h rsBADMSG 0 0 []
  else if h.via = .hx ∧ 64 ≤ s.host.outstanding then s.answer h rsREFUSED 4 0 []
  else f s

/-- A request of the job runtime stays outstanding. -/
def State.holdRequest (s : State) : State := { s with host := { s.host with outstanding := s.host.outstanding + 1 } }

/-- The answer to a request that was outstanding. -/
def State.answerHeld (s : State) (via : Via) (typ : BitVec 8) (tag : BitVec 16) (status code : Nat) (payload : Bytes) : State :=
  ({ s with host := { s.host with outstanding := s.host.outstanding - 1 } }).emit (.hostRsp via typ tag status code 0 payload)

/-! ## The messages as bytes, and the flits of the host link (R450, R451) -/

/-- A message of the host message layer: the header of R451 and the payload. -/
def messageBytes (typ : Nat) (rsp : Bool) (tag : BitVec 16) (status code : Nat) (arg0 arg1 : BitVec 64) (payload : Bytes) : Bytes :=
  leBytes 1 typ ++ leBytes 1 (if rsp then 1 else 0) ++ leBytes 2 tag.toNat ++ leBytes 1 status ++ leBytes 1 code ++ leBytes 2 0 ++
  leBytes 4 payload.length ++ leBytes 4 0 ++ leBytes 8 arg0.toNat ++ leBytes 8 arg1.toNat ++ payload

/-- The bytes of a message that leaves on the host link or a management port. The TAG of one that this module originates, and of an answer
to a message of R458, is an operand (log entry 58). -/
def Out.message (tag : BitVec 16) (o : Out) : Option Bytes := match o with
  | .hostRsp _ typ tag status code arg0 payload => some (messageBytes typ.toNat true tag status code arg0 0 payload)
  | .notify ev arg1 => some (messageBytes 0x40 false tag 0 0 (BitVec.ofNat 64 ev) arg1 [])
  | .mgt typ arg0 arg1 _ payload _ => some (messageBytes typ false tag 0 0 arg0 arg1 payload)
  | .mgtRsp typ status code _ _ => some (messageBytes typ true tag status code 0 0 [])
  | _ => none

/-- Whether a message leaves on the host link. -/
def Out.onHostLink : Out → Bool
  | .hostRsp via _ _ _ _ _ _ => decide (via = .hx)
  | .notify _ _ => true
  | _ => false

/-- Bytes cut into the data of flits, 192 bytes each, the last filled with zeros. -/
def flitsOf : Nat → Bytes → List Bytes
  | 0, _ => []
  | _ + 1, [] => []
  | n + 1, b => (b.take 192 ++ List.replicate (192 - b.length) 0) :: flitsOf n (b.drop 192)

/-- The data of the flits for the host die, oldest first: each message begins a flit, and the TAG of a NOTIFY is a free value (DESIGN
CHOICE, log entry 58). -/
def State.hostFlits (s : State) : List Bytes :=
  ((s.out.filter Out.onHostLink).reverse.zipIdx.filterMap (fun o => Out.message (BitVec.ofNat 16 (Config.freeNat o.2)) o.1)).flatMap
    (fun b => flitsOf (b.length + 1) b)

/-- The flits that have left since the link came up and that the other end has not acknowledged: this end keeps them for replay, 64 at the
most (R450). -/
def State.hostUnacked (s : State) : Nat := (s.host.txSent + 2 ^ 16 - s.host.peerAck % 2 ^ 16) % 2 ^ 16

/-- Flit i since the link came up, as it leaves: its 24 words, with the acknowledgement in force. -/
def State.hostFlit (s : State) (i : Nat) : List Out := match s.hostFlits[s.host.txBase + i]? with
  | some b => [.hostFlit (i % 2 ^ 16) s.host.rxSeq ((List.range 24).map (fun j => mkCode (BitVec.ofNat 64 (leNat ((b.drop (8 * j)).take 8))) false))]
  | none => []

/-- The kept flits are sent again. -/
def State.replayFlits (s : State) : State :=
  let n := s.hostUnacked
  if s.host.txSent < n then s else s.emits ((List.range n).flatMap (fun j => s.hostFlit (s.host.txSent - n + j)))

/-- The host link carries what waits, as far as this end can keep it and the credits of the other end reach: they bound the flits that are
not acknowledged. What a credit is the rule does not say: DESIGN CHOICE (log entry 58). -/
def State.sendFlits (s : State) : State :=
  let wait := s.hostFlits.length - s.host.txBase - s.host.txSent
  let k := Nat.min wait (Nat.min 64 s.host.credits - s.hostUnacked)
  if !s.hdRuns ∨ !s.host.hxUp ∨ (List.range 4).all (fun m => decide (2 ≤ mget 0 s.host.links m)) then s
  else
    let s1 := s.emits ((List.range k).flatMap (fun j => s.hostFlit (s.host.txSent + j)))
    { s1 with host := { s1.host with txSent := s1.host.txSent + k } }

/-! ## IDENT (R457) -/

/-- STATE of IDENT. -/
def State.identState (s : State) : Nat :=
  if s.hd SEC_STATUS_RECOV = 1 then 1
  else if s.host.shut then 8
  else if s.host.stage < 10 then 0
  else if s.fenced then 5
  else if s.host.halted then 6
  else if s.host.admitted then 4
  else if s.loaded then 3
  else if s.unfit then 7
  else 2

/-- SVN of the running firmware (R459). -/
def State.fwSvn (s : State) : Nat := numAt s.firmware 8 4

/-- The IDENT payload. -/
def State.identPayload (s : State) (st : Nat) : Bytes :=
  [0x4B, 0x59, 0x2D, 0x54, 0x4D, 0x31, 0x37, 0x32, 0x38, 0x2D, 0x4C, 0x43, 0, 0, 0, 0] ++ leBytes 2 0xA1 ++ leBytes 1 st ++ leBytes 1 0 ++
  leBytes 8 s.serial.toNat ++ leBytes 4 s.fwSvn ++ leBytes 4 s.fwBuild ++ leBytes 1 s.umaj ++ leBytes 1 s.umin ++ leBytes 2 s.devidx ++
  leBytes 4 s.jobLo ++
  leBytes 1 ((if s.degraded then 1 else 0) + (if s.unfit then 2 else 0) + (if (s.keySlot 14).state = 1 then 4 else 0)) ++ leBytes 19 0

/-! ## The meter (R441 to R445) -/

/-- Whether the serial link to the meter is up. -/
def State.meterUp (s : State) : Bool := s.hd MTR_STATUS_LINK = 1

/-- The energy counter in mWh, and the meter seconds. -/
def State.mwh (s : State) : Nat := s.mtr.energy / 360 % 2 ^ 64
def State.meterSecs (s : State) : Nat := s.time / 40000 % 2 ^ 32

/-- The state that READ returns: 0 READY, 1 OPEN, 2 FAULT. -/
def Meter.state (m : Meter) : Nat := if !m.selfOk || !m.inRange then 2 else if m.job.isSome then 1 else 0

/-- The identity key of the meter of a serial, and its certificate, as it came from manufacture (R441): free values (log entry 128). -/
def meterKey (serial : BitVec 64) : DevKey :=
  let d := Config.meterSecret serial
  let p := (ptMul 521 d ptG).getD (0, 0)
  ⟨d, p.1, p.2, Config.meterCert serial, 0⟩

/-- A record of the job open in the meter (R444). The per-signature number is a free value (log entry 5). -/
def State.meterRecord (s : State) (j : MeterJob) (step1 : BitVec 64) (e1 t1 : Nat) (interrupted late : Bool) : Bytes :=
  let fl := (if interrupted then 1 else 0) + (if j.range then 2 else 0) + (if s.mtr.sealBroken then 4 else 0) + (if late then 8 else 0)
  let b := leBytes 4 0x524D5747 ++ leBytes 1 1 ++ leBytes 1 fl ++ leBytes 2 0 ++ leBytes 8 s.mtr.serial.toNat ++ leBytes 4 s.mtr.nextSeq ++
    leBytes 4 0 ++ leBytes 8 j.jobid.toNat ++ leBytes 8 j.step0.toNat ++ leBytes 8 step1.toNat ++ leBytes 8 j.e0 ++ leBytes 8 e1 ++ leBytes 4 j.t0 ++
    leBytes 4 t1 ++ leBytes 8 s.serial.toNat
  let g := match s.mtr.key with
    | some k => k
    | none => meterKey s.mtr.serial
  let r := ecdsaSign g.secret (Config.meterNonce s.free) b
  b ++ (keyId g.x g.y ++ leBytes 66 r.1 ++ leBytes 66 r.2) ++ leBytes 12 0

/-- The meter closes its job and stores the record; it keeps the last 1,024. -/
def State.meterClose (s : State) (step1 : BitVec 64) (e1 t1 : Nat) (interrupted late : Bool) : State := match s.mtr.job with
  | none => s
  | some j =>
    let m := s.mtr
    let r : MeterRec := ⟨m.nextSeq, s.meterRecord j step1 e1 t1 interrupted late⟩
    let l := m.recs ++ [r]
    let s1 : State := { s with mtr := { m with recs := l.drop (l.length - 1024), nextSeq := (m.nextSeq + 1) % 2 ^ 32, job := none, lost := none } }
    s1.skipFree

/-- JOBSTOP goes to the meter at release, or once the link returns (R443). -/
def State.sendJobStop (s : State) (step1 : BitVec 64) (late : Bool) : State :=
  if s.meterUp then s.emit (.meter 2 step1 (if late then 1 else 0))
  else { s with mtr := { s.mtr with pendingStop := some step1 } }

/-! ## Admission (R387, R463, R464) -/

/-- Whether every ACTIVE port is UP (R295). -/
def State.portsReady (s : State) : Bool := match s.img with
  | some im => (im.ports.filter (fun p => p.use = 1)).all (fun p => s.portState (s.carrier (4 * p.port + p.sub)) = psUP)
  | none => false

/-- Whether the last READ of the meter returned READY within the last 100 ms on a link that is up (R443). -/
def State.meterReady (s : State) : Bool := s.meterUp && s.mtr.readOk && decide (s.time - s.mtr.readTime ≤ 100 * msUnits)

/-- Whether the module may not take its place: released from fencing it has not passed the full test since, or it was fenced in this place of
this job (R374). -/
def State.barredHere (s : State) : Bool := s.test.mustTest || decide ((s.jobId, s.devidx) ∈ s.test.barred)

/-- The REASON on which an admission is refused, 0 when it is not. That R374 counts as the module being UNFIT is a DESIGN CHOICE (log entry
131). -/
def State.admitReason (s : State) : Nat :=
  if !s.portsReady then 2 else if !s.meterReady then 3 else if s.unfit || s.barredHere then 4 else if s.host.admitted then 6 else 0

/-- The stated checkpoint interval (R386, R464): CKKIND, CKSTEPS, CKSECS. -/
def Image.interval (im : Image) : Nat × Nat × Nat := match im.resil.ckTrig with
  | none => (0, 0, 0)
  | some t =>
    let us := im.tfb + im.tred + im.tchk + im.tcom
    ((if t.steps ≠ 0 then 1 else 0) + (if t.secs ≠ 0 then 2 else 0), t.steps, if t.secs = 0 then 0 else t.secs + (us + 999999) / 1000000)

/-- The admission response. -/
def State.admitPayload (s : State) (result reason step0 : Nat) : Bytes := match s.img with
  | some im =>
    let k := im.interval
    leBytes 1 result ++ leBytes 1 reason ++ leBytes 1 im.tdeg ++ leBytes 1 k.1 ++ leBytes 4 k.2.1 ++ leBytes 4 k.2.2 ++
      leBytes 2 (if s.hasCaptains then 30 else 0) ++ leBytes 2 600 ++ leBytes 1 2 ++ leBytes 1 0 ++ leBytes 2 im.slicen ++ leBytes 4 1 ++
      leBytes 8 step0 ++ leBytes 32 0
  | none => leBytes 1 result ++ leBytes 1 reason ++ leBytes 62 0

/-- Refuses the admission in progress with a REASON. -/
def State.refuseAdmission (s : State) (code reason : Nat) : State := match s.host.admission with
  | some a =>
    ({ s with host := { s.host with admission := none } }).answerHeld .hx 0x04 a.tag rsREFUSED code (s.admitPayload 1 reason a.step0.toNat)
  | none => s

/-- The lead captain reads the slots of every place (R399). -/
def State.queryAll (s : State) : State :=
  ({ s with ckp := { s.ckp with slots := [] } }).ckOrderAll 6 0 0 0 0

/-- The job is admitted with its first step (R463): epoch 1, JOBSTART, the gate from IDLE to RUN, the response, the step entries due. After
a restore the loss scale and the clean count are the manifest's, and the entries have REPLAY set (R400). -/
def State.admitNow (s : State) (step0 : BitVec 64) (restored : Bool) : State := match s.host.admission with
  | none => s
  | some a =>
    let s1 := (((s.setHd PEL_STATUS_EPOCH 1).setHd PEL_STATUS_STATE 1).setHd PEL_STATUS_ATT 0).emit (.meter 1 (BitVec.ofNat 64 s.jobId) step0)
    let s2 := if restored then s1
      else (s1.setHd PEL_CGLS_LSCALE (pow2Code (int8 (s.hd PEL_CGLS_LSINIT)))).setHd PEL_CGSTATE_CLEAN 0
    let s3 := s2.openStep step0
    let s4 : State := { s3 with gate := { s3.gate with replay := restored },
                                host := { s3.host with admission := none, admitted := true, ready := [] },
                                pel := { s3.pel with hbseq := 0, heard := [], rewinds := [], given := [], adopted := [], outSince := none },
                                ckp := { s3.ckp with lead := some (step0.toNat, s.time) } }
    s4.answerHeld .hx 0x04 a.tag rsOK 0 (s.admitPayload 0 0 step0.toNat)

/-- This module's mirror on each of its partners shows a state (R334, R352). -/
def State.mirrorsAt (s : State) (v : Nat) : State := match s.img with
  | some im => im.resil.partners.foldl (fun s p => s.setHd (if p.1 = 0 then TDM_STATUS_M0 else TDM_STATUS_M1) v) s
  | none => s

/-- This module's mirror on each of its partners is CURRENT (R334, R352, R400). -/
def State.mirrorsCurrent (s : State) : State := s.mirrorsAt 0

/-- The module reports itself ready to be released with a step: to the module that leads; in a slice without captains it admits itself on its
own check, but for a restore, which device 0 releases (R387, R400, R463). -/
def State.reportReady (s : State) (step : BitVec 64) (restored : Bool) : State :=
  if s.hasCaptains || restored then s.mgtSend 0x21 step (BitVec.ofNat 64 s.jobLo) [s.ckLead] [] else s.admitNow step restored

/-! ## Release (R280, R465) -/

/-- Every port leaves UP with CAUSE 4; without an image a trained port stands in NOIMG (R294). -/
def State.portsDown (s : State) : State :=
  (List.range 18).foldl (fun s p => [4 * p, 4 * p + 1, 4 * p + 2].foldl (fun s k =>
    let st := s.portState k
    let s1 := s.setPort k PortSt.reset
    if st = psUP then (s1.setPf k NET_PSTAT_CAUSE 4).setPortState k psNOIMG
    else if st = psIDENT ∨ st = psMISMATCH ∨ st = psREFUSED ∨ st = psSPARE then s1.setPortState k psNOIMG else s1) s) s

/-- The loader returns every field that the image set to its reset value; pending values, stores, panniers, records, streams and the
fenced state go, the SITE domains are reset, and STATE becomes NONE (R280, R374, R455). -/
def State.jobRelease (s : State) : State :=
  let keys := match s.img with
    | some im => im.dieKeys
    | none => []
  let s1 : State := { s with regs := s.regs.filter (fun e => e.1 ∉ keys), shadow := [], sites := [], roleSite := [], img := none,
                             gate := Gate.reset, rep := Rep.reset, col := ColSt.reset, ckp := Ckp.reset,
                             net := { s.net with streams := [], hold := [], takeover := [], nextWait := [], rates := [] },
                             pel := { Pel.reset with flog := s.pel.flog, nextReq := s.pel.nextReq },
                             fab := { s.fab with routes := [], paths := [] }, sec := { s.sec with m := mdel 4 s.sec.m } }
  let s2 := ((s1.showPan 0).showPan 1).setGate gIDLE
  (((s2.setHd PEL_STATUS_STATE 0).setHd FRM_STATUS_STATE 0).setHd FRM_STATUS_JOBLO 0).setD (ndWin 0) BRM_STATUS_TIMER 0

/-- The release of a job. A module that was fenced must then pass the full test, and never takes its place again (R374). The last step whose boundary was reached is the one
that it opened, the step in flight: DEDUCED (log entry 128). An ADMIT that waits is answered when its time is over (R463). -/
def State.release (s : State) : State :=
  let s := if s.fenced then ({ s with test := { s.test with mustTest := true, barred := linsert (s.jobId, s.devidx) s.test.barred } } : State) else s
  let s1 := (s.onLive Site.halt).abandonRound
  let s2 := if s.host.admitted then s1.sendJobStop s.stepNo false else s1
  let s3 := s2.portsDown.jobRelease
  { s3 with host := { s3.host with admitted := false, ready := [], relOrder := false, halted := false } }

end Sys2Proof.Machine
end

