-- ==== Sys2Proof/Machine/Loader.lean ====
section
/-! DEFINITION. The frame loader: the reading and checking of a staged image, its application, and the commands FRMLOAD and
FRAME_LOAD_COMPLETE (R84, R108, R254, R269, R270, R276 to R280, R294, R429). -/

set_option autoImplicit false

namespace Sys2Proof.Machine

/-! ## Steps 1 to 4 (R277, R278) -/

/-- What the checks of a load find: a code and LSEC, or the sections of an image that passes. -/
inductive LoadResult where
  | bad (code sec : Nat)
  | good (h : Hdr) (ss : Secs) (keySlot : Nat) (digest : Bytes)
  deriving DecidableEq, Repr

/-- LSEC of the header, the section table, a gap or the signature. -/
def noSec : Nat := 0xFF

/-- Step 3 for one section: its words, then its digest. -/
def State.sectionCode (s : State) (src : Nat) (img : Bytes) (e : SecEnt) : Nat :=
  if s.hbm.badIn (src + e.off) e.len then 0x1F
  else if sha512 ((img.drop e.off).take e.len) ≠ e.dig then 0x16 else 0

/-- Whether a word in a gap is delivered poisoned. -/
def State.gapPoison (s : State) (src : Nat) (h : Hdr) (es : List SecEnt) : Bool :=
  s.hbm.syn.any (fun e => decide (src ≤ e.1 ∧ e.1 < src + h.imglen) && (s.hbm.dec e.1).2.bad &&
    !(imageParts h es).any (fun p => decide (src + p.1 ≤ e.1 ∧ e.1 < src + p.1 + p.2)))

/-- Steps 3 and 4 of an image whose header and section table stand. -/
def State.checkBody (s : State) (src : Nat) (h : Hdr) (es : List SecEnt) : LoadResult :=
  let img := s.hbm.read src h.imglen
  let ss : Secs := es.map (fun e => (e.typ, (img.drop e.off).take e.len))
  let key := fun (k : Nat) => if k < 8 ∧ (s.keySlot k).state = 1 then some ((s.keySlot k).x, (s.keySlot k).y) else none
  match (es.zipIdx.map (fun e => (s.sectionCode src img e.1, e.2))).find? (fun c => c.1 ≠ 0) with
  | some c => .bad c.1 c.2
  | none =>
    if s.gapPoison src h es then .bad 0x1F noSec
    else if gapBad h es img then .bad 0x13 noSec
    else if s.hbm.badIn (src + h.imglen - 256) 256 then .bad 0x1F noSec
    else if sigCode key img ≠ 0 then .bad (sigCode key img) noSec
    else if h.slicen ≤ h.devidx then .bad 0x1A noSec
    else match sectionsCode h s.siteBad ss with
      | some c => .bad c.1 c.2
      | none => .good h ss (numAt img (h.imglen - 252) 1) (sha32 (img.take (h.imglen - 256)))

/-- Steps 1 to 4 of a load. The image must lie in the host window, aligned to 64 KiB (R289). -/
def State.checkLoad (s : State) : LoadResult :=
  let src := s.hd FRM_SRC_BASE
  let b := s.hbm.read src 64
  let h := hdrOf b
  if src % 65536 ≠ 0 ∨ src < hostLo ∨ hbmEnd < src + 64 then .bad 0x13 noSec
  else if s.hbm.badIn src 64 then .bad 0x1F noSec
  else if hdrCode s.umaj b ≠ 0 then .bad (hdrCode s.umaj b) noSec
  else if hbmEnd < src + h.imglen then .bad 0x13 noSec
  else if s.hbm.badIn (src + h.sectab) (96 * h.nsec) then .bad 0x1F noSec
  else
    let es := secTable h (s.hbm.read src (h.sectab + 96 * h.nsec))
    if tableCode h es ≠ 0 then .bad (tableCode h es) noSec else s.checkBody src h es

/-- What the loader's read of a staged image leaves behind: its header, and where that stands, the image (R240). -/
def State.loaderRead (s : State) : State :=
  let src := s.hd FRM_SRC_BASE
  if src % 65536 ≠ 0 ∨ src < hostLo ∨ hbmEnd < src + 64 then s
  else
    let b := s.hbm.read src 64
    let h := hdrOf b
    if s.hbm.badIn src 64 ∨ hdrCode s.umaj b ≠ 0 ∨ hbmEnd < src + h.imglen then s.hbmNote src 64 else s.hbmNote src h.imglen

/-! ## Step 5 -/

/-- Field keys of die windows that an image sets, by its records and by the loader from its sections. -/
def imageDieKeys (ss : Secs) : List Nat :=
  ((regRecs ss).filter (fun r => r.kind = 0)).flatMap (fun r => r.sets.map (fun e => dieKey r.target e.1)) ++
  [0, 1].flatMap (fun n => [UAL_CFG_UDPPORT, UAL_CFG_RTO, UAL_CFG_RTRY, UAL_CFG_WCOL, UAL_CFG_WBULK, UAL_CFG_PFC].map (dieKey (ndWin n))) ++
  (List.range 8).map (fun i => dieKey hdWin (PEL_WATCH_DEV i)) ++
  (List.range 16).flatMap (fun i => [dieKey hdWin (PEL_SUBJ_DEV i), dieKey hdWin (PEL_SUBJ_MISSES i), dieKey hdWin (PEL_SUBJ_REPORTED i)]) ++
  [PWR_STATUS_DEFAULT, PWR_STATUS_ENTRY, TDM_STATUS_PART0, TDM_STATUS_PART1, TDM_STATUS_M0, TDM_STATUS_M1, TDM_STATUS_DEG].map (dieKey hdWin) ++
  [0, 1].flatMap (fun n => [dieKey (ndWin n) PAN_REGION_LEN, dieKey (ndWin n) PAN_REGION_BASE])

/-- The sites of an image's roles. -/
def State.placed (s : State) (ss : Secs) : List (Nat × Nat) :=
  (placeRoles s.siteBad (secOf ss stSITEMAP)).filterMap (fun p => p.2.map (fun n => (p.1, n)))

/-- A site released from reset by a load: what its memories hold, the spill slots among it, is not cleared (R108). DEDUCED for the rest of
the memories (log entry 106). -/
def Site.released (c : Site) : Site := { Site.reset with store := c.store, istore := c.istore, recs := c.recs }

/-- A role's site as the loader leaves it: released from reset, with its repairs, programs, tables and registers. -/
def State.loadedSite (s : State) (ss : Secs) (role n : Nat) : Site :=
  let b := secOf ss stPROGRAM
  let ps := (placingsOf ss).filter (fun p => sameRole p.role role)
  let c0 : Site := { s.setRepairs n (s.site n).released with
                       role := some role, tables := (tablesOf ss role).foldl (fun m e => mset e.1 (tableOf e.2) m) [] }
  let c1 := ps.foldl (fun c p =>
    if p.kind = 0 then { c with istore := c.istore.write 0 (blobBytes b p.blob) false }
    else { c with store := c.store.write p.laddr (blobBytes b p.blob) false }) c0
  (regRecs ss).foldl (fun c r =>
    if r.kind = 1 ∧ sameRole r.target role then r.sets.foldl (fun c e => c.set e.1 e.2) c else c) c1

/-- The failed lanes of a lane group, rising. -/
def State.failedLanes (s : State) (w link g : Nat) : List Nat :=
  (List.range 66).filter (fun l => s.lasting ukLANE (laneUnit w link g l))

/-- The lane map of a group from the spare-mapping table (R254, R257). -/
def State.setLanes (s : State) (w link g : Nat) : State :=
  let fs := s.failedLanes w link g
  (s.setD w (D2D_GRP_FL0 link g) (fs.getD 0 0x7F)).setD w (D2D_GRP_FL1 link g) (fs.getD 1 0x7F)

/-- The lane maps of every link (R277). -/
def State.setAllLanes (s : State) : State :=
  (List.range 12).foldl (fun s w => (List.range 10).foldl (fun s l => (List.range (groupsOf w l)).foldl (fun s g =>
    if s.failedLanes w l g = [] then s else s.setLanes w l g) s) s) s

/-- Whether a kept value is of a die window's field that an image may set: STATIC, SHADOW or LIVE. One that no record sets keeps its reset
value, and those of a D2D_ group register come from the spare-mapping table (R267, R277). -/
def jobKey (key : Nat) : Bool := match dieFieldAt key with
  | some x => x.cls = .stat || x.cls = .shadow || x.cls = .live
  | none => false

/-- The routes of a job: the link from every die toward every other in each class (R265). -/
def nocRoutes : SMap Nat :=
  (List.range 12).flatMap (fun d => (List.range 12).flatMap (fun e => (List.range 4).map (fun c => (routeKey d e c, dieRoute d e c))))

/-- The routes of the job (R265): between dies, and within a die of every site that carries a role to the gateway and to the controllers of
the die's stacks, and back. -/
def State.setRoutes (s : State) (places : List (Nat × Nat)) : State :=
  let ways := fun (m : SMap (List Nat)) (p : Nat × Nat) => [256, 257, 258, 259].foldl (fun m k =>
    mset (pathKey (p.2 / 104) k (p.2 % 104)) (diePath (p.2 / 104) k (p.2 % 104))
      (mset (pathKey (p.2 / 104) (p.2 % 104) k) (diePath (p.2 / 104) (p.2 % 104) k) m)) m
  { s with fab := { s.fab with routes := nocRoutes, paths := places.foldl ways [] } }

/-- The die registers that an image sets. -/
def State.setImageRegs (s : State) (ss : Secs) (im : Image) : State :=
  let s1 := (regRecs ss).foldl (fun s r => if r.kind = 0 then r.sets.foldl (fun s e => s.setD r.target e.1 e.2) s else s) s
  let s2 := [ndWin 0, ndWin 1].foldl (fun s w =>
    (((((s.setD w UAL_CFG_UDPPORT im.udpPort).setD w UAL_CFG_RTO im.rto).setD w UAL_CFG_RTRY im.rtry).setD w UAL_CFG_WCOL im.wcol).setD w
      UAL_CFG_WBULK im.wbulk).setD w UAL_CFG_PFC (if im.pfc then 1 else 0)) s1
  let s3 := im.resil.watchers.zipIdx.foldl (fun s e => s.setHd (PEL_WATCH_DEV e.2) e.1) s2
  let s4 := im.resil.subjects.zipIdx.foldl (fun s e => s.setHd (PEL_SUBJ_DEV e.2) e.1) s3
  let s5 := im.resil.partners.foldl (fun s p => s.setHd (if p.1 = 0 then TDM_STATUS_PART0 else TDM_STATUS_PART1) p.2.1) s4
  let s6 := im.resil.panniers.foldl (fun s p => (s.setD (ndWin p.1) PAN_REGION_LEN p.2.2).setD (ndWin p.1) PAN_REGION_BASE p.2.1) s5
  let d := match im.caps with
    | some c => c.1
    | none => 0
  ((s6.setHd TDM_STATUS_DEG im.tdeg).setHd PWR_STATUS_DEFAULT d).setHd PWR_STATUS_ENTRY d

/-- Counters that run since the load start at 0 (R289, R324, R403, R423, R497). -/
def State.clearSinceLoad (s : State) : State :=
  ((((((s.setHd FRM_PEND_GEARS 0).setHd CKP_STATUS_ABAND 0).setHd BIST_STATUS_SKIP 0).setHd BIST_STATUS_MOVES 0).setHd PWR_EMCNT_COUNT 0).setD
    (ndWin 0) BRM_STATUS_MISS 0)

/-- Ports that waited for an image go on (R294, R304). -/
def State.portsOn (s : State) (im : Image) : State :=
  im.ports.foldl (fun s p =>
    let k := 4 * p.port + p.sub
    if s.portState k ≠ psNOIMG then s
    else s.setPortState k (if p.use = 3 then psUP else if p.use = 2 then psSPARE else psIDENT)) s

/-- A measurement register is extended with a digest (R429). -/
def State.extend (s : State) (k : Nat) (d : Bytes) : State :=
  { s with sec := { s.sec with m := mput 0 k (num256 (sha32 (bytes256 (mget 0 s.sec.m k) ++ d))) s.sec.m } }

/-- Steps 5 and 6: the image is applied and in force. -/
def State.applyImage (s : State) (l : Loader) (im : Image) : State :=
  let s0 := ({ s with regs := s.regs.filter (fun e => !jobKey e.1) } : State).setAllLanes
  let s1 := l.places.foldl (fun s p => s.setSite p.2 (s.loadedSite l.secs p.1 p.2)) s0
  let s2 : State := { s1 with img := some im, roleSite := l.places.foldl (fun m p => mset p.1 p.2 m) [], gate := Gate.reset,
                              rep := { Rep.reset with tier2 := s1.rep.tier2 },
                              col := ColSt.reset }
  let s3 := ((((s2.setImageRegs l.secs im).setRoutes l.places).mirrorsCurrent).clearSinceLoad.portsOn im).extend 4 l.digest
  (((s3.setHd FRM_STATUS_STATE 2).setHd FRM_STATUS_JOBLO (im.jobid.toNat % 2 ^ 32)).setHd PEL_STATUS_STATE (if s.rep.tier2 ≠ [] then 4 else 2))

/-- A rejected load: STATE REJECTED with its code and section. -/
def State.rejectLoad (s : State) (code sec : Nat) : State :=
  ((s.setHd FRM_STATUS_STATE 3).setHd FRM_STATUS_LCODE code).setHd FRM_STATUS_LSEC sec

/-- A hardware fault in step 5 (R278): what the image set returns to reset. -/
def State.faultLoad (s : State) (l : Loader) (im : Image) : State :=
  let s1 := l.places.foldl (fun s p => s.setSite p.2 Site.reset) s
  ({ s1 with regs := s1.regs.filter (fun e => e.1 ∉ im.dieKeys) }).rejectLoad 0x23 noSec

/-! ## Commands -/

/-- The loader starts on a request (R276): it reads and checks the image. -/
def State.startLoad (s : State) (h : HostHdr) : State :=
  if s.hd FRM_STATUS_STATE ≠ 0 ∧ s.hd FRM_STATUS_STATE ≠ 3 then s.answer h rsREJECTED 0x22 0 []
  else if s.unfit then s.answer h rsREJECTED 0x1E 0 []
  else
    let s1 := (s.holdRequest.setHd FRM_STATUS_STATE 1).loaderRead
    match s.checkLoad with
    | .bad code sec => { s1 with loader := some ⟨h.via, h.tag, code, sec, none, [], [], []⟩ }
    | .good hd ss key dig =>
      { s1 with loader := some ⟨h.via, h.tag, 0, noSec, some (imageOf hd ss key (imageDieKeys ss)), ss, s.placed ss, dig⟩ }

/-- FRMLOAD (R276, R277). -/
def execFrmload (h : HostHdr) (s : State) : Host.Outcome State Fault Refusal :=
  .next (s.request h 0x03 false false (fun s => s.startLoad h))

/-- The load ends (R277, R278): the image is in force, or the load is rejected; the request is answered, once the host link is up. -/
def State.endLoad (s : State) (l : Loader) (hwFault : Bool) : State :=
  let s0 : State := { s with loader := none }
  let r : State × Nat := match l.image with
    | some im =>
      if l.code ≠ 0 then (s0.rejectLoad l.code l.sec, l.code)
      else if hwFault then (s0.faultLoad l im, 0x23)
      else (s0.applyImage l im, 0)
    | none => (s0.rejectLoad l.code l.sec, l.code)
  if !s.host.hxUp then { r.1 with host := { r.1.host with outstanding := r.1.host.outstanding - 1 } }
  else r.1.answerHeld l.via 0x03 l.tag (if r.2 = 0 then rsOK else rsREJECTED) r.2 []

/-- FRAME_LOAD_COMPLETE (R277). -/
def execFrameLoadComplete (hwFault : Bool) (s : State) : Host.Outcome State Fault Refusal :=
  .next (match s.loader with
    | some l => if s.hdRuns then s.endLoad l hwFault else s
    | none => s)

end Sys2Proof.Machine
end

