-- ==== Sys2Proof/Machine/Alarm.lean ====
section
/-! DEFINITION. Security alarms and clock faults: the alarm log, the policies, what HD's standby controller does in place of its
firmware, and the stop of dies whose clocks or links stop (R20 to R22, R373, R436, R437, R446). -/

set_option autoImplicit false

namespace Sys2Proof.Machine

/-! ## Alarms (R436, R437) -/

/-- Alarm codes. -/
def alTAMPER : Nat := 1
def alVGLITCH : Nat := 2
def alCGLITCH : Nat := 3
def alOVERTEMP : Nat := 4

/-- The policy of an alarm: 0 LOG, 1 HALT, 2 ERASE. -/
def State.alarmPolicy (s : State) (code : Nat) : Nat :=
  if code = alTAMPER then s.hd SEC_ALMPOL_TAMPER
  else if code = alVGLITCH then s.hd SEC_ALMPOL_VGLITCH
  else if code = alCGLITCH then s.hd SEC_ALMPOL_CGLITCH
  else s.hd SEC_ALMPOL_OVERTEMP

/-- Enters an alarm in SEC_ALMLOG: the oldest unread of 16 entries is shown. An entry that finds the log full is not kept (log
entry 44). -/
def State.logAlarm (s : State) (code act die : Nat) : State :=
  let e := (code, act, die, s.tsec)
  let s1 := (s.setHd SEC_STATUS_ALMPEND (s.hd SEC_STATUS_ALMPEND ||| 2 ^ (code - 1))).countD hdWin 0x10F 1
  let s2 : State := { s1 with sec := { s1.sec with raised := s1.sec.raised ||| BitVec.ofNat 8 (2 ^ (code - 1)) } }
  if s2.hd SEC_ALMLOG_VALID = 0 then s2.showAlarm e
  else if s2.sec.almLog.length < 15 then { s2 with sec := { s2.sec with almLog := s2.sec.almLog ++ [e] } }
  else s2

/-- The device key and the wrapped secrets are erased; the current challenge is consumed. -/
def State.eraseKeys (s : State) : State :=
  ({ s with sec := { s.sec with dev := none, chal := none } }).setHd SEC_STATUS_KSTATE 2

/-- An alarm that fences rejects a load under way with code 0x23. -/
def State.alarmLoad (s : State) : State := match s.loader with
  | some l => { s with loader := some { l with code := 0x23, sec := noSec } }
  | none => s

/-- The erase that the policy calls for comes with the fence (R437). -/
def State.alarmActs (s : State) (act why : Nat) : State :=
  let s1 := if 2 ≤ act then s.eraseKeys else s
  if 1 ≤ act then (s1.alarmLoad).fence why else s1

/-- An alarm: logged, reported on both management ports, and its policy applied. -/
def State.raiseAlarm (s : State) (code die : Nat) : State :=
  let act := s.alarmPolicy code
  ((s.logAlarm code act die).alert 6).alarmActs act 4

/-- SECURITY_ALARM (R437): a code that is none or reserved is never raised. -/
def execSecurityAlarm (code : Fin 16) (die : BitVec 4) (s : State) : Host.Outcome State Fault Refusal :=
  .next (if code.val = 0 ∨ 4 < code.val ∨ !s.hdRuns then s else s.raiseAlarm code.val (if die.toNat < 12 then die.toNat else 15))

/-! ## Clock faults (R20 to R22) -/

/-- Shows a loss of lock or a glitch in CLK_STATUS; the die has stopped its clocks. -/
def State.clockStatus (s : State) (d : Nat) (unlock : Bool) : State :=
  let s1 := if unlock then ((s.setD d CLK_STATUS_UNLOCK 1).bumpD d CLK_STATUS_UNLOCKS 1).setD d CLK_STATUS_LOCK 0
    else (s.setD d CLK_STATUS_GLITCH 1).bumpD d CLK_STATUS_GLITCHES 1
  s1.setD d CLK_STATUS_STOPPED 1

/-- HD stops: its standby controller raises the alarm and applies its policy, and the module stands fenced with REASON 3. The other
dies stop when they find their links down. -/
def State.standbyFence (s : State) : State :=
  let act := s.alarmPolicy alCGLITCH
  let s1 := s.logAlarm alCGLITCH act hdWin
  let s2 := if 2 ≤ act then s1.eraseKeys else s1
  { s2 with pel := { s2.pel with standby := true, fencedWhy := some 3 }, host := { s2.host with hxUp := false } }

/-- A clock fault of a die: it is shown and counted, since the clock monitor runs on HCLK (R22). A die that runs stops, the module fences
with REASON 3 and raises the alarm, and the die is reported. With its clocks stopped, HX has no link. -/
def State.clockFault (s : State) (d : Nat) (unlock : Bool) : State :=
  if s.d d CLK_STATUS_STOPPED = 1 then s.clockStatus d unlock
  else
    let s1 := s.clockStatus d unlock
    if d = hdWin then s1.standbyFence
    else if s1.pel.standby then s1
    else
      let s2 := (((s1.alarmLoad).fence 3).raiseAlarm alCGLITCH d).alert 5
      if d = 11 then { s2 with host := { s2.host with hxUp := false } } else s2

/-- PLL_UNLOCK (R20). -/
def execPllUnlock (d : Fin 12) (s : State) : Host.Outcome State Fault Refusal := .next (s.clockFault d.val true)

/-- CLOCK_GLITCH (R20). -/
def execClockGlitch (d : Fin 12) (s : State) : Host.Outcome State Fault Refusal := .next (s.clockFault d.val false)

/-- FENCED as it is sent (R361, R373): with EPOCH all ones in the header, on both management planes, to both captains of the pod. -/
def State.sendFenced (s : State) (why : Nat) : State :=
  if s.podCaptains = [] then s
  else s.pelMgt s.devidx 0x08 (2 ^ 32 - 1) s.podCaptains 6
    (packWords 2 [(0, 4, why), (32, 32, s.epoch), (64, 64, s.serial.toNat)])

/-- FENCED_STANDBY_TIMER (R21). -/
def execFencedStandbyTimer (s : State) : Host.Outcome State Fault Refusal :=
  .next (if s.pel.standby then s.sendFenced 3 else s)

/-- FENCED_TIMER (R373): every 250 us while the module is fenced. -/
def execFencedTimer (s : State) : Host.Outcome State Fault Refusal :=
  .next (match s.pel.fencedWhy with
    | some why => if s.hdRuns then s.sendFenced why else s
    | none => s)

/-- FENCE (R373). -/
def execFence (why : FenceWhy) (s : State) : Host.Outcome State Fault Refusal :=
  .next (if s.hdRuns then s.fence (fenceCode why) else s)

/-- NETWORK_LINK_LOSS (R21): a network die that has lost its link to a stopped HD fences its ports. -/
def execNetworkLinkLoss (nd : Fin 2) (s : State) : Host.Outcome State Fault Refusal :=
  .next (if s.pel.standby then { s with net := { s.net with cut := linsert nd.val s.net.cut } } else s)

/-- HUB_LINK_STOP (R21): a compute die whose hub link has stopped stops issue on every core. The cores stand as after HALT (log
entry 45). -/
def execHubLinkStop (cd : Fin 8) (s : State) : Host.Outcome State Fault Refusal :=
  .next (if s.pel.standby then (s.liveSites.filter (fun n => n / 104 = cd.val)).foldl (fun s n => s.onSite n Site.halt) s else s)

end Sys2Proof.Machine
end

