-- ==== Sys2Proof/Machine/GateCmds.lean ====
section
/-! DEFINITION. Commands of the commit gate and of the step: gear points, step entries, the verdict of CHECK with the NaN policy and the
digest vote, commit pages, DONE, the step boundary, the resumption of COMMIT, step records (R141 to R144, R217 to R223, R286,
R287, R330, R336 to R338). -/

set_option autoImplicit false

namespace Sys2Proof.Machine

/-! ## Gear points (R144, R145) -/

/-- A core at a gear point: its pending values take effect, its role may move, and t31 counts on the site where it then runs. After
COMMITDONE it waits for the step boundary instead. A channel overrun halts the job as a program error (R213). -/
def State.coreGear (s : State) (n : Nat) : State :=
  match (s.site n).role with
  | none => s
  | some role =>
    if (s.site n).f CORE_STATE_STATE ≠ 5 then s
    else if (s.site n).chans.any (fun e => e.2.ovr) then s.haltOverrun n
    else if (s.marks role).commitDone then s
    else
      let r := (s.gearValues n role ((s.site n).gearOrd + 1)).tryMove n
      let s1 := r.1.onSite r.2 (fun c => { c with gearOrd := c.gearOrd + 1 })
      s1.tokenEvent r.2 31 false false

/-- CORE_GEAR_CHANGE (R144). -/
def execCoreGearChange (c : SiteNo) (s : State) : Host.Outcome State Fault Refusal :=
  .next (if s.hdRuns then s.coreGear c.val else s)

/-! ## Step entries (R141) -/

/-- Whether firmware may enter a role at a site: the role is due, its DMAs are complete, the core is stopped or at a gear point, the
module is not held at a step entry (in RUN, or in a catch-up or COMMIT), and the gate opens or replays a step or resumes COMMIT. -/
def State.entryReady (s : State) (n role : Nat) : Bool :=
  let c := s.site n
  let g := s.gateState
  s.hdRuns && !s.fenced && !s.host.halted && role ∈ s.gate.due && c.dmas = [] && c.quiet &&
  (!c.active? || c.f CORE_STATE_STATE = 5) && (s.hd PEL_STATUS_STATE = 1 || s.gate.catchUp || g = gCOMMIT) &&
  (g = gRUN || g = gSKIP || (g = gREWIND && s.restored) || (g = gCOMMIT && s.gate.resuming && s.restored))

/-- The first entry after a rewind or a skip takes the gate to RUN (R219). -/
def State.entryGate (s : State) : State :=
  if s.gateState = gREWIND then s.enterRun
  else if s.gateState = gSKIP then s.openStep (s.stepNo + 1)
  else s

/-- The entry of one role: the step block, the registers, the channels' credits, the release at CORE_ENTRY. A resumption keeps the
count of gear points. -/
def State.enterRole (s : State) (n role : Nat) : State :=
  let s1 := if s.gate.resuming then s.putBlockFull n else s.putBlockHead n
  let ord := if s.gate.resuming then (s1.site n).gearOrd else 0
  let s2 := s1.onSite n (fun c => { c.enter s.stepNo s.epoch s.gate.phase s.gate.replay with gearOrd := ord })
  let s3 := s2.onSite n (fun c => (List.range 6).foldl (fun c k =>
    if c.chanOn k ∧ c.sends k then c.setChan k { c.chan k with credits := s2.peerSlots c k } else c) c)
  { s3 with gate := { s3.gate with due := s3.gate.due.filter (· ≠ role), arrivals := s3.gate.arrivals.filter (fun a => a.2 ≠ role) } }

/-- After the last entry that resumes COMMIT, t30 counts on every core (R131, R223). -/
def State.resumed (s : State) : State :=
  if s.gate.resuming ∧ s.gate.due = [] then
    let s1 : State := { s with gate := { s.gate with resuming := false, stopped := false } }
    s1.liveSites.foldl (fun s n => s.tokenEvent n 30 false false) s1
  else s

/-- STEP_ENTRY (R141). -/
def execStepEntry (c : SiteNo) (s : State) : Host.Outcome State Fault Refusal :=
  .next (match (s.site c.val).role with
    | none => s
    | some role =>
      if !s.entryReady c.val role then s
      else
        let s1 := s.entryGate
        match s1.siteOf role with
        | some n => (s1.enterRole n role).resumed
        | none => s1)

/-! ## Requests to the switch controller (R378) -/

/-- Whether this module is a captain of the pod of a device. -/
def State.captainFor (s : State) (dev : Nat) : Bool := s.devidx ∈ s.captainsOf (podOf dev)

/-- Bytes of a pair entry (R378). -/
def pairBytes (p : OcsPair) : Bytes :=
  leBytes 8 p.aser.toNat ++
  leBytes 8 (p.aport.toNat + p.asub.toNat * 2 ^ 5 + (if p.disconnect then 2 ^ 7 else 0) + p.bport.toNat * 2 ^ 8 + p.bsub.toNat * 2 ^ 13) ++
  leBytes 8 p.bser.toNat

/-- Bytes of a request (R378). -/
def State.ocsBytes (s : State) (id : Nat) (ps : List OcsPair) : Bytes :=
  leBytes 2 0x4F43 ++ [1, 1] ++ leBytes 4 id ++ leBytes 4 s.jobLo ++ leBytes 2 s.devidx ++ leBytes 1 ps.length ++ [0] ++ ps.flatMap pairBytes

/-- A first sending: to the controller of entry 0 on MGT-A (R381). -/
def State.ocsStart (s : State) (r : OcsReq) : State :=
  let id := s.pel.nextReq
  let s1 : State := { s with pel := { s.pel with ocs := s.pel.ocs ++ [{ r with reqid := id }], nextReq := (id + 1) % 2 ^ 32 } }
  (((s1.setHd PEL_OCS_REQID id).setHd PEL_OCS_STATUS 0xFF).setHd PEL_OCS_DONEMASK 0).emit (.ocs 0 false (s.ocsBytes id r.pairs))

/-- A request: for a spare port or for the domestique of a lost module, or neither. -/
def State.ocsSend (s : State) (ps : List OcsPair) (spare : Bool) (subj : Option Nat) : State :=
  s.ocsStart ⟨0, ps, 1, spare, false, false, subj, s.time⟩

/-- The connect pairs of a request for a domestique: one for each ACTIVE port of the lost module (R378). -/
def domPairs (subj : Nat) (dom : BitVec 64) : List OcsPair :=
  ((Config.lostPorts subj).map (fun p => { p with aser := dom, disconnect := false })).take 18

/-! ## Copies of shards (R331, R335, R339) -/

/-- Holder roles of this module, with the partner whose shard they mirror (R350). -/
def State.holderRoles (s : State) : List Nat := match s.img with
  | some im => im.resil.mirrors.map (fun m => m.2.1)
  | none => []

/-- Pairs of a mirror as (holder role, owner role), by increasing owner role. -/
def State.mirrorPairs (s : State) (idx : Nat) : List (Nat × Nat) := match s.img with
  | some im =>
    let ps := (im.resil.mirrors.filter (fun m => m.1 = idx)).map (fun m => (m.2.1, m.2.2))
    (((ps.map (·.2)).foldr insertNat []).eraseDups).flatMap (fun o => ps.filter (fun p => p.2 = o))
  | none => []

/-- Roles that list the pages of the copy that a number names, in the order of its digest: 0 the own shard, i + 1 the mirror of partner i. -/
def State.copyRoles (s : State) (c : Nat) : List Nat :=
  if c = 0 then s.liveRoles.filter (fun r => r ∉ s.holderRoles) else (s.mirrorPairs (c - 1)).map (·.1)

/-- Pages of a copy. -/
def State.copyPages (s : State) (c : Nat) : List Nat := (s.copyRoles c).flatMap s.pagesOf

/-- The copies held here. -/
def State.copies (s : State) : List Nat := match s.img with
  | some im => 0 :: (im.resil.partners.filter (fun p => im.resil.mirrors.any (fun m => m.1 = p.1))).map (fun p => p.1 + 1)
  | none => []

/-- SHARDID of a copy held here. That of a partner's shard is not in this image (log entry 46). -/
def State.copyShard (s : State) (c : Nat) : Nat := match s.img with
  | some im => if c = 0 then im.resil.shardId
    else match im.resil.partners.find? (fun p => p.1 + 1 = c) with
      | some p => Config.partnerShard p.2.1 % 2 ^ 32
      | none => 0
  | none => 0

/-- The digest of a page. -/
def State.pageDigest (s : State) (p : Nat) : Bytes := sha32 (s.hbm.read (p * 65536) 65536)

/-- The copy digest of pages, none when a word of them reads poisoned or UNCORRECTABLE. -/
def State.copyDigest (s : State) (ps : List Nat) : Option (BitVec 256) :=
  if ps.any (fun p => s.hbm.badIn (p * 65536) 65536) then none else some (num256 (sha32 (ps.flatMap s.pageDigest)))

/-- Pages of the pre-image log of a copy, in the same order (R338). -/
def State.logPages (s : State) (c : Nat) : List Nat := match s.img with
  | some im => (s.copyRoles c).flatMap (fun r => match im.resil.preimg.find? (fun p => p.1 = r) with
    | some p => (List.range (s.pagesOf r).length).map (fun i => p.2.1 / 65536 + i)
    | none => [])
  | none => []

/-- Pages of a copy as they are sent: the place in the copy's order, and the code words (R337, R340, R343). -/
def State.pagesOut (s : State) (c : Nat) (ps : List Nat) : List PageData :=
  ((s.copyPages c).zipIdx.filter (fun e => e.1 ∈ ps)).map (fun e => ⟨e.2, chunkWords 8192 (s.hbm.marks (e.1 * 65536) 65536)⟩)

/-! ## The digest vote (R336, R337) -/

/-- Verdicts, as TDM_VERDICT.OUT codes them. -/
def dvAGREE : Nat := 0
def dvAGREEPOI : Nat := 1
def dvMAJORITY : Nat := 2
def dvREFEREE : Nat := 3
def dvNOCOPY : Nat := 4

/-- The verdict over the copies of a shard, and whether a copy loses. -/
def shardVerdict (cs : List DigestRec) : Nat × (DigestRec → Bool) :=
  let good := cs.filter (fun c => !c.poi)
  match good with
  | [] => (dvNOCOPY, fun _ => true)
  | g :: _ =>
    if good.all (fun c => c.dig = g.dig) then (if good.length = cs.length then dvAGREE else dvAGREEPOI, fun c => c.poi)
    else match good.find? (fun c => decide (good.length < 2 * (good.filter (fun d => d.dig = c.dig)).length)) with
      | some w => (dvMAJORITY, fun c => c.poi || c.dig ≠ w.dig)
      | none => (dvREFEREE, fun _ => false)

/-- The copies held here in the order of their records: 0 the own shard, i + 1 the i-th mirror. -/
def State.ownCopies (s : State) (rs : List DigestRec) : List (DigestRec × Nat) :=
  let mine := rs.filter (fun r => r.dev.toNat = s.devidx)
  (mine.filter (fun r => !r.mirror)).map (fun r => (r, 0)) ++ (mine.filter (fun r => r.mirror)).zipIdx 1

/-- A copy held here loses: it is to be repaired from a copy with the digest `win`, and the loss is a fault of this module, lasting at the
second within 24 hours. -/
def State.copyLoss (s : State) (i : Nat) (win : Option (BitVec 256)) : State :=
  let s1 : State := { s with rep := { s.rep with losing := (i, win) :: s.rep.losing.filter (fun l => l.1 ≠ i) },
                             test := { s.test with losses := s.test.losses ++ [(i, s.tsec)] } }
  let r := s1.fault24 ukCOPY 0 false
  if r.2 then r.1.selfLasting else r.1

/-- A REFEREE verdict of a shard of which a copy is held here: the digest of its pre-image log goes to the referee (R339). -/
def State.sendLogs (s : State) (mine : List (DigestRec × Nat)) : State :=
  (s.notePages (mine.flatMap (fun c => s.logPages c.2))).emits (mine.map (fun c => .logDigest c.1.shard.toNat (s.copyDigest (s.logPages c.2))))

/-- The captain of the owner's pod selects a domestique as the referee, has it connected, and tells its job runtime which device index it
takes (R339, R378). -/
def State.placeReferee (s : State) (owner : Nat) : State :=
  if !s.captainFor owner ∨ s.captains.any (fun c => c.1 = 0 && c.2.2 = podOf owner && c.2.1 ≠ s.devidx && !s.declared c.2.1) then s
  else match Config.nextDomestique [] with
    | some dom =>
      let s1 := s.emit (.domestique dom owner)
      if domPairs owner dom = [] then s1 else s1.ocsSend (domPairs owner dom) false none
    | none => s

/-- Takes the verdict of one shard: shown where a copy is held here; the losing copies held here, and those that won, are noted. -/
def State.takeVerdict (s0 : State) (rs : List DigestRec) (shard : Nat) : State :=
  let cs := rs.filter (fun r => r.shard.toNat = shard)
  let v := shardVerdict cs
  let s := match cs.find? (fun c => !c.mirror) with
    | some c => if v.1 = dvREFEREE then s0.placeReferee c.dev.toNat else s0
    | none => s0
  let mine := (s.ownCopies rs).filter (fun c => c.1.shard.toNat = shard)
  if mine = [] then s
  else
    let lost := mine.filter (fun c => v.2 c.1)
    let s1 := (((s.setHd TDM_VERDICT_VALID 1).setHd TDM_VERDICT_OUT v.1).setHd TDM_VERDICT_LOST (if lost = [] then 0 else 1)).setHd
      TDM_VERDICT_SHARDID shard
    let win := (cs.find? (fun c => !v.2 c)).map (·.dig)
    let s2 := lost.foldl (fun s c => s.copyLoss c.2 win) s1
    let losers := (cs.filter (fun c => v.2 c)).map (fun c => c.dev.toNat)
    let won := if losers = [] then [] else (mine.filter (fun c => !v.2 c.1)).map (fun c => (c.2, losers))
    let s3 : State := { s2 with rep := { s2.rep with winning := won ++ s2.rep.winning } }
    if v.1 = dvREFEREE then s3.sendLogs mine else s3

/-- Every shard's verdict. A REFEREE verdict and a shard without a copy keep the replay waiting. -/
def State.digestVote (s : State) (rs : List DigestRec) : State :=
  let shards := (rs.map (fun r => r.shard.toNat)).eraseDups
  let out := fun (h : Nat) => (shardVerdict (rs.filter (fun r => r.shard.toNat = h))).1
  let s0 : State := { s with rep := { s.rep with winning := [] } }
  let s1 := (shards.foldl (fun s h => s.takeVerdict rs h) s0).setHd TDM_DSTEP_STEP s.stepNo.toNat
  { s1 with rep := { s1.rep with verdictWait := shards.filter (fun h => out h = dvREFEREE),
                                 tier3 := s1.rep.tier3 || shards.any (fun h => out h = dvNOCOPY) } }

/-- Whether every shard agrees. -/
def votesAgree (rs : List DigestRec) : Bool :=
  (rs.map (fun r => r.shard.toNat)).all (fun h => (shardVerdict (rs.filter (fun r => r.shard.toNat = h))).1 = dvAGREE)

/-! ## The verdict of CHECK (R217 to R220) -/

/-- The exponent of the loss scale, a power of two. -/
def State.lsExp (s : State) : Int :=
  let l := s.lscale
  if l / 2 ^ 23 % 256 = 0 then (Nat.log2 (l % 2 ^ 23) : Int) - 149 else (l / 2 ^ 23 % 256 : Int) - 127

/-- CHECK fails: the cores stop, and the gate waits in REWIND for the slice's rewind (R28, R219). -/
def State.checkFails (s : State) (cause : Nat) : State := ((s.stopAll 1).setGate gREWIND).reportFault cause noBlame 0 false

/-- G and gamma of R217. -/
def State.gOf (s : State) (norm : BitVec 64) : FV := div64 (sqrt64 (F64.dec norm.toNat)) (F32.dec s.lscale)
def State.gammaOf (s : State) (g : FV) : FV :=
  let one := FV.fin false 1 0
  let c := div64 one (F32.dec s.lscale)
  let m := F32.dec (s.hd PEL_CGCFG_CLIPMAX)
  if s.hd PEL_CGCFG_CLIPEN = 1 ∧ m.lt g then mul64 c (div64 m g) else c

/-- The NaN policy in force: REPLAY and SKIP turn into HALT at their limits (R220). -/
def State.nanPolicy (s : State) : Nat :=
  let p := s.hd PEL_CGCFG_POL
  let low := decide (s.lsExp - 1 < int8 (s.hd PEL_CGLS_LSMIN))
  if p = 0 then (if low then 2 else 0)
  else if p = 1 then (if low || decide (s.hd PEL_CGCFG_RMAX < s.hd PEL_CGSTATE_ATTEMPT + 1) then 2 else 1)
  else 2

/-- The loss scale is halved, and the outcome and the new scale enter the step record. -/
def State.nanHalve (s : State) (p : Nat) : State :=
  let s1 := (s.setHd PEL_CGLS_LSCALE (pow2Code (s.lsExp - 1))).setHd PEL_CGSTATE_CLEAN 0
  (s1.recordEntry s1.stepNo (.outcome (BitVec.ofNat 8 p))).recordEntry s1.stepNo (.lossScale (BitVec.ofNat 32 s1.lscale))

/-- A NaN verdict. -/
def State.nanVerdict (s : State) : State :=
  let p := s.nanPolicy
  if p = 0 then
    let s1 := ((s.nanHalve 0).stopAll 1).setGate gSKIP
    { s1 with gate := { s1.gate with due := s1.liveRoles } }
  else if p = 1 then ((s.nanHalve 1).setHd PEL_CGSTATE_ATTEMPT (s.hd PEL_CGSTATE_ATTEMPT + 1)).checkFails 0x04
  else ((s.setHd PEL_CGSTATE_CLEAN 0).recordEntry s.stepNo (.outcome 2)).haltJob 0xFF

/-- A pass: the step block enters the record, COMMIT opens, and the lead captain looks at the checkpoint trigger (R386). -/
def State.checkPasses (s : State) (g : FV) (v : SliceTotals) : State :=
  let gm := F32.enc (toF32 (s.gammaOf g))
  let b := s.blockOf gm (F64.enc g) v.ncnt.toNat v.icnt.toNat v.pcnt.toNat
  let s1 : State := { s with gate := { s.gate with block := b } }
  let s2 := (s1.recordEntry s1.stepNo (.lossScale (BitVec.ofNat 32 s.lscale))).recordEntry s1.stepNo (.stepBlock b)
  s2.openCommit.ckTrigger

/-- The result of the slice-wide CHECK reduction at the gate in WAIT (R219, R220, R287, R336). Poison decides before a NaN, and a NaN
before the digests. -/
def State.verdict (s : State) (v : SliceTotals) : State :=
  let g := s.gOf v.norm
  let s1 := s.setHd PEL_CGNORM_G (F64.enc g)
  if v.pcnt ≠ 0 then s1.checkFails 0x03
  else if v.cfgMismatch then s1.checkFails 0x04
  else if v.ncnt ≠ 0 ∨ v.icnt ≠ 0 ∨ !g.isFin then s1.nanVerdict
  else
    let s2 := if s1.digestStep s1.stepNo.toNat then s1.digestVote v.digests else s1
    if s1.digestStep s1.stepNo.toNat ∧ !votesAgree v.digests then s2.checkFails 0x04 else s2.checkPasses g v

/-- CHECK_VERDICT (R219): the result of the slice-wide CHECK reduction reaches the gate. It is the one that the tree of R315 brought here;
where its messages are no part of the run, the operand is. -/
def execCheckVerdict (v : SliceTotals) (s : State) : Host.Outcome State Fault Refusal :=
  .next (if s.hdRuns ∧ s.gateState = gWAIT ∧ !s.rep.check.begun then s.verdict (s.rep.check.total.getD v) else s)

/-! ## Commit pages (R222, R338) -/

/-- Where the pre-image of page i of a role's commit group goes: the single slot, or in the step before a digest step its place in the
log. -/
def State.preimageAt (s : State) (role i : Nat) : Option Nat := match s.img with
  | some im => (im.resil.preimg.find? (fun p => p.1 = role)).map (fun p =>
      if s.digestStep (s.stepNo.toNat + 1) then p.2.1 + 65536 * i else p.2.1)
  | none => none

/-- A DMA that would open the next page of its role is held until the page's pre-image is copied. -/
def State.pageWrite (s : State) (n k : Nat) : State :=
  let c := s.site n
  match c.dmas[k]?, c.role with
  | some d, some role =>
    let p := s.pageSt role
    if !d.bad && s.pageRule role d = none then
      let s1 := if p.copying.isNone then s.setPageSt role { p with copying := some p.next } else s
      s1.onSite n (fun c => { c with dmas := lset c.dmas k { d with held := some p.next } })
    else s
  | _, _ => s

/-- COMMIT_PAGE_WRITE (R222). -/
def execCommitPageWrite (c : SiteNo) (k : Nat) (s : State) : Host.Outcome State Fault Refusal :=
  .next (if s.dieRuns (c.val / 104) then s.pageWrite c.val k else s)

/-- The page that a role waits for opens: its pre-image is copied from one read of it. -/
def State.openPage (s : State) (role : Nat) : State :=
  let p := s.pageSt role
  match p.copying with
  | none => s
  | some i =>
    let s1 := match s.preimageAt role i with
      | some b => { s with hbm := s.hbm.copyRange ((s.pagesOf role).getD i 0 * 65536) b 65536 }
      | none => s
    (s1.setPageSt role ⟨p.opens ++ [i], i + 1, none⟩).closePages role

/-- The pre-image of the page that a role waits for is copied: the page is open. It waits for a retirement of the page, and for the priority
copy of a page that a checkpoint round protects, which is made from the same read (R391); and no page opens after a stop (R223). -/
def State.preimageDone (s : State) (role : Nat) : State :=
  let p := s.pageSt role
  match p.copying with
  | none => s
  | some i =>
    let a := (s.pagesOf role).getD i 0 * 65536
    if s.gateState ≠ gCOMMIT ∨ s.gate.stopped then s.setPageSt role { p with copying := none }
    else if s.retiring a 65536 ∨ s.snapHeld (a / 65536) then s
    else (s.hbmNote a 65536).openPage role

/-- PREIMAGE_COPY_DONE (R222). -/
def execPreimageCopyDone (role : Fin 800) (s : State) : Host.Outcome State Fault Refusal := .next (s.preimageDone role.val)

/-! ## DONE, the step boundary, resumption (R219, R221, R223, R330) -/

/-- Whether the BCAST of a partner's shard has completed here in this step, and none is in flight. -/
def State.bcastDone (s : State) (tgid dev : Nat) : Bool :=
  (tgid, dev) ∈ s.col.bcasts && !s.col.colls.any (fun c => c.gid = tgid && c.op = opBCAST && s.rankDev tgid c.root = dev)

/-- Whether every mirror held here is CURRENT once its roles are done: one that is BEHIND when its BCAST has completed, one that is LOST
not (R334, R345). -/
def State.mirrorsCaught (s : State) : Bool := s.rep.mirrors.all (fun m => m.2 = 1 && (match s.img with
  | some im => im.resil.partners.any (fun p => p.1 = m.1 && s.bcastDone p.2.2 p.2.1)
  | none => false))

/-- The roles that run COMMIT: every live one, and on a referee those of the owner (R339). -/
def State.commitRoles (s : State) : List Nat := if s.rep.referee then s.copyRoles 0 else s.liveRoles

/-- Whether every role has marked COMMITDONE with its last page closed, every mirror held here is CURRENT, and every entry of the step is
acknowledged. -/
def State.commitComplete (s : State) : Bool :=
  s.commitRoles.all (fun r => (s.marks r).commitDone && (s.pageSt r).opens.isEmpty && (s.pageSt r).copying.isNone) &&
  s.mirrorsCaught && s.rep.unacked.all (fun u => !s.livePartners.any (fun p => p.1 = u.2))

/-- Loss-scale growth (R221): a step with a NaN verdict is not clean. -/
def State.growLoss (s : State) : State :=
  let grow := s.hd PEL_CGCFG_LSGROW
  if s.hd PEL_CGSTATE_ATTEMPT ≠ 0 then s
  else
    let c := s.hd PEL_CGSTATE_CLEAN + 1
    if grow ≠ 0 ∧ grow ≤ c then
      let e := s.lsExp + 1
      (s.setHd PEL_CGLS_LSCALE (if e ≤ int8 (s.hd PEL_CGLS_LSMAX) then pow2Code e else s.lscale)).setHd PEL_CGSTATE_CLEAN 0
    else s.setHd PEL_CGSTATE_CLEAN (Nat.min c 65535)

/-- Every mirror held here is CURRENT at DONE (R334). -/
def State.mirrorsDone (s : State) : State := { s with rep := { s.rep with mirrors := [] } }

/-- The referee's result: the copy digest of the owner's shard after COMMIT. It takes no part in the step that follows (R339). -/
def State.refereeDone (s : State) : State :=
  let s1 := ({ s with rep := { s.rep with referee := false } } : State).notePages (s.copyPages 0)
  (s1.setGate gIDLE).emit (.refereeResult (s.copyShard 0) (s.copyDigest (s.copyPages 0)))

/-- GATE_DONE (R219). -/
def execGateDone (s : State) : Host.Outcome State Fault Refusal :=
  .next (if s.hdRuns ∧ s.gateState = gCOMMIT ∧ !s.gate.resuming ∧ !s.gate.stopped ∧ s.commitComplete then
    (if s.rep.referee then s.refereeDone else (s.growLoss.setGate gDONE).mirrorsDone) else s)

/-- Whether the gear change at a boundary may begin: while a write is held for a copy, it waits until every core has reached its gear
point (R285). -/
def State.gearMayBegin (s : State) : Bool :=
  let held := match s.ckp.round with
    | some r => r.held ≠ []
    | none => false
  !held || s.liveSites.all (fun n => (s.site n).f CORE_STATE_STATE = 5 || !(s.site n).active?)

/-- The step boundary: every tandem partner has reached DONE. What is found lasting is reported, and step n + 1 opens (R244, R372). A
domestique that has run a catch-up replay reports ready (R343, R345). -/
def State.boundary (s : State) : State :=
  let s1 : State := { s with pel := { s.pel with selfReports := 0, dueProps := [] } }
  let s2 := (s.pel.dueProps.foldl (fun s p => s.propose p.1 p.2) (s.pel.selfReports.repeat State.selfLasting s1)).openStep (s.stepNo + 1)
  if s.gate.catchUp then
    ({ s2 with gate := { s2.gate with catchUp := false }, rep := { s2.rep with tier2 := s2.rep.tier2.map (fun t => { t with stage := 10, since := s2.time }) } } : State).mirrorsCurrent.mgtSend 0x21 s2.stepNo (BitVec.ofNat 64 s.jobLo) [s.ckLead] []
  else s2

/-- STEP_BOUNDARY (R219). -/
def execStepBoundary (s : State) : Host.Outcome State Fault Refusal :=
  .next (if s.hdRuns ∧ s.gateState = gDONE ∧ s.gearMayBegin then s.boundary else s)

/-- Copies a role's pre-images back over its open pages: the newest one from the single slot, all of them from the log (R223, R338). -/
def State.restorePages (s : State) (role : Nat) : State :=
  let p := s.pageSt role
  let log := s.digestStep (s.stepNo.toNat + 1)
  let is := if log then p.opens else p.opens.getLast?.toList
  let s1 := is.foldl (fun s i => match s.preimageAt role i with
    | some b => { s.hbmNote b 65536 with hbm := (s.hbmNote b 65536).hbm.copyRange b ((s.pagesOf role).getD i 0 * 65536) 65536 }
    | none => s) s
  let s2 := s1.setPageSt role ⟨[], s.cursor role, none⟩
  s2.setMarks role { s2.marks role with commitDone := false }

/-- COMMIT_RESUME (R223): once the cores are stopped, their DMAs complete and the pages of R340 restored, the open pages return to their
pre-images, and every role is to enter COMMIT again at its cursor. -/
def execCommitResume (s : State) : Host.Outcome State Fault Refusal :=
  .next (if !s.hdRuns ∨ s.gateState ≠ gCOMMIT ∨ !s.gate.stopped ∨ s.gate.resuming ∨ !s.restored ∨ s.fenced ∨ s.host.halted ∨
      !s.liveSites.all (fun n => (s.site n).dmas.isEmpty && !(s.site n).active?) then s
    else
      let s1 := s.liveRoles.foldl State.restorePages s
      let s2 : State := { s1 with gate := { s1.gate with resuming := true, replay := true, due := s1.liveRoles } }
      s2.setPhase 5)

/-! ## Step records (R330) -/

/-- An entry of a partner's record: kept once, and acknowledged. -/
def State.partnerEntry (s : State) (p : Nat) (step : BitVec 64) (no : Nat) (e : StepEntry) : State :=
  let l := s.rep.partnerRecs
  let s1 : State := if l.any (fun r => r.1 = p && r.2.1 = step && r.2.2.1 = no) then s
    else { s with rep := { s.rep with partnerRecs := l ++ [(p, step, no, e)] } }
  s1.emit (.recordAck p no)

/-- STEP_RECORD_ENTRY (R330): this module's entry goes to every partner; that of a partner is kept and acknowledged. -/
def execStepRecordEntry (r : RecordIn) (s : State) : Host.Outcome State Fault Refusal :=
  .next (if s.gateState = gIDLE ∨ !s.hdRuns then s
    else match r.src with
      | .own => s.recordEntry s.stepNo r.e
      | .partner p step no => if s.fenced ∨ !s.livePartners.any (fun q => q.1 = p.val) then s else s.partnerEntry p.val step no r.e)

/-- STEP_RECORD_ACK (R330): a fenced module takes none (R373). -/
def execStepRecordAck (partner : Fin 2) (n : Nat) (s : State) : Host.Outcome State Fault Refusal :=
  .next (if s.hdRuns ∧ !s.fenced then { s with rep := { s.rep with unacked := s.rep.unacked.filter (fun u => u ≠ (n, partner.val)) } } else s)

end Sys2Proof.Machine
end

