-- ==== Sys2Proof/Machine/CkptCmds.lean ====
section
/-! DEFINITION. Commands of checkpoints: orders and answers of a round, copy-on-write, storage acknowledgements, failures, and the restore
(R386 to R400). -/

set_option autoImplicit false

namespace Sys2Proof.Machine

/-- Whether the hub die takes part: its clocks run and the module is not fenced (R22, R373). -/
def State.takesPart (s : State) : Bool := s.hdRuns && !s.fenced

/-- An order of the lead captain for this module (R397). -/
def State.ckOrdered (s : State) (m : CkMsg) (typ : Nat) : Bool := s.takesPart && s.ckMine m typ && m.dev.toNat = s.devidx

/-- An answer that the lead captain collects in the round in progress. -/
def State.ckCollects (s : State) (m : CkMsg) (typ : Nat) : Bool :=
  s.takesPart && s.ckMine m typ && s.ckLead = s.devidx && s.ckp.leadRound && m.ckseq.toNat + 1 = s.ckp.nextSeq

/-! ## The round on a module (R388, R393, R396) -/

/-- A round that waits for its boundary. -/
def Round.fresh (m : CkMsg) : Round :=
  { ckseq := m.ckseq.toNat, slot := m.slot.toNat, step := m.step, armed := false, protect := [], copied := [], staged := [], held := [], acked := [],
    stored := [], sealed := false, epoch := 0, lscale := 0, clean := 0 }

/-- An order is taken unless its step is under way already; the same order again changes nothing. A module that leads later counts its
boundary as that of the last order, and its time from here (R386): DEDUCED (log entry 130). -/
def State.takeOrder (s : State) (m : CkMsg) : State :=
  if s.gateState ≠ gIDLE ∧ m.step.toNat ≤ s.stepNo.toNat then s.ckAnswer 2 2 m.slot.toNat m.step.toNat m.ckseq.toNat 0 0
  else if (match s.ckp.round with
    | some r => decide (r.ckseq = m.ckseq.toNat)
    | none => false) then s
  else
    let s1 := ((s.abandonRound.setRound (Round.fresh m)).setHd CKP_STATUS_SLOT m.slot.toNat).setHd CKP_ROUND_CKSEQ m.ckseq.toNat
    if s.ckLead = s.devidx then s1 else { s1 with ckp := { s1.ckp with lead := some (m.step.toNat, s.time) } }

/-- CKORDER (R388). -/
def execCkOrder (m : CkMsg) (s : State) : Host.Outcome State Fault Refusal :=
  .next (if s.ckOrdered m 1 then s.takeOrder m else s)

/-- CKSEAL (R393, R394): with its data complete the module writes its manifest and, the write acknowledged, sends CKSEALED. A module that
cannot sign abandons the round (R428). -/
def execCkSeal (m : CkMsg) (s : State) : Host.Outcome State Fault Refusal :=
  .next (match s.ckp.round with
    | some r =>
      if !s.ckOrdered m 3 ∨ r.ckseq ≠ m.ckseq.toNat ∨ s.hd CKP_STATUS_STATE ≠ 2 ∨ r.sealed then s
      else if !s.provisioned then s.ckFail
      else ((((s.setRound { r with sealed := true }).setHd CKP_STATUS_STATE 3).slotWrite r.slot 0 (s.manifest r)).skipFree).ckAnswer 4 0 r.slot
        r.step.toNat r.ckseq 0 0
    | none => s)

/-- A round is slice-complete on this module. -/
def State.roundOk (s : State) (r : Round) : State :=
  let s1 : State := { s with ckp := { s.ckp with newest := some r.slot } }
  ((s1.endRound.setHd CKP_LASTOK_STEP r.step.toNat).notify 0x06 r.step)

/-- CKOK (R393, R396): the round is complete, or abandoned. -/
def execCkOk (m : CkMsg) (s : State) : Host.Outcome State Fault Refusal :=
  .next (match s.ckp.round with
    | some r =>
      if !s.ckOrdered m 5 ∨ r.ckseq ≠ m.ckseq.toNat then s
      else if m.status = 3 then s.abandonRound
      else if m.status = 0 ∧ r.sealed then s.roundOk r
      else s
    | none => s)

/-- CHECKPOINT_ROUND_FAIL (R396): a poisoned word of an object, which lists its page, or a failed queue pair. -/
def execCheckpointRoundFail (why : RoundFail) (s : State) : Host.Outcome State Fault Refusal :=
  .next (if !s.takesPart then s
    else match s.ckp.round with
      | some r => match why with
        | .poisoned p => if r.armed ∧ p ∈ r.protect ∧ p ∉ r.acked then (s.pageSpoiled p).ckFail else s
        | .queuePair => s.ckFail
      | none => s)

/-! ## The round in the lead captain's part (R386, R387, R393, R396) -/

/-- Whether every module of the slice is in a list. -/
def State.wholeSlice (s : State) (l : List Nat) : Bool := s.slice.all (fun d => d ∈ l)

/-- CKDATA (R393): once every module has its data stored, the round is sealed; FAIL or LATE abandons it. -/
def execCkData (m : CkMsg) (s : State) : Host.Outcome State Fault Refusal :=
  .next (if !s.ckCollects m 2 then s
    else if m.status = 1 ∨ m.status = 2 then s.leadAbandon
    else if m.status = 0 then
      let l := linsert m.dev.toNat s.ckp.dataOk
      let s1 : State := { s with ckp := { s.ckp with dataOk := l } }
      if s.wholeSlice l ∧ !s.wholeSlice s.ckp.dataOk then s1.ckOrderAll 3 0 s.nextSlot m.step.toNat m.ckseq.toNat else s1
    else s)

/-- CKSEALED (R393): once every module has sealed, the round is complete. -/
def execCkSealed (m : CkMsg) (s : State) : Host.Outcome State Fault Refusal :=
  .next (if !s.ckCollects m 4 then s
    else
      let l := linsert m.dev.toNat s.ckp.sealed
      let s1 : State := { s with ckp := { s.ckp with sealed := l } }
      if s.wholeSlice l then
        ({ s1 with ckp := { s1.ckp with leadRound := false, newest := some s.nextSlot } }).ckOrderAll 5 0 s.nextSlot m.step.toNat m.ckseq.toNat
      else s1)

/-- CKTO_EXPIRY (R396). -/
def execCktoExpiry (s : State) : Host.Outcome State Fault Refusal :=
  .next (if s.takesPart && s.ckLead = s.devidx then s.leadAbandon else s)

/-! ## Copy-on-write (R389 to R392, R404) -/

/-- Distinct pages of a die with a held write, in the order in which they were first held. -/
def Round.heldPages (r : Round) (d : Nat) : List Nat := ((r.held.map (·.1)).filter (fun p => pageDie p = d)).eraseDups

/-- Free stage pages of a die. -/
def State.stageFree (s : State) (r : Round) (d : Nat) : Nat := s.stageLen d - (r.staged.filter (fun e => pageDie e.1 = d)).length

/-- SNAPSHOT_HELD_WRITE (R389, R390): a write to a protected page that is not copied yet is held; it waits for storage when the stage has
no free page for it. -/
def execSnapshotHeldWrite (page : Nat) (who : PageWriter) (s : State) : Host.Outcome State Fault Refusal :=
  .next (match s.ckp.round with
    | some r =>
      if !s.dieRuns (pageDie page) ∨ !s.snapHeld page ∨ (page, who) ∈ r.held then s
      else
        let r1 := { r with held := r.held ++ [(page, who)] }
        let d := pageDie page
        let s1 := s.setRound r1
        if s.stageFree r d ≤ (r1.heldPages d).idxOf page then s1.bumpD d SNP_STALL_WAITS 1 else s1
    | none => s)

/-- A pre-image that waits for a page is taken from the same read as its priority copy (R391). -/
def State.openRead (s : State) (page : Nat) : State :=
  (s.liveRoles.filter (fun r => match (s.pageSt r).copying with
    | some i => (s.pagesOf r)[i]? = some page
    | none => false)).foldl State.openPage s

/-- PRIORITY_COPY_DONE (R390, R391): the page is copied into a free page of its die's stage and its held writes go on. It waits for a
retirement of the page; a poisoned word fails the round (R396). -/
def State.priorityCopy (s : State) (r : Round) (page ns : Nat) : State :=
  let d := pageDie page
  let a := page * 65536
  match s.freeStage r d with
  | none => s
  | some i =>
    if s.retiring a 65536 then s
    else if s.hbm.badIn a 65536 then ((s.hbmNote a 65536).pageSpoiled page).ckFail
    else
      let r1 := { r with staged := r.staged ++ [(page, i)], copied := linsert page r.copied, held := r.held.filter (fun h => h.1 ≠ page) }
      let s1 := s.hbmNote a 65536
      let s2 : State := { s1 with hbm := s1.hbm.copyRange a (s.stageAddr d i) 65536 }
      let s3 := (s2.setRound r1).bumpD d SNP_STATUS_PRIO 1
      ((s3.setD d SNP_STALL_MAXNS (Nat.min (Nat.max (s3.d d SNP_STALL_MAXNS) ns) (2 ^ 32 - 1))).showRound r1).openRead page

/-- PRIORITY_COPY_DONE (R390). -/
def execPriorityCopyDone (page : Nat) (ns : Nat) (s : State) : Host.Outcome State Fault Refusal :=
  .next (match s.ckp.round with
    | some r => if s.reaches (pageDie page) && s.snapHeld page && r.held.any (fun h => h.1 = page) then s.priorityCopy r page ns else s
    | none => s)

/-- STAGE_PAGE_FREED (R390): a staged page that storage has acknowledged leaves the stage. -/
def execStagePageFreed (page : Nat) (s : State) : Host.Outcome State Fault Refusal :=
  .next (match s.ckp.round with
    | some r =>
      if s.reaches (pageDie page) ∧ r.staged.any (fun e => e.1 = page) ∧ page ∈ r.acked then
        let r1 := { r with staged := r.staged.filter (fun e => e.1 ≠ page) }
        (s.setRound r1).showRound r1
      else s
    | none => s)

/-- CHECKPOINT_PAGE_WRITE_ACK (R385, R392): storage acknowledges the next page of the round. -/
def execCheckpointPageWriteAck (page : Nat) (s : State) : Host.Outcome State Fault Refusal :=
  .next (match s.ckp.round with
    | some r => if s.takesPart && s.dieRuns (pageDie page) && r.armed && s.nextWrite r = some page then s.ckWritten r page else s
    | none => s)

/-! ## Restore (R399, R400) -/

/-- The boundary of the manifest in a slot of this module's place, or all ones. -/
def State.slotStep (s : State) (slot : Nat) (b : Manifest) : Nat := if s.manifestOk s.devidx slot b then mfStep b else noStep

/-- Answers with the boundaries in this module's slots. -/
def State.answerSlots (s : State) (x : Nat × Nat) : State :=
  ({ s with ckp := { s.ckp with own := x } }).ckAnswer 7 0 0 0 0 x.1 x.2

/-- CKQUERY (R399). -/
def execCkQuery (m : CkMsg) (slots : List Manifest) (s : State) : Host.Outcome State Fault Refusal :=
  .next (if s.ckOrdered m 6 then s.answerSlots (s.slotStep 0 (slots.getD 0 []), s.slotStep 1 (slots.getD 1 [])) else s)

/-- Whether a place has a valid manifest of a boundary, and in which slot. -/
def slotWith (e : Nat × Nat × Nat) (b : Nat) : Option Nat := if e.2.1 = b then some 0 else if e.2.2 = b then some 1 else none

/-- The largest boundary that every place has in a slot. -/
def commonStep (l : List (Nat × Nat × Nat)) : Option Nat :=
  let bs := (l.flatMap (fun e => [e.2.1, e.2.2])).filter (fun b => b ≠ noStep && l.all (fun e => (slotWith e b).isSome))
  bs.foldl (fun a b => match a with
    | some x => some (Nat.max x b)
    | none => some b) none

/-- The lead captain orders the restore once every place has answered, or halts the job when no boundary serves (R399). -/
def State.orderRestore (s : State) : State :=
  let l := s.ckp.slots
  if !s.wholeSlice (l.map (·.1)) then s
  else match commonStep l with
    | some b => l.foldl (fun s e =>
        s.mgtSend 0x20 0 0 [e.1] (ckPayload 8 0 e.1 ((slotWith e b).getD 0) b 0 s.jobLo 0 0)) s
    | none => (s.pelSend 0x0C s.slice true (packWords 1 [(0, 8, 0x0D)])).haltJob 0x0D

/-- CKSLOTS (R399, R400): the lead captain collects the answers; a later one of a place replaces its earlier one, as a failed restore tells
it (log entry 42). -/
def execCkSlots (m : CkMsg) (s : State) : Host.Outcome State Fault Refusal :=
  .next (if !(s.takesPart && s.ckMine m 7 && s.ckLead = s.devidx && m.dev.toNat ∈ s.slice) then s
    else
      let l := s.ckp.slots.filter (fun e => e.1 ≠ m.dev.toNat) ++ [(m.dev.toNat, m.step0.toNat, m.step1.toNat)]
      ({ s with ckp := { s.ckp with slots := l } }).orderRestore)

/-- A failed restore: the module reports the slot empty. -/
def State.restoreFails (s : State) (slot : Nat) : State :=
  let s1 := ({ s with ckp := { s.ckp with restore := none } } : State).setHd CKP_STATUS_STATE 0
  s1.answerSlots (if slot = 0 then noStep else s.ckp.own.1, if slot = 1 then noStep else s.ckp.own.2)

/-- The mirror pages held for a partner, each with the owner's page that it mirrors: the pages of a holder role follow those of its owner
role in order (R331, R350). The owner's commit groups are in its own image. -/
def State.mirrorPages (s : State) (idx : Nat) : List (Nat × Nat) := match s.img with
  | some im => (im.resil.mirrors.filter (fun p => p.1 = idx)).flatMap (fun p =>
      (Config.ownerPages (((im.resil.partners.find? (fun q => q.1 = idx)).map (fun q => q.2.1)).getD 0) p.2.2).zip (s.pagesOf p.2.1))
  | none => []

/-- Whether an object of a manifest is read in a restore (R400): of the own one every object, of an owner's those that hold a page that the
MIRROR pairs name. -/
def State.objNamed (s : State) (r : Restore) (src obj : Nat) : Bool :=
  let o := mfObj (r.mfs.getD src []) obj
  src = 0 || (s.mirrorPages (src - 1)).any (fun e => decide (o.1 ≤ e.1 * 65536 ∧ e.1 * 65536 < o.1 + o.2.2.1))

/-- The first object from one on, of the same manifest or of those behind it, that is read; past the last manifest there is none. The first
argument bounds the objects. -/
def State.seekObj (s : State) (r : Restore) : Nat → Nat → Nat → Nat × Nat
  | 0, src, obj => (src, obj)
  | n + 1, src, obj =>
    if r.mfs.length ≤ src then (src, obj)
    else if mfNobj (r.mfs.getD src []) ≤ obj then s.seekObj r n (src + 1) 0
    else if s.objNamed r src obj then (src, obj)
    else s.seekObj r n src (obj + 1)

/-- The storage region of a slot of a manifest's place: the own slot, or that of an owner, which only the owner's image gives. -/
def State.srcRegion (s : State) (src slot : Nat) : Nat × Nat × Nat :=
  if src = 0 then s.slotRegion slot
  else match s.img with
    | some im => Config.ownerSlot (((im.resil.partners.find? (fun q => q.1 = src - 1)).map (fun q => q.2.1)).getD 0) slot
    | none => (0, 0, 0)

/-- The object that is next is read by RDMA READ (R400). -/
def State.readObj (s : State) (r : Restore) : State :=
  let b := r.mfs.getD r.src []
  let off := numAt b (64 + 64 * r.obj + 16) 8
  s.rdma (s.srcRegion r.src (numAt b 5 1)) off (.rdmaRead r.src off (mfObj b r.obj).2.2.2.1)

/-- Stages 1 to 3 of a restore: the cores stop, and what belongs to the lost steps is emptied. -/
def State.restoreStart (s : State) (b : BitVec 64) (mfs : List Manifest) : State :=
  let s1 := ((s.stopAll 1).abandonRound).panDiscard (fun _ => true)
  let s2 : State := { s1 with rep := { s1.rep with recs := [], unacked := [], partnerRecs := [], poison := [], losing := [], winning := [],
                                                   verdictWait := [], noCopy := [], tier3 := true },
                              net := { s1.net with hold := [] }, col := { s1.col with foldIn := [] },
                              gate := { s1.gate with step := b, due := [], stopped := false, resuming := false },
                              ckp := { s1.ckp with restore := some ⟨mfs, 0, 0, false⟩ } }
  ((if s2.gateState = gIDLE then s2 else s2.setGate gREWIND).setHd CKP_STATUS_STATE 4).readObj ⟨mfs, 0, 0, false⟩

/-- CKRESTORE (R400): of the slot named, with the manifests of the places whose mirrors are held. A manifest that is not valid, or not of
the boundary, fails the restore. -/
def execCkRestore (m : CkMsg) (mf : Manifest) (owners : List Manifest) (s : State) : Host.Outcome State Fault Refusal :=
  .next (if !s.ckOrdered m 8 then s
    else
      let owner := fun (e : Manifest × Nat) => match s.img with
        | some im => (im.resil.partners.find? (fun p => p.1 = e.2)).any (fun p => s.manifestOk p.2.1 (numAt e.1 5 1) e.1)
        | none => false
      if s.manifestOk s.devidx m.slot.toNat mf && owners.zipIdx.all owner && (mf :: owners).all (fun b => mfStep b = m.step.toNat)
      then s.restoreStart m.step (mf :: owners)
      else s.restoreFails m.slot.toNat)

/-- The last object is in place: the gate takes LSCALE and CLEAN from the manifest, the mirrors are CURRENT, and the module reports ready. The
slot restored holds the newest slice-complete checkpoint (R393), and its boundary counts as that of the last order (R386). -/
def State.restoreDone (s : State) (r : Restore) : State :=
  let b := r.mfs.getD 0 []
  let s1 : State := { s with ckp := { s.ckp with restore := none, newest := some (numAt b 5 1), lead := some (s.stepNo.toNat, s.time) }, rep := { s.rep with mirrors := [], tier3 := false } }
  let s2 := (((s1.setHd PEL_CGLS_LSCALE (numAt b 36 4)).setHd PEL_CGSTATE_CLEAN (numAt b 40 2)).mirrorsCurrent).setHd CKP_STATUS_STATE 0
  s2.reportReady s.stepNo true

/-- Writes the bytes of an owner's object at an address into the mirror pages that mirror pages of it. -/
def Mem.fillPages (m : Mem) (ps : List (Nat × Nat)) (base : Nat) (b : Bytes) : Mem :=
  (ps.filter (fun e => decide (base ≤ e.1 * 65536 ∧ e.1 * 65536 < base + b.length))).foldl (fun m e =>
    m.write (e.2 * 65536) ((b.drop (e.1 * 65536 - base)).take 65536) false) m

/-- The object of a restore after one that is in place. -/
def State.nextObj (s : State) (r : Restore) : Restore :=
  let e := s.seekObj r (257 * r.mfs.length) r.src (r.obj + 1)
  { r with src := e.1, obj := e.2, retried := false }

/-- An object whose digest matches is widened and written to its place. -/
def State.restoreObject (s : State) (r : Restore) (stored : Bytes) : State :=
  let o := mfObj (r.mfs.getD r.src []) r.obj
  let b := restoredBytes o.2.1 stored
  let hbm := if r.src = 0 then s.hbm.write o.1 b false else s.hbm.fillPages (s.mirrorPages (r.src - 1)) o.1 b
  let r1 := s.nextObj r
  let s1 : State := { s with hbm := hbm, ckp := { s.ckp with restore := some r1 } }
  if r.mfs.length ≤ r1.src then s1.restoreDone r1 else s1.readObj r1

/-- RESTORE_OBJECT_READ (R400): an object whose digest does not match is read once more, and a second mismatch fails the restore. -/
def execRestoreObjectRead (x : ObjectRead) (s : State) : Host.Outcome State Fault Refusal :=
  .next (match s.ckp.restore with
    | some r =>
      let o := mfObj (r.mfs.getD r.src []) r.obj
      if !s.takesPart ∨ x.src ≠ r.src ∨ x.idx ≠ r.obj ∨ x.second ≠ r.retried then s
      else if x.stored.length = o.2.2.2.1 ∧ sha32 x.stored = o.2.2.2.2 then s.restoreObject r x.stored
      else if r.retried then s.restoreFails (numAt (r.mfs.getD 0 []) 5 1)
      else ({ s with ckp := { s.ckp with restore := some { r with retried := true } } } : State).readObj r
    | none => s)

end Sys2Proof.Machine
end

