-- ==== Sys2Proof/Machine/CollectCmds.lean ====
section
/-! DEFINITION. Commands of the collectives engine and the broom wagon (R308 to R319). -/

set_option autoImplicit false

namespace Sys2Proof.Machine

/-- COLLECTIVE_POST (R309): the DMA that writes a doorbell completes on its token; a write to another role's doorbell or of
another size completes with the error of R133 and posts nothing. -/
def execCollectivePost (c : SiteNo) (door : Fin 800) (bytes : Nat) (desc : BitVec 512) (tok : Fin 16) (s : State) :
    Host.Outcome State Fault Refusal :=
  let n := c.val
  .next (if !s.dieRuns (n / 104) then s else match (s.site n).role with
    | none => s
    | some role =>
      let s1 := s.onSite n (fun x => x.count 0x00C 1)
      if role ≠ door.val ∨ bytes ≠ 64 then s1.tokenEvent n tok.val true false
      else (s1.tokenEvent n tok.val false false).collPost n desc.toNat)

/-- UAL_READY (R317). A fenced module takes no message of the data network (R373). -/
def execUalReady (gid bucket : BitVec 16) (rank : Nat) (s : State) : Host.Outcome State Fault Refusal :=
  .next (if s.fenced then s else s.readyIn gid.toNat bucket.toNat rank)

/-- At CUTOFF (R317): with policy WAIT, or too many late ranks, the decider waits; a replay ignores the timer (R318). -/
def State.cutoff (s : State) (gid bucket : Nat) : State :=
  if (gid, bucket) ∉ s.col.cutoffs ∨ (s.recorded gid bucket).isSome then s
  else
    let late := s.lateRanks gid bucket
    let dl := s.groupDl gid
    if dl.policy = 0 ∨ dl.maxlate < late.length then
      { s with col := { s.col with cutoffs := s.col.cutoffs.filter (fun c => c ≠ (gid, bucket)) } }
    else s.announce gid bucket late (dl.policy = 1)

/-- CUTOFF_EXPIRY (R317). The engine and the broom wagon stop with their die (R20). -/
def execCutoffExpiry (gid bucket : BitVec 16) (s : State) : Host.Outcome State Fault Refusal :=
  .next (if s.dieRuns (ndWin 0) then s.cutoff gid.toNat bucket.toNat else s)

/-- DECIDE (R317): at a rank of the group. -/
def execDecideMsg (gid bucket : BitVec 16) (late : List Nat) (fold : Bool) (s : State) : Host.Outcome State Fault Refusal :=
  .next (if s.fenced ∨ (s.rankIn gid.toNat).isNone then s else s.takeDecision gid.toNat bucket.toNat late fold)

/-- CHUNK_RECEIVE (R308, R312). -/
def execChunkReceive (gid bucket : BitVec 16) (rank chunk : Nat) (ws : List (BitVec 80)) (s : State) :
    Host.Outcome State Fault Refusal :=
  .next (if s.fenced then s else s.chunkIn gid.toNat bucket.toNat rank chunk ws)

/-- CHUNKACK (R308): a rank has combined or stored a chunk. -/
def execChunkAck (gid bucket : BitVec 16) (rank chunk : Nat) (s : State) : Host.Outcome State Fault Refusal :=
  .next (match s.coll gid.toNat bucket.toNat with
    | some c => if s.fenced then s else s.setColl { c with acked := linsert (rank, chunk) c.acked }
    | none => s)

/-- Whether a chunk for rank r is the first that it has not acknowledged, or a later one. -/
def Coll.toResend (c : Coll) (nr me r chunk : Nat) : Bool :=
  (c.pieces nr r me).any (fun k => decide ((r, k.1) ∉ c.acked ∧ k.1 ≤ chunk))

/-- Every chunk from the first unacknowledged one on is sent again, from the panniers (R308). -/
def State.resumeColl (s : State) (c : Coll) (me : Nat) : State :=
  let nr := s.nranks c.gid
  let want := fun (p : UalPkt) => p.h.cls.toNat = 1 && p.h.kind.toNat = 0 && p.h.stream.toNat = c.gid && p.h.mb.toNat = c.bucket &&
    p.h.step = c.step && (List.range nr).any (fun r => r ≠ me && p.h.dstdev.toNat = s.rankDev c.gid r &&
      c.toResend nr me r p.h.msg.toNat)
  let ps := (s.kept 0 ++ s.kept 1).filter (fun k => want k.pkt)
  ps.foldl (fun s k => s.resend k.pkt none) (s.bumpD (ndWin 0) COL_STATUS_RESUME 1)

/-- COLLECTIVE_RESUME (R308). -/
def execCollectiveResume (gid bucket : BitVec 16) (s : State) : Host.Outcome State Fault Refusal :=
  .next (if !s.dieRuns (ndWin 0) then s else match s.coll gid.toNat bucket.toNat, s.rankIn gid.toNat with
    | some c, some me => s.resumeColl c me
    | _, _ => s)

/-- COLLECTIVE_COMPLETE (R316): a collective whose decision is known and whose contributions are all here completes; the sources of others that
it wrote may be complete with it (R317), and CHECK begins when it was the last (R25). -/
def execCollectiveComplete (gid bucket : BitVec 16) (s : State) : Host.Outcome State Fault Refusal :=
  .next (if !s.dieRuns (ndWin 0) then s else match s.coll gid.toNat bucket.toNat, s.rankIn gid.toNat with
    | some c, some me => match c.decision with
      | some d => if s.collReady c me d.1 then (s.collComplete c me d.1).sendReadies.checkBegin else s
      | none => s
    | _, _ => s)

/-- COLLECTIVE_DEADLINE (R319): a collective still in flight here, or a bucket that its decider still awaits. -/
def execCollectiveDeadline (gid bucket : BitVec 16) (s : State) : Host.Outcome State Fault Refusal :=
  let g := gid.toNat
  let b := bucket.toNat
  let waits := (s.rankIn g = some 0 && !s.col.decisions.any (fun d => d.1 = g && d.2.1 = b) && s.readyRanks g b ≠ [])
  .next (if !s.dieRuns (ndWin 0) ∨ (s.groupDl g).deadline = 0 ∨ ((s.coll g b).isNone ∧ !waits) then s
    else
      let bl := s.collBlame g b
      let r := (s.lateRanks g b).headD 0xFFFF
      s.missDeadline 0x05 bl g r b)

/-- Modules whose READY or chunks the broom wagon awaits for a collective. -/
def State.awaited (s : State) (c : Coll) : List Nat :=
  let nr := s.nranks c.gid
  match s.rankIn c.gid with
  | none => []
  | some me => match c.decision with
    | none => if me = 0 then (s.lateRanks c.gid c.bucket).map (s.rankDev c.gid) else []
    | some d => ((List.range nr).filter (fun r => r ≠ me && r ∉ d.1 && (c.pieces nr me r).any (fun k =>
        !c.contrib.any (fun x => x.1 = r && x.2.1 = k.1)))).map (s.rankDev c.gid)

/-- Modules whose CHECK partial or digest records have not arrived: this one where its digests are not complete, else those below it in the tree. -/
def State.checkMissing (s : State) : List Nat :=
  if s.rep.check.begun then [s.devidx]
  else if s.rep.check.own.isSome then s.checkTree.2.filter (fun k => !s.rep.check.kids.any (fun x => x.1 = k))
  else []

/-- Modules blamed for a phase timer (R375). -/
def State.phaseBlame (s : State) (t : Nat) : List Nat :=
  if t = 1 then (if s.liveRoles.all (fun r => (s.marks r).bwdDone) then [] else [s.devidx])
  else if t = 4 then (if s.liveRoles.all (fun r => (s.marks r).commitDone) then [] else [s.devidx])
  else if t = 2 then (s.col.colls.flatMap s.awaited).eraseDups
  else s.checkMissing

/-- PHASE_TIMER_EXPIRY (R319): of the phase timer that is armed, if its limit is not 0. -/
def execPhaseTimerExpiry (s : State) : Host.Outcome State Fault Refusal :=
  let w := ndWin 0
  let t := s.d w BRM_STATUS_TIMER
  .next (if !s.dieRuns w ∨ t = 0 ∨ s.phaseLimit t = 0 then s
    else (s.setD w BRM_STATUS_TIMER 0).missDeadline t (s.phaseBlame t) 0 0xFFFF t)

end Sys2Proof.Machine
end

