-- ==== Sys2Proof/Machine/CoreOps.lean ====
section
/-! DEFINITION. The commands of the core slots: a bundle, and each operation of a slot as a command of its own (R127, R155 to
R185; log entries 7 and 23). -/

set_option autoImplicit false

namespace Sys2Proof.Machine

/-- BUNDLE_ISSUE (R127): a bundle whose token wait is met issues all its slots in one ACLK cycle and subtracts its wait count from the token. -/
def execBundleIssue (c : SiteNo) (s : State) : Host.Outcome State Fault Refusal :=
  .next (s.coreCycle c.val)

/-- NOP (R155): opcode 0x00 in any slot does nothing. -/
def execNop (c : SiteNo) (slot : Fin 12) (s : State) : Host.Outcome State Fault Refusal :=
  .next (soloOp c.val (.nop slot.val 0) s)

/-- ADD (R161): scalar add modulo 2^64. -/
def execAdd (c : SiteNo) (f : ScF) (s : State) : Host.Outcome State Fault Refusal :=
  .next (soloOp c.val (.sc .add f) s)

/-- SUB (R161): scalar subtract modulo 2^64. -/
def execSub (c : SiteNo) (f : ScF) (s : State) : Host.Outcome State Fault Refusal :=
  .next (soloOp c.val (.sc .sub f) s)

/-- AND (R161): scalar bitwise and. -/
def execAnd (c : SiteNo) (f : ScF) (s : State) : Host.Outcome State Fault Refusal :=
  .next (soloOp c.val (.sc .and f) s)

/-- OR (R161): scalar bitwise or. -/
def execOr (c : SiteNo) (f : ScF) (s : State) : Host.Outcome State Fault Refusal :=
  .next (soloOp c.val (.sc .or f) s)

/-- XOR (R161): scalar bitwise exclusive-or. -/
def execXor (c : SiteNo) (f : ScF) (s : State) : Host.Outcome State Fault Refusal :=
  .next (soloOp c.val (.sc .xor f) s)

/-- SHL (R161): scalar shift left by a register count. -/
def execShl (c : SiteNo) (f : ScF) (s : State) : Host.Outcome State Fault Refusal :=
  .next (soloOp c.val (.sc .shl f) s)

/-- SHR (R161): scalar logical shift right by a register count. -/
def execShr (c : SiteNo) (f : ScF) (s : State) : Host.Outcome State Fault Refusal :=
  .next (soloOp c.val (.sc .shr f) s)

/-- SRA (R161): scalar arithmetic shift right by a register count. -/
def execSra (c : SiteNo) (f : ScF) (s : State) : Host.Outcome State Fault Refusal :=
  .next (soloOp c.val (.sc .sra f) s)

/-- MIN (R161): scalar signed minimum. -/
def execMin (c : SiteNo) (f : ScF) (s : State) : Host.Outcome State Fault Refusal :=
  .next (soloOp c.val (.sc .min f) s)

/-- MAX (R161): scalar signed maximum. -/
def execMax (c : SiteNo) (f : ScF) (s : State) : Host.Outcome State Fault Refusal :=
  .next (soloOp c.val (.sc .max f) s)

/-- MINU (R161): scalar unsigned minimum. -/
def execMinu (c : SiteNo) (f : ScF) (s : State) : Host.Outcome State Fault Refusal :=
  .next (soloOp c.val (.sc .minu f) s)

/-- MAXU (R161): scalar unsigned maximum. -/
def execMaxu (c : SiteNo) (f : ScF) (s : State) : Host.Outcome State Fault Refusal :=
  .next (soloOp c.val (.sc .maxu f) s)

/-- ADDI (R161): scalar add of a sign-extended immediate. -/
def execAddi (c : SiteNo) (f : ScF) (s : State) : Host.Outcome State Fault Refusal :=
  .next (soloOp c.val (.sc .addi f) s)

/-- ANDI (R161): scalar and with a sign-extended immediate. -/
def execAndi (c : SiteNo) (f : ScF) (s : State) : Host.Outcome State Fault Refusal :=
  .next (soloOp c.val (.sc .andi f) s)

/-- ORI (R161): scalar or with a sign-extended immediate. -/
def execOri (c : SiteNo) (f : ScF) (s : State) : Host.Outcome State Fault Refusal :=
  .next (soloOp c.val (.sc .ori f) s)

/-- XORI (R161): scalar exclusive-or with a sign-extended immediate. -/
def execXori (c : SiteNo) (f : ScF) (s : State) : Host.Outcome State Fault Refusal :=
  .next (soloOp c.val (.sc .xori f) s)

/-- SHLI (R161): scalar shift left by an immediate. -/
def execShli (c : SiteNo) (f : ScF) (s : State) : Host.Outcome State Fault Refusal :=
  .next (soloOp c.val (.sc .shli f) s)

/-- SHRI (R161): scalar logical shift right by an immediate. -/
def execShri (c : SiteNo) (f : ScF) (s : State) : Host.Outcome State Fault Refusal :=
  .next (soloOp c.val (.sc .shri f) s)

/-- SRAI (R161): scalar arithmetic shift right by an immediate. -/
def execSrai (c : SiteNo) (f : ScF) (s : State) : Host.Outcome State Fault Refusal :=
  .next (soloOp c.val (.sc .srai f) s)

/-- MOVI (R161): loads a sign-extended immediate into a scalar register. -/
def execMovi (c : SiteNo) (f : ScF) (s : State) : Host.Outcome State Fault Refusal :=
  .next (soloOp c.val (.sc .movi f) s)

/-- MOVH (R161): replaces bits 63:48 of a scalar value with a 16-bit immediate. -/
def execMovh (c : SiteNo) (f : ScF) (s : State) : Host.Outcome State Fault Refusal :=
  .next (soloOp c.val (.sc .movh f) s)

/-- MUL (R161): low 64 bits of a scalar product, latency 3. -/
def execMul (c : SiteNo) (f : ScF) (s : State) : Host.Outcome State Fault Refusal :=
  .next (soloOp c.val (.sc .mul f) s)

/-- MULH (R161): high 64 bits of a signed scalar product. -/
def execMulh (c : SiteNo) (f : ScF) (s : State) : Host.Outcome State Fault Refusal :=
  .next (soloOp c.val (.sc .mulh f) s)

/-- MULHU (R161): high 64 bits of an unsigned scalar product. -/
def execMulhu (c : SiteNo) (f : ScF) (s : State) : Host.Outcome State Fault Refusal :=
  .next (soloOp c.val (.sc .mulhu f) s)

/-- CEQ (R161): sets a predicate to all ones when two scalars are equal. -/
def execCeq (c : SiteNo) (f : ScF) (s : State) : Host.Outcome State Fault Refusal :=
  .next (soloOp c.val (.sc .ceq f) s)

/-- CNE (R161): sets a predicate when two scalars differ. -/
def execCne (c : SiteNo) (f : ScF) (s : State) : Host.Outcome State Fault Refusal :=
  .next (soloOp c.val (.sc .cne f) s)

/-- CLT (R161): sets a predicate on a signed less-than. -/
def execClt (c : SiteNo) (f : ScF) (s : State) : Host.Outcome State Fault Refusal :=
  .next (soloOp c.val (.sc .clt f) s)

/-- CLTU (R161): sets a predicate on an unsigned less-than. -/
def execCltu (c : SiteNo) (f : ScF) (s : State) : Host.Outcome State Fault Refusal :=
  .next (soloOp c.val (.sc .cltu f) s)

/-- CGE (R161): sets a predicate on a signed greater-or-equal. -/
def execCge (c : SiteNo) (f : ScF) (s : State) : Host.Outcome State Fault Refusal :=
  .next (soloOp c.val (.sc .cge f) s)

/-- CGEU (R161): sets a predicate on an unsigned greater-or-equal. -/
def execCgeu (c : SiteNo) (f : ScF) (s : State) : Host.Outcome State Fault Refusal :=
  .next (soloOp c.val (.sc .cgeu f) s)

/-- PAND (R161): predicate and over 128 bits. -/
def execPand (c : SiteNo) (f : ScF) (s : State) : Host.Outcome State Fault Refusal :=
  .next (soloOp c.val (.sc .pand f) s)

/-- POR (R161): predicate or over 128 bits. -/
def execPor (c : SiteNo) (f : ScF) (s : State) : Host.Outcome State Fault Refusal :=
  .next (soloOp c.val (.sc .por f) s)

/-- PXOR (R161): predicate exclusive-or over 128 bits. -/
def execPxor (c : SiteNo) (f : ScF) (s : State) : Host.Outcome State Fault Refusal :=
  .next (soloOp c.val (.sc .pxor f) s)

/-- PANDN (R161): predicate and-not over 128 bits. -/
def execPandn (c : SiteNo) (f : ScF) (s : State) : Host.Outcome State Fault Refusal :=
  .next (soloOp c.val (.sc .pandn f) s)

/-- MFSR (R162): reads a special register into a scalar register. -/
def execMfsr (c : SiteNo) (f : ScF) (s : State) : Host.Outcome State Fault Refusal :=
  .next (soloOp c.val (.sc .mfsr f) s)

/-- MTSR (R162): writes core.status, core.vfl, core.vctl or core.mark from a scalar register. -/
def execMtsr (c : SiteNo) (f : ScF) (s : State) : Host.Outcome State Fault Refusal :=
  .next (soloOp c.val (.sc .mtsr f) s)

/-- B (R164): branch to TARGET after two delay bundles when the predicate bit is set. -/
def execBranch (c : SiteNo) (f : BrF) (s : State) : Host.Outcome State Fault Refusal :=
  .next (soloOp c.val (.br .b f) s)

/-- BL (R164): branch and write the link register. -/
def execBranchLink (c : SiteNo) (f : BrF) (s : State) : Host.Outcome State Fault Refusal :=
  .next (soloOp c.val (.br .bl f) s)

/-- JR (R164): branch to the bundle index held in a register. -/
def execJumpReg (c : SiteNo) (f : BrF) (s : State) : Host.Outcome State Fault Refusal :=
  .next (soloOp c.val (.br .jr f) s)

/-- ARRIVE (R134): arrival at the barrier group bound to a barrier token. -/
def execArrive (c : SiteNo) (f : BrF) (s : State) : Host.Outcome State Fault Refusal :=
  .next (soloOp c.val (.br .arrive f) s)

/-- VADD (R169): vector floating add per enabled lane. -/
def execVadd (c : SiteNo) (f : VecF) (s : State) : Host.Outcome State Fault Refusal :=
  .next (soloOp c.val (.vec .vadd f) s)

/-- VSUB (R169): vector floating subtract. -/
def execVsub (c : SiteNo) (f : VecF) (s : State) : Host.Outcome State Fault Refusal :=
  .next (soloOp c.val (.vec .vsub f) s)

/-- VMUL (R169): vector floating multiply. -/
def execVmul (c : SiteNo) (f : VecF) (s : State) : Host.Outcome State Fault Refusal :=
  .next (soloOp c.val (.vec .vmul f) s)

/-- VFMA (R170): vector fused multiply-add rounded once. -/
def execVfma (c : SiteNo) (f : VecF) (s : State) : Host.Outcome State Fault Refusal :=
  .next (soloOp c.val (.vec .vfma f) s)

/-- VFMS (R170): vector fused multiply-subtract rounded once. -/
def execVfms (c : SiteNo) (f : VecF) (s : State) : Host.Outcome State Fault Refusal :=
  .next (soloOp c.val (.vec .vfms f) s)

/-- VMIN (R169): vector IEEE minimum. -/
def execVmin (c : SiteNo) (f : VecF) (s : State) : Host.Outcome State Fault Refusal :=
  .next (soloOp c.val (.vec .vmin f) s)

/-- VMAX (R169): vector IEEE maximum. -/
def execVmax (c : SiteNo) (f : VecF) (s : State) : Host.Outcome State Fault Refusal :=
  .next (soloOp c.val (.vec .vmax f) s)

/-- VABS (R169): vector magnitude. -/
def execVabs (c : SiteNo) (f : VecF) (s : State) : Host.Outcome State Fault Refusal :=
  .next (soloOp c.val (.vec .vabs f) s)

/-- VNEG (R169): vector sign inversion. -/
def execVneg (c : SiteNo) (f : VecF) (s : State) : Host.Outcome State Fault Refusal :=
  .next (soloOp c.val (.vec .vneg f) s)

/-- VFCMP (R170): vector floating compare into a predicate. -/
def execVfcmp (c : SiteNo) (f : VecF) (s : State) : Host.Outcome State Fault Refusal :=
  .next (soloOp c.val (.vec .vfcmp f) s)

/-- VICMP (R170): vector integer compare into a predicate. -/
def execVicmp (c : SiteNo) (f : VecF) (s : State) : Host.Outcome State Fault Refusal :=
  .next (soloOp c.val (.vec .vicmp f) s)

/-- VIADD (R169): vector integer add modulo 2^w. -/
def execViadd (c : SiteNo) (f : VecF) (s : State) : Host.Outcome State Fault Refusal :=
  .next (soloOp c.val (.vec .viadd f) s)

/-- VISUB (R169): vector integer subtract modulo 2^w. -/
def execVisub (c : SiteNo) (f : VecF) (s : State) : Host.Outcome State Fault Refusal :=
  .next (soloOp c.val (.vec .visub f) s)

/-- VAND (R169): vector bitwise and. -/
def execVand (c : SiteNo) (f : VecF) (s : State) : Host.Outcome State Fault Refusal :=
  .next (soloOp c.val (.vec .vand f) s)

/-- VOR (R169): vector bitwise or. -/
def execVor (c : SiteNo) (f : VecF) (s : State) : Host.Outcome State Fault Refusal :=
  .next (soloOp c.val (.vec .vor f) s)

/-- VXOR (R169): vector bitwise exclusive-or. -/
def execVxor (c : SiteNo) (f : VecF) (s : State) : Host.Outcome State Fault Refusal :=
  .next (soloOp c.val (.vec .vxor f) s)

/-- VSHL (R169): vector shift left. -/
def execVshl (c : SiteNo) (f : VecF) (s : State) : Host.Outcome State Fault Refusal :=
  .next (soloOp c.val (.vec .vshl f) s)

/-- VSHR (R169): vector logical shift right. -/
def execVshr (c : SiteNo) (f : VecF) (s : State) : Host.Outcome State Fault Refusal :=
  .next (soloOp c.val (.vec .vshr f) s)

/-- VSRA (R169): vector arithmetic shift right. -/
def execVsra (c : SiteNo) (f : VecF) (s : State) : Host.Outcome State Fault Refusal :=
  .next (soloOp c.val (.vec .vsra f) s)

/-- VIMIN (R169): vector signed minimum. -/
def execVimin (c : SiteNo) (f : VecF) (s : State) : Host.Outcome State Fault Refusal :=
  .next (soloOp c.val (.vec .vimin f) s)

/-- VIMAX (R169): vector signed maximum. -/
def execVimax (c : SiteNo) (f : VecF) (s : State) : Host.Outcome State Fault Refusal :=
  .next (soloOp c.val (.vec .vimax f) s)

/-- VSEL (R169): selects every lane from two sources by predicate. -/
def execVsel (c : SiteNo) (f : VecF) (s : State) : Host.Outcome State Fault Refusal :=
  .next (soloOp c.val (.vec .vsel f) s)

/-- VROT (R169): rotates the lanes of a vector. -/
def execVrot (c : SiteNo) (f : VecF) (s : State) : Host.Outcome State Fault Refusal :=
  .next (soloOp c.val (.vec .vrot f) s)

/-- VBCAST (R169): broadcasts a scalar into every enabled lane. -/
def execVbcast (c : SiteNo) (f : VecF) (s : State) : Host.Outcome State Fault Refusal :=
  .next (soloOp c.val (.vec .vbcast f) s)

/-- VEXT (R169): extracts one lane into a scalar register. -/
def execVext (c : SiteNo) (f : VecF) (s : State) : Host.Outcome State Fault Refusal :=
  .next (soloOp c.val (.vec .vext f) s)

/-- VCVT (R171): converts vector lanes between formats by the conversion procedure. -/
def execVcvt (c : SiteNo) (f : VecF) (s : State) : Host.Outcome State Fault Refusal :=
  .next (soloOp c.val (.vec .vcvt f) s)

/-- VQBLK (R173): quantises 64 F32 lanes into X8-scaled blocks. -/
def execVqblk (c : SiteNo) (f : VecF) (s : State) : Host.Outcome State Fault Refusal :=
  .next (soloOp c.val (.vec .vqblk f) s)

/-- VTLU (R174): evaluates a piecewise-cubic table on F32 lanes. -/
def execVtlu (c : SiteNo) (f : VecF) (s : State) : Host.Outcome State Fault Refusal :=
  .next (soloOp c.val (.vec .vtlu f) s)

/-- LD1U (R176): loads a zero-extended byte. -/
def execLd1u (c : SiteNo) (f : LsF) (s : State) : Host.Outcome State Fault Refusal :=
  .next (soloOp c.val (.ls .ld1u f) s)

/-- LD1S (R176): loads a sign-extended byte. -/
def execLd1s (c : SiteNo) (f : LsF) (s : State) : Host.Outcome State Fault Refusal :=
  .next (soloOp c.val (.ls .ld1s f) s)

/-- LD2U (R176): loads a zero-extended halfword. -/
def execLd2u (c : SiteNo) (f : LsF) (s : State) : Host.Outcome State Fault Refusal :=
  .next (soloOp c.val (.ls .ld2u f) s)

/-- LD2S (R176): loads a sign-extended halfword. -/
def execLd2s (c : SiteNo) (f : LsF) (s : State) : Host.Outcome State Fault Refusal :=
  .next (soloOp c.val (.ls .ld2s f) s)

/-- LD4U (R176): loads a zero-extended word. -/
def execLd4u (c : SiteNo) (f : LsF) (s : State) : Host.Outcome State Fault Refusal :=
  .next (soloOp c.val (.ls .ld4u f) s)

/-- LD4S (R176): loads a sign-extended word. -/
def execLd4s (c : SiteNo) (f : LsF) (s : State) : Host.Outcome State Fault Refusal :=
  .next (soloOp c.val (.ls .ld4s f) s)

/-- LD8 (R176): loads an 8-byte word. -/
def execLd8 (c : SiteNo) (f : LsF) (s : State) : Host.Outcome State Fault Refusal :=
  .next (soloOp c.val (.ls .ld8 f) s)

/-- ST1 (R176): stores one byte. -/
def execSt1 (c : SiteNo) (f : LsF) (s : State) : Host.Outcome State Fault Refusal :=
  .next (soloOp c.val (.ls .st1 f) s)

/-- ST2 (R176): stores two bytes. -/
def execSt2 (c : SiteNo) (f : LsF) (s : State) : Host.Outcome State Fault Refusal :=
  .next (soloOp c.val (.ls .st2 f) s)

/-- ST4 (R176): stores four bytes. -/
def execSt4 (c : SiteNo) (f : LsF) (s : State) : Host.Outcome State Fault Refusal :=
  .next (soloOp c.val (.ls .st4 f) s)

/-- ST8 (R176): stores eight bytes. -/
def execSt8 (c : SiteNo) (f : LsF) (s : State) : Host.Outcome State Fault Refusal :=
  .next (soloOp c.val (.ls .st8 f) s)

/-- VLD128 (R176): loads 128 bytes into the low half of a vector register. -/
def execVld128 (c : SiteNo) (f : LsF) (s : State) : Host.Outcome State Fault Refusal :=
  .next (soloOp c.val (.ls .vld128 f) s)

/-- VLD256 (R176): loads 256 bytes into a vector register. -/
def execVld256 (c : SiteNo) (f : LsF) (s : State) : Host.Outcome State Fault Refusal :=
  .next (soloOp c.val (.ls .vld256 f) s)

/-- VST128 (R176): stores the low 128 bytes of a vector register. -/
def execVst128 (c : SiteNo) (f : LsF) (s : State) : Host.Outcome State Fault Refusal :=
  .next (soloOp c.val (.ls .vst128 f) s)

/-- VST256 (R176): stores a whole vector register. -/
def execVst256 (c : SiteNo) (f : LsF) (s : State) : Host.Outcome State Fault Refusal :=
  .next (soloOp c.val (.ls .vst256 f) s)

/-- An ST8 of `v` to a port of channel `ch` of a running core (R212): a channel that is not in use raises ACCESS with
detail UNMAP; `send` says which direction the command is for, and a channel of the other one is left as it is. -/
def portCmd (n ch off : Nat) (send : Bool) (v : Word) (s : State) : State :=
  let c := s.site n
  if c.f CORE_STATE_STATE ≠ 1 ∨ !s.dieRuns (n / 104) then s
  else if !c.chanOn ch then s.raise n [violAccess 9 acUNMAP]
  else if c.sends ch = send then s.portStore n ch off v
  else s

/-- CH_POST (R212): an ST8 to a send channel's port posts the next k filled slots. -/
def execChPost (c : SiteNo) (ch : Fin 6) (v : BitVec 64) (s : State) : Host.Outcome State Fault Refusal :=
  .next (portCmd c.val ch.val 0 true v s)

/-- CH_RELEASE (R212): an ST8 to a receive channel's port frees the k oldest slots and returns credits. -/
def execChRelease (c : SiteNo) (ch : Fin 6) (v : BitVec 64) (s : State) : Host.Outcome State Fault Refusal :=
  .next (portCmd c.val ch.val 0 false v s)

/-- CH_MB (R212): an ST8 sets the micro-batch index stamped on the next posted slot. -/
def execChMb (c : SiteNo) (ch : Fin 6) (v : BitVec 64) (s : State) : Host.Outcome State Fault Refusal :=
  .next (portCmd c.val ch.val 16 true v s)

/-- A store of `k` bytes of vector register `vr` to the merge alias of record `r` (R205, R208): ALIGN unless naturally
aligned, ACCOVL while a scheduled row of the record set is not written. -/
def mergeStore (n k r vr : Nat) (s : State) : State :=
  let c := s.site n
  if c.f CORE_STATE_STATE ≠ 1 ∨ !s.dieRuns (n / 104) then s
  else if 32 * r % k ≠ 0 then s.raise n [violAccess 9 acALIGN]
  else
    let ovl := (c.pendingRows.filter (fun d => d.desc.inSeq && d.desc.rset = r / 256)).map (fun d => violArray 9 d.arr hzACCOVL)
    if ovl ≠ [] then s.raise n ovl
    else
      let v := c.vreg vr
      s.onSite n (fun c => c.storeBytes c.active (0x2004000 + 32 * r) ((leBytes k v.val.toNat).map (fun b => (b, v.poi))))

/-- RECORD_MERGE_STORE (R208): a store to the merge alias merges each carried record into the resident record. -/
def execRecordMergeStore (c : SiteNo) (wide : Bool) (r : Fin 512) (vr : BitVec 5) (s : State) : Host.Outcome State Fault Refusal :=
  .next (mergeStore c.val (if wide then 256 else 128) r.val vr.toNat s)

/-- FEED (R178): reads an activation vector from the core store into the stream. -/
def execFeed (c : SiteNo) (f : FeedF) (s : State) : Host.Outcome State Fault Refusal :=
  .next (soloOp c.val (.feed false f) s)

/-- FEEDV (R178): puts a chunk of a vector register into the stream. -/
def execFeedv (c : SiteNo) (f : FeedF) (s : State) : Host.Outcome State Fault Refusal :=
  .next (soloOp c.val (.feed true f) s)

/-- LDW (R71): loads one weight tile into a buffer of a pack, row by row. -/
def execLdw (c : SiteNo) (a : Fin 4) (f : LdwF) (s : State) : Host.Outcome State Fault Refusal :=
  .next (soloOp c.val (.ldw a.val f) s)

/-- PASS (R73): connects packs to the stream for M vectors into accumulator rows. -/
def execPass (c : SiteNo) (a : Fin 4) (f : PassF) (s : State) : Host.Outcome State Fault Refusal :=
  .next (soloOp c.val (.pass a.val f) s)

/-- DRAIN (R76): reads accumulator rows to the drain unit. -/
def execDrain (c : SiteNo) (a : Fin 4) (f : DrainF) (s : State) : Host.Outcome State Fault Refusal :=
  .next (soloOp c.val (.drain a.val f) s)

/-- DMAC (R184): starts a contiguous DMA copy. -/
def execDmac (c : SiteNo) (f : DmacF) (s : State) : Host.Outcome State Fault Refusal :=
  .next (soloOp c.val (.dmac f) s)

/-- DMAD (R185): reads a descriptor and starts a COPY or TRANSPOSE DMA. -/
def execDmad (c : SiteNo) (f : DmadF) (s : State) : Host.Outcome State Fault Refusal :=
  .next (soloOp c.val (.dmad f) s)

/-- The drain-port read of a row of the queue. -/
def Site.captureRow (c : Site) (r : DrainRow) : Site :=
  let p := c.portRead r
  p.1.putRow r { r with cap := some p.2 }

/-- The rows that a DRAIN reads before the add of a vector fed in cycle t is written (R76), read now. -/
def Site.readBefore (a t : Nat) (c : Site) : Site :=
  (c.pendingRows.filter (fun r => r.op && r.arr = a && r.cap.isNone && decide (r.rd ≤ t + 20))).foldl Site.captureRow c

/-- The row that a pass with DRN set scheduled for the oldest vector of a pack, read right after its add (R74). -/
def Site.readAfter (a p : Nat) (c : Site) : Site :=
  match c.pendingRows.find? (fun r => !r.op && r.arr = a && r.pack = p && r.cap.isNone) with
  | some r => c.captureRow r
  | none => c

/-- The accumulator write of the oldest vector of an array, in its place among the drain-port reads. -/
def Site.addNext (c : Site) (a : Nat) : Site :=
  match (c.arr a).vecs with
  | [] => c
  | v :: _ =>
    let c1 := (c.readBefore a v.cyc).addOldest a
    if v.drn then c1.readAfter a v.pack else c1

/-- ACC_ADD (R94): a captured vector's column sums are added into its accumulator row with compensation. -/
def execAccAdd (c : SiteNo) (a : Fin 4) (s : State) : Host.Outcome State Fault Refusal :=
  .next (if s.dieRuns (c.val / 104) then s.onSite c.val (fun x => x.addNext a.val) else s)

/-- Adds vectors of an array until a row that a pass scheduled has been read; the first argument bounds the vectors. -/
def Site.addUntilRead : Nat → Nat → Nat → Site → Site
  | 0, _, _, c => c
  | k + 1, a, p, c =>
    match c.pendingRows with
    | r :: _ => if r.op || r.cap.isSome then c else Site.addUntilRead k a p (c.addNext a)
    | [] => c

/-- Takes the oldest row that is not written through the drain stages. -/
def Site.drainOldest (c : Site) : Site :=
  match c.pendingRows with
  | [] => c
  | r :: _ =>
    let c1 := Site.addUntilRead (c.arr r.arr).vecs.length r.arr r.pack c
    match c1.pendingRows with
    | q :: _ => c1.forceRow q
    | [] => c1

/-- DRAIN_ROW (R190): a row passes through the drain stages and is written with its flags. -/
def execDrainRow (c : SiteNo) (s : State) : Host.Outcome State Fault Refusal :=
  .next (if s.dieRuns (c.val / 104) then s.onSite c.val Site.drainOldest else s)

/-- ARR_REPAIR_APPLY (R87): a new repair map takes effect once the array is idle and clears all ready bits. -/
def execArrRepairApply (c : SiteNo) (a : Fin 4) (s : State) : Host.Outcome State Fault Refusal :=
  .next (if s.dieRuns (c.val / 104) then s.onSite c.val (fun x => x.applyRepair a.val) else s)

end Sys2Proof.Machine
end

