-- ==== Sys2Proof/Machine/FacCmds.lean ====
section
/-! DEFINITION. The facility port: frames across the barrier and their contents, the supply and the target limit; and the Gwegin meter
(R438 to R445, R447, R455, R461, R462, R490, R493). -/

set_option autoImplicit false

namespace Sys2Proof.Machine

/-! ## The barrier (R438, R439, R461, R493) -/

/-- Codes. -/
def fcFSTAT : Nat := 1
def fcFALARM : Nat := 2
def fcFCOOL : Nat := 3
def fcFPWR : Nat := 4
def fcFMTR : Nat := 5
def fcFMTRQ : Nat := 6
def fcFID : Nat := 7

/-- Data bytes and frames per second of a code. -/
def canBytes (code : Nat) : Nat := if code = fcFSTAT ∨ code = fcFID then 16 else if code = fcFMTR then 64 else 8
def canRate (code : Nat) : Nat := if code = fcFSTAT then 20 else if code = fcFMTR then 50 else if code = fcFID then 1 else 10

/-- Whether a code crosses outward. -/
def canOut (code : Nat) : Bool := code = fcFSTAT || code = fcFALARM || code = fcFMTR || code = fcFID

/-- Whether an inbound frame has no reserved value and no reserved bit set. -/
def canClean (code : Nat) (d : Bytes) : Bool :=
  let v := leNat d
  if code = fcFCOOL then decide (v % 256 ≤ 2 ∧ v < 2 ^ 40) else if code = fcFPWR then decide (v < 2 ^ 16) else decide (v < 2 ^ 32)

/-- One second of time. -/
def secUnits : Nat := 40000

/-- A frame at the barrier: whether it crosses. At node address 0x7F, and without its supply, the bridge carries nothing. -/
def State.cross (s : State) (outward : Bool) (code node : Nat) (d : Bytes) : State × Bool :=
  let near := s.fac.sent.filter (fun e => decide (s.time < e.2 + secUnits))
  if !s.fac.up ∨ s.fac.node = 0x7F then (s, false)
  else if code = 0 ∨ 7 < code ∨ canOut code ≠ outward ∨ d.length ≠ canBytes code ∨ node ≠ s.fac.node.toNat ∨ (!outward ∧ !canClean code d) then
    (s.bumpHd FAC_XSTAT_FILT 1, false)
  else if canRate code ≤ (near.filter (fun e => e.1 = code)).length then (s.bumpHd FAC_XSTAT_RATE 1, false)
  else
    let s1 : State := { s with fac := { s.fac with sent := near ++ [(code, s.time)] } }
    (s1.bumpHd (if outward then FAC_XSTAT_OUTOK else FAC_XSTAT_INOK) 1, true)

/-- A frame that the module sends. -/
def State.sendCan (s : State) (code : Nat) (d : Bytes) : State :=
  let r := s.cross true code s.fac.node.toNat d
  if r.2 then r.1.emit (.can code d) else r.1

/-- FALARM. -/
def State.sendAlarm (s : State) (code action value : Nat) : State :=
  s.sendCan fcFALARM (leBytes 1 code ++ leBytes 1 action ++ leBytes 2 value ++ leBytes 4 0)

/-! ## The supply and the target limit (R462, R490) -/

/-- The supply state in force: the worst of FCOOL, the measured flow and a leak. -/
def State.supply (s : State) : Nat := Nat.max (Nat.max s.fac.supply s.fac.measured) (if s.hd THM_COOL_LEAK = 1 then 2 else 0)

/-- A lasting fault of the module after which the rails of the compute dies go down once it is declared. -/
def State.powerFault (s : State) : State := ({ s with pwr := { s.pwr with down := true } } : State).selfLasting

/-- The inputs are taken: the supply state, the target, and a supply that is lost as a lasting fault. -/
def State.takeInputs (s : State) : State :=
  let old := s.hd THM_COOL_SUPPLY
  let sup := s.supply
  let lim := s.fac.limit
  let target := if sup = 1 ∧ (lim = 0 ∨ 2750 < lim) then 2750 else lim
  let s1 := ((s.setHd THM_COOL_SUPPLY sup).setHd PWR_STATUS_COOLRED (if sup = 1 then 1 else 0)).setHd PWR_TARGET_TARGET target
  if sup = 2 ∧ old ≠ 2 then s1.powerFault else s1

/-! ## The meter's records (R440, R442) -/

/-- A record that the meter holds. -/
def State.meterRec (s : State) (rseq : Nat) : Option Bytes := (s.mtr.recs.find? (fun r => r.rseq = rseq)).map (·.raw)

/-- Frame i of a record, or the one frame for a number that is not held. -/
def fmtrFrame (rseq i count : Nat) (rec : Bytes) : Bytes :=
  let part := (rec.drop (60 * i)).take 60
  leBytes 2 rseq ++ leBytes 1 i ++ leBytes 1 count ++ part ++ leBytes (60 - part.length) 0

/-- The answer to FMTRQ: firmware fetches the record over the link. -/
def State.answerFmtrq (s : State) (rseq : Nat) : State := match (if s.meterUp then s.meterRec rseq else none) with
  | some rec => (List.range 5).foldl (fun s i => s.sendCan fcFMTR (fmtrFrame rseq i 5 rec)) s
  | none => s.sendCan fcFMTR (fmtrFrame rseq 0 0 [])

/-! ## Frames inward -/

/-- An inbound frame that has crossed, as hub-die firmware takes it. -/
def State.canIn (s : State) (code : Nat) (d : Bytes) : State :=
  let v := leNat d
  if !s.hdRuns then s
  else if code = fcFCOOL then ({ s with fac := { s.fac with supply := v % 256 } } : State).takeInputs
  else if code = fcFPWR then ({ s with fac := { s.fac with limit := v } } : State).takeInputs
  else if code = fcFMTRQ then s.answerFmtrq v
  else s

/-- A frame from the facility to this module. -/
def State.receiveCan (s : State) (code node : Nat) (d : Bytes) : State :=
  let r := s.cross false code node d
  if r.2 then r.1.canIn code d else r.1

/-- FCOOL (R462). -/
def execFcool (d : BitVec 64) (s : State) : Host.Outcome State Fault Refusal :=
  .next (s.receiveCan fcFCOOL s.fac.node.toNat (leBytes 8 d.toNat))

/-- FPWR (R462). -/
def execFpwr (d : BitVec 64) (s : State) : Host.Outcome State Fault Refusal :=
  .next (s.receiveCan fcFPWR s.fac.node.toNat (leBytes 8 d.toNat))

/-- FMTRQ (R440). -/
def execFmtrq (d : BitVec 64) (s : State) : Host.Outcome State Fault Refusal :=
  .next (s.receiveCan fcFMTRQ s.fac.node.toNat (leBytes 8 d.toNat))

/-- FACILITY_FRAME_FILTER (R438): any frame at the barrier. -/
def execFacilityFrameFilter (outward : Bool) (code : BitVec 4) (node : BitVec 7) (d : Bytes) (s : State) : Host.Outcome State Fault Refusal :=
  .next (if outward then
      let r := s.cross true code.toNat node.toNat d
      if r.2 then r.1.emit (.can code.toNat d) else r.1
    else s.receiveCan code.toNat node.toNat d)

/-! ## Frames outward (R461) -/

/-- FSTAT. -/
def execFstat (s : State) : Host.Outcome State Fault Refusal :=
  let fl := s.hd PWR_STATUS_LIMITLOW + 2 * s.hd PWR_STATUS_COOLRED + (if s.degraded then 4 else 0) + (if s.unfit then 8 else 0)
  .next (if s.hdRuns then
      s.sendCan fcFSTAT (leBytes 1 s.identState ++ leBytes 1 fl ++ leBytes 2 (s.hd PWR_STATUS_PIN) ++ leBytes 2 (s.hd PWR_STATUS_VIN) ++
        leBytes 2 (s.hd THM_STATUS_TOUT) ++ leBytes 2 (s.hd THM_STATUS_TJMAX) ++ leBytes 2 (s.hd PWR_TARGET_TARGET) ++ leBytes 4 0)
    else s)

/-- FALARM: of an assigned code and action; others are never sent. -/
def execFalarm (code action : BitVec 8) (value : BitVec 16) (s : State) : Host.Outcome State Fault Refusal :=
  .next (if s.hdRuns ∧ 1 ≤ code.toNat ∧ code.toNat ≤ 4 ∧ action.toNat ≤ 3 then s.sendAlarm code.toNat action.toNat value.toNat else s)

/-- FID. -/
def execFid (s : State) : Host.Outcome State Fault Refusal :=
  .next (if s.hdRuns then
      s.sendCan fcFID (leBytes 8 s.serial.toNat ++ leBytes 2 0xA1 ++ leBytes 1 s.fac.node.toNat ++ leBytes 1 s.identState ++ leBytes 4 s.fwSvn)
    else s)

/-! ## The FAC domain (R455, R493) -/

/-- FAC_SUPPLY_LOSS. -/
def execFacSupplyLoss (s : State) : Host.Outcome State Fault Refusal :=
  .next { s with fac := { s.fac with up := false, node := 0, sent := [] } }

/-- FAC_SUPPLY_RETURN: the domain is released and reads its node address. While the supply is present the address stays. -/
def execFacSupplyReturn (sa : BitVec 7) (s : State) : Host.Outcome State Fault Refusal :=
  .next (if s.fac.up then s else { s with fac := { s.fac with up := true, node := sa } })

/-! ## The meter's commands (R442 to R445, R447) -/

/-- What READ leaves in the MTR_ registers. -/
def State.showMeter (s : State) (dw : Nat) : State :=
  let m := s.mtr
  let s1 := ((s.setHd MTR_STATUS_SEAL (if m.sealBroken then 1 else 0)).setHd MTR_STATUS_OPEN (if m.job.isSome then 1 else 0)).setHd
    MTR_SERIAL_MSERIAL m.serial.toNat
  ((s1.setHd MTR_ENERGY_MWH s.mwh).setHd MTR_POWER_DW dw).setHd MTR_STATUS_RSEQ (if m.recs = [] then 0 else (m.nextSeq + 2 ^ 32 - 1) % 2 ^ 32)

/-- METER_READ (R442, R447): the meter has counted 100 ms at the mean power; over a link that is up, READ returns it. -/
def execMeterRead (power : BitVec 32) (inRange : Bool) (s : State) : Host.Outcome State Fault Refusal :=
  let m := s.mtr
  let job := m.job.map (fun j => { j with range := j.range || !inRange })
  let m1 := { m with energy := m.energy + power.toNat, inRange := inRange, job := job }
  let s1 : State := { s with mtr := m1 }
  .next (if s.hdRuns ∧ s.meterUp then
      let s2 : State := { s1 with mtr := { m1 with readOk := m1.state = 0, readTime := s.time } }
      (s2.countD hdWin 0x111 1).showMeter power.toNat
    else s1)

/-- JOBSTART (R442): refused while a job is open. -/
def execJobStart (jobid step0 : BitVec 64) (s : State) : Host.Outcome State Fault Refusal :=
  .next (if !s.meterUp then s
    else if s.mtr.job.isSome then s.emit (.meterRsp false [])
    else ({ s with mtr := { s.mtr with job := some ⟨jobid, step0, s.mwh, s.meterSecs, !s.mtr.inRange⟩ } } : State).emit (.meterRsp true []))

/-- JOBSTOP (R442, R445): refused when no job is open, or its input was lost. -/
def execJobStop (step1 : BitVec 64) (late : Bool) (s : State) : Host.Outcome State Fault Refusal :=
  .next (if !s.meterUp then s
    else if s.mtr.job.isNone ∨ s.mtr.lost.isSome then s.emit (.meterRsp false [])
    else (s.meterClose step1 s.mwh s.meterSecs false late).emit (.meterRsp true []))

/-- FETCH (R442). -/
def execFetchRecord (rseq : BitVec 32) (s : State) : Host.Outcome State Fault Refusal :=
  .next (if !s.meterUp then s else match s.meterRec rseq.toNat with
    | some rec => s.emit (.meterRsp true rec)
    | none => s.emit (.meterRsp false []))

/-- The meter saves E1 and T1 when its input fails with a job open. -/
def State.meterLoss (s : State) : State :=
  if s.mtr.job.isSome && s.mtr.lost.isNone then { s with mtr := { s.mtr with lost := some (s.mwh, s.meterSecs) } } else s

/-- METER_INPUT_LOSS (R445). -/
def execMeterInputLoss (s : State) : Host.Outcome State Fault Refusal := .next s.meterLoss

/-- METER_LINK_LOSS (R443): a meter link error, and LINK clears. -/
def execMeterLinkLoss (s : State) : Host.Outcome State Fault Refusal :=
  .next (if s.hdRuns ∧ s.meterUp then (s.setHd MTR_STATUS_LINK 0).countD hdWin 0x112 1 else s)

/-- METER_LINK_RETURN (R443): a JOBSTOP that waits is sent with LATE. -/
def execMeterLinkReturn (s : State) : Host.Outcome State Fault Refusal :=
  .next (if !s.hdRuns ∨ s.meterUp then s
    else
      let s1 := s.setHd MTR_STATUS_LINK 1
      match s.mtr.pendingStop with
      | some st => ({ s1 with mtr := { s1.mtr with pendingStop := none } } : State).sendJobStop st true
      | none => s1)

end Sys2Proof.Machine
end

