-- ==== Sys2Proof/Machine/LinkCmds.lean ====
section
/-! DEFINITION. The NoC and the die-to-die links: packets and their checks, the nodes that serve them, the arbiters that share a link
among its inputs, blocks and their replay (R232, R236, R237, R239, R245 to R258). -/

set_option autoImplicit false

namespace Sys2Proof.Machine

/-! ## Headers (R246) -/

/-- Packet types. -/
def nocRD : Nat := 0
def nocWR : Nat := 1
def nocRDRSP : Nat := 2
def nocWRACK : Nat := 3
def nocMSG : Nat := 4
def nocCFGRD : Nat := 5
def nocCFGWR : Nat := 6
def nocCFGRSP : Nat := 7
def nocERRRSP : Nat := 8

/-- Fields of a header flit. -/
def hType (h : Nat) : Nat := bitsOf h 3 0
def hCls (h : Nat) : Nat := bitsOf h 5 4
def hSrc (h : Nat) : Nat := bitsOf h 17 6
def hDst (h : Nat) : Nat := bitsOf h 29 18
def hTag (h : Nat) : Nat := bitsOf h 39 30
def hLenb (h : Nat) : Nat := bitsOf h 48 40
def hReserved (h : Nat) : Bool := bitsOf h 51 49 ≠ 0 || bitsOf h 255 108 ≠ 0

/-- A header flit with WEIGHT 1. -/
def mkHdr (typ cls src dst tag lenb addr weight : Nat) : Nat :=
  typ + cls * 2 ^ 4 + src * 2 ^ 6 + dst * 2 ^ 18 + tag * 2 ^ 30 + lenb * 2 ^ 40 + addr * 2 ^ 52 + weight * 2 ^ 96

/-- Whether LENB is in the range that TYPE allows. -/
def lenbOk (h : Nat) : Bool :=
  if hType h = nocRD ∨ hType h = nocWRACK then hLenb h = 0 else decide (1 ≤ hLenb h ∧ hLenb h ≤ 256)

/-- Data flits of a packet (R245). -/
def dataFlits (h : Nat) : Nat := if hLenb h = 0 then 0 else (hAddr h % 32 + hLenb h + 31) / 32

/-- Whether a header is one that R247 refuses; a packet without the data flits of its LENB is refused with them. -/
def nocBad (h flits : Nat) : Bool :=
  decide (8 < hType h) || hReserved h || !lenbOk h || decide (256 < hAddr h % 256 + hLenb h) || flits ≠ 4 * dataFlits h

/-! ## Receiving a packet (R236, R247) -/

/-- Words of a packet are counted by how they decode. -/
def State.countFlits (s : State) (d : Nat) (ws : List CodeWord) : State :=
  let n := fun (k : WordClass) => (ws.filter (fun w => (cwDecode w).2 = k)).length
  (s.bumpD d NOC_ERR_CE (n .corrected)).bumpD d NOC_ERR_UE (n .uncorrectable)

/-- The 256 bits of a header flit. -/
def hdrNat (ws : List CodeWord) : Nat := ((ws.take 4).zipIdx.map (fun w => (cwDecode w.1).1.toNat * 2 ^ (64 * w.2))).sum

/-- The payload bytes of a packet with their poison (R245). -/
def payloadOf (h : Nat) (ws : List CodeWord) : List (Byte × Bool) :=
  let bs := ws.flatMap (fun w => let x := cwDecode w; (List.range 8).map (fun i => (wordByte x.1 i, x.2.bad)))
  (bs.drop (hAddr h % 32)).take (hLenb h)

/-- A response to the source of a packet. -/
def State.nocReply (s : State) (d h typ lenb : Nat) (data : List (Byte × Bool)) : State :=
  s.emit (.noc d (mkHdr typ 1 (hDst h) (hSrc h) (hTag h) lenb (hAddr h) 1) data)

/-- ERRRSP. What it carries and how long that is is not stated: LENB is a free value from 1 to 256. -/
def State.nocError (s : State) (d h : Nat) : State := (s.nocReply d h nocERRRSP (1 + Config.freeNat s.free % 256) []).skipFree

/-- A packet that R247 refuses. -/
def State.nocDiscard (s : State) (d h : Nat) : State := (s.bumpD d NOC_ERR_BAD 1).nocError d h

/-! ## Arbiters (R15, R248 to R250, R265) -/

/-- An input of an arbiter as a key. Outputs of a die: 0 to 15 its links, as R257 numbers those that the die receives, HD's link 10 and HX's
link 0 being the host link; 16 + r the router r of its mesh, toward the gateway. Inputs: 0 to 15 the link on which a packet came, 16 + node a
node of the die, 512 + r the router r. -/
def nocKey (die out cls input : Nat) : Nat := ((die * 512 + out) * 4 + cls) * 1024 + input

/-- The far end of a die-to-die link, as a link of its die (R257). -/
def farLink (d l : Nat) : Nat × Nat :=
  if d = hdWin then (if l < 8 then (l, 0) else (l + 1, 0))
  else if l = 0 then (hdWin, if d < 8 then d else d - 1)
  else if l = 1 then ((d + 7) % 8, 2) else ((d + 1) % 8, 1)

/-- The routes that are in force: those of the image, or before a job those by the same rule. -/
def State.nocRoute (s : State) (d e cls : Nat) : Nat := (mfind s.fab.routes (routeKey d e cls)).getD (dieRoute d e cls)

/-- The link on which a packet of another die has come: the ring, the hub link, or at HD the link of the source's die. -/
def nocInput (d h : Nat) : Nat :=
  let e := hSrc h / 256
  if d = hdWin then dieRoute hdWin e 0
  else (ringLink d e (hCls h)).getD 0

/-- An arbiter's input. -/
def State.nocIn (s : State) (k : Nat) : NocIn := mget NocIn.reset s.fab.arb k

/-- Flits of a packet. -/
def packetFlits (h : Nat) : Nat := 1 + dataFlits h

/-- Whether an input is active: a packet waits, or it forwarded one within 256 FCLK (R249). -/
def NocIn.active (x : NocIn) (now : Nat) : Bool := x.waits ≠ [] || (match x.last with
  | some t => decide (now ≤ t + 256)
  | none => false)

/-- The sum of the weights of an arbiter's active inputs, saturated (R249). -/
def arbWeight (ins : List (Nat × NocIn)) (now : Nat) : Nat :=
  Nat.min 4095 ((ins.filter (fun e => e.2.active now)).map (fun e => e.2.weight)).sum

/-- What an arbiter has forwarded so far: its inputs, the FCLK cycle, and the packets sent with their weights, last first. -/
structure ArbRun where
  ins : List (Nat × NocIn)
  now : Nat
  sent : List (Nat × List (Byte × Bool))

/-- Sends the head packets of one input while its deficit allows (R250); the first argument bounds them. -/
def ArbRun.take (key : Nat) : Nat → ArbRun → ArbRun
  | 0, r => r
  | n + 1, r => match mfind r.ins key with
    | some x => match x.waits with
      | [] => { r with ins := mset key { x with deficit := 0 } r.ins }
      | p :: rest =>
        let f := packetFlits p.1
        if x.deficit < f then r
        else
          let w := arbWeight r.ins r.now
          let y := { x with waits := rest, deficit := x.deficit - f, last := some (r.now + f) }
          ArbRun.take key n ⟨mset key y r.ins, r.now + f, (p.1 % 2 ^ 96 + w * 2 ^ 96, p.2) :: r.sent⟩
    | none => r

/-- An arbiter's visit to one input: its quantum is 9 times its weight; an input without a packet has no deficit (R250). -/
def ArbRun.visit (r : ArbRun) (key : Nat) : ArbRun := match mfind r.ins key with
  | some x =>
    if x.waits = [] then { r with ins := mset key { x with deficit := 0 } r.ins }
    else ArbRun.take key (x.waits.length + 1) { r with ins := mset key { x with deficit := x.deficit + 9 * x.weight } r.ins }
  | none => r

/-- Rounds over the inputs in their fixed order until none waits; a round sends at least one packet of each input that has one. -/
def ArbRun.rounds : Nat → ArbRun → ArbRun
  | 0, r => r
  | n + 1, r => if r.ins.all (fun e => e.2.waits.isEmpty) then r else ArbRun.rounds n ((mkeys r.ins).foldl ArbRun.visit r)

/-- FCLK cycles in a unit of 25 us, at 2.4 GHz (R19). -/
def fclkUnits : Nat := 60000

/-- The inputs of an output in a class. R249 speaks of an input's activity and weights: the model keeps one record for each class of an
input, with a sum over that class alone. DESIGN CHOICE (log entry 124). -/
def State.arbIns (s : State) (die out cls : Nat) : List (Nat × NocIn) :=
  s.fab.arb.filter (fun e => e.1 / 1024 = nocKey die out cls 0 / 1024)

/-- One class of an output drains by deficit round robin: the state after it, and the packets sent, first first. -/
def State.drainOut (s : State) (die out cls : Nat) : State × List (Nat × List (Byte × Bool)) :=
  let ins := s.arbIns die out cls
  let n := (ins.map (fun e => e.2.waits.length)).sum
  if n = 0 then (s, [])
  else
    let r := ArbRun.rounds n ⟨ins, s.time * fclkUnits, []⟩
    ({ s with fab := { s.fab with arb := r.ins.foldl (fun m e => mput NocIn.reset e.1 e.2 m) s.fab.arb } }, r.sent.reverse)

/-- One class of a link drains. -/
def State.drainClass (s : State) (die link cls : Nat) : State :=
  let r := s.drainOut die link cls
  r.1.emits (r.2.map (fun p => .hop die link p.1 p.2))

/-- A packet comes to wait at an arbiter's input. A WEIGHT of 0 counts as 1 (R247). -/
def State.arbPut (s : State) (k h : Nat) (data : List (Byte × Bool)) : State :=
  let x := s.nocIn k
  let y := { x with weight := Nat.max 1 (bitsOf h 107 96), waits := x.waits ++ [(h, data)] }
  { s with fab := { s.fab with arb := mput NocIn.reset k y s.fab.arb } }

/-- The in-die way of a packet toward the gateway, from its node on: that of the job, or before a job the one by the same rule (R265). -/
def State.gatewayPath (s : State) (d n : Nat) : List Nat := (mfind s.fab.paths (pathKey d n 256)).getD (diePath d n 256)

/-- The arbiter's input at which a packet of a node of the die comes to wait next, on its way to the gateway: `came` is the router that has just
sent it, or none at its node (R250, R265). -/
def State.inDie (s : State) (d h : Nat) (came : Option Nat) : Nat :=
  let n := hSrc h % 256
  let way := meshNode d n :: s.gatewayPath d n
  let ahead := match came with
    | none => way
    | some r => (way.dropWhile (fun x => x ≠ r)).drop 1
  let input := match came with
    | none => 16 + n
    | some r => 512 + r
  nocKey d (if ahead.length ≤ 1 then s.nocRoute d (hDst h / 256) (hCls h) else 16 + ahead.headD 0) (hCls h) input

/-- One class of a router drains: its packets go on to the next router of their way, or to the arbiter of their link. -/
def State.drainRouter (s : State) (die r cls : Nat) : State :=
  let x := s.drainOut die (16 + r) cls
  x.2.foldl (fun s p => s.arbPut (s.inDie die p.1 (some r)) p.1 p.2) x.1

/-- The outputs at which something is kept, as (die, output). -/
def State.arbOuts (s : State) : List (Nat × Nat) := ((s.fab.arb.map (fun e => e.1 / 4096)).eraseDups).map (fun o => (o / 512, o % 512))

/-- The routers of the meshes drain, those farthest from their gateway first. -/
def State.drainRouters (s : State) : State :=
  ((List.range 33).reverse).foldl (fun s k =>
    (s.arbOuts.filter (fun o => decide (16 ≤ o.2) && s.dieRuns o.1 && (meshPath 32 (o.2 - 16) (meshNode o.1 256)).length = k)).foldl (fun s o =>
      [3, 1, 2, 0].foldl (fun s c => s.drainRouter o.1 (o.2 - 16) c) s) s) s

/-- Whether a link carries traffic: neither end retrains (R255). -/
def State.linkOpen (s : State) (die link : Nat) : Bool :=
  let f := farLink die link
  !(decide (die + 16 * link ∈ s.fab.retrain) || decide (f.1 + 16 * f.2 ∈ s.fab.retrain))

/-- The links drain, each class after those before it in the order control, response, stream, request (R250). A link has passed what
waits by the end of a unit of time; one that retrains keeps it. DESIGN CHOICE (log entry 109). -/
def State.drainLinks (s : State) : State :=
  (s.arbOuts.filter (fun o => decide (o.2 < 16))).foldl (fun s o => if s.dieRuns o.1 && s.linkOpen o.1 o.2
    then [3, 1, 2, 0].foldl (fun s c => s.drainClass o.1 o.2 c) s else s) s

/-- Where a packet for another die comes to wait at die d: at the first arbiter of its way to the gateway where it comes from a node of the
die, else at the link that leads there. -/
def State.nocPlace (s : State) (d h : Nat) : Nat :=
  if hSrc h / 256 = d then s.inDie d h none
  else nocKey d (s.nocRoute d (hDst h / 256) (hCls h)) (hCls h) (nocInput d h)

/-- A packet for another die goes on its way. -/
def State.nocForward (s : State) (d h flits : Nat) (data : List (Byte × Bool)) : State :=
  (s.countD d 0x101 (1 + flits)).arbPut (s.nocPlace d h) h data

/-! ## Requests (R229, R232, R239) -/

/-- A load of an HX core from the host window that meets poison takes a machine check, and consumed poison is reported (R239). -/
def State.hxLoad (s : State) (h : Nat) (data : List (Byte × Bool)) : State :=
  if hSrc h / 256 = 11 ∧ hostLo ≤ hAddr h ∧ data.any (·.2) then (s.emit (.fwSignal (832 + 11) sigException)).blockPoison 11 else s

/-- RD of HBM. RD carries no length: the bytes returned are a free value within the 256-byte block. -/
def State.nocRead (s : State) (d h : Nat) : State :=
  let a := hAddr h
  let n := 1 + Config.freeNat s.free % (256 - a % 256)
  let data := s.hbm.marks a n
  (((s.hbmNote a n).nocReply d h nocRDRSP n data).hxLoad h data).skipFree

/-- Whether an open commit page takes the write of a poisoned byte (R239). -/
def State.hitsOpenPage (s : State) (a : Nat) (data : List (Byte × Bool)) : Bool :=
  s.gateState = gCOMMIT && s.liveRoles.any (fun r =>
    (s.pageSt r).opens.any (fun i => data.zipIdx.any (fun b => b.1.2 && decide ((a + b.2) / 65536 = (s.pagesOf r).getD i 0))))

/-- WR to HBM. -/
def State.nocWrite (s : State) (d h : Nat) (data : List (Byte × Bool)) : State :=
  let a := hAddr h
  let s1 := s.countBursts 0x106 a data.length
  let s2 : State := { s1 with hbm := s1.hbm.store a data }
  let s3 := if s.hitsOpenPage a data then s2.blockPoison (hbmDie a) else s2
  s3.nocReply d h nocWRACK 0 []

/-- Whether a request has to wait at its HBM controller: its page is under retirement, or for a write protected by a snapshot (R242, R391);
or an earlier request of one of its bursts waits (R248). -/
def State.mustWait (s : State) (held : List (Nat × Nat × List (Byte × Bool))) (h : Nat) (data : List (Byte × Bool)) : Bool :=
  let a := hAddr h
  let n := hbmLen h data
  s.retiring a n || (!data.isEmpty && s.snapHeld (a / 65536)) || burstHeld held a n

/-- A request at its HBM controller: served, or behind those that wait. -/
def State.hbmRequest (s : State) (d h : Nat) (data : List (Byte × Bool)) : State :=
  if s.mustWait s.fab.held h data then { s with fab := { s.fab with held := s.fab.held ++ [(d, h, data)] } }
  else if data.isEmpty then s.nocRead d h
  else s.nocWrite d h data

/-- The requests that wait are taken up in their order; those that still must wait stay. -/
def State.serveHeld (s : State) : State :=
  s.fab.held.foldl (fun s r => s.hbmRequest r.1 r.2.1 r.2.2) { s with fab := { s.fab with held := [] } }

/-- What the fabric does in a unit of time: requests and reads of collectives that waited are served, and routers and links pass what waits. -/
def State.fabricTick (s : State) : State := s.serveHeld.feedColls.drainRouters.drainLinks

/-- Who a node is to the register rules: HD's firmware, or the core program of a site. HX cores reach no register but by the host message
layer (R448). -/
def nocWriter (src : Nat) : Option Writer :=
  if src / 256 = hdWin then some .firmware else if src / 256 < 8 ∧ src % 256 < 104 then some .program else none

/-- A read of control space: one register. While HD is stopped none can be read (R22). -/
def State.cfgRead (s : State) (d h : Nat) : State :=
  match s.placeReg (hAddr h), nocWriter (hSrc h) with
  | some p, some who => match p.reg with
    | some r =>
      if !s.hdRuns ∨ who = .program then s.nocError d h
      else s.nocReply d h nocCFGRSP (r.wid / 8) ((leBytes (r.wid / 8) (s.readReg p)).map (fun b => (b, false)))
    | none => s.nocError d h
  | _, _ => s.nocError d h

/-- The answer to a write of control space; its payload is not stated. -/
def State.cfgAnswer (s : State) (d h : Nat) : State :=
  if hType h = nocWR then s.nocReply d h nocWRACK 0 [] else (s.nocReply d h nocCFGRSP (1 + Config.freeNat s.free % 256) []).skipFree

/-- A write of control space. Its place is looked up first (R232); poison discards it (R239). A doorbell is only acknowledged here: its
descriptor is posted by DMA_COMPLETE. -/
def State.cfgWrite (s : State) (d h : Nat) (data : List (Byte × Bool)) : State :=
  let a := hAddr h
  let n := data.length
  let door := (doorOf a).isSome && decide (n = 64)
  if !door && (s.placeReg a).isNone then s.nocError d h
  else if data.any (·.2) then (s.blockPoison d).cfgAnswer d h
  else if door then s.cfgAnswer d h
  else match nocWriter (hSrc h) with
    | none => s.nocError d h
    | some .program => (s.programWrite a (2 ^ (8 * n) - 1)).nocError d h
    | some who =>
      let r := s.regWrite who a (leNat (data.map (·.1))) (2 ^ (8 * n) - 1)
      if r.2.isNone then r.1.nocError d h else r.1.cfgAnswer d h

/-- A packet for this die. Responses and messages end here. A die serves the addresses of its own stacks and of its own window, and no
others (R15, R229); of HX it serves loads and stores of the host window only (R448). -/
def State.nocServe (s : State) (d h : Nat) (data : List (Byte × Bool)) : State :=
  let t := hType h
  let a := hAddr h
  let own := decide (a < hbmSize ∧ hbmDie a = d) && !(hSrc h / 256 = 11 && decide (a < hostLo))
  let ctl := decide (ctlBase ≤ a ∧ (a - ctlBase) / 2 ^ 24 = d)
  if t = nocRD ∨ t = nocCFGRD then (if own then s.hbmRequest d h [] else if ctl then s.cfgRead d h else s.nocError d h)
  else if t = nocWR ∨ t = nocCFGWR then (if own then s.hbmRequest d h data else if ctl then s.cfgWrite d h data else s.nocError d h)
  else s

/-- NOC_PACKET_RECEIVE (R245 to R250). A die that has stopped its clocks takes none (R20). -/
def execNocPacketReceive (d : Fin 12) (p : NocPkt) (s : State) : Host.Outcome State Fault Refusal :=
  let h := hdrNat p.hdr
  let s1 := s.countFlits d.val (p.hdr ++ p.data)
  .next (if !s.dieRuns d.val then s
    else if p.hdr.any (fun w => (cwDecode w).2 = .uncorrectable) then s1.bumpD d.val NOC_ERR_BAD 1
    else if nocBad h p.data.length then s1.nocDiscard d.val h
    else
      let s2 := if bitsOf h 107 96 = 0 then s1.bumpD d.val NOC_ERR_BAD 1 else s1
      if hDst h / 256 ≠ d.val then s2.nocForward d.val h (dataFlits h) (payloadOf h p.data)
      else s2.nocServe d.val h (payloadOf h p.data))

/-- PAGE_RETIRE_DONE (R242): the requests that stalled for the page are served. -/
def execPageRetireDone (stack : Fin 24) (s : State) : Host.Outcome State Fault Refusal :=
  .next (if s.dieRuns (stack.val / 3) then (s.retireDone stack.val).serveHeld.feedColls else s)

/-! ## Die-to-die links (R251 to R255, R257) -/

/-- Keys of a group and of its link. -/
def gidKey (g : GroupId) : Nat := groupUnit g.die.val g.link.val g.group.val
def linkKey (g : GroupId) : Nat := g.die.val + 16 * g.link.val

/-- Whether a group receives blocks: it exists, is not removed, and its link is not retraining. -/
def State.groupLive (s : State) (g : GroupId) : Bool :=
  decide (g.group.val < groupsOf g.die.val g.link.val) && !s.lasting ukGROUP (gidKey g) && linkKey g ∉ s.fab.retrain

/-- The physical lane of a logical lane (R254). -/
def physLane (f0 f1 l : Nat) : Nat :=
  let l1 := if f0 ≠ 0x7F ∧ f0 ≤ l then l + 1 else l
  if f1 ≠ 0x7F ∧ f1 ≤ l1 then l1 + 1 else l1

/-- Symbol in error of a corrected code word, 0 to 19. -/
def cwSymbol (w : CodeWord) : Nat := symbolOf (cwData w) (cwSyn w)

/-- Physical lanes of the symbols that a block had corrected, in block order (R251). -/
def State.blockLanes (s : State) (g : GroupId) (b : List CodeWord) : List Nat :=
  let f0 := s.d g.die.val (D2D_GRP_FL0 g.link.val g.group.val)
  let f1 := s.d g.die.val (D2D_GRP_FL1 g.link.val g.group.val)
  (b.zipIdx.filter (fun w => (cwDecode w.1).2 = .corrected)).map (fun w => physLane f0 f1 ((20 * w.2 + cwSymbol w.1) % 64))

/-- A group is removed (R255): its link retrains on the others; a link with too few of them reports the module as failed at the next
step boundary. The group may have become LASTING just now, by its own faults. -/
def State.removeGroup (s : State) (g : GroupId) : State :=
  let w := g.die.val
  let l := g.link.val
  let s1 := s.makeLasting ukGROUP (gidKey g)
  let s2 : State := { s1 with fab := { s1.fab with replay := mdel (gidKey g) s1.fab.replay, retrain := linsert (linkKey g) s1.fab.retrain } }
  let before := s.groupsUp w l + (if s.lasting ukGROUP (gidKey g) then 1 else 0)
  let s3 : State := if s2.linkFailed w l && decide (groupsOf w l * 3 / 4 ≤ before) then { s2 with pel := { s2.pel with selfReports := s2.pel.selfReports + 1 } } else s2
  s.refit s3

/-- A lane is lasting (R241, R254): the map with it waits for the next step boundary, and a third such lane
takes the group away. -/
def State.laneLasting (s : State) (g : GroupId) : State :=
  let w := g.die.val
  let l := g.link.val
  let n := g.group.val
  let fs := s.failedLanes w l n
  if s.lasting ukGROUP (gidKey g) then s
  else if 2 < fs.length then s.removeGroup g
  else if s.loaded then
    { s with shadow := mset (dieKey w (D2D_GRP_FL1 l n)) (fs.getD 1 0x7F) (mset (dieKey w (D2D_GRP_FL0 l n)) (fs.getD 0 0x7F) s.shadow) }
  else s.setLanes w l n

/-- A lane with a symbol error. -/
def State.laneFault (s : State) (g : GroupId) (lane : Nat) : State :=
  let r := s.fault24 ukLANE (laneUnit g.die.val g.link.val g.group.val lane) false
  if r.2 then r.1.laneLasting g else r.1

/-- What the corrected words of a block leave in the group's register and in the spare-mapping table. -/
def State.blockErrors (s : State) (g : GroupId) (b : List CodeWord) : State :=
  let lanes := s.blockLanes g b
  match lanes.getLast? with
  | none => s
  | some last =>
    let s1 := (s.bumpD g.die.val (D2D_GRP_CECNT g.link.val g.group.val) lanes.length).setD g.die.val (D2D_GRP_LANE g.link.val g.group.val) last
    lanes.eraseDups.foldl (fun s l => s.laneFault g l) s1

/-- Whether every word of a block decodes. -/
def blockOk (b : List CodeWord) : Bool := b.all (fun w => (cwDecode w).2 ≠ .uncorrectable)

/-- The words of a block as it is delivered: corrected, poison where they came poisoned (R253). -/
def blockWords (b : List CodeWord) : List CodeWord := b.map (fun w => let d := cwDecode w; mkCode d.1 d.2.bad)

/-- Puts a block into the sender's replay buffer of 64 blocks as known here; one that did not decode is not known (R253). -/
def State.keepBlock (s : State) (g : GroupId) (b : Option (List CodeWord)) : State :=
  let l := mget [] s.fab.blocks (gidKey g)
  { s with fab := { s.fab with blocks := mput [] (gidKey g) ((b :: l).take 64) s.fab.blocks } }

/-- The block that was requested again is known now. -/
def State.learnBlock (s : State) (g : GroupId) (b : List CodeWord) : State :=
  let l := mget [] s.fab.blocks (gidKey g)
  let i := l.findIdx (fun x => x.isNone)
  { s with fab := { s.fab with blocks := mput [] (gidKey g) (if i < l.length then l.set i (some b) else l) s.fab.blocks } }

/-- A block is delivered. -/
def State.deliverBlock (s : State) (g : GroupId) (b : List CodeWord) : State := s.emit (.block g (blockWords b))

/-- Requests a block from the sender's replay buffer over a group: why 1 its own failure, 2 in place of a removed group. -/
def State.askBlock (s : State) (g : GroupId) (why : Nat) : State :=
  let s1 : State := { s with fab := { s.fab with replay := mset (gidKey g) why s.fab.replay } }
  s1.emit (.replayReq g)

/-- The first remaining group of a link that waits for no block. -/
def State.otherGroup (s : State) (g : GroupId) : Option GroupId :=
  ((List.finRange 16).map (fun n => ({ g with group := n } : GroupId))).find? (fun x =>
    decide (x.group.val < groupsOf g.die.val g.link.val) && !s.lasting ukGROUP (gidKey x) && (mfind s.fab.replay (gidKey x)).isNone)

/-- A block of a removed group is received again over the remaining groups (R253, R255). -/
def State.moveOver (s : State) (g : GroupId) : State := match s.otherGroup g with
  | some x => (s.keepBlock x none).askBlock x 2
  | none => s

/-- A block that failed twice: its group is removed, and the block is received again over the remaining groups (R253, R255). -/
def State.moveBlock (s : State) (g : GroupId) : State := (s.removeGroup g).moveOver g

/-- A block that does not decode is asked for again over its group, or over another where its own lane errors have just had the group removed. -/
def State.retryBlock (s : State) (g : GroupId) : State := if s.lasting ukGROUP (gidKey g) then s.moveOver g else s.askBlock g 1

/-- D2D_BLOCK_RECEIVE (R251 to R254): a block of 32 words; one that does not decode is requested again. -/
def execD2dBlockReceive (g : GroupId) (b : List (BitVec 80)) (s : State) : Host.Outcome State Fault Refusal :=
  .next (if !s.groupLive g ∨ b.length ≠ 32 ∨ (mfind s.fab.replay (gidKey g)).isSome ∨ !s.dieRuns g.die.val then s
    else
      let s1 := (s.countD g.die.val 0x103 1).blockErrors g b
      if blockOk b then (s1.keepBlock g (some (blockWords b))).deliverBlock g b
      else ((s1.keepBlock g none).countD g.die.val 0x104 1).retryBlock g)

/-- D2D_BLOCK_REPLAY (R253): the block comes again. If it decodes it is delivered, and the fault of this group was transient; a
second failure removes the group. A block of a removed group has both attempts on the group that took it over. -/
def execD2dBlockReplay (g : GroupId) (b : List (BitVec 80)) (s : State) : Host.Outcome State Fault Refusal :=
  .next (match mfind s.fab.replay (gidKey g) with
    | none => s
    | some why =>
      if !s.groupLive g ∨ b.length ≠ 32 ∨ !s.dieRuns g.die.val then s
      else
        let s0 : State := { s with fab := { s.fab with replay := mdel (gidKey g) s.fab.replay } }
        let s1 := (s0.countD g.die.val 0x103 1).blockErrors g b
        if !blockOk b then (if why = 2 then (s1.countD g.die.val 0x104 1).retryBlock g
          else if s1.lasting ukGROUP (gidKey g) then s1.moveOver g else s1.moveBlock g)
        else
          let s2 := (s1.learnBlock g (blockWords b)).deliverBlock g b
          if why = 2 then s2
          else
            let r := s2.fault24 ukGROUP (gidKey g) false
            if r.2 then r.1.removeGroup g else r.1)

/-- D2D_RETRAIN_DONE (R255): the link carries traffic again. -/
def execD2dRetrainDone (g : GroupId) (s : State) : Host.Outcome State Fault Refusal :=
  .next (if s.dieRuns g.die.val then { s with fab := { s.fab with retrain := s.fab.retrain.filter (· ≠ linkKey g) } } else s)

end Sys2Proof.Machine
end

