-- ==== Sys2Proof/Machine/TestCmds.lean ====
section
/-! DEFINITION. Faults reported to the spare-mapping table, the self-tests and their pass records, the test content package (R69, R243,
R405 to R424). -/

set_option autoImplicit false

namespace Sys2Proof.Machine

/-! ## Voltage regulator phases (R416, R485) -/

/-- Active phases of a rail; its spare phase has that number. None for the reserved rails. -/
def railPhases (r : Nat) : Nat :=
  if r < 8 then 12 else if r < 17 then 2 else if r < 19 then 3 else if r < 21 then 1 else if r = 21 then 3 else if r = 22 then 1 else 0

/-- UNIT of a phase (R407). -/
def phaseUnit (r p : Nat) : Nat := r + 32 * p

/-- A rail's state. -/
def State.railAt (s : State) (r : Nat) : Rail := mget ⟨0, 0, 0x1F, 0⟩ s.pwr.rails r

/-- A rail with a phase out of service: the spare takes its place where it is free and not LASTING itself. -/
def State.dropPhase (s : State) (r p : Nat) : State :=
  let a := railPhases r
  let x := s.railAt r
  let off := x.phok &&& ~~~ BitVec.ofNat 16 (2 ^ p)
  let y : Rail := if p < a ∧ x.spare = 0x1F ∧ !s.lasting ukPHASE (phaseUnit r a)
    then { x with phok := off ||| BitVec.ofNat 16 (2 ^ a), spare := p } else { x with phok := off }
  { s with pwr := { s.pwr with rails := mput ⟨0, 0, 0x1F, 0⟩ r y s.pwr.rails } }

/-! ## An entry that becomes LASTING (R69, R410) -/

/-- LASTING entries of rows, or of columns, of an array. -/
def State.badLines (s : State) (kind arr : Nat) : Nat :=
  (s.test.table.filter (fun e => e.kind = kind && e.state = seLASTING && e.unit % 2 ^ 13 = arr)).length

/-- A row or column of an array: it is mapped out at the next gear change of its core, or at once where the site has no role; the second
one takes the site away. -/
def State.lineLasting (s : State) (kind unit : Nat) : State :=
  let n := unit / 512 % 16 * 104 + unit / 4 % 128
  let a := unit % 4
  if 2 ≤ s.badLines kind (unit % 2 ^ 13) then s.refit (s.makeLasting ukSITE (siteUnit n))
  else if (s.site n).role.isSome then
    s.onSite n (fun c => if kind = ukROW then { c with shadow := mset (ARR_REPAIR_FROW a).key (unit / 2 ^ 13) c.shadow }
      else { c with shadow := mset (ARR_REPAIR_FCOL a).key (unit / 2 ^ 13) c.shadow })
  else s.onSite n (fun c => s.setRepairs n c)

/-- A module address in the DRAM row of a unit. -/
def rowAddr (u : Nat) : Nat := hbmModule (u % 32) (u / 2 ^ 17 * 2 ^ 22 + u / 2 ^ 11 % 64 * 2 ^ 16 + u / 32 % 64 * 2 ^ 6)

/-- What the mechanism of its KIND does with a unit that is LASTING. A site's role moves at its next gear point. -/
def State.takeLasting (s : State) (kind u : Nat) : State :=
  let group : GroupId := ⟨Fin.ofNat 12 (u % 16), Fin.ofNat 10 (u / 16 % 16), Fin.ofNat 16 (u / 256 % 16)⟩
  if kind = ukROW ∨ kind = ukCOL then s.lineLasting kind u
  else if kind = ukLANE then s.laneLasting group
  else if kind = ukGROUP then s.removeGroup group
  else if kind = ukHBMROW then (if s.d (u % 32 / 3) (HBM_STATUS_RSVFREE (u % 32 % 3)) = 0
    then (s.logHbm (rowAddr u) 5 31 true).reserveGone (rowAddr u) else s.logHbm (rowAddr u) 4 31 true)
  else if kind = ukPORT then s.retirePort (u % 32 * 4 + u / 32 % 4)
  else if kind = ukPHASE then s.dropPhase (u % 32) (u / 32)
  else if kind = ukCOPY ∨ kind = ukBLAME then s.selfLasting
  else s

/-- A fault of a unit as R409 applies it, with what a LASTING unit brings about; the second result says that the unit became LASTING. -/
def State.applyFault (s : State) (kind unit : Nat) (second : Bool) : State × Bool :=
  let r := s.fault24 kind unit second
  (if r.2 then r.1.takeLasting kind unit else r.1, r.2)

/-- SPARE_TABLE_FAULT (R409): of a unit that R407 codes. -/
def execSpareTableFault (kind : BitVec 8) (unit : BitVec 48) (secondFailed : Bool) (s : State) : Host.Outcome State Fault Refusal :=
  .next (if s.hdRuns ∧ unitOk kind.toNat unit.toNat then (s.applyFault kind.toNat unit.toNat secondFailed).1 else s)

/-! ## The test content package (R419, R420) -/

/-- Kinds of the units that a CLASS tests (R407, R419): core logic, core store, accumulator and instruction store make their whole site LASTING
(R418); the key store memory, as 0, is no unit of the table. -/
def classKinds (c : Nat) : List Nat :=
  if c = 2 then [ukROW, ukCOL] else if c = 6 then [ukHBMROW] else if c = 7 then [ukLANE] else if c = 8 then [ukCTL] else if c = 9 then [ukPORT]
  else if c = 10 then [0] else if 1 ≤ c ∧ c ≤ 5 then [ukSITE] else []

/-- Whether a run is one of an entry of a package: its identifier, CLASS, MARGIN and EXP, a unit of its CLASS, and CYCLES response words, also in
the second run where there is one (R417, R419). -/
def EntryRun.isOf (e : Bytes) (r : EntryRun) : Bool :=
  numAt e 4 4 = r.testId.toNat && numAt e 0 1 = r.cls.toNat && (numAt e 2 2 % 2 = 1) = r.margin && numAt e 32 16 = r.expSig.toNat &&
  r.kind.toNat ∈ classKinds (numAt e 0 1) && (r.kind = 0 || unitOk r.kind.toNat r.unit.toNat) && r.first.length = numAt e 20 4 &&
  (r.second = [] || r.second.length = numAt e 20 4)

/-- The runs that are of a package, of the entries that a test applies, in entry order. -/
def pkgRuns (p : Bytes) (applies : Bytes → Bool) (rs : List EntryRun) : List EntryRun :=
  ((pkgEntries p).filter applies).flatMap (fun e => rs.filter (EntryRun.isOf e))

/-- The units of a site that a CLASS tests: the site, or the rows and columns of its arrays, spares included. -/
def siteUnits (c n : Nat) : List (Nat × Nat) :=
  if c = 2 then (List.range 4).flatMap (fun a => (List.range 17).map (fun r => (ukROW, lineUnit n a r)) ++ (List.range 65).map (fun r => (ukCOL, lineUnit n a r)))
  else if 1 ≤ c ∧ c ≤ 5 then [(ukSITE, siteUnit n)] else []

/-- The units that a CLASS tests in FULL (R411): of the HBM the stacks, as a march covers every row. -/
def classUnits (c : Nat) : List (Nat × Nat) :=
  if c ≤ 5 then (List.range 832).flatMap (siteUnits c)
  else if c = 6 then (List.range 24).map (fun k => (ukHBMROW, k))
  else if c = 7 then (List.range 12).flatMap (fun w => (List.range 10).flatMap (fun l => (List.range (groupsOf w l)).flatMap (fun g =>
    (List.range 66).map (fun i => (ukLANE, laneUnit w l g i)))))
  else if c = 8 then (List.range 5).map (fun i => (ukCTL, i))
  else if c = 9 then (List.range 18).map (fun p => (ukPORT, p))
  else if c = 10 then [(0, 0)] else []

/-- Whether the runs of a test apply every entry to every one of its units, those apart that are LASTING. -/
def State.covers (s : State) (p : Bytes) (applies : Bytes → Bool) (units : Nat → List (Nat × Nat)) (rs : List EntryRun) : Bool :=
  ((pkgEntries p).filter applies).all (fun e => (units (numAt e 0 1)).all (fun u => s.lasting u.1 u.2 ||
    rs.any (fun r => EntryRun.isOf e r && r.kind.toNat = u.1 && (if u.1 = ukHBMROW then r.unit.toNat % 32 else r.unit.toNat) = u.2)))

/-! ## Entries of the test content (R417, R418) -/

/-- One step of the MISR. -/
def misrStep (m d : BitVec 128) : BitVec 128 :=
  let m1 := m <<< 1
  (if m.getLsbD 127 then m1 ^^^ 0x87#128 else m1) ^^^ d

/-- The signature of the response words. -/
def misr (ws : List (BitVec 128)) : BitVec 128 := ws.foldl misrStep 0

/-- Whether an entry fails, and whether the second run fails too. -/
def EntryRun.fails (e : EntryRun) : Bool := misr e.first ≠ e.expSig
def EntryRun.failsTwice (e : EntryRun) : Bool := misr e.first ≠ e.expSig && misr e.second ≠ e.expSig

/-- The signatures that a run obtains. -/
def EntryRun.signatures (e : EntryRun) : Bytes :=
  leBytes 16 (misr e.first).toNat ++ (if misr e.first ≠ e.expSig then leBytes 16 (misr e.second).toNat else [])

/-- The last failing entry in BIST_FAIL, BIST_SIG and BIST_EXP. -/
def State.showFailure (s : State) (e : EntryRun) : State :=
  let g := (if misr e.second ≠ e.expSig then misr e.second else misr e.first).toNat
  let x := e.expSig.toNat
  (((((((s.setHd BIST_FAIL_VALID 1).setHd BIST_FAIL_KIND e.kind.toNat).setHd BIST_FAIL_UNITLO (e.unit.toNat % 2 ^ 16)).setHd BIST_FAIL_TESTID
    e.testId.toNat).setHd (BIST_SIG_SIG 0) (g % 2 ^ 64)).setHd (BIST_SIG_SIG 1) (g / 2 ^ 64)).setHd (BIST_EXP_EXP 0) (x % 2 ^ 64)).setHd
    (BIST_EXP_EXP 1) (x / 2 ^ 64)

/-- An entry run at nominal voltage; the second result says that the unit became LASTING. A class without a unit kind, the key store
memory, enters nothing. -/
def State.runEntry (s : State) (e : EntryRun) : State × Bool :=
  if !EntryRun.fails e then (s, false)
  else
    let s1 := s.showFailure e
    if 1 ≤ e.kind.toNat ∧ e.kind.toNat ≤ 9 then s1.applyFault e.kind.toNat e.unit.toNat (EntryRun.failsTwice e) else (s1, false)

/-- An entry run under margin, among the runs `es` of the test (R415): a unit that fails there and that was run at nominal voltage and passed is
WEAK, unless it is LASTING or WEAK already. A failure under margin that passes the second time enters nothing. DEDUCED (log entry 120). -/
def State.runMargin (es : List EntryRun) (s : State) (e : EntryRun) : State :=
  if !EntryRun.fails e then s
  else
    let s1 := s.showFailure e
    let nominal := es.filter (fun x => !x.margin && x.kind = e.kind && x.unit = e.unit)
    let known := s.test.table.any (fun x => x.isFor e.kind.toNat e.unit.toNat && (x.state = seWEAK || x.state = seLASTING))
    if !EntryRun.failsTwice e ∨ nominal = [] ∨ nominal.any EntryRun.fails ∨ known ∨ !unitOk e.kind.toNat e.unit.toNat then s1
    else (s1.setTable (putEntry s.test.table s.tsec e.kind.toNat e.unit.toNat seWEAK)).alert 7

/-- Whether a LASTING unit has no spare to take its place (R407, R410). -/
def State.noSpare (s : State) (kind u : Nat) : Bool :=
  let n := fun (k : Nat) (f : Nat → Bool) => (s.test.table.filter (fun e => e.kind = k && e.state = seLASTING && f e.unit)).length
  if kind = ukSITE then decide (4 < n ukSITE (fun x => x / 128 = u / 128))
  else if kind = ukROW ∨ kind = ukCOL then decide (1 < s.badLines kind (u % 2 ^ 13))
  else if kind = ukLANE then decide (2 < n ukLANE (fun x => x % 4096 = u % 4096))
  else if kind = ukHBMROW then s.d (u % 32 / 3) (HBM_STATUS_RSVFREE (u % 32 % 3)) = 0
  else if kind = ukPORT then decide (2 < n ukPORT (fun _ => true))
  else if kind = ukPHASE then decide (1 < n ukPHASE (fun x => x % 32 = u % 32))
  else if kind = ukCTL then decide (1 < s.badCtl)
  else true

/-! ## FULL, QUICK and the pass record (R243, R411, R413) -/

/-- Hard repair of a retired row: its entry becomes REPAIRED, and its page is freed once it holds no other LASTING row. -/
def State.hardRepair (s : State) (u : Nat) : State :=
  if !s.lasting ukHBMROW u then s
  else
    let s1 := s.setTable (putEntry s.test.table s.tsec ukHBMROW u seREPAIRED)
    let stack := u % 32
    let page := u / 2 ^ 17 * 64 + u / 2 ^ 11 % 64
    let key := stack * 2 ^ 21 + page
    let more := s1.test.table.any (fun e => e.kind = ukHBMROW && e.state = seLASTING && e.unit % 32 = stack &&
      e.unit / 2 ^ 17 * 64 + e.unit / 2 ^ 11 % 64 = page)
    if more ∨ (mfind s1.fab.retired key).isNone then s1
    else
      let w := stack / 3
      let k := stack % 3
      let s2 : State := { s1 with fab := { s1.fab with retired := mdel key s1.fab.retired } }
      (s2.setD w (HBM_STATUS_RSVFREE k) (s2.d w (HBM_STATUS_RSVFREE k) + 1)).setD w (HBM_STATUS_RETIRED k) (s2.d w (HBM_STATUS_RETIRED k) - 1)

/-- Runs the entries of FULL; the second result lists the units that became LASTING. -/
def State.runAll (s : State) (es : List EntryRun) : State × List (Nat × Nat) :=
  es.foldl (fun (a : State × List (Nat × Nat)) e =>
    if e.margin then (a.1.runMargin es e, a.2)
    else
      let r := a.1.runEntry e
      (r.1, if r.2 then a.2 ++ [(e.kind.toNat, e.unit.toNat)] else a.2)) (s, [])

/-- A pass record: its fields, KEYID, R and S. -/
def State.passRecord (s : State) (wher newLast : Nat) (sigs : Bytes) : PassRec :=
  let tcver := leNat ((s.test.pkg.drop 8).take 4)
  let b := leBytes 4 0x4B505354 ++ leBytes 1 1 ++ leBytes 1 wher ++ leBytes 2 0xA1 ++ leBytes 8 s.serial.toNat ++ leBytes 4 s.test.bootcnt ++
    leBytes 4 s.tsec ++ leBytes 4 tcver ++ leBytes 4 newLast ++ s.smapDig ++ sha32 sigs
  let g := s.signature b
  ⟨wher, s.test.bootcnt, s.tsec, tcver, b ++ g.1 ++ g.2 ++ leBytes 28 0, false⟩

/-- A test runs, as BIST_STATUS.STATE shows until time goes on (R423; DESIGN CHOICE, log entry 90). -/
def State.testRuns (s : State) (k : Nat) : State := { s with test := { s.test with running := k } }
def State.testTick (s : State) : State := s.testRuns 0

/-- FULL (R411, R413): hard repair and every entry of the installed package; it passes when every unit was tested and each one that became LASTING
has a spare, and then writes its pass record where the module can sign. WHERE is 1 shut-down, 2 power-up, 3 idle domestique, 4 on demand. -/
def State.fullTest (s : State) (wher : Nat) (res : FullResult) : State :=
  let p := s.test.pkg
  let rs := pkgRuns p (fun _ => true) res.runs
  let s1 := res.repaired.foldl (fun s u => s.hardRepair u.toNat) (s.testRuns 1)
  let r := s1.runAll rs
  if r.2.any (fun u => r.1.noSpare u.1 u.2) ∨ !s.provisioned ∨ p = [] ∨ !r.1.covers p (fun _ => true) classUnits rs then r.1
  else
    let rec' := r.1.passRecord wher r.2.length (rs.flatMap EntryRun.signatures)
    ({ r.1 with test := { r.1.test with pass := some rec', mustTest := false } } : State).skipFree

/-- QUICK (R411): training, and the entries for control cores and key store memory; the second result tells whether all of it passes. -/
def State.quickTest (s : State) (res : QuickResult) : State × Bool :=
  let rs := pkgRuns s.test.pkg (fun e => decide (numAt e 0 1 = 8 ∨ numAt e 0 1 = 10) && !entryMargin e) res.runs
  (((s.testRuns 2).runAll rs).1, res.trained && rs.all (fun r => !EntryRun.fails r))

/-- The signature of the newest pass record verifies. -/
def State.passVerifies (s : State) (p : PassRec) : Bool := match s.sec.dev with
  | some k => ecdsaOk k.x k.y (p.raw.take 96) (leNat ((p.raw.drop 128).take 66)) (leNat ((p.raw.drop 194).take 66)) &&
      (p.raw.drop 96).take 32 = keyId k.x k.y
  | none => false

/-- Whether the newest pass record is of the installed package and the current table, and verifies. -/
def State.passCurrent (s : State) (p : PassRec) : Bool :=
  p.tcver = leNat ((s.test.pkg.drop 8).take 4) && (p.raw.drop 32).take 32 = s.smapDig && s.passVerifies p

/-- Whether the module holds a signed self-test pass (R413); after a release from fencing only one of a test since (R374). -/
def State.holdsPass (s : State) : Bool := match s.test.pass with
  | some p => !s.test.mustTest && s.passCurrent p && decide (s.tsec - p.tsec ≤ (match s.img with
    | some im => im.resil.bistPeriod
    | none => 24) * 3600)
  | none => false

/-- Whether QUICK runs at power-up in place of FULL. -/
def State.quickApplies (s : State) : Bool := match s.test.pass with
  | some p => p.wher = 1 && p.bootcnt + 1 = s.test.bootcnt && p.orderly && s.passCurrent p
  | none => false

/-- SELF_TEST_FULL (R411): of an idle domestique, or of a module released from fencing (R374). -/
def execSelfTestFull (res : FullResult) (s : State) : Host.Outcome State Fault Refusal :=
  .next (if s.hdRuns && !s.jobLoaded then s.fullTest 3 res else s)

/-- SELF_TEST_QUICK (R411): with a valid shut-down pass record and no job. It keeps the newest pass record. -/
def execSelfTestQuick (res : QuickResult) (s : State) : Host.Outcome State Fault Refusal :=
  .next (if s.hdRuns && !s.jobLoaded && s.quickApplies then (s.quickTest res).1 else s)

/-! ## Slices and sites (R412, R414, R418) -/

/-- SLICE_DUE (R412): of a job that has entered its first step, under SLICED. It waits while another runs or HOLD is set; one held for
more than an interval is reported (R423). -/
def execSliceDue (s : State) : Host.Outcome State Fault Refusal :=
  .next (if s.hdRuns && s.host.admitted && s.sliced then
      let s1 := if s.hd BIST_CFG_HOLD = 1 ∧ 0 < s.test.due then s.alert 8 else s
      ({ s1 with test := { s1.test with due := s1.test.due + 1 } } : State).trySlice
    else s)

/-- SITE_TEST (R414): of a site of the due slice that has no role; HOLD keeps it waiting. -/
def execSiteTest (c : SiteNo) (s : State) : Host.Outcome State Fault Refusal :=
  .next (match s.test.visit with
    | some v =>
      if s.hdRuns ∧ c.val ∈ v.todo ∧ (s.site c.val).role.isNone ∧ s.hd BIST_CFG_HOLD = 0 then
        { s with test := { s.test with visit := some { v with todo := v.todo.filter (· ≠ c.val), testing := linsert c.val v.testing } } }
      else s
    | none => s)

/-- The visit goes on with a site tested, which passes where `ok` says that every entry was applied and it is not LASTING. -/
def State.siteTested (s : State) (n : Nat) (ok : Bool) : State := match s.test.visit with
  | some v =>
    let v1 := { v with testing := v.testing.filter (· ≠ n), passed := if s.siteBad n ∨ !ok then v.passed else linsert n v.passed }
    ({ s with test := { s.test with visit := some v1 } } : State).closeVisit
  | none => s

/-- Whether a unit is of a site: the site itself, or a line of one of its arrays. -/
def unitOfSite (n kind u : Nat) : Bool := if kind = ukSITE then u = siteUnit n else u % 2 ^ 13 / 4 * 4 = lineUnit n 0 0

/-- SITE_TEST_DONE (R418): the entries of the visit's package run on a site under test. -/
def execSiteTestDone (c : SiteNo) (r : List EntryRun) (s : State) : Host.Outcome State Fault Refusal :=
  .next (match s.test.visit with
    | some v =>
      let rs := (pkgRuns v.pkg v.atSite r).filter (fun x => unitOfSite c.val x.kind.toNat x.unit.toNat)
      let s1 := (s.runAll rs).1
      if s.hdRuns ∧ c.val ∈ v.testing then s1.siteTested c.val (s1.covers v.pkg v.atSite (fun k => siteUnits k c.val) rs) else s
    | none => s)

/-- The control core freed at a visit of slice 31 is tested: it is the spare if it passes (R414). -/
def State.ctlTested (s : State) (v : Visit) (rs : List EntryRun) : State := match s.test.ctlTest with
  | some i =>
    let own := rs.filter (fun r => r.unit.toNat = i)
    if s.covers v.pkg (v.beside 8) (fun _ => [(ukCTL, i)]) own ∧ own ≠ [] then
      let s1 := (s.runAll own).1
      ({ s1 with test := { s1.test with ctlTest := none } } : State).closeVisit
    else s
  | none => s

/-- PORT_TEST (R411, R414): at a slice visit, of the spare ports not in use, and of a control core that was freed. -/
def execPortTest (r : List PortRun) (s : State) : Host.Outcome State Fault Refusal :=
  .next (match s.test.visit with
    | some v =>
      if !s.hdRuns then s
      else
        let ports := pkgRuns v.pkg (v.beside 9) (r.map (fun p => { p.run with kind := 0x07, unit := BitVec.ofNat 48 p.port.val }))
        let s1 := ports.foldl (fun s e => if e.unit.toNat ∈ s.freePorts then (s.runEntry e).1 else s) s
        s1.ctlTested v (pkgRuns v.pkg (v.beside 8) (r.map (·.run)))
    | none => s)

/-- PHASE_CHECK (R416): a phase that fails its check is retried once. -/
def execPhaseCheck (rail : Fin 32) (phase : Fin 16) (ok : Bool) (retryOk : Bool) (s : State) : Host.Outcome State Fault Refusal :=
  let u := phaseUnit rail.val phase.val
  .next (if !s.hdRuns ∨ railPhases rail.val < phase.val ∨ railPhases rail.val = 0 ∨ ok ∨ s.lasting ukPHASE u then s
    else (s.applyFault ukPHASE u (!retryOk)).1)

/-! ## The installation of a package (R419, R420) -/

/-- Whether a list repeats an element. -/
def repeats : List Nat → Bool
  | [] => false
  | x :: l => x ∈ l || repeats l

/-- Whether an entry has a reserved bit set. -/
def entryStray (e : Bytes) : Bool := 1 < numAt e 2 2 || numAt e 24 8 ≠ 0 || numAt e 48 16 ≠ 0

/-- Whether an entry breaks the rule of code 0x5. -/
def entryBad (pkgLen : Nat) (e : Bytes) : Bool :=
  let c := numAt e 0 1
  c = 0 || decide (10 < c) || numAt e 1 1 = 0 || numAt e 20 4 = 0 || numAt e 8 8 % 64 ≠ 0 || decide (pkgLen - 256 < numAt e 8 8 + numAt e 16 4)

/-- PKGERR of a package (R420), 0 when it stands. A count of entries that is 0 or does not fit gives 0x1. -/
def State.pkgCode (s : State) (b : Bytes) : Nat :=
  let n := numAt b 12 2
  let es := pkgEntries b
  let key := fun (k : Nat) => if (k = 8 ∨ k = 9) ∧ (s.keySlot k).state = 1 then some ((s.keySlot k).x, (s.keySlot k).y) else none
  if b.length < 320 ∨ numAt b 0 4 ≠ 0x4B544350 ∨ numAt b 4 1 ≠ 1 ∨ numAt b 16 8 ≠ b.length ∨ b.length % 64 ≠ 0 ∨ numAt b 5 1 ≠ 0 ∨
    numAt b 14 2 ≠ 0 ∨ numAt b 24 40 ≠ 0 ∨ n = 0 ∨ b.length < 64 + 64 * n + 256 ∨ es.any entryStray ∨ !sigShape b then 1
  else if numAt b 6 2 ≠ 0xA1 then 2
  else if sigCode key b ≠ 0 then 3
  else if numAt b 8 4 ≤ numAt s.test.pkg 8 4 ∧ s.test.pkg ≠ [] then 4
  else if es.any (entryBad b.length) ∨ repeats (es.map (fun e => numAt e 4 4)) then 5
  else 0

/-- M3 starts again from zero with the package that is installed (R429). -/
def State.installPkg (s : State) (b : Bytes) : State :=
  let s1 : State := { s with test := { s.test with pkg := b }, sec := { s.sec with m := mput 0 3 0 s.sec.m } }
  s1.extend 3 (sha32 b)

/-- A chunk of an upload: the bytes so far with it, or none for a chunk out of order. Offset 0 starts the upload. -/
def upload (old : Bytes) (off len : Nat) (chunk : Bytes) : Option Bytes :=
  if off ≠ 0 ∧ off ≠ old.length then none
  else
    let b := (if off = 0 then [] else old) ++ chunk
    if len < b.length then none else some b

/-- TCINSTALL (R420): verified and installed at the last chunk. A chunk out of order drops the upload with code 0x1. -/
def execTcInstall (h : HostHdr) (off len : BitVec 64) (chunk : Bytes) (s : State) : Host.Outcome State Fault Refusal :=
  .next (s.request h 0x09 false false (fun s =>
    let put := fun (s : State) (b : Bytes) => ({ s with test := { s.test with upload := b } } : State)
    match upload s.test.upload off.toNat len.toNat chunk with
    | none => ((put s []).setHd BIST_STATUS_PKGERR 1).answer h rsREJECTED 1 0 []
    | some b =>
      if b.length < len.toNat then (put s b).answer h rsOK 0 0 []
      else
        let code := s.pkgCode b
        let s1 := (put s []).setHd BIST_STATUS_PKGERR code
        if code = 0 then (s1.installPkg b).answer h rsOK 0 0 [] else s1.answer h rsREJECTED code 0 []))

end Sys2Proof.Machine
end

