-- ==== Sys2Proof/Machine/X509.lean ====
section
/-! DEFINITION. Certificates: X.509 version 3 in DER, signed with ecdsa-with-SHA512, keys on secp521r1 (R425), and chains of them to the root keys
whose digests the fuses hold (R426, R427, R429, R434). -/

set_option autoImplicit false

namespace Sys2Proof.Machine

/-! ## DER -/

/-- An element of DER: its tag, its value, and all of its bytes. -/
structure Tlv where
  tag : Nat
  val : Bytes
  raw : Bytes
  deriving DecidableEq, Repr

/-- The length octets at the head of a list: how many they are, and the length; none for one of more than four octets. -/
def derLen (b : Bytes) : Option (Nat × Nat) := match b with
  | [] => none
  | l :: rest =>
    let n := l.toNat - 128
    if l.toNat < 128 then some (1, l.toNat)
    else if n = 0 ∨ 4 < n ∨ rest.length < n then none
    else some (n + 1, beNat (rest.take n))

/-- The element at the head of a list. -/
def derHead (b : Bytes) : Option Tlv := match b with
  | [] => none
  | t :: rest => match derLen rest with
    | some l => if rest.length < l.1 + l.2 then none else some ⟨t.toNat, (rest.drop l.1).take l.2, b.take (1 + l.1 + l.2)⟩
    | none => none

/-- The elements that a list consists of; the first argument bounds them. -/
def derAll : Nat → Bytes → Option (List Tlv)
  | 0, b => if b = [] then some [] else none
  | n + 1, b => if b = [] then some [] else match derHead b with
    | some x => (derAll n (b.drop x.raw.length)).map (x :: ·)
    | none => none

/-- The elements of a constructed value. -/
def Tlv.parts (x : Tlv) : Option (List Tlv) := derAll x.val.length x.val

/-! ## A certificate (R425) -/

/-- The AlgorithmIdentifier of ecdsa-with-SHA512, and that of a key on secp521r1. -/
def algSha512 : Bytes := [0x30, 0x0A, 0x06, 0x08, 0x2A, 0x86, 0x48, 0xCE, 0x3D, 0x04, 0x03, 0x04]
def algP521 : Bytes := [0x30, 0x10, 0x06, 0x07, 0x2A, 0x86, 0x48, 0xCE, 0x3D, 0x02, 0x01, 0x06, 0x05, 0x2B, 0x81, 0x04, 0x00, 0x23]

/-- What a certificate says: the bytes that are signed, issuer and subject, the public point, whether its key may sign certificates, and the
signature. -/
structure Cert where
  tbs : Bytes
  issuer : Bytes
  subject : Bytes
  x : Nat
  y : Nat
  ca : Bool
  r : Nat
  s : Nat
  deriving DecidableEq, Repr

/-- The public point of a SubjectPublicKeyInfo. -/
def spkiPoint (k : Tlv) : Option (Nat × Nat) := match k.parts with
  | some [alg, bits] =>
    if k.tag = 0x30 ∧ alg.raw = algP521 ∧ bits.tag = 3 ∧ bits.val.length = 134 ∧ bits.val.take 2 = [0, 4]
    then some (beNat ((bits.val.drop 2).take 66), beNat (bits.val.drop 68)) else none
  | _ => none

/-- The two integers of a signature. -/
def sigPair (g : Tlv) : Option (Nat × Nat) := match g.val with
  | 0 :: der => match (derHead der).bind Tlv.parts with
    | some [r, s] => if g.tag = 3 ∧ r.tag = 2 ∧ s.tag = 2 then some (beNat r.val, beNat s.val) else none
    | _ => none
  | _ => none

/-- Whether an extension is basicConstraints with cA set. -/
def extCa (e : Tlv) : Bool := match e.parts with
  | some l => (l.map (·.raw)).head? = some [0x06, 0x03, 0x55, 0x1D, 0x13] &&
      (match (l.getLast?.map (·.val)).bind derHead with
      | some c => c.tag = 0x30 && c.val.take 3 = [0x01, 0x01, 0xFF]
      | none => false)
  | none => false

/-- Whether the fields that follow the key hold such an extension. -/
def restCa (l : List Tlv) : Bool := match (l.find? (fun x => x.tag = 0xA3)).bind (fun x => derHead x.val) with
  | some q => (q.parts.getD []).any extCa
  | none => false

/-- Reads a certificate: version 3, the one signature algorithm, a key on the one curve. -/
def certOf (c : Tlv) : Option Cert := match c.parts with
  | some [t, alg, g] => match t.parts, sigPair g with
    | some (ver :: serial :: inner :: issuer :: valid :: subject :: key :: rest), some rs =>
      if c.tag = 0x30 ∧ t.tag = 0x30 ∧ alg.raw = algSha512 ∧ inner.raw = algSha512 ∧ ver.tag = 0xA0 ∧ ver.val = [0x02, 0x01, 0x02] ∧
        serial.tag = 2 ∧ issuer.tag = 0x30 ∧ valid.tag = 0x30 ∧ subject.tag = 0x30
      then (spkiPoint key).map (fun p => ⟨t.raw, issuer.raw, subject.raw, p.1, p.2, restCa rest, rs.1, rs.2⟩)
      else none
    | _, _ => none
  | _ => none

/-! ## Chains (R426, R427, R429, R434) -/

/-- The certificates that bytes consist of. The order, each before the one of its issuer, is DEDUCED (log entry 133). -/
def certsOf (b : Bytes) : Option (List Cert) := (derAll b.length b).bind (fun l => l.mapM certOf)

/-- Whether a certificate is signed by the key of another, which may sign certificates. -/
def Cert.signedBy (c d : Cert) : Bool := d.ca && c.issuer = d.subject && ecdsaOk d.x d.y c.tbs c.r c.s

/-- Whether each certificate of a chain is signed by the next one, and the last by itself. -/
def chained : List Cert → Bool
  | [] => false
  | [c] => c.signedBy c
  | c :: d :: l => c.signedBy d && chained (d :: l)

/-- Whether a certificate is that of a root key: a fuse digest, of a key that is not revoked, is the KEYID of its point. That the fuses hold KEYIDs,
and 0 where none is blown, is DEDUCED (log entry 133). -/
def isRoot (roots : List (BitVec 256)) (revoked : List Nat) (c : Cert) : Bool :=
  (List.range 4).any (fun i => i ∉ revoked && roots.getD i 0 ≠ 0 && roots.getD i 0 = num256 (keyId c.x c.y))

/-- The public point that a chain certifies under a kind of key, where it chains to a root that is not revoked: 0 firmware, 1 service, 2 debug,
3 a device key under the device CA. What tells the kind of a Kyulo certificate is open (log entry 133). -/
def certPoint (kind : Nat) (roots : List (BitVec 256)) (revoked : List Nat) (b : Bytes) : Option (Nat × Nat) := match certsOf b with
  | some (c :: d :: l) =>
    let holder := if kind = 3 then d else c
    if chained (c :: d :: l) && ((d :: l).getLast?.any (isRoot roots revoked)) && Config.certKind holder.tbs = kind then some (c.x, c.y) else none
  | _ => none

end Sys2Proof.Machine
end

