-- ==== Sys2Proof/Machine/SecCmds.lean ====
section
/-! DEFINITION. Keys, signed requests, attestation and firmware packages (R421, R425 to R435, R459, R460). -/

set_option autoImplicit false

namespace Sys2Proof.Machine

/-- Replaces a key slot. -/
def State.setKey (s : State) (k : Nat) (x : KeySlot) : State := { s with sec := { s.sec with slots := mput ⟨0, 0, 0⟩ k x s.sec.slots } }

/-- A public point as a layout stores it: x, then y, 66 bytes each. -/
def pointBytes (x y : Nat) : Bytes := leBytes 66 x ++ leBytes 66 y

/-! ## Device certificate and challenge (R434) -/

/-- DEVICE_CERT_INSTALL (R434): one that chains to the device CA and carries the device key's point makes the key store PROVISIONED. -/
def execDeviceCertInstall (cert : Bytes) (s : State) : Host.Outcome State Fault Refusal :=
  .next (match s.sec.dev with
    | some k =>
      if s.hdRuns ∧ certPoint 3 s.sec.roots s.sec.rootsRevoked cert = some (k.x, k.y) then
        ({ s with sec := { s.sec with dev := some { k with cert := cert } } } : State).setHd SEC_STATUS_KSTATE 1
      else s
    | none => s)

/-- CHAL (R434, R452): 32 random bytes, which replace the challenge before. -/
def execChal (h : HostHdr) (s : State) : Host.Outcome State Fault Refusal :=
  .next (s.request h 0x06 true false (fun s =>
    let c := Config.challenge s.free
    (({ s with sec := { s.sec with chal := some c } } : State).skipFree).answer h rsOK 0 0 (bytes256 c)))

/-- CHALLENGE_EXPIRY (R434). -/
def execChallengeExpiry (s : State) : Host.Outcome State Fault Refusal := .next { s with sec := { s.sec with chal := none } }

/-! ## Signed requests (R421, R433, R434) -/

/-- Types. -/
def srSCANUNLOCK : Nat := 1
def srSMAPCLEAR : Nat := 2
def srREPROV : Nat := 3
def srOWNERSET : Nat := 4
def srFKEYADD : Nat := 5
def srFKEYREVOKE : Nat := 6
def srALMPOL : Nat := 7
def srOWNERCLEAR : Nat := 8

/-- The second check: MAGIC, VER, TYPE, reserved bits, and the bits of ARG and PAYLOAD that the type leaves 0. -/
def reqShape (b : Bytes) : Bool :=
  let t := numAt b 5 1
  let pay := numAt b 64 132
  384 ≤ b.length && numAt b 0 4 = 0x51544B53 && numAt b 4 1 = 1 && decide (1 ≤ t ∧ t ≤ 8) && numAt b 7 1 = 0 && numAt b 48 16 = 0 &&
  numAt b 360 24 = 0 && (if t = srFKEYADD ∨ t = srFKEYREVOKE then decide (numAt b 6 1 < 8) else numAt b 6 1 = 0) &&
  (if t = srOWNERSET ∨ t = srFKEYADD then true else if t = srALMPOL then decide (pay < 256) else pay = 0)

/-- The signer that a type calls for: the owner key, or a Kyulo service or debug key by the certificates that follow the request. -/
def State.reqSigner (s : State) (b : Bytes) : Option (Nat × Nat) :=
  let t := numAt b 5 1
  if t = srFKEYADD ∨ t = srFKEYREVOKE ∨ t = srALMPOL then
    (let k := s.keySlot 14
     if k.state = 1 then some (k.x, k.y) else none)
  else certPoint (if t = srSCANUNLOCK then 2 else 1) s.sec.roots s.sec.rootsRevoked (b.drop 384)

/-- Whether the signature of a request verifies under its signer's key. -/
def State.reqSigned (s : State) (b : Bytes) : Bool := match s.reqSigner b with
  | some k => (b.drop 196).take 32 = keyId k.1 k.2 && ecdsaOk k.1 k.2 (b.take 228) (numAt b 228 66) (numAt b 294 66)
  | none => false

/-- The first check that fails, numbered from 1; 0 when all hold. -/
def State.reqCode (s : State) (b : Bytes) : Nat :=
  if s.jobLoaded then 1
  else if !reqShape b then 2
  else if numAt b 8 8 ≠ s.serial.toNat then 3
  else if s.sec.chal ≠ some (num256 ((b.drop 16).take 32)) then 4
  else if !s.reqSigned b then 5
  else 0

/-- Whether a policy byte keeps every floor: 0b11 is none, and LOG is below the floor of all but OVERTEMP (R436, R446). -/
def policyOk (v : Nat) : Bool :=
  v / 64 % 4 ≠ 3 && [0, 2, 4].all (fun i => v / 2 ^ i % 4 = 1 || v / 2 ^ i % 4 = 2)

/-- Whether the type is accepted as the module stands. -/
def State.typeOk (s : State) (b : Bytes) : Bool :=
  let t := numAt b 5 1
  if t = srREPROV then s.hd SEC_STATUS_KSTATE ≠ 1
  else if t = srOWNERSET then (s.keySlot 14).state = 0
  else if t = srFKEYADD then (s.keySlot (numAt b 6 1)).state = 0
  else if t = srALMPOL then policyOk (numAt b 64 1)
  else true

/-- A new device key, whose certificate is still to come. -/
def State.reprovision (s : State) : State :=
  let d := Config.newKey s.free
  let p := (ptMul 521 d ptG).getD (0, 0)
  ({ s with sec := { s.sec with dev := some ⟨d, p.1, p.2, [], s.sec.wrapKey⟩ } } : State).skipFree

/-- SCANUNLOCK (R421): the secret keys are erased and read back, and scan is unlocked. An erase or a check that fails, a free value, leaves
scan locked and raises the alarm for tamper. -/
def State.scanUnlock (s : State) : State :=
  let s1 := s.eraseKeys.skipFree
  if Config.freeBit s.free then s1.raiseAlarm alTAMPER 15 else s1.setHd SEC_STATUS_SCAN 1

/-- The effect of a type. -/
def State.reqEffect (s : State) (b : Bytes) : State :=
  let t := numAt b 5 1
  let key : KeySlot := ⟨1, numAt b 64 66, numAt b 130 66⟩
  let v := numAt b 64 1
  if t = srSCANUNLOCK then s.scanUnlock
  else if t = srSMAPCLEAR then { s.setTable [] with test := { (s.setTable []).test with fails := [], excess := [], stackGone := false } }
  else if t = srREPROV then s.reprovision
  else if t = srOWNERSET then s.setKey 14 key
  else if t = srFKEYADD then s.setKey (numAt b 6 1) key
  else if t = srFKEYREVOKE then s.setKey (numAt b 6 1) { s.keySlot (numAt b 6 1) with state := 2 }
  else if t = srALMPOL then
    (((s.setHd SEC_ALMPOL_TAMPER (v % 4)).setHd SEC_ALMPOL_VGLITCH (v / 4 % 4)).setHd SEC_ALMPOL_CGLITCH (v / 16 % 4)).setHd SEC_ALMPOL_OVERTEMP
      (v / 64 % 4)
  else [0, 1, 2, 3, 4, 5, 6, 7, 14].foldl (fun s k => s.setKey k ⟨0, 0, 0⟩) s

/-- What the answer carries: the public point of a new device key. -/
def State.reqPayload (s : State) (b : Bytes) : Bytes := match s.sec.dev with
  | some k => if numAt b 5 1 = srREPROV then pointBytes k.x k.y else []
  | none => []

/-- A request that is refused is counted, and changes nothing but the challenge that it used up. -/
def State.reqRefuse (s : State) (h : HostHdr) (code : Nat) : State := (s.countD hdWin 0x110 1).answer h rsREJECTED code 0 []

/-- SIGNREQ (R433, R434). The code with which a type is turned away as the module stands is not stated: a free value. -/
def execSignreq (h : HostHdr) (req : Bytes) (s : State) : Host.Outcome State Fault Refusal :=
  .next (s.request h 0x07 true false (fun s =>
    let code := s.reqCode req
    let s1 : State := { s with sec := { s.sec with chal := none } }
    if code ≠ 0 then s1.reqRefuse h code
    else if !s.typeOk req then (s1.reqRefuse h (Config.freeNat s.free % 256)).skipFree
    else
      let s2 := s1.reqEffect req
      s2.answer h rsOK 0 0 (s2.reqPayload req)))

/-! ## Attestation (R435) -/

/-- The report over a nonce, up to its signature. -/
def State.report (s : State) (nonce : BitVec 256) : Bytes :=
  let fl := (if (s.keySlot 14).state = 1 then 1 else 0) + (if s.degraded then 2 else 0) + (if s.unfit then 4 else 0)
  let own := s.keySlot 14
  leBytes 4 0x54544B41 ++ leBytes 1 1 ++ leBytes 1 fl ++ leBytes 2 0xA1 ++ leBytes 8 s.serial.toNat ++ leBytes 4 s.test.bootcnt ++
  leBytes 4 s.fwSvn ++ leBytes 4 s.tsec ++ leBytes 2 s.devidx ++ leBytes 1 s.sec.raised.toNat ++ leBytes 1 0 ++
  leBytes 8 (match s.img with
    | some im => im.jobid.toNat
    | none => 0) ++
  bytes256 nonce ++ (List.range 5).flatMap (fun k => bytes256 (mget 0 s.sec.m k)) ++ s.smapDig ++
  (if own.state = 1 then keyId own.x own.y else leBytes 32 0)

/-- ATTEST (R435): the report and the device certificate chain. A module that is not PROVISIONED refuses; the code it gives is a free
value (R428). -/
def execAttest (h : HostHdr) (nonce : BitVec 256) (s : State) : Host.Outcome State Fault Refusal :=
  .next (s.request h 0x08 true false (fun s =>
    if !s.provisioned then (s.answer h rsREFUSED (Config.freeNat s.free % 256) 0 []).skipFree
    else
      let b := s.report nonce
      let g := s.signature b
      (s.answer h rsOK 0 0 (b ++ g.1 ++ g.2 ++ leBytes 20 0 ++ (match s.sec.dev with
        | some k => k.cert
        | none => []))).skipFree))

/-! ## Firmware packages (R429 to R431, R459, R460) -/

/-- Offset and length of image c: 0 HD, 1 ND, 2 HX. -/
def fwPart (b : Bytes) (c : Nat) : Nat × Nat := (numAt b (32 + 16 * c) 8, numAt b (40 + 16 * c) 8)

/-- The bytes of image c. -/
def fwImage (b : Bytes) (c : Nat) : Bytes := (b.drop (fwPart b c).1).take (fwPart b c).2

/-- Where the certificate chain starts: after the images. -/
def fwChainAt (b : Bytes) : Nat := Nat.max 128 (((List.range 3).map (fun c => (fwPart b c).1 + (fwPart b c).2)).foldl Nat.max 0)

/-- Whether the header, the images and the chain fit, with MAGIC, VER, PKGLEN and reserved bits as they must be. What follows S is
reserved. -/
def fwShape (b : Bytes) : Bool :=
  let e := fwChainAt b + numAt b 20 4
  128 ≤ b.length && numAt b 0 4 = 0x57464B59 && numAt b 4 1 = 1 && numAt b 5 1 = 0 && numAt b 18 2 = 0 && numAt b 80 48 = 0 &&
  numAt b 24 8 = b.length && decide (e + 164 ≤ b.length) && (b.drop (e + 164)).all (· = 0)

/-- Whether the chain leads to a root that is not revoked and the package is signed by its key. -/
def State.fwSigned (s : State) (b : Bytes) : Bool :=
  let c := fwChainAt b
  let e := c + numAt b 20 4
  match certPoint 0 s.sec.roots s.sec.rootsRevoked ((b.drop c).take (numAt b 20 4)) with
  | some k => (b.drop e).take 32 = keyId k.1 k.2 && ecdsaOk k.1 k.2 (b.take e) (numAt b (e + 32) 66) (numAt b (e + 98) 66)
  | none => false

/-- CODE of a firmware package (R460), 0 when it verifies. -/
def State.fwCode (s : State) (b : Bytes) : Nat :=
  if !fwShape b then 1 else if numAt b 6 2 ≠ 0xA1 then 2 else if !s.fwSigned b then 3 else if numAt b 8 4 < s.hd SEC_STATUS_SVN then 4 else 0

/-- FWINSTALL (R431, R460): at the last chunk the package is verified and written into the inactive bank, which becomes the active one for
the next power-up or module reset. -/
def execFwInstall (h : HostHdr) (off len : BitVec 64) (chunk : Bytes) (s : State) : Host.Outcome State Fault Refusal :=
  .next (s.request h 0x0A true true (fun s =>
    let put := fun (s : State) (b : Bytes) => ({ s with sec := { s.sec with upload := b } } : State)
    match upload s.sec.upload off.toNat len.toNat chunk with
    | none => (put s []).answer h rsREJECTED 1 0 []
    | some b =>
      if b.length < len.toNat then (put s b).answer h rsOK 0 0 []
      else
        let code := s.fwCode b
        let s1 := put s []
        let other := 1 - s.hd SEC_STATUS_BANK
        if code = 0 then
          (({ s1 with sec := { s1.sec with banks := mput [] other b s1.sec.banks } } : State).setHd SEC_STATUS_BANK other).answer h rsOK 0 0 []
        else s1.answer h rsREJECTED code 0 []))

end Sys2Proof.Machine
end

