-- ==== Sys2Proof/Machine/PowerCmds.lean ====
section
/-! DEFINITION. Input power, rails, temperatures, coolant and the PRESENT contact; what a loss of power and a reset leave (R408, R455,
R482 to R485, R490, R491, R492, R497, R498). -/

set_option autoImplicit false

namespace Sys2Proof.Machine

/-- MOD_FLT_N is driven low while the module is fenced, HALTED or UNFIT (R492). -/
def State.faultPin (s : State) : Bool := s.fenced || s.host.halted || s.unfit

/-! ## Power and input (R482 to R484) -/

/-- The emergency throttle. -/
def State.throttle (s : State) : State :=
  ((s.setHd PWR_STATUS_EMERG 1).bumpHd PWR_EMCNT_COUNT 1).sendAlarm 1 1 (s.hd THM_STATUS_TJMAX)

/-- POWER_SAMPLE (R483): `over62` says more than 6.2 kW for 20 us, `over55` more than 5.5 kW without a break for 10 ms. -/
def execPowerSample (pin vin : BitVec 16) (over62 over55 : Bool) (s : State) : Host.Outcome State Fault Refusal :=
  .next (if !s.hdRuns then s
    else
      let s1 := (s.setHd PWR_STATUS_PIN pin.toNat).setHd PWR_STATUS_VIN vin.toNat
      if (over62 || over55) && s.hd PWR_STATUS_EMERG = 0 then s1.throttle else s1)

/-- THROTTLE_OVERRUN (R483): still above 6.2 kW 1 ms after the throttle began. -/
def execThrottleOverrun (s : State) : Host.Outcome State Fault Refusal :=
  .next (if s.hdRuns ∧ s.hd PWR_STATUS_EMERG = 1 then s.powerFault else s)

/-! ## Loss of power and reset (R408, R429, R432, R441, R455) -/

/-- Keys of the register fields that stage 0 sets again from the key store. -/
def storeKeys : List Nat :=
  [SEC_STATUS_SVN, SEC_STATUS_KSTATE, SEC_STATUS_BANK, SEC_ALMPOL_OVERTEMP, SEC_ALMPOL_CGLITCH, SEC_ALMPOL_VGLITCH, SEC_ALMPOL_TAMPER].map
    (dieKey hdWin)

/-- Keys of the fields whose hardware stays up through a module reset: the management ports and the meter link. -/
def liveKeys : List Nat := [MGT_STATUS_PLA, MGT_STATUS_PLB, MGT_PFXA_PFX, MGT_PFXB_PFX, MTR_STATUS_LINK].map (dieKey hdWin)

/-- The module with its reset domains asserted: the key store, the spare-mapping store, the firmware banks, the meter, the facility side and
the counters of time keep what they hold. HBM loses its contents with its rails. -/
def State.cleared (s : State) (keep : List Nat) : State :=
  { State.reset with
    pending := s.pending, time := s.time, free := s.free, out := s.out, serial := s.serial,
    regs := s.regs.filter (fun e => e.1 ∈ keep),
    test := { s.test with visit := none, due := 0, upload := [], running := 0, ctlTest := none },
    sec := { s.sec with m := [], chal := none, run := [], upload := [], almLog := [] },
    mtr := { s.mtr with readOk := false, pendingStop := none },
    fac := s.fac,
    pwr := { Pwr.reset with input := s.pwr.input, present := s.pwr.present } }

/-- Input power is gone (R455): STBY is asserted. A power-down that was not a shut-down was not orderly (R413). -/
def State.loseInput (s : State) : State :=
  if !s.pwr.input then s
  else
    let s1 := s.meterLoss.cleared storeKeys
    let pass := if s.host.shut then s.test.pass else s.test.pass.map (fun p => { p with orderly := false })
    { s1 with pwr := { s1.pwr with input := false }, test := { s1.test with pass := pass }, sec := { s1.sec with raised := 0 } }

/-- INPUT_LOSS (R455): input below 40 V for 10 ms. -/
def execInputLoss (s : State) : Host.Outcome State Fault Refusal := .next s.loseInput

/-- INPUT_VOLTAGE_FAULT (R484): outside 40 to 60 V for 10 ms, or above 66 V, in units of 10 mV. Above 66 V the input is disconnected, and
below 40 V STBY is asserted. -/
def execInputVoltageFault (vin : BitVec 16) (s : State) : Host.Outcome State Fault Refusal :=
  let v := vin.toNat
  let off := decide (6600 < v ∨ v < 4000)
  .next (if !s.hdRuns ∨ (4000 ≤ v ∧ v ≤ 6000) then s
    else
      let s1 := (s.setHd PWR_STATUS_VIN v).sendAlarm 3 (if off then 3 else 0) v
      if off then s1.loseInput else s1)

/-- PRESENT_BREAK (R491): the load is disconnected, which is a loss of input power. -/
def execPresentBreak (s : State) : Host.Outcome State Fault Refusal :=
  .next { s.loseInput with pwr := { s.loseInput.pwr with present := false } }

/-- PRESENT_MATE (R491). -/
def execPresentMate (s : State) : Host.Outcome State Fault Refusal := .next { s with pwr := { s.pwr with present := true } }

/-! ## Temperatures and coolant (R490, R498) -/

/-- A signed 16-bit reading. -/
def int16 (v : BitVec 16) : Int := v.toInt

/-- The highest junction temperature with its die; none without a reading. -/
def hottest : List (BitVec 4 × BitVec 16) → Option (Nat × Int)
  | [] => none
  | x :: l => match hottest l with
    | some y => if y.2 ≤ int16 x.2 then some (x.1.toNat, int16 x.2) else some y
    | none => some (x.1.toNat, int16 x.2)

/-- THM_STATUS and THM_COOL from a reading. -/
def State.showThermal (s : State) (t : Thermal) : State :=
  let rise := (int16 t.tout - int16 t.tin).toNat
  let s1 := match hottest t.tj with
    | some h => (s.setHd THM_STATUS_TJMAX (BitVec.ofInt 16 h.2).toNat).setHd THM_STATUS_TJDIE h.1
    | none => (s.setHd THM_STATUS_TJMAX 0).setHd THM_STATUS_TJDIE 0xF
  (((s1.setHd THM_STATUS_TOUT t.tout.toNat).setHd THM_STATUS_TIN t.tin.toNat).setHd THM_COOL_FLOW t.flow.toNat).setHd THM_COOL_RISE
    (Nat.min rise 255)

/-- Whether a TJMAX as shown is 110 C or above. -/
def tooHot (v : Nat) : Bool := decide (1100 ≤ int16 (BitVec.ofNat 16 v))

/-- A junction that reaches 110 C: FALARM and the OVERTEMP alarm with its policy. -/
def State.overTemp (s : State) : State :=
  let act := s.alarmPolicy alOVERTEMP
  (s.sendAlarm 1 (if act = 0 then 0 else 2) (s.hd THM_STATUS_TJMAX)).raiseAlarm alOVERTEMP (s.hd THM_STATUS_TJDIE)

/-- The conditions of thermal regulation; a rise above 10 K sends FALARM. -/
def State.regulate (s : State) (t : Thermal) : State :=
  let hot := if t.hot100ms then true else if t.cool10s then false else s.pwr.hot
  let rise := if t.rise1s then true else if t.riseOk then false else s.pwr.rise
  let s1 : State := { s with pwr := { s.pwr with hot := hot, rise := rise } }
  if rise && !s.pwr.rise then s1.sendAlarm 4 1 (s.hd THM_COOL_RISE) else s1

/-- THERMAL_SAMPLE (R490, R498). -/
def execThermalSample (t : Thermal) (s : State) : Host.Outcome State Fault Refusal :=
  .next (if !s.hdRuns then s
    else
      let before := tooHot (s.hd THM_STATUS_TJMAX)
      let s1 := (s.showThermal t).regulate t
      let flow := if t.noFlow1s then 2 else if t.lowFlow1s then 1 else 0
      let s2 := ({ s1 with fac := { s1.fac with measured := flow } } : State).takeInputs
      if tooHot (s2.hd THM_STATUS_TJMAX) && !before then s2.overTemp else s2)

/-- LEAK_SENSED (R490): handled as SUPPLY 2. The VALUE of its FALARM is a free value. -/
def execLeakSensed (s : State) : Host.Outcome State Fault Refusal :=
  .next (if !s.hdRuns then s
    else (((s.setHd THM_COOL_LEAK 1).sendAlarm 2 3 (Config.freeNat s.free % 2 ^ 16)).skipFree).takeInputs)

/-! ## Rails (R485) -/

/-- Nominal voltage of a rail in mV. -/
def railNominal (r : Nat) : Nat := if r < 8 then 750 else if r < 16 then 1100 else if r < 19 then 750 else if r < 21 then 3300 else if r = 21 then 800 else 3300

/-- A rail comes up: its active phases in service, LASTING ones replaced. Its current is a free value. -/
def State.railUp (s : State) (r : Nat) : State :=
  let x : Rail := ⟨railNominal r, Config.freeNat s.free % 2 ^ 16, 0x1F, BitVec.ofNat 16 (2 ^ railPhases r - 1)⟩
  let s1 : State := { s with pwr := { s.pwr with rails := mput ⟨0, 0, 0x1F, 0⟩ r x s.pwr.rails } }
  (List.range (railPhases r)).foldl (fun s p => if s.lasting ukPHASE (phaseUnit r p) then s.dropPhase r p else s) s1.skipFree

/-- Every rail comes up. -/
def State.railsUp (s : State) : State := (List.range 23).foldl State.railUp s

end Sys2Proof.Machine
end

