-- ==== Sys2Proof/Machine/Recovery.lean ====
section
/-! DEFINITION. Panniers beyond sending, digests of shard copies, repair of copies and poisoned pages, the referee, and the commands of the
recovery tiers on a module (R325 to R349). -/

set_option autoImplicit false

namespace Sys2Proof.Machine

/-! ## Panniers (R328, R329) -/

/-- PANNIER_OVERFLOW (R329): of a bulk or collective packet whose record does not fit. -/
def execPannierOverflow (nd : Fin 2) (k : UalPkt) (s : State) : Host.Outcome State Fault Refusal :=
  let r : Kept := ⟨k.h.step, 0, k⟩
  .next (if s.loaded ∧ k.h.cls.toNat < 2 ∧ s.panBytes nd.val < ((s.kept nd.val).map Kept.size).sum + r.size then s.panOverflow nd.val else s)

/-- PANNIER_RESEND (R328). -/
def execPannierResend (nd : Fin 2) (n : Nat) (why : ResendWhy) (s : State) : Host.Outcome State Fault Refusal :=
  .next (match (s.kept nd.val)[n]? with
    | some r => s.resend r.pkt (match why with
      | .retransmission => none
      | .catchUp a => some a
      | .referee a => some a)
    | none => s)

/-! ## Copies of shards (R331, R335) -/

/-- The digests of a digest step are complete; the own shard's is shown in TDM_DIGi, and CHECK goes on if it waited for them. -/
def State.digestsDone (s : State) : State :=
  let ms := (s.copies.filter (fun c => c ≠ 0)).map (fun c => (s.copyShard c, s.copyDigest (s.copyPages c)))
  let own := s.copyDigest (s.copyPages 0)
  let s1 := s.notePages (s.copies.flatMap s.copyPages)
  let s2 : State := { s1 with rep := { s1.rep with digestReady := true, ownDigest := own, mirrorDigests := ms } }
  let s3 := match own with
    | some d => (List.range 4).foldl (fun (s : State) i => s.setHd (TDM_DIG_DIG i) (d.toNat / 2 ^ (64 * i))) s2
    | none => s2
  if s3.rep.check.begun then s3.checkPart else s3

/-- DIGEST_COMPUTE_DONE (R335): before CHECK of a digest step or of its replay, or while CHECK waits for them. -/
def execDigestComputeDone (s : State) : Host.Outcome State Fault Refusal :=
  .next (if s.hdRuns ∧ ((s.gateState = gRUN ∧ s.gate.phase < 4) ∨ s.rep.check.begun) ∧ s.digestStep s.stepNo.toNat ∧ !s.rep.digestReady then s.digestsDone else s)

/-! ## Repair of copies and pages (R337, R339, R340) -/

/-- The words of a page as they arrive, decoded, with their poison. -/
def pageMarks (p : PageData) : List (Byte × Bool) := (wordMarksOf p.words).take 65536

/-- Writes a page as whole words (R238, R337). -/
def State.writePage (s : State) (p : PageData) : State := { s with hbm := s.hbm.store (p.page * 65536) (pageMarks p) }

/-- A losing copy that the pages of a repair belong to, with the digest that a winning one has. -/
def State.repairTarget (s : State) (own : Bool) (pages : List PageData) : Option (Nat × Option (BitVec 256)) :=
  s.rep.losing.find? (fun c => (c.1 = 0) = own && pages.all (fun p => p.page ∈ s.copyPages c.1))

/-- A winning copy held here sends the pages that a repair names to the modules whose copies lost to it. -/
def State.sendRepair (s : State) (own : Bool) (pages : List PageData) : State :=
  match s.rep.winning.find? (fun w => (w.1 = 0) = own && pages.all (fun p => p.page ∈ s.copyPages w.1)) with
  | some w => (s.notePages (pages.map (·.page))).emits (w.2.map (fun d => .pages d (s.copyShard w.1) (s.pagesOut w.1 (pages.map (·.page)))))
  | none => s

/-- COPY_REPAIR (R337): the pages of a winning copy that differ overwrite a losing one, once none of these writes waits; it is repaired when it
has the digest of the winning copy; at the holder of a winning copy they are sent. -/
def execCopyRepair (own : Bool) (pages : List PageData) (s : State) : Host.Outcome State Fault Refusal :=
  .next (if !s.hdRuns then s else match s.repairTarget own pages with
    | some c =>
      let s1 := pages.foldl State.writePage s
      if pages.any (fun p => s.writeWaits (p.page * 65536) 65536) then s
      else if c.2.isSome ∧ s1.copyDigest (s1.copyPages c.1) = c.2 then { s1 with rep := { s1.rep with losing := s1.rep.losing.filter (fun l => l.1 ≠ c.1) } }
      else s1
    | none => if s.fenced then s else s.sendRepair own pages)

/-- The slice enters tier 3 for want of a copy, as the captains are told (R341, R369; the form is a DESIGN CHOICE, log entry 129). -/
def State.needTier3 (s : State) : State :=
  ({ s with rep := { s.rep with tier3 := true, verdictWait := [] } } : State).reportFault 0x04 noBlame noCopyDetail false

/-- The losing copies held here that a settled verdict names. -/
def State.refereed (s : State) (shard : Nat) (result : BitVec 256) (copies : List DigestRec) : State :=
  let lost := (s.ownCopies copies).filter (fun c => c.1.shard.toNat = shard && c.1.dig ≠ result)
  let s1 : State := { s with rep := { s.rep with verdictWait := s.rep.verdictWait.filter (· ≠ shard) } }
  lost.foldl (fun s c => s.copyLoss c.2 (some result)) (if lost = [] then s1 else s1.setHd TDM_VERDICT_LOST 1)

/-- A holder sends the referee what it fetches: the pre-image log of its copy, the pages of the GBASE ranges that hold the reduced shard and the
step block, and the step block (R338, R339). -/
def State.sendReferee (s : State) (referee : BitVec 64) (shard : Nat) : State :=
  match s.copies.find? (fun c => s.copyShard c = shard) with
  | none => s
  | some c =>
    let log := s.logPages c
    let kept := match s.img with
      | some im => (s.copyRoles c).flatMap (fun r => match im.resil.preimg.find? (fun p => p.1 = r) with
        | some p => (List.range p.2.2.2).map (fun i => p.2.2.1 / 65536 + i)
        | none => [])
      | none => []
    let out := fun (ps : List Nat) => ps.zipIdx.map (fun e => (⟨e.2, chunkWords 8192 (s.hbm.marks (e.1 * 65536) 65536)⟩ : PageData))
    (s.notePages (log ++ kept)).emit (.refereeLog referee shard (out log) (out kept) s.gate.block)

/-- The referee starts COMMIT of the step again for the owner's roles, from the pre-image log, the reduced shard and the step block that it has
fetched. -/
def State.refereeRun (s : State) (step : BitVec 64) (block : Bytes) (pages : List PageData) : State :=
  let s1 := ((pages.foldl State.writePage s).dueAll step true).setGate gCOMMIT
  ({ s1 with gate := { s1.gate with block := block, resuming := true, due := s1.copyRoles 0 }, rep := { s1.rep with referee := true } } : State).setPhase 5

/-- REFEREE (R339): a domestique that is in no slice runs COMMIT again; a holder sends it what it fetches; at the holders, pre-image logs that differ, or no copy equal to the
result, leave the verdict of the shard undecided. -/
def execRefereeRun (r : RefereeInput) (s : State) : Host.Outcome State Fault Refusal :=
  .next (if !s.hdRuns then s else match r with
    | .run step block pages =>
      if s.loaded && !s.fenced && !s.host.admitted && s.rep.tier2 = [] && s.gateState = gIDLE && s.holdsPass
      then s.refereeRun step block pages else s
    | .fetch referee shard => if !s.fenced && shard.toNat ∈ s.rep.verdictWait then s.sendReferee referee shard.toNat else s
    | .settle logs result copies => match copies with
      | [] => s
      | c :: _ =>
        let h := c.shard.toNat
        if h ∉ s.rep.verdictWait then s
        else if !logs.all (fun d => d = logs.headD 0) ∨ !copies.any (fun c => c.shard.toNat = h && !c.poi && c.dig = result) then s.needTier3
        else s.refereed h result copies)

/-- Whether listed pages are restored now: at a rewind, or before COMMIT is resumed. -/
def State.restoring (s : State) : Bool := s.gateState = gREWIND || (s.gateState = gCOMMIT && s.gate.stopped)

/-- The copy that a page belongs to. -/
def State.copyOf (s : State) (page : Nat) : Option Nat := s.copies.find? (fun c => page ∈ s.copyPages c)

/-- A page of a copy held here goes to the holders of the others: an own page to the partners, a page of a CURRENT mirror to its owner. -/
def State.sendPage (s : State) (page : Nat) : State := match s.copyOf page with
  | some c =>
    let devs := if c ≠ 0 ∧ mget 0 s.rep.mirrors (c - 1) ≠ 0 then []
      else (s.livePartners.filter (fun p => c = 0 ∨ p.1 + 1 = c)).map (·.2)
    if devs = [] then s else (s.notePages [page]).emits (devs.map (fun d => .pages d (s.copyShard c) (s.pagesOut c [page])))
  | none => s

/-- No copy of a listed page is without poison: the shard's verdict is NOCOPY, a mirror with such a page is LOST, and the slice enters tier 3
(R334, R340, R341). -/
def State.noCopyVerdict (s : State) (c : Nat) : State :=
  let s1 := (((s.setHd TDM_VERDICT_VALID 1).setHd TDM_VERDICT_OUT dvNOCOPY).setHd TDM_VERDICT_LOST 1).setHd TDM_VERDICT_SHARDID (s.copyShard c)
  let s2 : State := if c = 0 then s1 else { s1 with rep := { s1.rep with mirrors := mput 0 (c - 1) 2 s1.rep.mirrors } }
  s2.needTier3

/-- The holders of a copy that stand, this module apart. -/
def State.otherHolders (s : State) (c : Nat) : List Nat :=
  (Config.copyHolders (s.copyShard c)).filter (fun d => d ≠ s.devidx && !s.declared d)

/-- The copy of a holder cannot give a listed page; when no other one is left, there is no copy. -/
def State.badSource (s : State) (page holder : Nat) : State :=
  let s1 : State := { s with rep := { s.rep with noCopy := linsert (page, holder) s.rep.noCopy } }
  match s1.copyOf page with
  | some c => if (s1.otherHolders c).all (fun d => (page, d) ∈ s1.rep.noCopy) then s1.noCopyVerdict c else s1
  | none => s1

/-- Whether a holder may give a page: the mirror of the own shard on a partner only while it is CURRENT (R340). -/
def State.sourceCurrent (s : State) (page holder : Nat) : Bool := match s.img with
  | some im => s.copyOf page ≠ some 0 || (im.resil.partners.filter (fun p => p.2.1 = holder)).all (fun p =>
      s.hd (if p.1 = 0 then TDM_STATUS_M0 else TDM_STATUS_M1) = 0)
  | none => true

/-- POISON_PAGE_RESTORE (R340): a listed page is rewritten from the copy of a holder; that holder sends it. -/
def execPoisonPageRestore (p : PageFrom) (s : State) : Host.Outcome State Fault Refusal :=
  let holder := p.holder
  let pg := p.pg
  .next (if !s.hdRuns then s
    else if holder.toNat = s.devidx then (if s.loaded ∧ !s.fenced then s.sendPage pg.page else s)
    else if !s.restoring ∨ pg.page ∉ s.rep.poison ∨ s.writeWaits (pg.page * 65536) 65536 ∨ !s.sourceCurrent pg.page holder.toNat then s
    else if (pageMarks pg).any (·.2) ∨ pg.words.length ≠ 8192 then s.badSource pg.page holder.toNat
    else
      let s1 := (s.writePage pg).bumpHd TDM_POIS_RESTORED 1
      { s1 with rep := { s1.rep with poison := s1.rep.poison.filter (· ≠ pg.page), noCopy := s1.rep.noCopy.filter (fun e => e.1 ≠ pg.page) } })

/-! ## Tier 1 (R342) -/

/-- Records ATT for a boundary and tells the job runtime of the rewind (R369, R453). -/
def State.noteRewind (s : State) (tier b att : Nat) : State :=
  let rs := (b, att) :: s.pel.rewinds.filter (fun r => r.1 ≠ b)
  ({ s with pel := { s.pel with rewinds := rs } }).notify 0x04 (BitVec.ofNat 64 (tier + 256 * att))

/-- Whether the module waits at a step entry for its release. -/
def State.held (s : State) : Bool := s.hd PEL_STATUS_STATE = 2 && s.host.admitted

/-- Restores what a domestique in the place of a lost module brings back: it is watched again (R360, R365). -/
def State.rejoin (s : State) : State :=
  let s1 : State := { s with pel := { s.pel with gone := [], heard := s.pel.heard.filter (fun e => e.1 ∉ s.pel.gone), outSince := none } }
  match s.img with
  | some im =>
    let s2 := im.resil.watchers.zipIdx.foldl (fun s e => s.setHd (PEL_WATCH_DEV e.2) e.1) s1.mirrorsCurrent
    im.resil.subjects.zipIdx.foldl (fun s e =>
      if s.hd (PEL_SUBJ_DEV e.2) = e.1 then s
      else ((s.setHd (PEL_SUBJ_DEV e.2) e.1).setHd (PEL_SUBJ_MISSES e.2) 0).setHd (PEL_SUBJ_REPORTED e.2) 0) s2
  | none => s1

/-- The module is released from HELD into its step entries; after a restore every role is due. -/
def State.releaseHeld (s : State) : State :=
  let s1 := (s.setHd PEL_STATUS_STATE 1).rejoin
  let s2 : State := { s1 with rep := { s1.rep with tier2 := [] }, ckp := { s1.ckp with slots := [] } }
  if s2.gateState = gREWIND ∧ s2.gate.due = [] then ((s2.dueAll s2.stepNo true).freshEngines).setGate gREWIND else s2

/-- A tier-1 recovery of the module: the rewind to the boundary of the step in flight, with the next ATT. A fault in COMMIT stops it for
R223; one after COMMIT changes nothing (R30). -/
def State.tier1 (s : State) : State :=
  let g := s.gateState
  if g = gCOMMIT then s.commitStop
  else if g = gRUN ∨ g = gWAIT ∨ g = gREWIND then
    let b := s.stepNo.toNat
    let att := (s.attOf b + 1) % 256
    (s.rewind.noteRewind 1 b att).setHd PEL_STATUS_ATT att
  else s

/-- TIER1_REWIND (R342): a module held at its step entry is released into the replay; one that is not held rewinds. -/
def execTier1Rewind (cause : BitVec 8) (s : State) : Host.Outcome State Fault Refusal :=
  .next (if !s.hdRuns ∨ s.fenced ∨ s.host.halted ∨ !s.host.admitted ∨ 0x0E < cause.toNat then s
    else if s.held then s.releaseHeld
    else s.tier1)

/-- The rewind that a slice without captains starts by itself: a fault that loses no module is handled in tier 1 (R354). -/
def State.ownRewind (s : State) : State :=
  if s.loaded && !s.hasCaptains && s.host.admitted && s.hdRuns && !s.fenced && !s.host.halted && s.gateState = gREWIND && s.gate.due = [] &&
    s.liveRoles ≠ [] && !s.rep.tier3 then s.tier1 else s

/-! ## Tier 2 (R343 to R345) -/

/-- The recovery of a lost module on this module, and its replacement. -/
def State.tier2Of (s : State) (subj : Nat) : Option Tier2 := s.rep.tier2.find? (fun t => t.subj = subj)
def State.setTier2 (s : State) (t : Tier2) : State :=
  { s with rep := { s.rep with tier2 := s.rep.tier2.filter (fun u => u.subj ≠ t.subj) ++ [t] } }

/-- Stage 3 of R343 at the captain: the domestique is chosen, the rewiring is requested, and its job runtime is told which device index it
replaces. -/
def State.placeDom (s : State) (subj : Nat) (dom : BitVec 64) : State :=
  let tried := match s.tier2Of subj with
    | some t => t.tried
    | none => []
  let s1 := (s.setTier2 ⟨subj, 3, s.time, dom, tried ++ [dom], [], [], [], []⟩).emit (.domestique dom subj)
  if domPairs subj dom = [] then s1 else s1.ocsSend (domPairs subj dom) false (some subj)

/-- The captain selects the next domestique for a place, where one is left (R349, R380). -/
def State.nextDom (s : State) (subj : Nat) : State := match s.tier2Of subj with
  | some t => match Config.nextDomestique t.tried with
    | some d => s.placeDom subj d
    | none => s
  | none => s

/-- Entries of a partner's step records, by step. -/
def State.partnerSteps (s : State) (p : Nat) : List (BitVec 64 × List StepEntry) :=
  let l := s.rep.partnerRecs.filter (fun r => r.1 = p)
  ((l.map (·.2.1)).eraseDups).map (fun n => (n, (l.filter (fun r => r.2.1 = n)).map (·.2.2.2)))

/-- The boundary at which a copy held here stands: that of the step in flight, or once it is committed the next one. -/
def State.copyStep (s : State) (c : Nat) : BitVec 64 :=
  let behind := c ≠ 0 && mget 0 s.rep.mirrors (c - 1) = 1
  if behind ∨ ¬(s.gateState = gCOMMIT ∨ s.gateState = gDONE ∨ s.gateState = gSKIP) then s.stepNo else s.stepNo + 1

/-- Stage 7 of R343 at a partner of the lost module: its shard from the mirror held here, its mirror of the own shard, and its step records. -/
def State.sendTransfers (s : State) (subj : Nat) : State := match s.img with
  | some im => match im.resil.partners.find? (fun p => p.2.1 = subj) with
    | some p =>
      let send := fun (s : State) (c : Nat) (recs : List (BitVec 64 × List StepEntry)) => match s.copyDigest (s.copyPages c) with
        | some d => (s.notePages (s.copyPages c)).emit (.transfer subj (s.copyShard c) (s.pagesOut c (s.copyPages c)) d (s.copyStep c) recs)
        | none => s.notePages (s.copyPages c)
      let s1 := if p.1 + 1 ∈ s.copies ∧ mget 0 s.rep.mirrors p.1 ≠ 2 then send s (p.1 + 1) (s.partnerSteps p.1) else s
      send s1 0 []
    | none => s
  | none => s

/-- TIER2_RECOVERY (R343, R344): the captain of a declared module's pod starts the recovery with the domestique named, which is available when it
has no image in force, is not fenced and holds a signed pass; a partner of the lost module sends it what it takes over. -/
def execTier2Recovery (subj : BitVec 16) (domSerial : BitVec 64) (s : State) : Host.Outcome State Fault Refusal :=
  .next (if !s.hdRuns ∨ s.fenced then s
    else if domSerial = s.serial ∧ !s.host.admitted then
      (if s.loaded ∨ !s.holdsPass ∨ s.test.mustTest then s
      else ({ s with rep := { s.rep with tier2 := [⟨subj.toNat, 4, s.time, domSerial, [], [], [], [], []⟩] } }).setHd PEL_STATUS_STATE 4)
    else if s.loaded ∧ s.declared subj.toNat then
      (if s.captainFor subj.toNat then (s.placeDom subj.toNat domSerial).sendTransfers subj.toNat else s.sendTransfers subj.toNat)
    else s)

/-- The copy digest of pages as they arrive; none when a word of them carries poison. -/
def arrivedDigest (ps : List PageData) : Option (BitVec 256) :=
  if ps.any (fun p => (pageMarks p).any (·.2)) then none
  else some (num256 (sha32 (ps.flatMap (fun p => sha32 ((pageMarks p).map (·.1))))))

/-- A verified transfer: the pages are in place, with the step records that came along. The own shard tells the boundary at which the domestique
stands. With the last transfer it reports ready, unless its shard came from a mirror that was BEHIND the others: then the catch-up replay comes
first (R343, R345). -/
def State.transferIn (s : State) (t : Tier2) (c : Nat) (x : Transfer) : State :=
  let s1 := x.pages.foldl State.writePage s
  let got := linsert c t.got
  let all := s1.copies.all (fun d => d ∈ got)
  let recs := x.recs.foldl (fun l r => if l.any (fun q => q.1 = r.1) then l else l ++ [r]) s1.rep.recs
  let steps := (c, x.step) :: t.steps
  let own := match steps.find? (fun e => e.1 = 0) with
    | some e => e.2
    | none => x.step
  let late := steps.any (fun e => decide (own.toNat < e.2.toNat))
  let s2 : State := { s1.setTier2 { t with got := got, steps := steps, stage := if !all then 7 else if late then 9 else 10,
                                           since := if all then s1.time else t.since } with
    gate := { s1.gate with step := own } }
  let s3 : State := { s2 with rep := { s2.rep with recs := recs } }
  if all && !late then s3.mgtSend 0x21 own (BitVec.ofNat 64 s.jobLo) [s.ckLead] [] else s3

/-- A transfer that failed twice from one holder: the holder's fault is lasting, and another copy is taken, or the slice enters tier 3. -/
def State.transferFails (s : State) (t : Tier2) (c holder : Nat) : State :=
  let t1 := { t with failed := linsert (c, holder) t.failed }
  let s1 := (s.setTier2 t1).reportFault 0x06 holder 0 true
  if (s1.otherHolders c).all (fun d => (c, d) ∈ t1.failed) then s1.needTier3 else s1

/-- STATE_TRANSFER_DONE (R343, R349): with the ports UP; a module that may not take the place takes
none (R374). A digest that does not match restarts the transfer once; a holder that has been declared
gives none, and another one does. -/
def execStateTransferDone (x : Transfer) (s : State) : Host.Outcome State Fault Refusal :=
  let c := x.copy.val
  let h := x.holder.toNat
  .next (match s.rep.tier2 with
    | t :: _ =>
      if !s.hdRuns ∨ !s.loaded ∨ s.barredHere ∨ s.host.admitted ∨ s.fenced ∨ t.stage < 4 ∨ !s.portsReady ∨ c ∈ t.got ∨ c ∉ s.copies ∨ (c, h) ∈ t.failed ∨ s.declared h then s
      else if arrivedDigest x.pages = some x.sentDigest ∧ x.pages.map (·.page) = s.copyPages c then s.transferIn t c x
      else if (c, h) ∈ t.retried then s.transferFails t c h
      else s.setTier2 { t with retried := t.retried ++ [(c, h)] }
    | [] => s)

/-- The bound of stages 7 and 8: 200 ms and the bytes at 1.2 TB/s, in units of `State.time`. -/
def State.transferBound (s : State) : Nat :=
  200 * msUnits + (((s.copies.map (fun c => (s.copyPages c).length)).sum) * 65536 + 29999999) / 30000000

/-- The bound of stage 4, that of a load (R279), in units of `State.time`; none while no frame header stands in the host window. -/
def State.loadBound (s : State) : Option Nat :=
  let b := s.hbm.read (s.hd FRM_SRC_BASE) 64
  if hdrCode s.umaj b = 0 then some (100 * msUnits + ((hdrOf b).imglen + 49999) / 50000) else none

/-- Whether every ACTIVE port has light. -/
def State.portsLit (s : State) : Bool := match s.img with
  | some im => (im.ports.filter (fun p => p.use = 1)).all (fun p => s.portState (s.carrier (4 * p.port + p.sub)) ≠ psDARK)
  | none => false

/-- A stage is over, and the next one runs. -/
def State.enterStage (s : State) (t : Tier2) (n : Nat) : State := s.setTier2 { t with stage := n, since := s.time }

/-- A stage that is late is a missed deadline, DETAIL 7; its clock starts again. -/
def State.lateStage (s : State) (t : Tier2) (bound : Nat) (blame : List Nat) : State :=
  if t.since + bound < s.time then (s.enterStage t t.stage).missDeadline 7 blame 0 0xFFFF 7 else s

/-- The clock of a domestique's stages (R343, R375): the load, which it counts from its order; light on its ports, which the controller brings;
the ports UP; the transfer with its verification; and the start of the slice. A stage of its own that is late blames it, the start of the slice
blames none. From when each is counted is DEDUCED (log entry 113). -/
def State.stageTick (s : State) : State := match s.rep.tier2 with
  | [] => s
  | t :: _ =>
    if s.host.admitted ∨ s.fenced ∨ s.gate.catchUp ∨ t.stage < 4 then s
    else if t.stage = 4 then (if s.loaded then s.enterStage t 5 else match s.loadBound with
      | some n => s.lateStage t n [s.devidx]
      | none => s)
    else if t.stage = 5 then (if s.portsLit then s.enterStage t 6 else s)
    else if t.stage = 6 then (if s.portsReady then s.enterStage t 7 else s.lateStage t (40 * msUnits) [s.devidx])
    else if t.stage = 7 then s.lateStage t s.transferBound [s.devidx]
    else if t.stage = 10 then s.lateStage t (100 * msUnits) []
    else s

/-- NO_DOMESTIQUE (R344): a REFEREE verdict stays undecided, and a lost module halts the job. -/
def execNoDomestique (forReferee : Bool) (s : State) : Host.Outcome State Fault Refusal :=
  .next (if !s.hdRuns then s
    else if forReferee then (if s.rep.verdictWait ≠ [] then s.needTier3 else s)
    else if s.isLead && s.pel.gone ≠ [] then s.sendHalt 0x0E else s)

/-- The step that a catch-up replay runs, with the entries of its record: every role is due in RUN, and the gear values and the loss scale
are the recorded ones. -/
def State.catchUpRun (s : State) (x : CatchUp) : State :=
  let s1 : State := { s with rep := { s.rep with recs := s.rep.recs.filter (fun r => r.1 ≠ x.step) ++ [(x.step, x.entries)] } }
  let s2 := (s1.dueAll x.step true).freshEngines
  let gear := x.entries.filterMap (fun e => match e with
    | .gear r o k v => some (r, o, k, v)
    | _ => none)
  let ls := x.entries.findSome? (fun e => match e with
    | .lossScale l => some l.toNat
    | _ => none)
  let s3 : State := { s2 with gate := { s2.gate with catchUp := true, gearOld := [], gearRec := gear } }
  ((s3.setHd PEL_CGLS_LSCALE (ls.getD s.lscale)).mirrorsAt 1).enterRun

/-- The holder of a BEHIND mirror runs its holder roles again from the COMMIT entry, at the first mirror page; a page that it had opened
returns to its pre-image (R334, R345). -/
def State.holderCatchUp (s : State) (idx : Nat) : State :=
  let rs := (s.mirrorPairs idx).map (·.1)
  let s1 := rs.foldl (fun s r => (s.restorePages r).setPageSt r ⟨[], 0, none⟩) s
  { s1 with gate := { s1.gate with resuming := true, stopped := true, replay := true, due := s1.gate.due ++ rs.filter (fun r => r ∉ s1.gate.due) } }

/-- CATCHUP_REPLAY (R345): on the domestique, or on the holder of a mirror that is BEHIND. -/
def execCatchupReplay (x : CatchUp) (s : State) : Host.Outcome State Fault Refusal :=
  .next (if !s.hdRuns ∨ s.fenced ∨ !s.loaded then s
    else if !s.host.admitted then (match s.rep.tier2 with
      | t :: _ => if 4 ≤ t.stage ∧ 0 ∈ t.got then s.catchUpRun x else s
      | [] => s)
    else match s.rep.mirrors.find? (fun m => m.2 = 1) with
      | some m => if s.gateState = gCOMMIT ∧ s.stepNo = x.step then s.holderCatchUp m.1 else s
      | none => s)

/-! ## Tier 3 (R346, R396, R399) -/

/-- TIER3_RESTORE (R346): the cores stop, a round in progress is abandoned, and the lead captain reads the slots. -/
def execTier3Restore (s : State) : Host.Outcome State Fault Refusal :=
  .next (if !s.hdRuns ∨ s.fenced ∨ !s.loaded ∨ !s.host.admitted then s
    else
      let s1 := (s.stopAll 1).abandonRound
      let s2 : State := { s1 with rep := { s1.rep with tier3 := true, verdictWait := [] }, ckp := { s1.ckp with leadRound := false } }
      let s3 := (if s2.gateState = gIDLE then s2 else s2.setGate gREWIND).setHd PEL_STATUS_STATE 2
      let s4 := s3.noteRewind 3 s.stepNo.toNat (s.attOf s.stepNo.toNat)
      if s4.ckLead = s4.devidx then s4.queryAll else s4)

end Sys2Proof.Machine
end

