-- ==== Sys2Proof/Machine/HostCmds.lean ====
section
/-! DEFINITION. Power-up and module reset, the host link, the requests of the host message layer, and the messages of the management ports
(R353, R372, R374, R411 to R413, R429 to R432, R449 to R458, R463 to R466). -/

set_option autoImplicit false

namespace Sys2Proof.Machine

/-! ## Boot (R429 to R432, R454) -/

/-- Stage 0: the bank that is active, then the other; with neither the module is in recovery. The firmware that runs is measured in M0. -/
def State.bootFirmware (s : State) : State :=
  let bank := s.hd SEC_STATUS_BANK
  let good := fun (k : Nat) => mget [] s.sec.banks k ≠ [] && s.fwCode (mget [] s.sec.banks k) = 0
  let run := fun (s : State) (k : Nat) =>
    let b := mget [] s.sec.banks k
    (({ s with sec := { s.sec with run := b } } : State).setHd SEC_STATUS_BANK k).extend 0 (sha32 (fwImage b 0))
  if good bank then run s bank else if good (1 - bank) then run s (1 - bank) else s.setHd SEC_STATUS_RECOV 1

/-- Test-content slots 8 and 9 as the hub-die image carries them. -/
def State.contentSlots (s : State) : State :=
  let ks := Config.contentKeys (fwImage s.sec.run 0)
  [0, 1].foldl (fun s i => match ks[i]? with
    | some k => s.setKey (8 + i) ⟨1, k.1, k.2⟩
    | none => s.setKey (8 + i) ⟨0, 0, 0⟩) s

/-- Whether the installed test content package verifies under slot 8 or 9. -/
def State.pkgVerifies (s : State) : Bool :=
  let key := fun (k : Nat) => if (k = 8 ∨ k = 9) ∧ (s.keySlot k).state = 1 then some ((s.keySlot k).x, (s.keySlot k).y) else none
  s.test.pkg ≠ [] && sigShape s.test.pkg && sigCode key s.test.pkg = 0

/-- Stage 1: the network-die and host-die images and the test content package are verified and measured, the Ualar version is set, and the
fused SVN rises to the image's. -/
def State.bootStage1 (s : State) : State :=
  let b := s.sec.run
  let s1 := ((s.contentSlots).extend 1 (sha32 (fwImage b 1))).extend 2 (sha32 (fwImage b 2))
  let s2 := if s1.pkgVerifies then s1.extend 3 (sha32 s1.test.pkg) else s1
  let s3 := [0, 1].foldl (fun s n => (s.setD (ndWin n) UAL_CFG_FWMAJ (numAt b 16 1)).setD (ndWin n) UAL_CFG_FWMIN (numAt b 17 1)) s2
  s3.setHd SEC_STATUS_SVN (Nat.max (s.hd SEC_STATUS_SVN) (numAt b 8 4))

/-- Stack pages with a LASTING row, in the table's order. -/
def State.lastingPages (s : State) (stack : Nat) : List Nat :=
  ((s.test.table.filter (fun e => e.kind = ukHBMROW && e.state = seLASTING && e.unit % 32 = stack)).map (fun e =>
    e.unit / 2 ^ 17 * 64 + e.unit / 2 ^ 11 % 64)).eraseDups

/-- A stack trains: it is up, and the spare-mapping table sets its retired pages. -/
def State.stackUp (s : State) (stack : Nat) : State :=
  let w := stack / 3
  let k := stack % 3
  let ps := s.lastingPages stack
  let s1 : State := { s with fab := { s.fab with retired := ps.zipIdx.foldl (fun m p => mset (stack * 2 ^ 21 + p.1) p.2 m) s.fab.retired } }
  ((s1.setD w (HBM_STATUS_UP k) 1).setD w (HBM_STATUS_RSVFREE k) (16384 - ps.length)).setD w (HBM_STATUS_RETIRED k) ps.length

/-- The optical ports train and enter NOIMG; a LASTING one stays RETIRED. -/
def State.portsTrain (s : State) : State :=
  (List.range 18).foldl (fun s p =>
    if s.lasting ukPORT p then s.setPortState (4 * p) psRETIRED
    else (s.setPort (4 * p) PortSt.reset).setPortState (4 * p) psNOIMG) s

/-- Stages 8 to 10: HX is released, the ports train, the module is READY. -/
def State.bootLast (s : State) : State :=
  let s1 : State := { s with host := { s.host with hxUp := true, outstanding := 0, rxSeq := 0, peerAck := 0, credits := 0,
                                                   txBase := s.hostFlits.length, txSent := 0 } }
  let s2 := s1.portsTrain
  ({ s2 with host := { s2.host with stage := 10 } } : State).notify 0x08 0

/-- Stages 4 to 10: rails and clocks, stage 1, training, QUICK or FULL, and the rest. QUICK that fails is followed by FULL. -/
def State.bootRest (s : State) (b : BootInput) : State :=
  let s1 := (List.range 12).foldl (fun s d => (s.setD d CLK_STATUS_LOCK 1).setD d CLK_STATUS_REFOK 1) s.railsUp
  let s2 := (List.range 24).foldl State.stackUp s1.bootStage1
  let q := s2.quickTest b.quick
  let s3 := if s2.quickApplies then (if q.2 then q.1 else q.1.fullTest 2 b.full) else s2.fullTest 2 b.full
  s3.bootLast

/-- Stage 0, at which the spare-mapping table is read from its store, and what follows unless the module is in recovery, where it stops after stage 3. -/
def State.boot (s : State) (b : BootInput) : State :=
  let s1 := ({ s with test := { s.test with bootcnt := (s.test.bootcnt + 1) % 2 ^ 32, table := s.storedTable } } : State).bootFirmware
  let s2 := if b.tamper then s1.raiseAlarm alTAMPER 15 else s1
  let s3 : State := { s2 with host := { s2.host with stage := 3 } }
  if s3.hd SEC_STATUS_RECOV = 1 then s3 else s3.bootRest b

/-- Stage 1 of power-up for the meter: a job that an input loss left open is closed INTERRUPTED, with STEP1 a free value; a meter of another
serial starts its own series (log entry 3), and CHG is reported. Its self-check runs; a seal once broken stays so (R441, R442). -/
def State.meterUpAgain (s : State) (b : BootInput) : State :=
  let serial := b.meterSerial
  let s1 := match s.mtr.lost with
    | some l => (s.meterClose (Config.freeWord s.free) l.1 l.2 true false)
    | none => s
  let new := serial ≠ s1.mtr.serial
  let m : Meter := if new then { Meter.reset with energy := Config.freeNat s1.free, serial := serial, key := some (meterKey serial) } else s1.mtr
  let chg := serial ≠ s1.mtr.lastSerial
  let s2 : State := { s1 with mtr := { m with lastSerial := serial, selfOk := b.meterOk, sealBroken := m.sealBroken || b.meterSeal } }
  let s3 := ((s2.skipFree.setHd MTR_STATUS_LINK 1).setHd MTR_STATUS_CHG (if chg then 1 else 0)).setHd MTR_SERIAL_MSERIAL serial.toNat
  if chg then s3.alert 9 else s3

/-- POWER_UP (R454): input power is applied to a module that is not up, with its PRESENT contact mated. -/
def execPowerUp (b : BootInput) (s : State) : Host.Outcome State Fault Refusal :=
  .next (if !s.pwr.present ∨ s.host.stage ≠ 0 ∨ s.host.shut then s
    else
      let s1 : State := { s with pwr := { s.pwr with input := true } }
      ((((s1.setHd MGT_STATUS_PLA 1).setHd MGT_STATUS_PLB 1).meterUpAgain b).boot b))

/-- MODRESET (R452, R455): refused while a job is loaded. It counts as an unorderly power-up; scan that is unlocked stays
so (R421). -/
def execModReset (h : HostHdr) (b : BootInput) (s : State) : Host.Outcome State Fault Refusal :=
  .next (s.request h 0x0F false false (fun s =>
    if s.jobLoaded then s.answer h rsREFUSED 1 0 []
    else
      let s1 := (s.answer h rsOK 0 0 []).cleared (dieKey hdWin SEC_STATUS_SCAN :: (storeKeys ++ liveKeys))
      ({ s1 with test := { s1.test with pass := s1.test.pass.map (fun p => { p with orderly := false }) } } : State).boot { b with tamper := false }))

/-- SHUTDOWN (R412, R452): FULL first where it is asked for, then an orderly power-down; STBY stays up. A fenced module writes no pass
record. -/
def execShutdown (h : HostHdr) (full : Bool) (res : FullResult) (s : State) : Host.Outcome State Fault Refusal :=
  .next (s.request h 0x0B false false (fun s =>
    if s.jobLoaded then s.answer h rsREFUSED 1 0 []
    else
      let s1 := if !full then s else if s.fenced then ({ s.fullTest 1 res with test := { (s.fullTest 1 res).test with pass := s.test.pass } } : State)
        else s.fullTest 1 res
      let s2 := (s1.answer h rsOK 0 0 []).cleared (storeKeys ++ liveKeys)
      { s2 with host := { s2.host with shut := true }, sec := { s2.sec with raised := s1.sec.raised },
                test := { s2.test with pass := s2.test.pass.map (fun p => { p with orderly := true }) } }))

/-- SELFTEST (R411, R452): FULL on demand, refused while a job is loaded. -/
def execSelftest (h : HostHdr) (res : FullResult) (s : State) : Host.Outcome State Fault Refusal :=
  .next (s.request h 0x0C false false (fun s =>
    if s.jobLoaded then s.answer h rsREFUSED 1 0 [] else (s.fullTest 4 res).answer h rsOK 0 0 []))

/-! ## Registers (R452) -/

/-- REGRD: an address without a register, or a counter that the runtime may not read, is REJECTED; the first with a CODE that is
not stated, a free value (log entry 58). -/
def execRegrd (h : HostHdr) (addr : BitVec 64) (s : State) : Host.Outcome State Fault Refusal :=
  .next (s.request h 0x01 false false (fun s => match s.placeReg addr.toNat with
    | some p => if s.ctrHidden p then s.answer h rsREJECTED 4 0 [] else s.answer h rsOK 0 (BitVec.ofNat 64 (s.readReg p)) []
    | none => s.answerFree h))

/-- REGWR (R281, R282); the CODE of an address without a register is not stated. -/
def execRegwr (h : HostHdr) (addr v mask : BitVec 64) (s : State) : Host.Outcome State Fault Refusal :=
  .next (s.request h 0x02 false false (fun s =>
    let r := s.regWrite .runtime addr.toNat v.toNat mask.toNat
    match r.2 with
    | some code => if code = 0 then r.1.answer h rsOK 0 0 [] else r.1.answer h rsREJECTED code 0 []
    | none => r.1.answerFree h))

/-! ## Admission and release (R463 to R465) -/

/-- A request for admission that passes: it stays outstanding. With RESTORE the slice restores first, which the lead captain starts. -/
def State.admitJob (s : State) (h : HostHdr) (step0 : BitVec 64) (restore : Bool) : State :=
  let s1 : State := { s.holdRequest with host := { s.holdRequest.host with admission := some ⟨h.tag, step0, restore⟩ } }
  if !restore then s1.reportReady step0 false
  else if s1.ckLead = s1.devidx then s1.queryAll
  else s1

/-- An admission refused with a CODE, whose REASON no rule states: a free value among those of R464 (log entry 58). -/
def State.refuseFree (s : State) (h : HostHdr) (code : Nat) (step0 : BitVec 64) : State :=
  (s.answer h rsREFUSED code 0 (s.admitPayload 1 (Config.freeNat s.free % 6 + 1) step0.toNat)).skipFree

/-- ADMIT (R463, R464). A refusal with a REASON has a CODE that is not stated, a free value. -/
def execHostAdmission (h : HostHdr) (step0 : BitVec 64) (restore : Bool) (s : State) : Host.Outcome State Fault Refusal :=
  .next (s.request h 0x04 false false (fun s =>
    if s.hd FRM_STATUS_STATE ≠ 2 then s.answer h rsREFUSED 2 0 (s.admitPayload 1 1 step0.toNat)
    else if s.fenced then s.refuseFree h 3 step0
    else if s.host.admission.isSome then s.refuseFree h 4 step0
    else if s.admitReason ≠ 0 then (s.answer h rsREFUSED (Config.freeNat s.free % 256) 0 (s.admitPayload 1 s.admitReason step0.toNat)).skipFree
    else s.admitJob h step0 restore))

/-- ADMIT_TIMEOUT (R463). -/
def execAdmissionTimeout (s : State) : Host.Outcome State Fault Refusal :=
  .next (if s.hdRuns ∧ s.host.admission.isSome then (s.refuseAdmission (Config.freeNat s.free % 256) 5).skipFree else s)

/-- The response to a management message (R451, R458). -/
def State.mgtRespond (s : State) (typ status code dev : Nat) : State := s.emit (.mgtRsp typ status code dev s.mgtFrom)

/-- A message from a captain, or of the slice: taken, or answered BADMSG (R458). -/
def State.mgtAnswer (s : State) (typ : Nat) (ok : Bool) (dev : Nat) : State :=
  if ok then s.mgtRespond typ rsOK 0 dev else (s.bumpHd UCI_MSG_BAD 1).mgtRespond typ rsBADMSG 0 dev

/-- Whether the management ports take the messages of the slice: hub-die firmware runs, and the module is not in recovery (R430). -/
def State.mgtTakes (s : State) : Bool := s.hdRuns && s.hd SEC_STATUS_RECOV ≠ 1

/-- Whether a device is a captain of this slice. -/
def State.captainDev (s : State) (dev : Nat) : Bool := s.captains.any (fun c => c.2.1 = dev)

/-- SLSTART from the lead captain to every module that stands. -/
def State.sendStart (s : State) : State :=
  ({ s with host := { s.host with ready := [] }, ckp := { s.ckp with slots := [] } } : State).mgtSend 0x22 0 0 s.slice []

/-- SLREADY at the module that leads: at admission and after a restore it waits for every module, with equal arguments; in a tier-2 recovery for
those in the places that were lost (R343, R400, R463). -/
def State.readyFrom (s : State) (dev : Nat) (step0 : BitVec 64) (jobLo : BitVec 32) : State :=
  let l := s.host.ready.filter (fun r => r.1 ≠ dev) ++ [(dev, step0, jobLo)]
  let s1 : State := { s with host := { s.host with ready := l } }
  let wait := if s.host.admitted && s.ckp.slots = [] && !s.rep.tier3 && s.pel.gone ≠ [] then s.pel.gone else s.slice
  if wait.all (fun d => l.any (fun r => r.1 = d)) && l.all (fun r => r.2 = (step0, jobLo)) then s1.sendStart else s1

/-- SLREADY (R463). A fenced module takes no part in its slice, and refuses with code 0x03. -/
def execSlReady (dev : BitVec 16) (step0 : BitVec 64) (jobLo : BitVec 32) (s : State) : Host.Outcome State Fault Refusal :=
  .next (if !s.mgtTakes then s
    else if !s.loaded ∨ s.ckLead ≠ s.devidx ∨ dev.toNat ∉ s.slice ∨ jobLo.toNat ≠ s.jobLo then s.mgtAnswer 0x21 false dev.toNat
    else if s.fenced then s.mgtRespond 0x21 rsREFUSED 3 dev.toNat
    else (s.mgtAnswer 0x21 true dev.toNat).readyFrom dev.toNat step0 jobLo)

/-- A domestique enters its step: epoch and gate stand as it received them, JOBSTART goes to its meter, and the step is replayed (R343, R443). -/
def State.joinSlice (s : State) : State :=
  let s1 := (s.setHd PEL_STATUS_STATE 1).emit (.meter 1 (BitVec.ofNat 64 s.jobId) s.stepNo)
  let s2 : State := { s1 with host := { s1.host with admitted := true }, rep := { s1.rep with tier2 := [] } }
  ((s2.dueAll s2.stepNo true).freshEngines).setGate gREWIND

/-- SLSTART: the admission in progress, the entry of a domestique, or the release of a held module. -/
def State.startSlice (s : State) : State := match s.host.admission with
  | some a => s.admitNow (if a.restore then s.stepNo else a.step0) a.restore
  | none =>
    if s.rep.tier2 ≠ [] && !s.host.admitted then s.joinSlice
    else if s.held then s.releaseHeld
    else s

/-- SLSTART (R463). A module that has been fenced since its SLREADY refuses the admission with code 0x03. -/
def execSlStart (dev : BitVec 16) (s : State) : Host.Outcome State Fault Refusal :=
  .next (if !s.mgtTakes then s
    else if !s.loaded ∨ dev.toNat ∉ s.slice ∨ dev.toNat ≠ s.ckLead then s.mgtAnswer 0x22 false dev.toNat
    else if s.fenced then ((s.mgtAnswer 0x22 true dev.toNat).refuseAdmission 3 (Config.freeNat s.free % 6 + 1)).skipFree
    else (s.mgtAnswer 0x22 true dev.toNat).startSlice)

/-- HOST_RELEASE (R465). -/
def execHostRelease (h : HostHdr) (force : Bool) (s : State) : Host.Outcome State Fault Refusal :=
  .next (s.request h 0x05 false false (fun s =>
    let g := s.gateState
    if !s.loaded then s.answer h rsREFUSED 2 0 []
    else if !force ∧ (g = gRUN ∨ g = gWAIT ∨ g = gCOMMIT) then s.answer h rsREFUSED 1 0 []
    else s.release.answer h rsOK 0 0 []))

/-- RELORDER (R465): of a captain of the slice. A module that is released already refuses it with code 0x02. -/
def execRelOrder (dev : BitVec 16) (s : State) : Host.Outcome State Fault Refusal :=
  .next (if !s.mgtTakes then s
    else if !s.loaded then s.mgtRespond 0x23 rsREFUSED 2 dev.toNat
    else if !s.captainDev dev.toNat then s.mgtAnswer 0x23 false dev.toNat
    else
      let s1 := (s.mgtAnswer 0x23 true dev.toNat).notify 0x05 (BitVec.ofNat 64 dev.toNat)
      { s1 with host := { s1.host with relOrder := true } })

/-- RELORDER_TIMEOUT (R465). -/
def execRelOrderTimeout (s : State) : Host.Outcome State Fault Refusal :=
  .next (if s.hdRuns ∧ s.host.relOrder then s.release else s)

/-! ## Eviction and identity (R372, R452, R457) -/

/-- HOST_EVICT (R372): EVICT goes to the primary captain of the pod. -/
def execHostEvict (h : HostHdr) (dev : BitVec 16) (s : State) : Host.Outcome State Fault Refusal :=
  .next (s.request h 0x0D false false (fun s =>
    if !s.loaded then s.answer h rsREFUSED 2 0 []
    else if s.fenced then s.answer h rsREFUSED 3 0 []
    else
      let prim := (s.captains.filter (fun c => c.1 = 0 && c.2.2 = podOf s.devidx)).map (fun c => c.2.1)
      (s.pelSend 0x0B prim true (packWords 1 [(0, 16, dev.toNat)])).answer h rsOK 0 0 []))

/-- HOST_STATUS (R452). -/
def execHostStatus (h : HostHdr) (s : State) : Host.Outcome State Fault Refusal :=
  .next (s.request h 0x0E true false (fun s => s.answer h rsOK 0 0 (s.identPayload s.identState)))

/-- IDENT (R21, R457): a management port answers, also in recovery and after a shut-down; with HD stopped its standby controller answers
FENCED. -/
def execIdentMsg (h : HostHdr) (s : State) : Host.Outcome State Fault Refusal :=
  .next (if !s.pwr.input ∨ !s.viaUp h.via then s
    else if h.rsp then (if s.hdRuns then s.mgtDiscard h.via else s)
    else if hdrBad h 0x10 ∨ h.via = .hx then (if s.hdRuns then (s.bumpHd UCI_MSG_BAD 1).answer h rsBADMSG 0 0 [] else s)
    else s.answer h rsOK 0 0 (s.identPayload (if s.pel.standby then 5 else s.identState)))

/-! ## Notifications, alerts and their repetition (R453, R458) -/

/-- NOTIFY (R453): one of the events assigned. -/
def execNotifyHost (ev : BitVec 8) (arg1 : BitVec 64) (s : State) : Host.Outcome State Fault Refusal :=
  .next (if s.hdRuns ∧ s.host.hxUp ∧ 1 ≤ ev.toNat ∧ ev.toNat ≤ 8 then s.notify ev.toNat arg1 else s)

/-- ALERT (R458): one of the codes assigned. -/
def execAlertMsg (code : BitVec 8) (s : State) : Host.Outcome State Fault Refusal :=
  .next (if s.hdRuns ∧ 1 ≤ code.toNat ∧ code.toNat ≤ 9 then s.alert code.toNat else s)

/-- Whether a checkpoint message is taken from a device (R387, R397, R458): from a captain of the slice; what the modules send to the lead
captain, from every module of the slice at the lead; and in a slice without captains from every module. -/
def State.ckTakes (s : State) (dev : Nat) (m : CkMsg) : Bool :=
  s.loaded && (s.captainDev dev || (dev ∈ s.slice && (!s.hasCaptains ||
    (s.ckLead = s.devidx && (m.typ = 2 || m.typ = 4 || m.typ = 7)))))

/-- The first message of a TYPE that waits for a device, in a list, with that device's answer: it leaves the list once every device that it
went to has answered. -/
def dropAnswered (typ dev : Nat) : List MgtMsg → List MgtMsg
  | [] => []
  | m :: l =>
    if m.typ = typ ∧ (m.dst = [] ∨ dev ∈ m.dst) then
      let d := m.dst.filter (· ≠ dev)
      if d = [] then l else { m with dst := d } :: l
    else m :: dropAnswered typ dev l

/-- A response to a message of this module: it is repeated no more for the device that has answered (R458). -/
def State.mgtAnswered (s : State) (typ dev : Nat) : State := { s with mgt := dropAnswered typ dev s.mgt }

/-- CKPT (R397, R458): taken, or answered BADMSG. What the message does is the effect of the row of its type. A response that comes in on a
management port, to a message of this module of whichever TYPE, is this row too (log entry 128). In recovery it is discarded (R430). -/
def execCkptMsg (src : MgtSrc) (m : CkMsg) (s : State) : Host.Outcome State Fault Refusal :=
  let via : Via := if src.mgtB then .mgtB else .mgtA
  .next (if !s.hdRuns ∨ !s.viaUp via then s
    else if s.hd SEC_STATUS_RECOV = 1 then s.mgtDiscard via
    else match src.rsp with
      | some t => s.mgtAnswered t.toNat src.dev.toNat
      | none => s.mgtAnswer 0x20 (s.ckTakes src.dev.toNat m) src.dev.toNat)

/-- One repetition of each message that waits for its answer; the sender gives up after 100 sendings. -/
def State.resendMgt (s : State) : State :=
  let again := s.mgt.filter (fun m => decide (m.sends < 100))
  let s1 := again.foldl (fun s m => ((s.bumpHd MGT_CNT_RETXA 1).bumpHd MGT_CNT_RETXB 1).emit (.mgt m.typ m.arg0 m.arg1 m.dst m.payload s.mgtFrom)) s
  { s1 with mgt := again.map (fun m => { m with sends := m.sends + 1 }) }

/-- MGT_RESEND_TIMER (R458). -/
def execMgtResendTimer (s : State) : Host.Outcome State Fault Refusal := .next (if s.hdRuns then s.resendMgt else s)

/-- ROUTER_ADVERTISEMENT (R457): a plane whose link is up learns its prefix. -/
def execRouterAdvertisement (mgtB : Bool) (net64 : BitVec 64) (s : State) : Host.Outcome State Fault Refusal :=
  .next (if !s.hdRuns ∨ !s.viaUp (if mgtB then .mgtB else .mgtA) then s
    else if mgtB then (s.setHd MGT_PFXB_PFX (netOrder net64)).setHd MGT_STATUS_PLB (s.hd MGT_STATUS_PLB ||| 2)
    else (s.setHd MGT_PFXA_PFX (netOrder net64)).setHd MGT_STATUS_PLA (s.hd MGT_STATUS_PLA ||| 2))

/-! ## The host link and the watchdog (R450, R456, R466) -/

/-- A UCIe module changes state; a link that keeps fewer than two modules is a lasting fault of this module. -/
def State.setLink (s : State) (m st : Nat) : State :=
  let up := fun (s : State) => ((List.range 4).filter (fun i => decide (s.linkSt i < 3))).length
  let s1 : State := { s with host := { s.host with links := mput 0 m st s.host.links } }
  if up s1 < 2 ∧ 2 ≤ up s then s1.selfLasting else s1

/-- A module whose flits failed twice: the second time within 24 hours it is taken out of service, else it retrains. -/
def State.linkFails (s : State) (m : Nat) : State :=
  if s.host.linkFails.any (fun e => e.1 = m && decide (s.time - e.2 ≤ dayUnits)) then s.setLink m 3
  else ({ s with host := { s.host with linkFails := s.host.linkFails ++ [(m, s.time)] } } : State).setLink m 2

/-- Whether a flit is good: its CRC, and every word of the symbol code. -/
def flitOk (fl : HostFlit) : Bool := fl.crcOk && fl.words.all (fun w => !(cwDecode w).2.bad)

/-- A good flit: the next one is taken, with its acknowledgement and credits; where the other end asks for it the kept flits are sent again,
and what waits follows. -/
def State.takeFlit (s : State) (m : Nat) (fl : HostFlit) : State :=
  let s1 : State := { s with host := { s.host with
    rxSeq := (s.host.rxSeq + 1) % 2 ^ 16, peerAck := fl.ack.toNat, credits := fl.credits.toNat, links := mput 0 m 0 s.host.links } }
  let s2 := if fl.seq.toNat ≠ s.host.rxSeq then s
    else if fl.replayed then (s1.bumpHd UCI_STATUS_RETRY 1).countD hdWin 0x113 1 else s1
  (if fl.again then s2.replayFlits else s2).sendFlits

/-- HOST_FLIT_RECEIVE (R450): a bad flit is asked for again, and the second failure of a module is a failure of the module. -/
def execHostFlitReceive (m : Fin 4) (fl : HostFlit) (s : State) : Host.Outcome State Fault Refusal :=
  let st := s.linkSt m.val
  .next (if !s.hdRuns ∨ !s.host.hxUp ∨ 2 ≤ st then s
    else if flitOk fl then s.takeFlit m.val fl
    else (if st = 1 then s.linkFails m.val else s.setLink m.val 1).emit (.hostAgain s.host.rxSeq))

/-- What happens in a unit of time in which no command comes (log entry 4). -/
def State.idleTick (s : State) : State := s.fabricTick.stageTick.ownRewind.sendFlits.testTick

/-- HOST_LINK_RETRAIN_DONE (R450). -/
def execHostLinkRetrainDone (m : Fin 4) (ok : Bool) (s : State) : Host.Outcome State Fault Refusal :=
  .next (if !s.hdRuns ∨ s.linkSt m.val ≠ 2 then s
    else if ok then s.setLink m.val 0
    else ({ s with host := { s.host with retrainFails := s.host.retrainFails ++ [s.time] } } : State).setLink m.val 3)

/-- HXWD_KICK (R466): the watchdog starts its second again. -/
def execHxwdKick (s : State) : Host.Outcome State Fault Refusal :=
  .next (if s.hdRuns ∧ s.host.hxUp then { s with host := { s.host with kicked := s.time } } else s)

/-- HX_WATCHDOG_EXPIRY (R456): with EN set and no write for 1 s, HX is reset. Without a job it boots again; with one the module reports a lasting
fault of its own, and HX stays down. -/
def execHxWatchdogExpiry (s : State) : Host.Outcome State Fault Refusal :=
  .next (if !s.hdRuns ∨ s.hd UCI_HXWD_EN = 0 ∨ s.time < s.host.kicked + secUnits then s
    else if s.loaded then ({ s with host := { s.host with hxUp := false, outstanding := 0 } } : State).selfLasting
    else ({ s with host := { s.host with kicked := s.time } } : State).bootLast)

end Sys2Proof.Machine
end

