-- ==== Sys2Proof/Machine/Pel.lean ====
section
/-! DEFINITION. The peloton protocol: heartbeats and quorum, reports, proposals and declarations, faults, rewinds and halts, and the
requests to the controller of the optical circuit switch (R353 to R383). -/

set_option autoImplicit false

namespace Sys2Proof.Machine

/-! ## Receiving (R301, R357, R361, R362) -/

/-- A message discarded on a management plane is counted; on the data network a bad payload counts as BAD. -/
def State.pelDrop (s : State) (h : PelHdr) : State :=
  if h.plane = 1 then s.bumpHd MGT_CNT_DROPA 1
  else if h.plane = 2 then s.bumpHd MGT_CNT_DROPB 1
  else s.bumpD (ndWin 0) UAL_DROP_BAD 1

/-- A peloton message: of this job, of an epoch that is not older than this module's (FENCED apart), and without reserved values. An epoch
ahead makes the module ask for what it lacks (R365). A fenced module takes no part. -/
def State.pelIn (s : State) (h : PelHdr) (old bad : Bool) (f : State → State) : State :=
  if !s.hdRuns ∨ s.fenced then s
  else if !s.loaded ∨ h.rsvd ∨ bad ∨ h.job.toNat ≠ s.jobLo ∨ (!old ∧ h.epoch.toNat < s.epoch) then s.pelDrop h
  else f (if s.epoch < h.epoch.toNat then s.askSync else s)

/-- Whether a CAUSE is assigned. -/
def causeOk (c : Nat) : Bool := decide (c ≤ 0x0E)

/-! ## Heartbeats (R356 to R360) -/

/-- A device belongs to this module's pod. -/
def State.podMate (s : State) (d : Nat) : Bool := podOf d = podOf s.devidx && d ≠ s.devidx

/-- Where heartbeats go on every plane. -/
def State.hbPeers (s : State) : List Nat := (s.watchers ++ s.subjects ++ s.podCaptains).eraseDups

/-- Where the further copies of a road captain go, on the management planes only. -/
def State.hbPod (s : State) : List Nat :=
  if s.captainFor s.devidx then s.slice.filter (fun d => s.podMate d && d ∉ s.hbPeers && !s.declared d) else []

/-- STATE of a heartbeat. -/
def State.hbState (s : State) : Nat := if !s.host.admitted then 1 else if s.held then 2 else 0

/-- Words of a heartbeat as sent on a plane. -/
def State.hbWords (s : State) (plane : Nat) : List (BitVec 64) :=
  packWords 2 [(0, 32, s.pel.hbseq), (32, 3, s.hbState), (35, 3, s.gate.phase), (38, 2, plane), (64, 64, s.serial.toNat)]

/-- Whether the module is in quorum: it has lately heard more than half of its watchers and a captain of its pod. -/
def State.inQuorum (s : State) : Bool := decide (s.watchers.length < 2 * s.quorum) && s.podCaptains.any s.heardLately

/-- Keeps the time since which the module has been out of quorum. -/
def State.quorumCheck (s : State) : State :=
  let o := if s.inQuorum then none else match s.pel.outSince with
    | some t => some t
    | none => some s.time
  { s with pel := { s.pel with outSince := o } }

/-- One heartbeat on each plane: as a Ualar packet of the peloton class on the data network, and on both management planes. -/
def State.sendHeartbeat (s : State) : State :=
  let all := s.hbPeers ++ s.hbPod
  let mgt := fun (s : State) (k : Nat) => if all = [] then s else s.pelMgt s.devidx 0x00 s.epoch all (2 ^ k) (s.hbWords k)
  let s1 := s.hbPeers.foldl (fun s d => s.pelData 0x00 d (s.hbWords 0)) (mgt (mgt s 1) 2)
  ({ s1 with pel := { s1.pel with hbseq := (s1.pel.hbseq + 1) % 2 ^ 32 } }).quorumCheck

/-- HEARTBEAT_SEND (R356): of a module with an image in force that is not fenced, in a slice with captains (R354). -/
def execHeartbeatSend (s : State) : Host.Outcome State Fault Refusal :=
  .next (if s.hdRuns && s.loaded && s.hasCaptains && !s.fenced then s.sendHeartbeat else s)

/-- Places of a device in PEL_SUBJn and PEL_WATCHn. -/
def State.subjIdx (s : State) (dev : Nat) : List Nat := (List.range 16).filter (fun i => s.hd (PEL_SUBJ_DEV i) = dev)
def State.watchIdx (s : State) (dev : Nat) : List Nat := (List.range 8).filter (fun i => s.hd (PEL_WATCH_DEV i) = dev)

/-- The watcher hears its subject: the count of misses is 0, and a standing report is withdrawn. -/
def State.hearSubject (s : State) (src seq : Nat) : State :=
  (s.subjIdx src).foldl (fun s i =>
    let s1 := (s.setHd (PEL_SUBJ_MISSES i) 0).setHd (PEL_SUBJ_REPORTED i) 0
    if s.hd (PEL_SUBJ_REPORTED i) = 1 then s1.pelSend 0x02 (s.captainsOf (podOf src)) true (packWords 1 [(0, 16, src), (32, 32, seq)])
    else s1) s

/-- A copy of a heartbeat arrives (R357): the first copy of an HBSEQ is heard, a further one only adds its plane. As HBSEQ wraps, those of half
its range are kept to tell copies by: DEDUCED (log entry 112). -/
def State.heartbeatIn (s : State) (src seq plane : Nat) : State :=
  let put := fun (s : State) (x : Heard) => ({ s with pel := { s.pel with heard := mset src x s.pel.heard } } : State)
  let old := match mfind s.pel.heard src with
    | some x => x.seqs
    | none => []
  if seq ∈ old then (match mfind s.pel.heard src with
    | some x => if seq = x.seq then put s { x with planes := x.planes ||| 2 ^ plane } else s
    | none => s)
  else ((put s ⟨s.time, seq, 2 ^ plane, (seq :: old).take (2 ^ 31)⟩).hearSubject src seq).quorumCheck

/-- HB (R357). -/
def execHb (h : PelHdr) (m : HbMsg) (s : State) : Host.Outcome State Fault Refusal :=
  .next (s.pelIn h false (decide (2 < m.state.toNat) || m.plane = 3) (fun s =>
    if s.hasCaptains then s.heartbeatIn h.src.toNat m.hbseq.toNat h.plane.val else s))

/-- A watcher counts a miss; from the eighth on it reports the subject. -/
def State.missOne (s : State) (subj i : Nat) : State :=
  let n := satAdd 8 (s.hd (PEL_SUBJ_MISSES i)) 1
  let s1 := (s.setHd (PEL_SUBJ_MISSES i) n).countD hdWin 0x10E 1
  let last := match mfind s.pel.heard subj with
    | some x => x.seq
    | none => 0
  if n < 8 then s1
  else (s1.setHd (PEL_SUBJ_REPORTED i) 1).pelSend 0x01 (s.captainsOf (podOf subj)) true (packWords 1 [(0, 16, subj), (16, 8, n), (32, 32, last)])

/-- HEARTBEAT_MISS (R358, R359). -/
def execHeartbeatMiss (subj : BitVec 16) (s : State) : Host.Outcome State Fault Refusal :=
  let d := subj.toNat
  .next (if !s.hdRuns ∨ s.fenced ∨ !s.hasCaptains ∨ d ∉ s.subjects then s
    else ((s.subjIdx d).foldl (fun s i => s.missOne d i) s).quorumCheck)

/-- QUORUM_LOSS_FENCE (R360). -/
def execQuorumLossFence (s : State) : Host.Outcome State Fault Refusal :=
  .next (if s.hdRuns && s.loaded && s.hasCaptains && !s.inQuorum then s.fence 2 else s)

/-! ## Reports and proposals (R359, R363, R364) -/

/-- Whether more than half of a subject's watchers that stand have a report standing (R360, R363). The watcher set of another module is not in
this image (log entry 47). -/
def State.majorityReports (s : State) (subj : Nat) : Bool :=
  let ws := (Config.watchersOf subj).filter (fun w => !s.declared w)
  decide (ws.length < 2 * (ws.filter (fun w => (subj, w) ∈ s.pel.reports)).length)

/-- Keeps the time since which a majority of reports stands for a subject. -/
def State.noteMajority (s : State) (subj : Nat) : State :=
  let rest := s.pel.stood.filter (fun e => e.1 ≠ subj)
  if s.majorityReports subj then
    (if s.pel.stood.any (fun e => e.1 = subj) then s else { s with pel := { s.pel with stood := (subj, s.time) :: rest } })
  else { s with pel := { s.pel with stood := rest } }

/-- MISS (R359). -/
def execMissMsg (h : PelHdr) (subj : BitVec 16) (_misses : BitVec 8) (_lastSeq : BitVec 32) (s : State) : Host.Outcome State Fault Refusal :=
  .next (s.pelIn h false false (fun s =>
    if s.captainFor subj.toNat then
      ({ s with pel := { s.pel with reports := linsert (subj.toNat, h.src.toNat) s.pel.reports } } : State).noteMajority subj.toNat
    else s))

/-- WITHDRAW (R359). -/
def execWithdrawMsg (h : PelHdr) (subj : BitVec 16) (_heard : BitVec 32) (s : State) : Host.Outcome State Fault Refusal :=
  .next (s.pelIn h false false (fun s =>
    ({ s with pel := { s.pel with reports := s.pel.reports.filter (fun r => r ≠ (subj.toNat, h.src.toNat)) } } : State).noteMajority subj.toNat))

/-- Whether 1 ms has passed since a majority of reports stands for a subject. -/
def State.stoodLong (s : State) (subj : Nat) : Bool := s.pel.stood.any (fun e => e.1 = subj && decide (e.2 + msUnits ≤ s.time))

/-- Whether the primary captain of a subject's pod has sent a PROPOSE for it in the coming epoch. -/
def State.proposalSeen (s : State) (subj : Nat) : Bool := s.pel.proposed.any (fun e =>
  e.1 = s.epoch + 1 && e.2.1 = subj && s.captains.any (fun c => c.1 = 0 && c.2.1 = e.2.2 && c.2.2 = podOf subj))

/-- Whether this module is the backup captain of the pod of a device, whose primary stands. -/
def State.backupFor (s : State) (dev : Nat) : Bool :=
  s.captains.any (fun c => c.1 = 1 && c.2.1 = s.devidx && c.2.2 = podOf dev) &&
  s.captains.any (fun c => c.1 = 0 && c.2.2 = podOf dev && !s.declared c.2.1)

/-- CAPTAIN_CONFIRM (R363): a majority of reports stands, and the captain has not heard the subject within the last 2 ms, or has waited 1 ms; a
backup waits 1 ms for the primary's PROPOSE. -/
def execCaptainConfirm (subj : BitVec 16) (s : State) : Host.Outcome State Fault Refusal :=
  let d := subj.toNat
  .next (if !s.hdRuns ∨ s.fenced ∨ !s.hasCaptains ∨ !s.captainFor d ∨ s.declared d ∨ !s.majorityReports d ∨
      (s.heardLately d ∧ !s.stoodLong d) ∨ (s.backupFor d ∧ (s.proposalSeen d ∨ !s.stoodLong d)) then s
    else s.propose d 0x01)

/-- Whether a device is in the captain set. -/
def State.isCaptain (s : State) (dev : Nat) : Bool := s.captains.any (fun c => c.2.1 = dev)

/-- PROPOSE at a captain: it accepts the first proposal for the coming epoch, and the same one again. Where it has accepted none, the
subject of its answer is a free value. -/
def State.proposeIn (s0 : State) (src newEp subj : Nat) : State :=
  let s : State := { s0 with pel := { s0.pel with proposed := linsert (newEp, subj, src) s0.pel.proposed } }
  let same := s.pel.accepted = some (newEp, subj, src)
  let fresh := decide (newEp = s.epoch + 1) && (match s.pel.accepted with
    | some a => decide (a.1 ≠ newEp)
    | none => true)
  let reply := fun (s : State) (b : Bool) (d : Nat) =>
    s.pelSend 0x05 [src] false (packWords 1 [(0, 32, newEp), (32, 16, d), (48, 1, if b then 1 else 0)])
  if same then reply s true subj
  else if fresh then reply { s with pel := { s.pel with accepted := some (newEp, subj, src) } } true subj
  else match s.pel.accepted with
    | some a => if a.1 = newEp then reply s false a.2.1 else (reply s false (Config.freeNat s.free)).skipFree
    | none => (reply s false (Config.freeNat s.free)).skipFree

/-- PROPOSE (R364). -/
def execProposeMsg (h : PelHdr) (m : ProposeMsg) (s : State) : Host.Outcome State Fault Refusal :=
  .next (s.pelIn h false (!causeOk m.cause.toNat) (fun s =>
    if s.isCaptain s.devidx && s.isCaptain h.src.toNat then s.proposeIn h.src.toNat m.newEp.toNat m.subj.toNat else s))

/-- The boundary that R28 gives: that of the step in flight, or once it is checked the next one. -/
def State.faultBoundary (s : State) : Nat :=
  if s.gateState = gCOMMIT ∨ s.gateState = gDONE ∨ s.gateState = gSKIP then s.stepNo.toNat + 1 else s.stepNo.toNat

/-- Notes the ATT that a captain gives out for a boundary. -/
def State.giveAtt (s : State) (b att : Nat) : State :=
  { s with pel := { s.pel with given := (b, att) :: s.pel.given.filter (fun r => r.1 ≠ b) } }

/-- The ATT that a REWIND or DECLARE opens: one above that of the last one for the boundary (R369). -/
def State.nextAtt (s : State) (b : Nat) : Nat :=
  let given := match s.pel.given.find? (fun r => r.1 = b) with
    | some r => r.2
    | none => 0
  (Nat.max (s.attOf b) given + 1) % 256

/-- Whether each shard that a lost module owned survives in a copy, with the modules lost as given (R341): in the mirror held here, where this
module is its partner. -/
def State.shardLives (s : State) (lost : List Nat) (subj : Nat) : Bool :=
  (match s.img with
  | some im => im.resil.partners.any (fun p => p.2.1 = subj && p.1 + 1 ∈ s.copies && mget 0 s.rep.mirrors p.1 ≠ 2)
  | none => false) || Config.shardSurvives subj (lost.filter (· ≠ subj))

/-- The lost modules with a new one, those apart whose place a domestique has taken already (R349). -/
def State.lostWith (s : State) (subj : Nat) : List Nat := linsert subj (s.pel.gone.filter (fun d => !s.host.ready.any (fun r => r.1 = d)))

/-- The tier of the faults that stand, apart from what the new one needs: the highest that any of them requires (R341). -/
def State.tierNow (s : State) : Nat := if s.rep.tier3 then 3 else if s.pel.gone ≠ [] then 2 else 1

/-- Words of a DECLARE. -/
def declareWords (newEp subj cause tier b att : Nat) : List (BitVec 64) :=
  packWords 3 [(0, 32, newEp), (32, 16, subj), (48, 8, cause), (56, 2, tier), (64, 64, b), (128, 8, att)]

/-- DECLARE to every captain, with the tier of R341: 2 while a copy of each shard of the modules lost survives, else 3 (R349). -/
def State.sendDeclare (s : State) (p : Proposal) : State :=
  let b := s.faultBoundary
  let att := s.nextAtt b
  let lost := s.lostWith p.subj
  let tier := Nat.max s.tierNow (if lost.all (s.shardLives lost) then 2 else 3)
  (s.giveAtt b att).pelSend 0x06 (s.captains.map (·.2.1)) true (declareWords p.newEp p.subj p.cause tier b att)

/-- ACCEPT at the proposer: with more than half of the captain set it declares, once. -/
def State.acceptIn (s : State) (src : Nat) (m : AcceptMsg) : State := match s.pel.proposal with
  | none => s
  | some p =>
    if !m.same ∨ m.newEp.toNat ≠ p.newEp ∨ m.subj.toNat ≠ p.subj ∨ !s.isCaptain src ∨ src ∈ p.accepts then s
    else
      let p1 := { p with accepts := src :: p.accepts }
      let s1 : State := { s with pel := { s.pel with proposal := some p1 } }
      let n := s.captains.length
      if n < 2 * p1.accepts.length ∧ 2 * p.accepts.length ≤ n then s1.sendDeclare p1 else s1

/-- ACCEPT (R364). -/
def execAcceptMsg (h : PelHdr) (m : AcceptMsg) (s : State) : Host.Outcome State Fault Refusal :=
  .next (s.pelIn h false false (fun s => s.acceptIn h.src.toNat m))

/-- The subject that a captain proposes next, once its proposal is settled. -/
def State.nextWish (s : State) : State := match s.pel.wish with
  | [] => s
  | w :: l => if s.pel.proposal.isSome then s else ({ s with pel := { s.pel with wish := l } }).propose w.1 w.2

/-- PROPOSE_TIMEOUT (R364): a proposer without a majority asks for what it missed; it proposes again once it has adopted that, or when the
timer runs out with no answer, if the subject still stands. -/
def execProposeTimeout (s : State) : Host.Outcome State Fault Refusal :=
  .next (if !s.hdRuns ∨ s.fenced then s
    else match s.pel.proposal with
      | none => s.nextWish
      | some p =>
        if s.captains.length < 2 * p.accepts.length then s
        else ({ s with pel := { s.pel with proposal := none, wish := linsert (p.subj, p.cause) s.pel.wish } }).askSync)

/-! ## Declarations (R365, R370) -/

/-- The subject leaves the watcher and subject sets. -/
def State.unwatch (s : State) (d : Nat) : State :=
  let s1 := (s.watchIdx d).foldl (fun s i => s.setHd (PEL_WATCH_DEV i) 0xFFFF) s
  (s.subjIdx d).foldl (fun s i => ((s.setHd (PEL_SUBJ_DEV i) 0xFFFF).setHd (PEL_SUBJ_MISSES i) 0).setHd (PEL_SUBJ_REPORTED i) 0) s1

/-- Mirrors when a tandem partner is lost (R334), with the boundary that the declaration gives: this module's mirror on it is LOST, and the
one held for it is BEHIND when CHECK of the step in flight has passed, as its gate or the boundary tells, and its BCAST has not completed here. -/
def State.loseMirrors (s : State) (d b : Nat) : State := match s.img with
  | some im => (im.resil.partners.filter (fun p => p.2.1 = d)).foldl (fun s p =>
      let s1 := s.setHd (if p.1 = 0 then TDM_STATUS_M0 else TDM_STATUS_M1) 2
      if (s.gateState = gCOMMIT ∨ (s.gateState = gWAIT ∧ b = s.stepNo.toNat + 1)) ∧ !s.bcastDone p.2.2 d then { s1 with rep := { s1.rep with mirrors := mput 0 p.1 1 s1.rep.mirrors } } else s1) s
  | none => s

/-- Once the module is declared, the rails of the compute dies go down where one of R462, R483 and R490 calls for it: no phase of them is in
service. -/
def State.cdRailsDown (s : State) : State :=
  if s.pwr.down then { s with pwr := { s.pwr with rails := s.pwr.rails.map (fun e => if e.1 < 8 then (e.1, { e.2 with vout := 0, phok := 0 }) else e) } }
  else s

/-- ACK of a DECLARE or a REWIND. -/
def State.sendAckTo (s : State) (dst : List Nat) (kind n : Nat) : State := s.pelSend 0x0D dst true (packWords 1 [(0, 8, kind), (32, 32, n)])

/-- Subjects that this captain still has to propose: the one of a proposal that another declaration has overtaken among them (R364). -/
def State.wishes (s : State) (subj : Nat) : List (Nat × Nat) :=
  let l := match s.pel.proposal with
    | some p => linsert (p.subj, p.cause) s.pel.wish
    | none => s.pel.wish
  l.filter (fun w => w.1 ≠ subj)

/-- A slice without a spare module halts when one is lost (R344). -/
def State.haltWithoutSpare (s : State) : State := match s.img with
  | some im => if im.nspare = 0 ∧ s.isLead then s.sendHalt 0x0E else s
  | none => s

/-- A declaration is adopted (R365, R396), with the boundary b: the epoch, the sets, the mirrors, the round in progress; it is acknowledged to
the proposer `ack` with the new epoch, and the subject itself fences. -/
def State.adopt (s : State) (ep subj cause tier b : Nat) (ack : List Nat) : State :=
  let s1 := ((((s.setHd PEL_STATUS_EPOCH ep).setHd PEL_DECL_EPOCH ep).setHd PEL_DECL_SUBJ subj).setHd PEL_DECL_CAUSE cause).setHd PEL_DECL_TIER tier
  let p := s1.pel
  let s2 : State := { s1 with
    pel := { p with adopted := p.adopted ++ [(ep, subj, cause)], gone := linsert subj p.gone, reports := [], stood := [], accepted := none, proposal := none, proposed := [],
                    wish := s.wishes subj, dueProps := p.dueProps.filter (fun w => w.1 ≠ subj) },
    ckp := { s1.ckp with leadRound := false, again := s1.ckp.again || s1.ckp.leadRound } }
  let s3 := (((s2.unwatch subj).loseMirrors subj b).abandonRound).sendAckTo ack 0x06 ep
  if subj = s.devidx then (s3.fence 1).cdRailsDown else s3.nextWish.haltWithoutSpare

/-- A rewind to a boundary with an ATT (R369, R370): the cores stop with REWIND; the module rewinds if the boundary is that of its step in
flight, and holds at the step entry. A COMMIT is stopped for R223, one too that is still to open here while its CHECK has passed, and after COMMIT
nothing is undone (R30). PEL_STATUS.ATT is that of the current step (R383): the ATT for the next boundary stands there from that step's opening
on. A domestique notes the boundary, and that the slice restores. -/
def State.rewindTo (s : State) (tier b att : Nat) : State :=
  if s.host.halted then s
  else if !s.host.admitted then
    (if s.rep.tier2 ≠ [] then { s with gate := { s.gate with step := BitVec.ofNat 64 b }, rep := { s.rep with tier3 := s.rep.tier3 || decide (tier = 3) } }
      else s).noteRewind tier b att
  else
    let s0 := s.stopAll 1
    let s1 := ({ s0 with rep := { s0.rep with tier3 := s0.rep.tier3 || decide (tier = 3) } } : State).noteRewind tier b att
    let g := s.gateState
    let s2 := if g = gCOMMIT then s1.commitStop
      else if b = s.stepNo.toNat ∧ (g = gRUN ∨ g = gWAIT ∨ g = gREWIND) then s1.rewind
      else if g = gWAIT ∧ b = s.stepNo.toNat + 1 then { s1 with gate := { s1.gate with stopped := true } }
      else s1
    (if b = s.stepNo.toNat then s2.setHd PEL_STATUS_ATT att else s2).setHd PEL_STATUS_STATE 2

/-- A captain relays a message to every module of its pod (R364, R369). -/
def State.relay (s : State) (src kind : Nat) (ws : List (BitVec 64)) : State :=
  if s.isCaptain s.devidx then s.pelSendAs src kind (s.slice.filter s.podMate) true ws else s

/-- Takes one DECLARE for the coming epoch. -/
def State.takeDeclare (s : State) (src : Nat) (m : DeclareMsg) : State :=
  let s1 := s.relay src 0x06 (declareWords m.newEp.toNat m.subj.toNat m.cause.toNat m.tier.toNat m.step.toNat m.att.toNat)
  let s2 := s1.adopt m.newEp.toNat m.subj.toNat m.cause.toNat m.tier.toNat m.step.toNat [src]
  if s2.fenced then s2 else s2.rewindTo m.tier.toNat m.step.toNat m.att.toNat

/-- Adopts the declarations held for the epochs that follow; the first argument bounds them. -/
def State.takeHeld : Nat → State → State
  | 0, s => s
  | k + 1, s => match s.pel.held.find? (fun m => m.2.newEp.toNat = s.epoch + 1) with
    | some m =>
      if s.fenced then s
      else State.takeHeld k (({ s with pel := { s.pel with held := s.pel.held.filter (fun x => x.2.newEp ≠ m.2.newEp) } }).takeDeclare m.1 m.2)
    | none => s

/-- A DECLARE arrives: the next one is adopted with those held behind it; one further ahead is held, and the module asks for those between. -/
def State.declareIn (s : State) (src : Nat) (m : DeclareMsg) : State :=
  let e := m.newEp.toNat
  if e ≤ s.epoch then s
  else if e = s.epoch + 1 then
    let s1 := s.takeDeclare src m
    State.takeHeld s1.pel.held.length s1
  else if s.pel.held.any (fun x => x.2 = m) then s
  else ({ s with pel := { s.pel with held := s.pel.held ++ [(src, m)] } }).askSync

/-- DECLARE (R365). -/
def execDeclareMsg (h : PelHdr) (m : DeclareMsg) (s : State) : Host.Outcome State Fault Refusal :=
  .next (s.pelIn h false (!causeOk m.cause.toNat || m.tier = 0) (fun s => s.declareIn h.src.toNat m))

/-- SYNC at a captain (R365): it answers with the declarations after an epoch. -/
def execSyncMsg (h : PelHdr) (fromEp : BitVec 32) (s : State) : Host.Outcome State Fault Refusal :=
  .next (s.pelIn h false false (fun s =>
    let l := (s.pel.adopted.filter (fun d => decide (fromEp.toNat < d.1))).take 64
    if s.isCaptain s.devidx ∧ l ≠ [] then
      s.pelSend 0x0A [h.src.toNat] true (l.map (fun d => BitVec.ofNat 64 (d.1 + d.2.1 * 2 ^ 32 + d.2.2 * 2 ^ 48)))
    else s))

/-- The captain to which a declaration is acknowledged that came without its proposer: the primary of the subject's pod, or the backup.
DEDUCED (log entry 131). -/
def State.proposerOf (s : State) (subj : Nat) : List Nat := ((s.captainsOf (podOf subj)).filter (· ≠ subj)).take 1

/-- Adopts the declarations of a SYNCREP that follow on the epoch. Their tier is not told: a free value from 1 to 3. -/
def State.syncRepIn (s : State) (ws : List (BitVec 64)) : State :=
  let s1 := ws.foldl (fun s w =>
    let d := w.toNat
    if s.fenced ∨ d % 2 ^ 32 ≠ s.epoch + 1 then s
    else
      s.skipFree.adopt (d % 2 ^ 32) (d / 2 ^ 32 % 2 ^ 16) (d / 2 ^ 48 % 2 ^ 8) (Config.freeNat s.free % 3 + 1) s.stepNo.toNat
        (s.proposerOf (d / 2 ^ 32 % 2 ^ 16))) s
  State.takeHeld s1.pel.held.length s1

/-- SYNCREP (R365). -/
def execSyncRep (h : PelHdr) (ws : List (BitVec 64)) (s : State) : Host.Outcome State Fault Refusal :=
  .next (s.pelIn h false (ws = [] || decide (64 < ws.length) || ws.any (fun w => decide (2 ^ 56 ≤ w.toNat) || !causeOk (w.toNat / 2 ^ 48)))
    (fun s => s.syncRepIn ws))

/-! ## Faults, rewinds and halts (R341, R369 to R372, R377) -/

/-- Words of a REWIND. -/
def rewindWords (att cause tier b : Nat) : List (BitVec 64) := packWords 2 [(0, 8, att), (8, 8, cause), (16, 2, tier), (64, 64, b)]

/-- REWIND to every module through the captains, with the next ATT of the boundary and the highest tier that a standing fault requires. None
is sent for a fault in COMMIT or between COMMIT and the boundary, unless the slice restores. -/
def State.sendRewind (s : State) (cause : Nat) : State :=
  let g := s.gateState
  if ((g = gCOMMIT ∨ g = gDONE) ∧ !s.rep.tier3) ∨ g = gIDLE ∨ g = gHALT then s
  else
    let b := s.faultBoundary
    let att := s.nextAtt b
    (s.giveAtt b att).pelSend 0x07 ((s.captains.filter (fun c => c.1 < 2)).map (·.2.1)) true (rewindWords att cause s.tierNow b)

/-- A missed deadline at the lead captain (R376, R377): once a domestique has replaced a module declared for this deadline of this step, one more
miss cannot be met by the schedule; the second of the same step and module, in its replay, or the second of a module within 24 hours, is lasting. -/
def State.leadDeadline (s : State) (blame detail : Nat) : State :=
  let n := s.stepNo.toNat
  let key := (n, detail, blame)
  let again := decide (key ∈ s.pel.missed) && s.gate.replay
  let lasting := blame ≠ noBlame && (again || (decide (key ∉ s.pel.missed) && s.blamedLately blame))
  let s1 : State := { s with pel := { s.pel with missed := linsert key s.pel.missed } }
  if s.gate.replay ∧ s.pel.declaredFor.any (fun d => d.1 = n && d.2.1 = detail && !s.declared d.2.2) then s1.sendHalt 0x0C
  else if lasting then
    ({ s1 with pel := { s1.pel with declaredFor := linsert (n, detail, blame) s1.pel.declaredFor } } : State).propose blame 0x06
  else s1.sendRewind 0x02

/-- A FAULT at the lead captain: one that leaves a shard without a copy takes the slice into tier 3 (R341). -/
def State.leadFault (s : State) (cause blame detail : Nat) : State :=
  if cause = 0x09 ∨ cause = 0x0A ∨ cause = 0x0B then s.sendHalt cause
  else if cause = 0x02 ∧ detail = 0x07 then s
  else if cause = 0x02 then s.leadDeadline blame detail
  else if cause = 0x04 ∧ detail = noCopyDetail then ({ s with rep := { s.rep with tier3 := true } } : State).sendRewind cause
  else if cause = 0x03 ∨ cause = 0x04 ∨ cause = 0x05 then s.sendRewind cause
  else s

/-- A domestique that is late (R349, R375): the captain has it fenced, and selects the next one. -/
def State.lateDomestique (s : State) (subj : Nat) : State := match s.tier2Of subj with
  | some t => (s.emit (.fenceOrder t.dom)).nextDom subj
  | none => s

/-- A report goes on to the lead captain, on the management planes, with the source, the step and the attempt that it came with. That the
header keeps them is DEDUCED (log entry 112). -/
def State.forwardFault (s : State) (h : PelHdr) (m : FaultMsg) : State :=
  let ws := packWords 1 [(0, 8, m.cause.toNat), (8, 16, m.blame.toNat), (24, 16, m.detail.toNat), (40, 1, if m.last then 1 else 0)]
  let dst := s.leadCaptain.toList
  if s.fenced ∨ dst = [] then s
  else s.emit (.pel 0x03 s.epoch dst 6 ws ((s.mgtFrames h.src.toNat 0x03 s.epoch dst 6 1).map (fun f => { f with h := { f.h with step := h.step, att := h.att } })))

/-- What a captain does with a report once: one of its pod that is lasting is proposed at the next step boundary, a late domestique is replaced,
and a module blamed for a deadline is noted. The lead captain acts on the fault. -/
def State.faultOnce (s : State) (m : FaultMsg) : State :=
  let b := m.blame.toNat
  let s1 := if m.cause = 2 ∧ m.detail = 7 then s.lateDomestique b else s
  let s2 : State := if m.cause = 6 ∧ s.captainFor b ∧ !s.backupFor b ∧ !s.declared b
    then { s1 with pel := { s1.pel with dueProps := linsert (b, 0x06) s1.pel.dueProps } } else s1
  let s3 := if s.isLead then s2.leadFault m.cause.toNat b m.detail.toNat else s2
  if m.cause = 2 then s3.noteBlame b else s3

/-- A FAULT at a captain (R369): its copies are told by the source, the step, the attempt and the words; a captain that does not lead forwards
those of its pod. -/
def State.faultIn (s : State) (h : PelHdr) (m : FaultMsg) : State :=
  let key := (h.step.toNat, h.att.toNat, h.src.toNat, m.cause.toNat, m.blame.toNat, m.detail.toNat)
  let s1 := if key ∈ s.pel.faultsSeen then s
    else ({ s with pel := { s.pel with faultsSeen := key :: s.pel.faultsSeen } } : State).faultOnce m
  if !s.isLead && s.captainFor h.src.toNat then s1.forwardFault h m else s1

/-- PEL_FAULT (R369). -/
def execPelFault (h : PelHdr) (m : FaultMsg) (s : State) : Host.Outcome State Fault Refusal :=
  .next (s.pelIn h false (!causeOk m.cause.toNat) (fun s => if s.isCaptain s.devidx then s.faultIn h m else s))

/-- REWIND at a module: one whose ATT is not above the module's for that boundary is discarded; a captain relays it to its pod. -/
def State.rewindIn (s : State) (src : Nat) (m : RewindMsg) : State :=
  let b := m.step.toNat
  let cur := Nat.max (if b = s.stepNo.toNat then s.hd PEL_STATUS_ATT else 0) (s.attOf b)
  if m.att.toNat ≤ cur then s
  else ((s.relay src 0x07 (rewindWords m.att.toNat m.cause.toNat m.tier.toNat b)).rewindTo m.tier.toNat b m.att.toNat).sendAckTo [src] 0x07
    m.att.toNat

/-- PEL_REWIND (R370). -/
def execPelRewind (h : PelHdr) (m : RewindMsg) (s : State) : Host.Outcome State Fault Refusal :=
  .next (s.pelIn h false (!causeOk m.cause.toNat || m.tier = 0) (fun s => s.rewindIn h.src.toNat m))

/-- PEL_HALT (R371). -/
def execPelHalt (h : PelHdr) (cause : BitVec 8) (s : State) : Host.Outcome State Fault Refusal :=
  .next (s.pelIn h false (!causeOk cause.toNat) (fun s => s.haltJob cause.toNat))

/-- PEL_EVICT (R372): the captain of the subject's pod proposes it; another captain passes the request on. -/
def execPelEvict (h : PelHdr) (subj : BitVec 16) (s : State) : Host.Outcome State Fault Refusal :=
  let d := subj.toNat
  .next (s.pelIn h false false (fun s =>
    if !s.isCaptain s.devidx ∨ d ∉ s.slice then s
    else if s.captainFor d then s.propose d 0x07
    else s.pelSend 0x0B ((s.captainsOf (podOf d)).take 1) true (packWords 1 [(0, 16, d)])))

/-- FENCED (R372): a captain proposes a module that has not been declared. -/
def execFencedMsg (h : PelHdr) (m : FencedMsg) (s : State) : Host.Outcome State Fault Refusal :=
  let d := h.src.toNat
  .next (s.pelIn h true (m.reason = 0 || decide (5 < m.reason.toNat)) (fun s =>
    if s.captainFor d && d ∈ s.slice && !s.declared d then s.propose d 0x08 else s))

/-- Whether every module that stands has acknowledged. -/
def State.allAcked (s : State) (kind n : Nat) : Bool := s.slice.all (fun d => s.declared d || (kind, n, d) ∈ s.pel.acks)

/-- An ACK; with the last one of a REWIND the lead captain releases the slice into the replay (R342; the message is a DESIGN CHOICE, log
entry 48). -/
def State.ackIn (s : State) (src kind n : Nat) : State :=
  let s1 : State := { s with pel := { s.pel with acks := linsert (kind, n, src) s.pel.acks } }
  if kind = 0x07 ∧ s1.isLead ∧ (n + 1) % 256 = s.nextAtt s.faultBoundary ∧ s1.allAcked kind n then
    ({ s1 with pel := { s1.pel with acks := s1.pel.acks.filter (fun a => a.1 ≠ 0x07) } }).mgtSend 0x22 0 0 (s.slice.filter (fun d => !s.declared d)) []
  else s1

/-- PEL_ACK (R365, R370). -/
def execPelAck (h : PelHdr) (kind : BitVec 8) (n : BitVec 32) (s : State) : Host.Outcome State Fault Refusal :=
  .next (s.pelIn h false false (fun s => s.ackIn h.src.toNat kind.toNat n.toNat))

/-! ## The optical circuit switch (R378 to R381, R383) -/

/-- Controllers of the image. -/
def State.ocsCtl (s : State) : List Nat := match s.img with
  | some im => im.resil.ocs.map (·.1)
  | none => []

/-- A request in progress by its REQID; the list without it. -/
def State.ocsFind (s : State) (id : Nat) : Option OcsReq := s.pel.ocs.find? (fun r => r.reqid = id)
def State.ocsDrop (s : State) (id : Nat) : State := { s with pel := { s.pel with ocs := s.pel.ocs.filter (fun r => r.reqid ≠ id) } }

/-- Puts a request behind the others in progress. -/
def State.ocsLast (s : State) (r : OcsReq) : State :=
  let s1 := s.ocsDrop r.reqid
  { s1 with pel := { s1.pel with ocs := s1.pel.ocs ++ [r] } }

/-- A further sending, with the same REQID: on both planes to both controllers. -/
def State.ocsAgain (s : State) (r : OcsReq) : State :=
  (s.ocsLast { r with sends := r.sends + 1 }).emits
    (s.ocsCtl.flatMap (fun c => [.ocs c false (s.ocsBytes r.reqid r.pairs), .ocs c true (s.ocsBytes r.reqid r.pairs)]))

/-- Whether the module may ask a controller: a road captain, not fenced. -/
def State.mayAsk (s : State) : Bool := s.hdRuns && !s.fenced && s.loaded && s.captainFor s.devidx

/-- OCS_REQUEST (R378): of 1 to 18 pairs. It is for a spare port unless a domestique or a referee is being placed. -/
def execOcsRequest (pairs : List OcsPair) (s : State) : Host.Outcome State Fault Refusal :=
  .next (if s.mayAsk ∧ pairs ≠ [] ∧ pairs.length ≤ 18 then s.ocsSend pairs (s.rep.tier2 = [] && s.rep.verdictWait = []) none else s)

/-- Ports of this module that wait for a spare which the controller does not connect go on to the next item of R307. -/
def State.spareRefused (s : State) (r : OcsReq) : State :=
  let mine := s.net.takeover.filter (fun t => r.pairs.any (fun p => p.aser = s.serial && p.aport.toNat = t.2 / 4))
  { s with net := { s.net with takeover := s.net.takeover.filter (fun t => t ∉ mine), nextWait := mine.foldl (fun l t => linsert t.1 l) s.net.nextWait } }

/-- A request for a domestique or a referee is refused (R380): the next domestique is selected, and asked for with a new REQID. -/
def State.domRefused (s : State) (r : OcsReq) : State := match r.subj with
  | some d => s.nextDom d
  | none => match Config.nextDomestique (r.pairs.map (·.aser)) with
    | some ser => s.ocsSend (r.pairs.map (fun p => { p with aser := ser })) false none
    | none => s

/-- The controller has placed what it will of a request for a domestique: its ports are to come UP (R343). -/
def State.ocsPlaced (s : State) (r : OcsReq) : State := match r.subj.bind s.tier2Of with
  | some t => s.setTier2 { t with stage := Nat.max t.stage 6 }
  | none => s

/-- A STATUS is shown where the request is the last one sent (R383). -/
def State.showOcs (s : State) (m : OcsRsp) : State :=
  if s.hd PEL_OCS_REQID = m.reqid.toNat then (s.setHd PEL_OCS_STATUS m.status.toNat).setHd PEL_OCS_DONEMASK m.doneMask.toNat else s

/-- STATUS of a request in progress (R380). A value that is not assigned is treated as REFUSED. A request for the pairs that a PARTIAL left stands
under the bound of the first. -/
def State.ocsAnswer (s : State) (r : OcsReq) (m : OcsRsp) : State :=
  let s1 := s.showOcs m
  let left := ((r.pairs.zipIdx).filter (fun p => !m.doneMask.getLsbD p.2)).map (·.1)
  let ended := s1.ocsDrop r.reqid
  if m.status = 0 ∨ (m.status = 1 ∧ left = []) then ended.ocsPlaced r
  else if m.status = 1 then ended.ocsStart { r with pairs := left, sends := 1, busy := false, rest := true }
  else if m.status = 3 then s1.ocsLast { r with busy := true }
  else if r.forSpare then ended.spareRefused r
  else ({ ended with pel := { ended.pel with ocsOld := ended.pel.ocsOld ++ [(r.reqid, r.pairs)] } } : State).domRefused r

/-- A late answer to a request that was refused and that has placed its pairs after all: they are disconnected again. -/
def State.ocsLate (s : State) (m : OcsRsp) : State := match s.pel.ocsOld.find? (fun o => o.1 = m.reqid.toNat) with
  | some o =>
    let s1 : State := { s with pel := { s.pel with ocsOld := s.pel.ocsOld.filter (fun x => x.1 ≠ o.1) } }
    if m.status = 0 ∨ m.status = 1 then s1.ocsSend (o.2.map (fun p => { p with disconnect := true })) true none else s1
  | none => s

/-- OCS_RESPONSE (R379, R380). -/
def execOcsResponse (m : OcsRsp) (s : State) : Host.Outcome State Fault Refusal :=
  .next (if !s.mayAsk ∨ m.magic ≠ 0x4F43 ∨ m.ver ≠ 1 ∨ m.typ ≠ 2 then s
    else match s.ocsFind m.reqid.toNat with
      | some r => s.ocsAnswer r m
      | none => s.ocsLate m)

/-- OCS_BUSY_REPEAT (R380): the request that the controller was busy for goes again to the controllers, as a further sending does (R381). The one
sent longest ago is the one whose time it is. -/
def execOcsBusyRepeat (s : State) : Host.Outcome State Fault Refusal :=
  .next (match s.pel.ocs.find? (·.busy) with
    | some r => if s.mayAsk then s.ocsAgain r else s
    | none => s)

/-- OCS_RETRY_TIMER (R381): the unanswered request that was sent longest ago. -/
def execOcsRetryTimer (s : State) : Host.Outcome State Fault Refusal :=
  .next (match s.pel.ocs.find? (fun r => !r.busy) with
    | some r => if s.mayAsk then s.ocsAgain r else s
    | none => s)

/-- The request whose bound of 25 s is over first: one without an answer, or one for what a PARTIAL left. -/
def State.ocsOldest (s : State) : Option OcsReq :=
  let l := s.pel.ocs.filter (fun r => !r.busy || r.rest)
  l.find? (fun r => l.all (fun q => decide (r.since ≤ q.since)))

/-- OCS_TIMEOUT (R380, R381): the ports whose pairs a PARTIAL left missing are treated under R307, and those of a domestique that are connected
come UP; else the controller does not answer. -/
def execOcsTimeout (s : State) : Host.Outcome State Fault Refusal :=
  .next (match s.ocsOldest with
    | some r =>
      if !s.mayAsk then s
      else if r.rest then ((s.ocsDrop r.reqid).spareRefused r).ocsPlaced r
      else (s.ocsDrop r.reqid).reportFault 0x0A noBlame 0 false
    | none => s)

end Sys2Proof.Machine
end

