-- ==== Sys2Proof/Machine/Dispatch.lean ====
section
/-! DEFINITION. The dispatch of commands to their meanings: one arm per row of the opcode table. -/

namespace Sys2Proof.Machine

/-- The effect of a command on everything but the queue (R3). -/
def exec (i : Instr) (s : State) : Host.Outcome State Fault Refusal :=
  match i with
  | .bundleIssue x1 => Sys2Proof.Machine.execBundleIssue x1 s
  | .nop x1 x2 => Sys2Proof.Machine.execNop x1 x2 s
  | .add x1 x2 => Sys2Proof.Machine.execAdd x1 x2 s
  | .sub x1 x2 => Sys2Proof.Machine.execSub x1 x2 s
  | .and x1 x2 => Sys2Proof.Machine.execAnd x1 x2 s
  | .or x1 x2 => Sys2Proof.Machine.execOr x1 x2 s
  | .xor x1 x2 => Sys2Proof.Machine.execXor x1 x2 s
  | .shl x1 x2 => Sys2Proof.Machine.execShl x1 x2 s
  | .shr x1 x2 => Sys2Proof.Machine.execShr x1 x2 s
  | .sra x1 x2 => Sys2Proof.Machine.execSra x1 x2 s
  | .min x1 x2 => Sys2Proof.Machine.execMin x1 x2 s
  | .max x1 x2 => Sys2Proof.Machine.execMax x1 x2 s
  | .minu x1 x2 => Sys2Proof.Machine.execMinu x1 x2 s
  | .maxu x1 x2 => Sys2Proof.Machine.execMaxu x1 x2 s
  | .addi x1 x2 => Sys2Proof.Machine.execAddi x1 x2 s
  | .andi x1 x2 => Sys2Proof.Machine.execAndi x1 x2 s
  | .ori x1 x2 => Sys2Proof.Machine.execOri x1 x2 s
  | .xori x1 x2 => Sys2Proof.Machine.execXori x1 x2 s
  | .shli x1 x2 => Sys2Proof.Machine.execShli x1 x2 s
  | .shri x1 x2 => Sys2Proof.Machine.execShri x1 x2 s
  | .srai x1 x2 => Sys2Proof.Machine.execSrai x1 x2 s
  | .movi x1 x2 => Sys2Proof.Machine.execMovi x1 x2 s
  | .movh x1 x2 => Sys2Proof.Machine.execMovh x1 x2 s
  | .mul x1 x2 => Sys2Proof.Machine.execMul x1 x2 s
  | .mulh x1 x2 => Sys2Proof.Machine.execMulh x1 x2 s
  | .mulhu x1 x2 => Sys2Proof.Machine.execMulhu x1 x2 s
  | .ceq x1 x2 => Sys2Proof.Machine.execCeq x1 x2 s
  | .cne x1 x2 => Sys2Proof.Machine.execCne x1 x2 s
  | .clt x1 x2 => Sys2Proof.Machine.execClt x1 x2 s
  | .cltu x1 x2 => Sys2Proof.Machine.execCltu x1 x2 s
  | .cge x1 x2 => Sys2Proof.Machine.execCge x1 x2 s
  | .cgeu x1 x2 => Sys2Proof.Machine.execCgeu x1 x2 s
  | .pand x1 x2 => Sys2Proof.Machine.execPand x1 x2 s
  | .por x1 x2 => Sys2Proof.Machine.execPor x1 x2 s
  | .pxor x1 x2 => Sys2Proof.Machine.execPxor x1 x2 s
  | .pandn x1 x2 => Sys2Proof.Machine.execPandn x1 x2 s
  | .mfsr x1 x2 => Sys2Proof.Machine.execMfsr x1 x2 s
  | .mtsr x1 x2 => Sys2Proof.Machine.execMtsr x1 x2 s
  | .branch x1 x2 => Sys2Proof.Machine.execBranch x1 x2 s
  | .branchLink x1 x2 => Sys2Proof.Machine.execBranchLink x1 x2 s
  | .jumpReg x1 x2 => Sys2Proof.Machine.execJumpReg x1 x2 s
  | .arrive x1 x2 => Sys2Proof.Machine.execArrive x1 x2 s
  | .vadd x1 x2 => Sys2Proof.Machine.execVadd x1 x2 s
  | .vsub x1 x2 => Sys2Proof.Machine.execVsub x1 x2 s
  | .vmul x1 x2 => Sys2Proof.Machine.execVmul x1 x2 s
  | .vfma x1 x2 => Sys2Proof.Machine.execVfma x1 x2 s
  | .vfms x1 x2 => Sys2Proof.Machine.execVfms x1 x2 s
  | .vmin x1 x2 => Sys2Proof.Machine.execVmin x1 x2 s
  | .vmax x1 x2 => Sys2Proof.Machine.execVmax x1 x2 s
  | .vabs x1 x2 => Sys2Proof.Machine.execVabs x1 x2 s
  | .vneg x1 x2 => Sys2Proof.Machine.execVneg x1 x2 s
  | .vfcmp x1 x2 => Sys2Proof.Machine.execVfcmp x1 x2 s
  | .vicmp x1 x2 => Sys2Proof.Machine.execVicmp x1 x2 s
  | .viadd x1 x2 => Sys2Proof.Machine.execViadd x1 x2 s
  | .visub x1 x2 => Sys2Proof.Machine.execVisub x1 x2 s
  | .vand x1 x2 => Sys2Proof.Machine.execVand x1 x2 s
  | .vor x1 x2 => Sys2Proof.Machine.execVor x1 x2 s
  | .vxor x1 x2 => Sys2Proof.Machine.execVxor x1 x2 s
  | .vshl x1 x2 => Sys2Proof.Machine.execVshl x1 x2 s
  | .vshr x1 x2 => Sys2Proof.Machine.execVshr x1 x2 s
  | .vsra x1 x2 => Sys2Proof.Machine.execVsra x1 x2 s
  | .vimin x1 x2 => Sys2Proof.Machine.execVimin x1 x2 s
  | .vimax x1 x2 => Sys2Proof.Machine.execVimax x1 x2 s
  | .vsel x1 x2 => Sys2Proof.Machine.execVsel x1 x2 s
  | .vrot x1 x2 => Sys2Proof.Machine.execVrot x1 x2 s
  | .vbcast x1 x2 => Sys2Proof.Machine.execVbcast x1 x2 s
  | .vext x1 x2 => Sys2Proof.Machine.execVext x1 x2 s
  | .vcvt x1 x2 => Sys2Proof.Machine.execVcvt x1 x2 s
  | .vqblk x1 x2 => Sys2Proof.Machine.execVqblk x1 x2 s
  | .vtlu x1 x2 => Sys2Proof.Machine.execVtlu x1 x2 s
  | .ld1u x1 x2 => Sys2Proof.Machine.execLd1u x1 x2 s
  | .ld1s x1 x2 => Sys2Proof.Machine.execLd1s x1 x2 s
  | .ld2u x1 x2 => Sys2Proof.Machine.execLd2u x1 x2 s
  | .ld2s x1 x2 => Sys2Proof.Machine.execLd2s x1 x2 s
  | .ld4u x1 x2 => Sys2Proof.Machine.execLd4u x1 x2 s
  | .ld4s x1 x2 => Sys2Proof.Machine.execLd4s x1 x2 s
  | .ld8 x1 x2 => Sys2Proof.Machine.execLd8 x1 x2 s
  | .st1 x1 x2 => Sys2Proof.Machine.execSt1 x1 x2 s
  | .st2 x1 x2 => Sys2Proof.Machine.execSt2 x1 x2 s
  | .st4 x1 x2 => Sys2Proof.Machine.execSt4 x1 x2 s
  | .st8 x1 x2 => Sys2Proof.Machine.execSt8 x1 x2 s
  | .vld128 x1 x2 => Sys2Proof.Machine.execVld128 x1 x2 s
  | .vld256 x1 x2 => Sys2Proof.Machine.execVld256 x1 x2 s
  | .vst128 x1 x2 => Sys2Proof.Machine.execVst128 x1 x2 s
  | .vst256 x1 x2 => Sys2Proof.Machine.execVst256 x1 x2 s
  | .chPost x1 x2 x3 => Sys2Proof.Machine.execChPost x1 x2 x3 s
  | .chRelease x1 x2 x3 => Sys2Proof.Machine.execChRelease x1 x2 x3 s
  | .chMb x1 x2 x3 => Sys2Proof.Machine.execChMb x1 x2 x3 s
  | .recordMergeStore x1 x2 x3 x4 => Sys2Proof.Machine.execRecordMergeStore x1 x2 x3 x4 s
  | .feed x1 x2 => Sys2Proof.Machine.execFeed x1 x2 s
  | .feedv x1 x2 => Sys2Proof.Machine.execFeedv x1 x2 s
  | .ldw x1 x2 x3 => Sys2Proof.Machine.execLdw x1 x2 x3 s
  | .pass x1 x2 x3 => Sys2Proof.Machine.execPass x1 x2 x3 s
  | .drain x1 x2 x3 => Sys2Proof.Machine.execDrain x1 x2 x3 s
  | .dmac x1 x2 => Sys2Proof.Machine.execDmac x1 x2 s
  | .dmad x1 x2 => Sys2Proof.Machine.execDmad x1 x2 s
  | .accAdd x1 x2 => Sys2Proof.Machine.execAccAdd x1 x2 s
  | .drainRow x1 => Sys2Proof.Machine.execDrainRow x1 s
  | .arrRepairApply x1 x2 => Sys2Proof.Machine.execArrRepairApply x1 x2 s
  | .dmaComplete x1 x2 x3 => Sys2Proof.Machine.execDmaComplete x1 x2 x3 s
  | .barrierRelease x1 => Sys2Proof.Machine.execBarrierRelease x1 s
  | .channelSlotSent x1 x2 => Sys2Proof.Machine.execChannelSlotSent x1 x2 s
  | .channelSlotArrive x1 x2 x3 => Sys2Proof.Machine.execChannelSlotArrive x1 x2 x3 s
  | .channelCreditReturn x1 x2 x3 => Sys2Proof.Machine.execChannelCreditReturn x1 x2 x3 s
  | .waitTimeout x1 => Sys2Proof.Machine.execWaitTimeout x1 s
  | .coreHalt x1 => Sys2Proof.Machine.execCoreHalt x1 s
  | .coreGo x1 => Sys2Proof.Machine.execCoreGo x1 s
  | .corePcWrite x1 x2 => Sys2Proof.Machine.execCorePcWrite x1 x2 s
  | .regWrite x1 x2 x3 x4 => Sys2Proof.Machine.execRegWrite x1 x2 x3 x4 s
  | .coreGearChange x1 => Sys2Proof.Machine.execCoreGearChange x1 s
  | .stepEntry x1 => Sys2Proof.Machine.execStepEntry x1 s
  | .checkVerdict x1 => Sys2Proof.Machine.execCheckVerdict x1 s
  | .commitPageWrite x1 x2 => Sys2Proof.Machine.execCommitPageWrite x1 x2 s
  | .preimageCopyDone x1 => Sys2Proof.Machine.execPreimageCopyDone x1 s
  | .gateDone => Sys2Proof.Machine.execGateDone s
  | .stepBoundary => Sys2Proof.Machine.execStepBoundary s
  | .commitResume => Sys2Proof.Machine.execCommitResume s
  | .stepRecordEntry x1 => Sys2Proof.Machine.execStepRecordEntry x1 s
  | .stepRecordAck x1 x2 => Sys2Proof.Machine.execStepRecordAck x1 x2 s
  | .pllUnlock x1 => Sys2Proof.Machine.execPllUnlock x1 s
  | .clockGlitch x1 => Sys2Proof.Machine.execClockGlitch x1 s
  | .fencedStandbyTimer => Sys2Proof.Machine.execFencedStandbyTimer s
  | .networkLinkLoss x1 => Sys2Proof.Machine.execNetworkLinkLoss x1 s
  | .hubLinkStop x1 => Sys2Proof.Machine.execHubLinkStop x1 s
  | .hbmPatrol x1 x2 => Sys2Proof.Machine.execHbmPatrol x1 x2 s
  | .hbmCorrectionRewrite x1 => Sys2Proof.Machine.execHbmCorrectionRewrite x1 s
  | .hbmErrorRecheck x1 x2 => Sys2Proof.Machine.execHbmErrorRecheck x1 x2 s
  | .pageRetire x1 x2 => Sys2Proof.Machine.execPageRetire x1 x2 s
  | .pageRetireDone x1 => Sys2Proof.Machine.execPageRetireDone x1 s
  | .nocPacketReceive x1 x2 => Sys2Proof.Machine.execNocPacketReceive x1 x2 s
  | .d2dBlockReceive x1 x2 => Sys2Proof.Machine.execD2dBlockReceive x1 x2 s
  | .d2dBlockReplay x1 x2 => Sys2Proof.Machine.execD2dBlockReplay x1 x2 s
  | .d2dRetrainDone x1 => Sys2Proof.Machine.execD2dRetrainDone x1 s
  | .frmload x1 => Sys2Proof.Machine.execFrmload x1 s
  | .frameLoadComplete x1 => Sys2Proof.Machine.execFrameLoadComplete x1 s
  | .identityFrameSend x1 => Sys2Proof.Machine.execIdentityFrameSend x1 s
  | .identityFrameReceive x1 x2 => Sys2Proof.Machine.execIdentityFrameReceive x1 x2 s
  | .portLightReturn x1 => Sys2Proof.Machine.execPortLightReturn x1 s
  | .portTrained x1 => Sys2Proof.Machine.execPortTrained x1 s
  | .ualarPacketReceive x1 x2 => Sys2Proof.Machine.execUalarPacketReceive x1 x2 s
  | .ualAck x1 x2 => Sys2Proof.Machine.execUalAck x1 x2 s
  | .ualAckTimer x1 => Sys2Proof.Machine.execUalAckTimer x1 s
  | .ualRtoExpiry x1 => Sys2Proof.Machine.execUalRtoExpiry x1 s
  | .ecnEcho x1 => Sys2Proof.Machine.execEcnEcho x1 s
  | .ecnRateRaise => Sys2Proof.Machine.execEcnRateRaise s
  | .roceCnp x1 x2 => Sys2Proof.Machine.execRoceCnp x1 x2 s
  | .llrFrameReceive x1 x2 => Sys2Proof.Machine.execLlrFrameReceive x1 x2 s
  | .llrAck x1 x2 x3 => Sys2Proof.Machine.execLlrAck x1 x2 x3 s
  | .llrReplay x1 x2 => Sys2Proof.Machine.execLlrReplay x1 x2 s
  | .portFailure x1 x2 => Sys2Proof.Machine.execPortFailure x1 x2 s
  | .portRetrainDone x1 x2 => Sys2Proof.Machine.execPortRetrainDone x1 x2 s
  | .collectivePost x1 x2 x3 x4 x5 => Sys2Proof.Machine.execCollectivePost x1 x2 x3 x4 x5 s
  | .ualReady x1 x2 x3 => Sys2Proof.Machine.execUalReady x1 x2 x3 s
  | .cutoffExpiry x1 x2 => Sys2Proof.Machine.execCutoffExpiry x1 x2 s
  | .decideMsg x1 x2 x3 x4 => Sys2Proof.Machine.execDecideMsg x1 x2 x3 x4 s
  | .chunkReceive x1 x2 x3 x4 x5 => Sys2Proof.Machine.execChunkReceive x1 x2 x3 x4 x5 s
  | .chunkAck x1 x2 x3 x4 => Sys2Proof.Machine.execChunkAck x1 x2 x3 x4 s
  | .collectiveResume x1 x2 => Sys2Proof.Machine.execCollectiveResume x1 x2 s
  | .collectiveComplete x1 x2 => Sys2Proof.Machine.execCollectiveComplete x1 x2 s
  | .collectiveDeadline x1 x2 => Sys2Proof.Machine.execCollectiveDeadline x1 x2 s
  | .phaseTimerExpiry => Sys2Proof.Machine.execPhaseTimerExpiry s
  | .pannierOverflow x1 x2 => Sys2Proof.Machine.execPannierOverflow x1 x2 s
  | .pannierResend x1 x2 x3 => Sys2Proof.Machine.execPannierResend x1 x2 x3 s
  | .digestComputeDone => Sys2Proof.Machine.execDigestComputeDone s
  | .copyRepair x1 x2 => Sys2Proof.Machine.execCopyRepair x1 x2 s
  | .refereeRun x1 => Sys2Proof.Machine.execRefereeRun x1 s
  | .poisonPageRestore x1 => Sys2Proof.Machine.execPoisonPageRestore x1 s
  | .tier1Rewind x1 => Sys2Proof.Machine.execTier1Rewind x1 s
  | .tier2Recovery x1 x2 => Sys2Proof.Machine.execTier2Recovery x1 x2 s
  | .stateTransferDone x1 => Sys2Proof.Machine.execStateTransferDone x1 s
  | .noDomestique x1 => Sys2Proof.Machine.execNoDomestique x1 s
  | .catchupReplay x1 => Sys2Proof.Machine.execCatchupReplay x1 s
  | .tier3Restore => Sys2Proof.Machine.execTier3Restore s
  | .heartbeatSend => Sys2Proof.Machine.execHeartbeatSend s
  | .hb x1 x2 => Sys2Proof.Machine.execHb x1 x2 s
  | .heartbeatMiss x1 => Sys2Proof.Machine.execHeartbeatMiss x1 s
  | .missMsg x1 x2 x3 x4 => Sys2Proof.Machine.execMissMsg x1 x2 x3 x4 s
  | .withdrawMsg x1 x2 x3 => Sys2Proof.Machine.execWithdrawMsg x1 x2 x3 s
  | .quorumLossFence => Sys2Proof.Machine.execQuorumLossFence s
  | .captainConfirm x1 => Sys2Proof.Machine.execCaptainConfirm x1 s
  | .proposeMsg x1 x2 => Sys2Proof.Machine.execProposeMsg x1 x2 s
  | .acceptMsg x1 x2 => Sys2Proof.Machine.execAcceptMsg x1 x2 s
  | .proposeTimeout => Sys2Proof.Machine.execProposeTimeout s
  | .declareMsg x1 x2 => Sys2Proof.Machine.execDeclareMsg x1 x2 s
  | .syncMsg x1 x2 => Sys2Proof.Machine.execSyncMsg x1 x2 s
  | .syncRep x1 x2 => Sys2Proof.Machine.execSyncRep x1 x2 s
  | .pelFault x1 x2 => Sys2Proof.Machine.execPelFault x1 x2 s
  | .pelRewind x1 x2 => Sys2Proof.Machine.execPelRewind x1 x2 s
  | .pelHalt x1 x2 => Sys2Proof.Machine.execPelHalt x1 x2 s
  | .pelEvict x1 x2 => Sys2Proof.Machine.execPelEvict x1 x2 s
  | .fencedMsg x1 x2 => Sys2Proof.Machine.execFencedMsg x1 x2 s
  | .pelAck x1 x2 x3 => Sys2Proof.Machine.execPelAck x1 x2 x3 s
  | .fence x1 => Sys2Proof.Machine.execFence x1 s
  | .fencedTimer => Sys2Proof.Machine.execFencedTimer s
  | .ocsRequest x1 => Sys2Proof.Machine.execOcsRequest x1 s
  | .ocsResponse x1 => Sys2Proof.Machine.execOcsResponse x1 s
  | .ocsBusyRepeat => Sys2Proof.Machine.execOcsBusyRepeat s
  | .ocsRetryTimer => Sys2Proof.Machine.execOcsRetryTimer s
  | .ocsTimeout => Sys2Proof.Machine.execOcsTimeout s
  | .ckOrder x1 => Sys2Proof.Machine.execCkOrder x1 s
  | .snapshotHeldWrite x1 x2 => Sys2Proof.Machine.execSnapshotHeldWrite x1 x2 s
  | .priorityCopyDone x1 x2 => Sys2Proof.Machine.execPriorityCopyDone x1 x2 s
  | .stagePageFreed x1 => Sys2Proof.Machine.execStagePageFreed x1 s
  | .checkpointPageWriteAck x1 => Sys2Proof.Machine.execCheckpointPageWriteAck x1 s
  | .ckData x1 => Sys2Proof.Machine.execCkData x1 s
  | .ckSeal x1 => Sys2Proof.Machine.execCkSeal x1 s
  | .ckSealed x1 => Sys2Proof.Machine.execCkSealed x1 s
  | .ckOk x1 => Sys2Proof.Machine.execCkOk x1 s
  | .checkpointRoundFail x1 => Sys2Proof.Machine.execCheckpointRoundFail x1 s
  | .cktoExpiry => Sys2Proof.Machine.execCktoExpiry s
  | .ckQuery x1 x2 => Sys2Proof.Machine.execCkQuery x1 x2 s
  | .ckSlots x1 => Sys2Proof.Machine.execCkSlots x1 s
  | .ckRestore x1 x2 x3 => Sys2Proof.Machine.execCkRestore x1 x2 x3 s
  | .spareTableFault x1 x2 x3 => Sys2Proof.Machine.execSpareTableFault x1 x2 x3 s
  | .selfTestFull x1 => Sys2Proof.Machine.execSelfTestFull x1 s
  | .selfTestQuick x1 => Sys2Proof.Machine.execSelfTestQuick x1 s
  | .sliceDue => Sys2Proof.Machine.execSliceDue s
  | .siteTest x1 => Sys2Proof.Machine.execSiteTest x1 s
  | .siteTestDone x1 x2 => Sys2Proof.Machine.execSiteTestDone x1 x2 s
  | .portTest x1 => Sys2Proof.Machine.execPortTest x1 s
  | .phaseCheck x1 x2 x3 x4 => Sys2Proof.Machine.execPhaseCheck x1 x2 x3 x4 s
  | .tcInstall x1 x2 x3 x4 => Sys2Proof.Machine.execTcInstall x1 x2 x3 x4 s
  | .deviceCertInstall x1 => Sys2Proof.Machine.execDeviceCertInstall x1 s
  | .securityAlarm x1 x2 => Sys2Proof.Machine.execSecurityAlarm x1 x2 s
  | .fcool x1 => Sys2Proof.Machine.execFcool x1 s
  | .fpwr x1 => Sys2Proof.Machine.execFpwr x1 s
  | .fmtrq x1 => Sys2Proof.Machine.execFmtrq x1 s
  | .fstat => Sys2Proof.Machine.execFstat s
  | .falarm x1 x2 x3 => Sys2Proof.Machine.execFalarm x1 x2 x3 s
  | .fid => Sys2Proof.Machine.execFid s
  | .facilityFrameFilter x1 x2 x3 x4 => Sys2Proof.Machine.execFacilityFrameFilter x1 x2 x3 x4 s
  | .meterRead x1 x2 => Sys2Proof.Machine.execMeterRead x1 x2 s
  | .jobStart x1 x2 => Sys2Proof.Machine.execJobStart x1 x2 s
  | .jobStop x1 x2 => Sys2Proof.Machine.execJobStop x1 x2 s
  | .fetchRecord x1 => Sys2Proof.Machine.execFetchRecord x1 s
  | .meterInputLoss => Sys2Proof.Machine.execMeterInputLoss s
  | .meterLinkReturn => Sys2Proof.Machine.execMeterLinkReturn s
  | .regrd x1 x2 => Sys2Proof.Machine.execRegrd x1 x2 s
  | .regwr x1 x2 x3 x4 => Sys2Proof.Machine.execRegwr x1 x2 x3 x4 s
  | .hostAdmission x1 x2 x3 => Sys2Proof.Machine.execHostAdmission x1 x2 x3 s
  | .hostRelease x1 x2 => Sys2Proof.Machine.execHostRelease x1 x2 s
  | .chal x1 => Sys2Proof.Machine.execChal x1 s
  | .challengeExpiry => Sys2Proof.Machine.execChallengeExpiry s
  | .signreq x1 x2 => Sys2Proof.Machine.execSignreq x1 x2 s
  | .attest x1 x2 => Sys2Proof.Machine.execAttest x1 x2 s
  | .fwInstall x1 x2 x3 x4 => Sys2Proof.Machine.execFwInstall x1 x2 x3 x4 s
  | .shutdown x1 x2 x3 => Sys2Proof.Machine.execShutdown x1 x2 x3 s
  | .selftest x1 x2 => Sys2Proof.Machine.execSelftest x1 x2 s
  | .hostEvict x1 x2 => Sys2Proof.Machine.execHostEvict x1 x2 s
  | .hostStatus x1 => Sys2Proof.Machine.execHostStatus x1 s
  | .modReset x1 x2 => Sys2Proof.Machine.execModReset x1 x2 s
  | .notifyHost x1 x2 => Sys2Proof.Machine.execNotifyHost x1 x2 s
  | .powerUp x1 => Sys2Proof.Machine.execPowerUp x1 s
  | .inputLoss => Sys2Proof.Machine.execInputLoss s
  | .hxWatchdogExpiry => Sys2Proof.Machine.execHxWatchdogExpiry s
  | .hxwdKick => Sys2Proof.Machine.execHxwdKick s
  | .hostFlitReceive x1 x2 => Sys2Proof.Machine.execHostFlitReceive x1 x2 s
  | .identMsg x1 => Sys2Proof.Machine.execIdentMsg x1 s
  | .ckptMsg x1 x2 => Sys2Proof.Machine.execCkptMsg x1 x2 s
  | .slReady x1 x2 x3 => Sys2Proof.Machine.execSlReady x1 x2 x3 s
  | .slStart x1 => Sys2Proof.Machine.execSlStart x1 s
  | .admissionTimeout => Sys2Proof.Machine.execAdmissionTimeout s
  | .relOrder x1 => Sys2Proof.Machine.execRelOrder x1 s
  | .relOrderTimeout => Sys2Proof.Machine.execRelOrderTimeout s
  | .alertMsg x1 => Sys2Proof.Machine.execAlertMsg x1 s
  | .mgtResendTimer => Sys2Proof.Machine.execMgtResendTimer s
  | .counterWrap x1 x2 => Sys2Proof.Machine.execCounterWrap x1 x2 s
  | .pmcRead x1 x2 x3 => Sys2Proof.Machine.execPmcRead x1 x2 x3 s
  | .pmcFreeze x1 x2 => Sys2Proof.Machine.execPmcFreeze x1 x2 s
  | .tagRecordDone x1 x2 => Sys2Proof.Machine.execTagRecordDone x1 x2 s
  | .tagPop x1 => Sys2Proof.Machine.execTagPop x1 s
  | .powerSample x1 x2 x3 x4 => Sys2Proof.Machine.execPowerSample x1 x2 x3 x4 s
  | .throttleOverrun => Sys2Proof.Machine.execThrottleOverrun s
  | .inputVoltageFault x1 => Sys2Proof.Machine.execInputVoltageFault x1 s
  | .thermalSample x1 => Sys2Proof.Machine.execThermalSample x1 s
  | .leakSensed => Sys2Proof.Machine.execLeakSensed s
  | .presentBreak => Sys2Proof.Machine.execPresentBreak s
  | .pfcPause x1 x2 x3 => Sys2Proof.Machine.execPfcPause x1 x2 x3 s
  | .neighbourSolicitation x1 x2 => Sys2Proof.Machine.execNeighbourSolicitation x1 x2 s
  | .routerAdvertisement x1 x2 => Sys2Proof.Machine.execRouterAdvertisement x1 x2 s
  | .llrAckTimer x1 => Sys2Proof.Machine.execLlrAckTimer x1 s
  | .hostLinkRetrainDone x1 x2 => Sys2Proof.Machine.execHostLinkRetrainDone x1 x2 s
  | .meterLinkLoss => Sys2Proof.Machine.execMeterLinkLoss s
  | .facSupplyLoss => Sys2Proof.Machine.execFacSupplyLoss s
  | .facSupplyReturn x1 => Sys2Proof.Machine.execFacSupplyReturn x1 s
  | .presentMate => Sys2Proof.Machine.execPresentMate s
  | .replacementRoutes x1 => Sys2Proof.Machine.execReplacementRoutes x1 s
  | .restoreObjectRead x1 => Sys2Proof.Machine.execRestoreObjectRead x1 s

end Sys2Proof.Machine
end

