-- ==== Sys2Proof/Machine/Step.lean ====
section
/-! DEFINITION. One step of the module: the command at the front of the queue. -/

set_option autoImplicit false

namespace Sys2Proof.Machine

/-- One step (R3): take the command at the front of the queue and run it with the queue's rest. On an empty queue the
module idles and, while it has input power, one unit of `State.time` passes, in which the fabric and the host link pass on what waits, a domestique watches the
bounds of its stages, and a module of a slice without captains starts its own rewind (DESIGN CHOICE, log entries 4, 109 and 113; R250, R354, R375,
R408). -/
def step (s : State) : Host.Outcome State Fault Refusal :=
  match s.pending with
  | [] => .next (if s.pwr.input then { s.idleTick with time := s.time + 1 } else s)
  | c :: rest => exec c { s with pending := rest }

/-- `s` with the command that a table word spells at the front of its queue; `s` itself where it spells none. -/
def State.withFetchWord (s : State) (nbits w : Nat) : State :=
  match decodeTableWord nbits w with
  | some c => { s with pending := c :: s.pending }
  | none => s

end Sys2Proof.Machine
end

