-- ==== Sys2Proof/Safety.lean ====
section
/-! DEFINITION. The terms that the statements use: memories in canonical form, a core that may issue, and what a command may change. -/

set_option autoImplicit false

namespace Sys2Proof.Machine

/-! ## Canonical memories -/

/-- The memories of a core site are in canonical form. -/
def Site.memsWf (c : Site) : Bool := c.store.wf && c.istore.wf && c.recs.wf

/-- Every memory of the module is in canonical form. -/
def State.memsWf (s : State) : Bool := s.hbm.wf && s.sites.all (fun e => e.2.memsWf)

/-- `t` follows `s` by effects that leave the queue as it is and memories canonical. -/
def Keeps (s t : State) : Prop := t.pending = s.pending ∧ (s.memsWf = true → t.memsWf = true)

/-! ## A core that may issue -/

/-- The clock of a site's die runs (R20). -/
def State.clocked (s : State) (c : SiteNo) : Prop := s.dieRuns (c.val / 104) = true

/-- The core of a site is running, on a die whose clock runs (R20, R146). -/
def State.runs (s : State) (c : SiteNo) : Prop := (s.site c.val).f CORE_STATE_STATE = 1 ∧ s.clocked c

/-- The core runs, bit 0 of the governing predicate is 1, and that predicate is not poisoned (R155, R159). -/
def State.ready (s : State) (c : SiteNo) (p : BitVec 4) : Prop :=
  s.runs c ∧ (s.site c.val).enabled p.toNat = true ∧ ((s.site c.val).preg p.toNat).poi = false

/-- The core runs, bit 0 of the governing predicate is 0, and that predicate is not poisoned. -/
def State.off (s : State) (c : SiteNo) (p : BitVec 4) : Prop :=
  s.runs c ∧ (s.site c.val).enabled p.toNat = false ∧ ((s.site c.val).preg p.toNat).poi = false

/-! ## What a command may change -/

/-- The state with one scalar register of a site written, and nothing else changed; a write to s0 is discarded (R115). -/
def State.putS (s : State) (c : SiteNo) (i : BitVec 6) (v : Word) (poi : Bool) : State :=
  s.setSite c.val ((s.site c.val).setS i.toNat v poi)

/-- The state with one predicate register of a site written, and nothing else changed; a write to p0 is discarded (R115). -/
def State.putP (s : State) (c : SiteNo) (i : BitVec 6) (v : BitVec 128) (poi : Bool) : State :=
  s.setSite c.val ((s.site c.val).setP i.toNat v poi)

/-- Nothing but one core site changed, and signals to firmware (R472). -/
def OnlySite (n : Nat) (s t : State) : Prop :=
  t = { s with sites := t.sites, out := t.out } ∧ ∀ m, m ≠ n → t.site m = s.site m

/-- The memories of a site are as they were: every byte of the core store, the instruction store and the record sets. -/
def SameMems (c d : Site) : Prop := d.store = c.store ∧ d.istore = c.istore ∧ d.recs = c.recs

/-- The arrays, drain rows and channels of a site are as they were. -/
def SameEngines (c d : Site) : Prop :=
  d.arrs = c.arrs ∧ d.drainQ = c.drainQ ∧ d.outTiles = c.outTiles ∧ d.chans = c.chans ∧ d.dmas = c.dmas ∧ d.tables = c.tables

/-- The register files of a site are as they were. -/
def SameFiles (c d : Site) : Prop := d.sregs = c.sregs ∧ d.vregs = c.vregs ∧ d.pregs = c.pregs

/-- Whether a register field is a core event counter or its overflow bit (R467, R472). -/
def isCounter (x : Fld) : Prop := (∃ i, i < 16 ∧ x.key = (PMC_CTR_VALUE i).key) ∨ x.key = PMC_CTL_OVF.key

/-- The local address ranges that a DMA writes (R186). -/
def Dma.localTargets (d : Dma) : List (Nat × Nat) :=
  if d.dstl then let r := d.dstRows; (List.range r.2.2).map (fun i => (d.dst + i * r.2.1, r.1)) else []

/-! ## Operations of core slots as commands -/

/-- The core and the operation of a command that is an operation of a core slot (log entry 7). -/
def coreOp (i : Instr) : Option (SiteNo × Op) :=
  match i with
  | .nop c k => some (c, .nop k.val 0)
  | .add c f => some (c, .sc .add f)
  | .sub c f => some (c, .sc .sub f)
  | .and c f => some (c, .sc .and f)
  | .or c f => some (c, .sc .or f)
  | .xor c f => some (c, .sc .xor f)
  | .shl c f => some (c, .sc .shl f)
  | .shr c f => some (c, .sc .shr f)
  | .sra c f => some (c, .sc .sra f)
  | .min c f => some (c, .sc .min f)
  | .max c f => some (c, .sc .max f)
  | .minu c f => some (c, .sc .minu f)
  | .maxu c f => some (c, .sc .maxu f)
  | .addi c f => some (c, .sc .addi f)
  | .andi c f => some (c, .sc .andi f)
  | .ori c f => some (c, .sc .ori f)
  | .xori c f => some (c, .sc .xori f)
  | .shli c f => some (c, .sc .shli f)
  | .shri c f => some (c, .sc .shri f)
  | .srai c f => some (c, .sc .srai f)
  | .movi c f => some (c, .sc .movi f)
  | .movh c f => some (c, .sc .movh f)
  | .mul c f => some (c, .sc .mul f)
  | .mulh c f => some (c, .sc .mulh f)
  | .mulhu c f => some (c, .sc .mulhu f)
  | .ceq c f => some (c, .sc .ceq f)
  | .cne c f => some (c, .sc .cne f)
  | .clt c f => some (c, .sc .clt f)
  | .cltu c f => some (c, .sc .cltu f)
  | .cge c f => some (c, .sc .cge f)
  | .cgeu c f => some (c, .sc .cgeu f)
  | .pand c f => some (c, .sc .pand f)
  | .por c f => some (c, .sc .por f)
  | .pxor c f => some (c, .sc .pxor f)
  | .pandn c f => some (c, .sc .pandn f)
  | .mfsr c f => some (c, .sc .mfsr f)
  | .mtsr c f => some (c, .sc .mtsr f)
  | .branch c f => some (c, .br .b f)
  | .branchLink c f => some (c, .br .bl f)
  | .jumpReg c f => some (c, .br .jr f)
  | .arrive c f => some (c, .br .arrive f)
  | .vadd c f => some (c, .vec .vadd f)
  | .vsub c f => some (c, .vec .vsub f)
  | .vmul c f => some (c, .vec .vmul f)
  | .vfma c f => some (c, .vec .vfma f)
  | .vfms c f => some (c, .vec .vfms f)
  | .vmin c f => some (c, .vec .vmin f)
  | .vmax c f => some (c, .vec .vmax f)
  | .vabs c f => some (c, .vec .vabs f)
  | .vneg c f => some (c, .vec .vneg f)
  | .vfcmp c f => some (c, .vec .vfcmp f)
  | .vicmp c f => some (c, .vec .vicmp f)
  | .viadd c f => some (c, .vec .viadd f)
  | .visub c f => some (c, .vec .visub f)
  | .vand c f => some (c, .vec .vand f)
  | .vor c f => some (c, .vec .vor f)
  | .vxor c f => some (c, .vec .vxor f)
  | .vshl c f => some (c, .vec .vshl f)
  | .vshr c f => some (c, .vec .vshr f)
  | .vsra c f => some (c, .vec .vsra f)
  | .vimin c f => some (c, .vec .vimin f)
  | .vimax c f => some (c, .vec .vimax f)
  | .vsel c f => some (c, .vec .vsel f)
  | .vrot c f => some (c, .vec .vrot f)
  | .vbcast c f => some (c, .vec .vbcast f)
  | .vext c f => some (c, .vec .vext f)
  | .vcvt c f => some (c, .vec .vcvt f)
  | .vqblk c f => some (c, .vec .vqblk f)
  | .vtlu c f => some (c, .vec .vtlu f)
  | .ld1u c f => some (c, .ls .ld1u f)
  | .ld1s c f => some (c, .ls .ld1s f)
  | .ld2u c f => some (c, .ls .ld2u f)
  | .ld2s c f => some (c, .ls .ld2s f)
  | .ld4u c f => some (c, .ls .ld4u f)
  | .ld4s c f => some (c, .ls .ld4s f)
  | .ld8 c f => some (c, .ls .ld8 f)
  | .st1 c f => some (c, .ls .st1 f)
  | .st2 c f => some (c, .ls .st2 f)
  | .st4 c f => some (c, .ls .st4 f)
  | .st8 c f => some (c, .ls .st8 f)
  | .vld128 c f => some (c, .ls .vld128 f)
  | .vld256 c f => some (c, .ls .vld256 f)
  | .vst128 c f => some (c, .ls .vst128 f)
  | .vst256 c f => some (c, .ls .vst256 f)
  | .feed c f => some (c, .feed false f)
  | .feedv c f => some (c, .feed true f)
  | .ldw c a f => some (c, .ldw a.val f)
  | .pass c a f => some (c, .pass a.val f)
  | .drain c a f => some (c, .drain a.val f)
  | .dmac c f => some (c, .dmac f)
  | .dmad c f => some (c, .dmad f)
  | _ => none

/-- An operation that does nothing at all when bit 0 of its predicate is 0: no branch, whose delay bundles stand either way, no vector
operation, and none that reads the core store for its check (R155, R165). -/
def Op.plain (o : Op) : Bool := match o with
  | .sc _ _ => true
  | .ls _ _ => true
  | .br p _ => p = .arrive
  | .dmac _ => true
  | _ => false

/-- An exception stands recorded at a core: it has stopped with a cause, a detail and the slots that broke a rule, and its
EPC names the bundle `pc` (R138). -/
def Site.recorded (d : Site) (cause detail slots pc : Nat) : Prop :=
  d.f CORE_STATE_STATE = 3 ∧ d.f CORE_STATE_CAUSE = cause ∧ d.f CORE_STATE_DETAIL = detail ∧ d.f CORE_EPC_SLOTS = slots ∧
    d.f CORE_EPC_BUNDLE = pc % 4096

/-- The poison of a vector result of n lanes (R158): of its sources, or of kept lanes of a poisoned destination. -/
def Site.lanePoison (c : Site) (f : VecF) (n : Nat) (src : Bool) : Bool :=
  src || (c.preg f.pred.toNat).poi ||
    (decide (f.pred ≠ 0) && (c.vreg f.vd.toNat).poi && (List.range n).any (fun i => !(c.preg f.pred.toNat).val.getLsbD i))

/-- The flags of the enabled lanes among n, together (R170). -/
def Site.laneFlags (c : Site) (f : VecF) (n : Nat) (g : Nat → Flags) : Flags :=
  (List.range n).foldl (fun a i => a ||| (if (c.preg f.pred.toNat).val.getLsbD i then g i else 0)) 0

/-- A command leaves register VD with g in its enabled lanes of w bits and its old lanes in the others, with the flags of the
enabled lanes and POI added to core.vfl, and changes nothing else but event counters (R116, R158, R169, R170). -/
def VecLanes (c : SiteNo) (f : VecF) (w : Nat) (src : Bool) (g : Nat → Nat × Flags) (s : State)
    (r : Host.Outcome State Fault Refusal) : Prop :=
  ∃ t, r = .next t ∧ OnlySite c.val s t ∧
    let o := s.site c.val
    let d := t.site c.val
    let poi := o.lanePoison f (2048 / w) src
    d = { o with vregs := d.vregs, regs := d.regs } ∧
    (∀ i, i < 2048 / w → lane (d.vreg f.vd.toNat).val w i =
      if (o.preg f.pred.toNat).val.getLsbD i then (g i).1 % 2 ^ w else lane (o.vreg f.vd.toNat).val w i) ∧
    (d.vreg f.vd.toNat).poi = poi ∧
    d.f CORE_VFL_FLAGS = (o.f CORE_VFL_FLAGS ||| (o.laneFlags f (2048 / w) (fun i => (g i).2) ||| flagIf poi flPOI).toNat) % 2 ^ 7 ∧
    (∀ i, i ≠ f.vd.toNat → d.vreg i = o.vreg i) ∧
    (∀ x, x.key ≠ CORE_VFL_FLAGS.key → ¬ isCounter x → d.f x = o.f x)

/-- The fields of a vector slot that only conversions use are 0 (R168). -/
def plainVec (f : VecF) : Prop := f.rm = 0 ∧ f.sat = false ∧ f.useDef = false ∧ f.df = 0 ∧ f.s2 = 0 ∧ f.s3 = 0

/-- A load of a running core: register `sr` takes the value and the poison, every byte of the core store reads as before, and
nothing else changes but event counters (R109, R176). -/
def ScalarLoad (c : SiteNo) (f : LsF) (v : Word) (poi : Bool) (s : State) (r : Host.Outcome State Fault Refusal) : Prop :=
  ∃ t, r = .next t ∧ OnlySite c.val s t ∧
    let o := s.site c.val
    let d := t.site c.val
    d = { o with sregs := d.sregs, store := d.store, regs := d.regs } ∧
    d.sreg f.sr.toNat = (if f.sr = 0 then ⟨0, false⟩ else ⟨v, poi⟩) ∧
    (∀ i, i ≠ f.sr.toNat → d.sreg i = o.sreg i) ∧
    (∀ b, d.store.mark b = o.store.mark b) ∧
    (∀ x, ¬ isCounter x → d.f x = o.f x)

/-- As `ScalarLoad`, into vector register `vr`. -/
def VectorLoad (c : SiteNo) (f : LsF) (v : BitVec 2048) (poi : Bool) (s : State) (r : Host.Outcome State Fault Refusal) : Prop :=
  ∃ t, r = .next t ∧ OnlySite c.val s t ∧
    let o := s.site c.val
    let d := t.site c.val
    d = { o with vregs := d.vregs, store := d.store, regs := d.regs } ∧
    d.vreg f.vr.toNat = ⟨v, poi⟩ ∧
    (∀ i, i ≠ f.vr.toNat → d.vreg i = o.vreg i) ∧
    (∀ b, d.store.mark b = o.store.mark b) ∧
    (∀ x, ¬ isCounter x → d.f x = o.f x)

/-- A store of the low k bytes of v at `a` of the core store: those bytes, every other byte as before, and nothing else
changed but what R124 keeps of the bytes as they stood. -/
def StoreOf (c : SiteNo) (a k v : Nat) (s : State) (r : Host.Outcome State Fault Refusal) : Prop :=
  ∃ t, r = .next t ∧
    let o := s.site c.val
    let d := t.site c.val
    t = s.setSite c.val d ∧ d = { o with store := d.store, recent := d.recent } ∧
    (∀ b, a ≤ b → b < a + k → (d.store.mark b).1 = BitVec.ofNat 8 (v / 256 ^ (b - a))) ∧
    (∀ b, b < a ∨ a + k ≤ b → (d.store.mark b).1 = (o.store.mark b).1)

/-- The detail of the address rules that a load or store of a legal encoding breaks first, by its 64-bit address (R99, R124, R126, R175,
R176, R203, R205, R212, R471, R499). -/
def addressDetail (c : Site) (o : LsOp) (a : Nat) : Option Nat :=
  let k := o.bytes
  if a % k ≠ 0 then some acALIGN
  else if 2 ^ 32 ≤ a then some acUNMAP
  else if a < 0x400000 then (if o.isStore && c.inSpill a k then some acSPILL else none)
  else if 0x800000 ≤ a ∧ a < 0x810000 then (if o.isStore ∨ (0x80C000 ≤ a ∧ a < 0x80C800) then some acPRIV else none)
  else if 0x1000000 ≤ a ∧ a < 0x1080000 then some acPRIV
  else if 0x2000000 ≤ a ∧ a < 0x2004000 then (if k < 8 then some acALIGN else none)
  else if 0x2004000 ≤ a ∧ a < 0x2008000 then (if k < 8 ∨ (k = 8 ∧ o.isStore) then some acALIGN else none)
  else if 0x2008000 ≤ a ∧ a < 0x2010000 then
    (if k = 8 ∧ c.portOk ((a - 0x2008000) / 256) ((a - 0x2008000) % 256) o.isStore then none else some acUNMAP)
  else some acUNMAP

/-- The site and the oldest scheduled row once the captured vectors that it waits for are added and its drain-port and aux reads are made
(R76, R190, R193). -/
def Site.oldestRow (c : Site) : Option (Site × DrainRow) :=
  match c.pendingRows with
  | [] => none
  | r :: _ =>
    let c1 := Site.addUntilRead (c.arr r.arr).vecs.length r.arr r.pack c
    match c1.pendingRows with
    | [] => none
    | q :: _ =>
      let p := if q.cap.isSome then (c1, q) else ((c1.portRead q).1, { q with cap := some (c1.portRead q).2 })
      some (if p.2.aux.isSome then p else p.1.auxRead p.1.active p.2)

/-- The sixteen rows that an LDW reads: row j from its ranges of the core store (R71, R77, R197). -/
def loadedRows (c : Site) (mode : Nat) (f : LdwF) : List (List Nat) :=
  let a := (c.ea f.ra f.off).toNat
  (List.range 16).map (fun j => loadRowCodes mode f.pack.toNat f.wfmt.toNat f.tr a j
    ((loadRanges mode f.wfmt.toNat f.tr a j).map (fun r => leNat (c.store.read r.1 r.2))))

/-- The codes of the i-th quarter of a pack by column: element k = g * j + s of column n stands in row j at n * g + s (R62, R71). -/
def tileCodes (rows : List (List Nat)) (fmt i : Nat) : List (List Nat) :=
  let g := gOf fmt
  (List.range 16).map (fun n => (List.range (16 * g)).map (fun k => (rows.getD (k / g) []).getD ((16 * i + n) * g + k % g) 0))

/-- A peloton message that the module takes in as it stands: of its job and its epoch, without reserved values, to a module that is
loaded and not fenced (R301, R362, R373). -/
def State.takes (s : State) (h : PelHdr) : Prop :=
  s.hdRuns = true ∧ s.fenced = false ∧ s.loaded = true ∧ h.rsvd = false ∧ h.job.toNat = s.jobLo ∧ h.epoch.toNat = s.epoch

/-- The header of a peloton message, whether one of an older epoch is taken in, and whether it carries a reserved value (R361, R362, R379). -/
def pelMsg (i : Instr) : Option (PelHdr × Bool × Bool) :=
  match i with
  | .hb h m => some (h, false, decide (2 < m.state.toNat) || m.plane = 3)
  | .missMsg h _ _ _ => some (h, false, false)
  | .withdrawMsg h _ _ => some (h, false, false)
  | .proposeMsg h m => some (h, false, decide (0x0E < m.cause.toNat))
  | .acceptMsg h _ => some (h, false, false)
  | .declareMsg h m => some (h, false, decide (0x0E < m.cause.toNat) || m.tier = 0)
  | .syncMsg h _ => some (h, false, false)
  | .syncRep h ws => some (h, false, ws = [] || decide (64 < ws.length) || ws.any (fun w => decide (2 ^ 56 ≤ w.toNat ∨ 0x0E < w.toNat / 2 ^ 48)))
  | .pelFault h m => some (h, false, decide (0x0E < m.cause.toNat))
  | .pelRewind h m => some (h, false, decide (0x0E < m.cause.toNat) || m.tier = 0)
  | .pelHalt h c => some (h, false, decide (0x0E < c.toNat))
  | .pelEvict h _ => some (h, false, false)
  | .fencedMsg h m => some (h, true, m.reason = 0 || decide (5 < m.reason.toNat))
  | .pelAck h _ _ => some (h, false, false)
  | _ => none

/-- The same peloton message under another header. -/
def withHdr (i : Instr) (h : PelHdr) : Instr :=
  match i with
  | .hb _ m => .hb h m
  | .missMsg _ a b c => .missMsg h a b c
  | .withdrawMsg _ a b => .withdrawMsg h a b
  | .proposeMsg _ m => .proposeMsg h m
  | .acceptMsg _ m => .acceptMsg h m
  | .declareMsg _ m => .declareMsg h m
  | .syncMsg _ e => .syncMsg h e
  | .syncRep _ ws => .syncRep h ws
  | .pelFault _ m => .pelFault h m
  | .pelRewind _ m => .pelRewind h m
  | .pelHalt _ c => .pelHalt h c
  | .pelEvict _ d => .pelEvict h d
  | .fencedMsg _ m => .fencedMsg h m
  | .pelAck _ a b => .pelAck h a b
  | j => j

/-- A peloton message of a kind and epoch left on both management planes, with the words given (R356). -/
def State.sentPel (t : State) (kind epoch : Nat) (dst : List Nat) (ws : List (BitVec 64)) : Prop :=
  ∃ fr, Out.pel kind epoch dst 6 ws fr ∈ t.out

/-! ## Requests of the host message layer -/

/-- The header of a request of the host message layer, its TYPE, whether the management ports take it, and whether the module answers it in
recovery (R430, R452). -/
def hostReq (i : Instr) : Option (HostHdr × Nat × Bool × Bool) :=
  match i with
  | .frmload h => some (h, 0x03, false, false)
  | .tcInstall h _ _ _ => some (h, 0x09, false, false)
  | .modReset h _ => some (h, 0x0F, false, false)
  | .shutdown h _ _ => some (h, 0x0B, false, false)
  | .selftest h _ => some (h, 0x0C, false, false)
  | .regrd h _ => some (h, 0x01, false, false)
  | .regwr h _ _ _ => some (h, 0x02, false, false)
  | .hostAdmission h _ _ => some (h, 0x04, false, false)
  | .hostRelease h _ => some (h, 0x05, false, false)
  | .hostEvict h _ => some (h, 0x0D, false, false)
  | .hostStatus h => some (h, 0x0E, true, false)
  | .chal h => some (h, 0x06, true, false)
  | .signreq h _ => some (h, 0x07, true, false)
  | .attest h _ => some (h, 0x08, true, false)
  | .fwInstall h _ _ _ => some (h, 0x0A, true, true)
  | _ => none

/-- A request that reaches hub-die firmware and is served: it is a good request of its TYPE, its port is up and takes it, and there is room for it
(R451, R452). -/
def State.hostTakes (s : State) (h : HostHdr) (typ : Nat) (mgt recov : Bool) : Prop :=
  s.hdRuns = true ∧ s.viaUp h.via = true ∧ (s.hd SEC_STATUS_RECOV ≠ 1 ∨ recov = true) ∧ h.rsp = false ∧ hdrBad h typ = false ∧ (h.via = .hx ∨ mgt = true) ∧
    (h.via = .hx → s.host.outstanding < 64)

/-- A management message that has left (R458). -/
def State.sentMgt (t : State) (typ : Nat) (arg0 arg1 : BitVec 64) (dst : List Nat) (payload : Bytes) : Prop :=
  ∃ f, Out.mgt typ arg0 arg1 dst payload f ∈ t.out

/-- A response to a management message that has left (R458). -/
def State.sentRsp (t : State) (typ status code dev : Nat) : Prop := ∃ f, Out.mgtRsp typ status code dev f ∈ t.out

/-- Bytes that have left for an offset of a slot of this module's storage, by RDMA WRITE (R304, R402). -/
def State.storesTo (s t : State) (slot off : Nat) (d : Bytes) : Prop :=
  ∃ n, Out.rdmaWrite slot off d ⟨(s.slotRegion slot).1, n, (s.slotRegion slot).2.1, (s.slotRegion slot).2.2 + off, 4791⟩ ∈ t.out

/-! ## Frames at the facility barrier -/

/-- Whether a frame at the barrier is turned away by the filter (R438): an unassigned code, the wrong direction, length or node, or inward a reserved
value. -/
def State.filtered (s : State) (outward : Bool) (code node : Nat) (d : Bytes) : Prop :=
  code = 0 ∨ 7 < code ∨ canOut code ≠ outward ∨ d.length ≠ canBytes code ∨ node ≠ s.fac.node.toNat ∨ (outward = false ∧ canClean code d = false)

/-- Frames of a code that crossed within the last second (R438). -/
def State.crossedLately (s : State) (code : Nat) : Nat :=
  ((s.fac.sent.filter (fun e => decide (s.time < e.2 + secUnits))).filter (fun e => e.1 = code)).length

end Sys2Proof.Machine
end

