-- ==== Sys2Proof/Certificates/Slice0/Obligations.lean ====
section
/-! DEFINITION. The statements about the model that are to be proved: `Obligations.X`; `Parts.X` names a part of one. -/

set_option autoImplicit false

open Sys2Proof Sys2Proof.Machine

/-- A step with a command at the front of the queue is exec of that command on the state with the queue's rest. -/
def Parts.StepRunsFrontCommand : Prop :=
  ∀ (i : Instr) (rest : List Instr) (s : State), s.pending = i :: rest → step s = exec i { s with pending := rest }

/-- On an empty queue the module idles: without input power nothing changes; with it one unit of time passes, and with nothing
waiting in the fabric, for a collective or for the host link, no test shown as running, no recovery timed and no rewind of its own
to start, nothing else changes (log entries 4, 58, 90, 109, 113). -/
def Parts.StepIdles : Prop :=
  ∀ s : State, s.pending = [] →
    (s.pwr.input = false → step s = .next s) ∧
    (s.pwr.input = true → ∃ t, step s = .next t ∧ t.time = s.time + 1 ∧ t.pending = [] ∧
      (s.fab.held = [] → s.fab.arb = [] → s.col.colls = [] → s.test.running = 0 →
        (s.host.hxUp = false ∨ s.hostFlits.length ≤ s.host.txBase + s.host.txSent) → s.rep.tier2 = [] →
        (s.gateState ≠ gREWIND ∨ s.hasCaptains = true) → t = { s with time := s.time + 1 }))

/-- A step runs the command at the front of the queue; on an empty queue the module idles. The queue and the idle step are the
model's (log entry 4). -/
def Obligations.StepRunsFront : Prop :=
  Parts.StepRunsFrontCommand ∧ Parts.StepIdles

/-- Every command answers a next state in every state: the block never stops. That no command stops the block is the model's
reading: the spec names an effect for each (log entry 52). -/
def Obligations.EveryCommandGoes : Prop :=
  ∀ (i : Instr) (s : State), ∃ t, exec i s = .next t

/-- The queue is first in, first out, and no command reaches into it: a step takes the front and leaves the rest as it stood. The
queue is the model's own state (log entry 4). -/
def Obligations.QueueIsFifo : Prop :=
  ∀ s t : State, step s = .next t → t.pending = s.pending.tail

/-- Every step keeps every memory in canonical form: HBM, the core stores, the instruction stores and the record sets. The canonical
form is the model's (log entry 2). -/
def Obligations.MemoriesStayCanonical : Prop :=
  ∀ s t : State, s.memsWf = true → step s = .next t → t.memsWf = true

/-- Right after reset the memories are in canonical form and hold what an unlisted address reads as, no command waits, every
register field has its reset value and every core is stopped since reset. Reset values the spec does not give are the model's
(log entries 1 to 3). Register files at zero and unwritten memory at clean zero are the model's (log entries 1 and 2). -/
def Obligations.ResetState : Prop :=
  let s := State.reset
  s.memsWf = true ∧ s.pending = [] ∧ s.img = none ∧ s.gate.due = [] ∧
  (∀ (w : Nat) (x : Fld), s.hd x = x.reset ∧ s.d w x = x.reset) ∧
  (∀ n : Nat, let c := s.site n
    (∀ x : Fld, c.f x = x.reset) ∧ c.active? = false ∧ c.dmas = [] ∧ c.drainQ = [] ∧ c.role = none ∧
    (∀ r, c.sreg r = ⟨0, false⟩ ∧ (c.vreg r).val = 0 ∧ (r ≠ 0 → (c.preg r).val = 0))) ∧
  (∀ a : Nat, s.hbm.mark a = (0, false))

/-- The results of the scalar operations with two register sources (R161). -/
def Parts.ScalarRegisterResults : Prop :=
  ∀ (c : SiteNo) (f : ScF) (s : State), s.ready c f.pred → f.imm = 0 →
    let a := (s.site c.val).sreg f.ra.toNat
    let b := (s.site c.val).sreg f.rb.toNat
    let put : Word → Host.Outcome State Fault Refusal := fun v => .next (s.putS c f.rd v (a.poi || b.poi))
    let k := b.val.toNat % 64
    exec (.add c f) s = put (a.val + b.val) ∧
    exec (.sub c f) s = put (a.val - b.val) ∧
    exec (.and c f) s = put (a.val &&& b.val) ∧
    exec (.or c f) s = put (a.val ||| b.val) ∧
    exec (.xor c f) s = put (a.val ^^^ b.val) ∧
    exec (.shl c f) s = put (a.val <<< k) ∧
    exec (.shr c f) s = put (a.val >>> k) ∧
    exec (.sra c f) s = put (a.val.sshiftRight k) ∧
    exec (.min c f) s = put (if a.val.toInt < b.val.toInt then a.val else b.val) ∧
    exec (.max c f) s = put (if a.val.toInt < b.val.toInt then b.val else a.val) ∧
    exec (.minu c f) s = put (if a.val.toNat < b.val.toNat then a.val else b.val) ∧
    exec (.maxu c f) s = put (if a.val.toNat < b.val.toNat then b.val else a.val) ∧
    exec (.mul c f) s = put (a.val * b.val) ∧
    exec (.mulh c f) s = put (BitVec.ofInt 64 (a.val.toInt * b.val.toInt / 2 ^ 64)) ∧
    exec (.mulhu c f) s = put (BitVec.ofNat 64 (a.val.toNat * b.val.toNat / 2 ^ 64))

/-- The results of the scalar operations with an immediate (R161). -/
def Parts.ScalarImmediateResults : Prop :=
  ∀ (c : SiteNo) (f : ScF) (s : State), s.ready c f.pred → f.rb = 0 →
    let a := (s.site c.val).sreg f.ra.toNat
    let x := f.imm.signExtend 64
    let put : Word → Bool → Host.Outcome State Fault Refusal := fun v p => .next (s.putS c f.rd v p)
    let k := f.imm.toNat
    exec (.addi c f) s = put (a.val + x) a.poi ∧
    exec (.andi c f) s = put (a.val &&& x) a.poi ∧
    exec (.ori c f) s = put (a.val ||| x) a.poi ∧
    exec (.xori c f) s = put (a.val ^^^ x) a.poi ∧
    (k < 64 → exec (.shli c f) s = put (a.val <<< k) a.poi ∧ exec (.shri c f) s = put (a.val >>> k) a.poi ∧
      exec (.srai c f) s = put (a.val.sshiftRight k) a.poi) ∧
    (f.ra = 0 → exec (.movi c f) s = put x false) ∧
    (k < 2 ^ 16 → exec (.movh c f) s = put (BitVec.ofNat 64 (a.val.toNat % 2 ^ 48 + k * 2 ^ 48)) a.poi)

/-- The results of the compares and of the predicate operations (R161): all ones when the condition holds, else all zeros. -/
def Parts.ScalarPredicateResults : Prop :=
  ∀ (c : SiteNo) (f : ScF) (s : State), s.ready c f.pred → f.imm = 0 → f.rd.toNat < 16 →
    let a := (s.site c.val).sreg f.ra.toNat
    let b := (s.site c.val).sreg f.rb.toNat
    let pa := (s.site c.val).preg f.ra.toNat
    let pb := (s.site c.val).preg f.rb.toNat
    let put : Bool → Host.Outcome State Fault Refusal :=
      fun v => .next (s.putP c f.rd (if v then BitVec.allOnes 128 else 0) (a.poi || b.poi))
    let putp : BitVec 128 → Host.Outcome State Fault Refusal := fun v => .next (s.putP c f.rd v (pa.poi || pb.poi))
    exec (.ceq c f) s = put (decide (a.val = b.val)) ∧
    exec (.cne c f) s = put (decide (a.val ≠ b.val)) ∧
    exec (.clt c f) s = put (decide (a.val.toInt < b.val.toInt)) ∧
    exec (.cltu c f) s = put (decide (a.val.toNat < b.val.toNat)) ∧
    exec (.cge c f) s = put (decide (b.val.toInt ≤ a.val.toInt)) ∧
    exec (.cgeu c f) s = put (decide (b.val.toNat ≤ a.val.toNat)) ∧
    (f.ra.toNat < 16 → f.rb.toNat < 16 →
      exec (.pand c f) s = putp (pa.val &&& pb.val) ∧
      exec (.por c f) s = putp (pa.val ||| pb.val) ∧
      exec (.pxor c f) s = putp (pa.val ^^^ pb.val) ∧
      exec (.pandn c f) s = putp (pa.val &&& ~~~pb.val))

/-- Results of the scalar operations. An operation commanded by itself is the model's choice of log entry 7. -/
def Obligations.ScalarResults : Prop :=
  Parts.ScalarRegisterResults ∧ Parts.ScalarImmediateResults ∧ Parts.ScalarPredicateResults

/-- NOP in any slot does nothing (R155). -/
def Parts.NopDoesNothing : Prop :=
  ∀ (c : SiteNo) (k : Fin 12) (s : State), exec (.nop c k) s = .next s

/-- A core that is not running performs no operation commanded by itself (log entry 7). -/
def Parts.StoppedCoreIgnores : Prop :=
  ∀ (i : Instr) (c : SiteNo) (o : Op) (s : State), coreOp i = some (c, o) → ¬ s.runs c → exec i s = .next s

/-- With bit 0 of PRED at 0, a scalar, load, store, ARRIVE or DMAC operation that breaks no rule and consumes no poison changes
nothing (R155). -/
def Parts.UnpredicatedChangesNothing : Prop :=
  ∀ (i : Instr) (c : SiteNo) (o : Op) (s : State), coreOp i = some (c, o) → o.plain = true → s.runs c →
    (s.site c.val).enabled o.pred = false → opPoisonUse (s.site c.val) o = false →
    opViols (s.site c.val).solo o (s.site c.val).active ((s.site c.val).f CORE_PC_PC) (decide (0 < (s.site c.val).brShadow)) = [] →
    exec i s = .next s

/-- NOP, a stopped core and an operation whose predicate bit is 0 change nothing. An operation commanded by itself is the model's
choice of log entry 7. -/
def Obligations.IdleOperations : Prop :=
  Parts.NopDoesNothing ∧ Parts.StoppedCoreIgnores ∧ Parts.UnpredicatedChangesNothing

/-- An operation whose encoding is reserved raises ILLEGAL with its slot as DETAIL and has no effect on the register files and
memories of its core (R138, R154). `opLegal` is the check of R154 and of the rules of each slot. An operation commanded by
itself is the model's choice of log entry 7. -/
def Obligations.ReservedEncodingsTrap : Prop :=
  ∀ (i : Instr) (c : SiteNo) (o : Op) (s : State), coreOp i = some (c, o) → s.runs c →
    opLegal (s.site c.val) o (decide (0 < (s.site c.val).brShadow)) = false →
    opPoisonUse (s.site c.val) o = false → (∀ f, o ≠ .dmad f) →
    ∃ t, exec i s = .next t ∧ (t.site c.val).recorded exILLEGAL o.slot (2 ^ o.slot) ((s.site c.val).f CORE_PC_PC) ∧
      SameFiles (s.site c.val) (t.site c.val) ∧ SameMems (s.site c.val) (t.site c.val)

/-- A branch in a delay bundle (R165): B, BL and JR in either delay bundle of an earlier branch raise ILLEGAL with DETAIL 2, as
commands and in a bundle; ARRIVE may stand there. In a bundle that breaks the encoding rules in a lower slot too, that slot is
the DETAIL (R138). -/
def Obligations.BranchInADelayBundle : Prop :=
  ∀ (c : SiteNo) (f : BrF) (s : State),
    (s.runs c → 0 < (s.site c.val).brShadow →
      ∀ i ∈ [Instr.branch c f, .branchLink c f, .jumpReg c f], ∃ t, exec i s = .next t ∧
        (t.site c.val).recorded exILLEGAL 2 (2 ^ 2) ((s.site c.val).f CORE_PC_PC) ∧ (t.site c.val).branch = (s.site c.val).branch ∧
        SameFiles (s.site c.val) (t.site c.val) ∧ SameMems (s.site c.val) (t.site c.val)) ∧
    (∀ r, s.ready c f.pred → f.ra = 0 → f.rd = 0 → f.target = 0 → (s.site c.val).role = some r → 0 < (s.site c.val).brShadow →
      ∃ t, exec (.arrive c f) s = .next t ∧ t.site c.val = s.site c.val) ∧
    (let x := (s.site c.val).active + 1
     let p := (s.onSite c.val (fun d => Site.settle x { d with active := x })).site c.val
     let pc := p.f CORE_PC_PC
     let b := (p.fetch pc).1
     s.clocked c → s.withheld c.val = false → p.active? = true → (p.fetch pc).2 = false → bitsOf b 22 17 = 0 → 0 < p.brShadow →
      ∀ q, (2, some (Op.br q f)) ∈ bundleSlots b → q ≠ .arrive →
      ∃ t, exec (.bundleIssue c) s = .next t ∧ (t.site c.val).f CORE_STATE_STATE = 3 ∧ (t.site c.val).f CORE_STATE_CAUSE = exILLEGAL ∧
        (t.site c.val).f CORE_PC_PC = pc ∧ SameFiles p (t.site c.val) ∧ ((t.site c.val).f CORE_EPC_SLOTS).testBit 2 = true ∧
        ((∀ y ∈ bundleSlots b, y.1 < 2 → ∃ o, y.2 = some o ∧ opLegal p o (decide (0 < p.brShadow)) = true) →
          (t.site c.val).f CORE_STATE_DETAIL = 2))

/-- A legal load or store whose address breaks a rule raises ACCESS with the detail that `addressDetail` gives, and neither loads
nor stores, whatever bit 0 of PRED is (R99, R124, R126, R138, R155, R175, R176, R212, R499). An operation commanded by itself is
the model's choice of log entry 7. -/
def Obligations.AddressRulesTrap : Prop :=
  ∀ (i : Instr) (c : SiteNo) (o : LsOp) (f : LsF) (s : State) (d : Nat), coreOp i = some (c, .ls o f) → s.runs c →
    lsOk o f = true → opPoisonUse (s.site c.val) (.ls o f) = false →
    addressDetail (s.site c.val) o ((s.site c.val).ea f.ra f.off).toNat = some d →
    ∃ t, exec i s = .next t ∧ (t.site c.val).recorded exACCESS d (2 ^ 9) ((s.site c.val).f CORE_PC_PC) ∧
      SameFiles (s.site c.val) (t.site c.val) ∧ SameMems (s.site c.val) (t.site c.val)

/-- A load, a store, a JR or a DMAC that uses poison (its governing predicate, the register its address, target, source, destination
or length comes from) signals it to firmware, whether or not it breaks a rule (R159). An operation commanded by itself is the
model's choice of log entry 7. -/
def Obligations.PoisonUseIsSignalled : Prop :=
  ∀ (i : Instr) (c : SiteNo) (o : Op) (s : State), coreOp i = some (c, o) → s.runs c → (s.site c.val).poisonSig = false →
    opPoisonUse (s.site c.val) o = true → ((∃ p f, o = .ls p f) ∨ (∃ f, o = .br .jr f) ∨ ∃ f, o = .dmac f) →
    ∃ t, exec i s = .next t ∧ Out.fwSignal c.val sigPoison ∈ t.out

/-- MFSR reads the special register that IMM names (R117, R162). -/
def Parts.SpecialReads : Prop :=
  ∀ (c : SiteNo) (f : ScF) (s : State), s.ready c f.pred → f.rb = 0 → f.ra = 0 →
    let x := s.site c.val
    let reads : Nat → Prop := fun v => exec (.mfsr c f) s = .next (s.putS c f.rd (BitVec.ofNat 64 v) false)
    (f.imm = 0 → reads (x.f CORE_STATUS_POIW * 2 ^ 8 + x.f CORE_STATUS_FLAGS)) ∧
    (f.imm = 1 → reads (x.f CORE_STEP_STEP)) ∧
    (f.imm = 2 → reads (c.val % 104 + c.val / 104 * 2 ^ 8 + x.role.getD 0 * 2 ^ 16 + s.devidx * 2 ^ 32)) ∧
    (f.imm = 3 → reads (x.f CORE_CYCLE_CYCLE)) ∧
    (f.imm = 4 → reads (x.f CORE_VFL_FLAGS)) ∧
    (f.imm = 5 → reads (x.f CORE_VCTL_SAT * 2 ^ 3 + x.f CORE_VCTL_RMODE * 2 + x.f CORE_VCTL_FLUSH)) ∧
    (∀ k : Nat, k < 32 → f.imm = BitVec.ofNat 48 (0x20 + k) →
      reads (x.f (CORE_TOK_OVF k) * 2 ^ 17 + x.f (CORE_TOK_ERR k) * 2 ^ 16 + x.f (CORE_TOK_CNT k))) ∧
    (f.imm = 0x101 → reads (x.f CORE_STEP_EPOCH * 2 ^ 32 + x.f CORE_STEP_REPLAY * 2 ^ 10 + x.f CORE_STEP_PHASE))

/-- MTSR writes core.status and core.vfl by clearing the flags whose bits are 1, core.vctl in its three fields, and core.mark as a
progress mark of the core's role (R117, R119, R120, R142, R162). -/
def Parts.SpecialWrites : Prop :=
  ∀ (c : SiteNo) (f : ScF) (s : State), s.ready c f.pred → f.rb = 0 → f.rd = 0 →
    ((s.site c.val).sreg f.ra.toNat).poi = false →
    let x := s.site c.val
    let v := (x.sreg f.ra.toNat).val.toNat
    (f.imm = 0 → exec (.mtsr c f) s = .next (s.setSite c.val (x.set CORE_STATUS_FLAGS (x.f CORE_STATUS_FLAGS &&& (127 ^^^ v % 128))))) ∧
    (f.imm = 4 → exec (.mtsr c f) s = .next (s.setSite c.val (x.set CORE_VFL_FLAGS (x.f CORE_VFL_FLAGS &&& (127 ^^^ v % 128))))) ∧
    (f.imm = 5 → v / 2 % 4 ≠ 3 → ∃ t, exec (.mtsr c f) s = .next t ∧ OnlySite c.val s t ∧
      t.site c.val = { x with regs := (t.site c.val).regs } ∧ (t.site c.val).f CORE_VCTL_SAT = v / 8 % 2 ∧
      (t.site c.val).f CORE_VCTL_RMODE = v / 2 % 4 ∧ (t.site c.val).f CORE_VCTL_FLUSH = v % 2 ∧
      ∀ y, y.key ≠ CORE_VCTL_SAT.key → y.key ≠ CORE_VCTL_RMODE.key → y.key ≠ CORE_VCTL_FLUSH.key →
        (t.site c.val).f y = x.f y) ∧
    (∀ r, f.imm = 6 → x.role = some r → v = 1 → ∃ t, exec (.mtsr c f) s = .next t ∧ (t.marks r).bwdStart = true) ∧
    (∀ r, f.imm = 6 → x.role = some r → v = 2 → ∃ t, exec (.mtsr c f) s = .next t ∧ (t.marks r).bwdDone = true) ∧
    (∀ r, f.imm = 6 → x.role = some r → v = 3 → x.t30seen = true → s.gateState = gCOMMIT →
      ∃ t, exec (.mtsr c f) s = .next t ∧ (t.marks r).commitDone = true)

/-- MFSR and MTSR read and write the special registers. An operation commanded by itself is the model's choice of log entry 7. -/
def Obligations.SpecialRegisters : Prop :=
  Parts.SpecialReads ∧ Parts.SpecialWrites

/-- B, BL and JR that stand in no delay bundle (R164, R165): a taken branch goes to its target after two delay bundles, and BL
writes (PC + 3) mod 4,096; a branch that is not taken only opens the two delay bundles. -/
def Parts.Branches : Prop :=
  ∀ (c : SiteNo) (f : BrF) (s : State), s.runs c → ((s.site c.val).preg f.pred.toNat).poi = false → f.bar = 0 →
    let x := s.site c.val
    let on := x.enabled f.pred.toNat
    let went : Nat → Site := fun t => { x with brShadow := 2, branch := if on then some (2, t) else x.branch }
    x.brShadow = 0 →
    (f.ra = 0 → x.halfBusy (f.target.toNat / 2048) = false →
      (f.rd = 0 → exec (.branch c f) s = .next (s.setSite c.val (went f.target.toNat))) ∧
      exec (.branchLink c f) s = .next (s.setSite c.val (if on
        then (went f.target.toNat).setS f.rd.toNat (BitVec.ofNat 64 ((x.f CORE_PC_PC + 3) % 4096)) false
        else went f.target.toNat))) ∧
    (f.rd = 0 → f.target = 0 → (x.sreg f.ra.toNat).poi = false →
      let t := (x.sreg f.ra.toNat).val.toNat % 4096
      x.halfBusy (t / 2048) = false → exec (.jumpReg c f) s = .next (s.setSite c.val (went t)))

/-- ARRIVE (R134, R164): with bit 0 of PRED at 1, an arrival of the core's role at the barrier group bound to t(16 + BAR) is added,
and a token bound to no group changes nothing; a delay bundle is no hindrance. -/
def Parts.ArriveCounts : Prop :=
  ∀ (c : SiteNo) (f : BrF) (s : State) (r : Nat), s.ready c f.pred → f.ra = 0 → f.rd = 0 → f.target = 0 →
    (s.site c.val).role = some r →
    (∀ g, s.barrierOf r (16 + f.bar.toNat) = some g →
      exec (.arrive c f) s = .next { s with gate := { s.gate with arrivals := s.gate.arrivals ++ [(g, r)] } }) ∧
    (s.barrierOf r (16 + f.bar.toNat) = none → exec (.arrive c f) s = .next s)

/-- B, BL and JR go to their targets after two delay bundles; ARRIVE counts at its group. An operation commanded by itself is the
model's choice of log entry 7. -/
def Obligations.BranchesAndArrivals : Prop :=
  Parts.Branches ∧ Parts.ArriveCounts

/-- The integer and bit operations per enabled lane (R169). An operation commanded by itself is the model's choice of log entry 7. -/
def Obligations.VectorIntegerResults : Prop :=
  ∀ (c : SiteNo) (f : VecF) (s : State), s.runs c → plainVec f → f.lt.toNat < 3 → f.vc = 0 → f.s1 = 0 → f.imm8 = 0 →
    let o := s.site c.val
    let w := if f.lt = 0 then 64 else if f.lt = 1 then 32 else 16
    let x := fun i => lane (o.vreg f.va.toNat).val w i
    let y := fun i => lane (o.vreg f.vb.toNat).val w i
    let src := (o.vreg f.va.toNat).poi || (o.vreg f.vb.toNat).poi
    let does : Instr → (Nat → Nat) → Prop := fun i g => VecLanes c f w src (fun j => (g j, 0)) s (exec i s)
    let sx := fun i => (BitVec.ofNat w (x i)).toInt
    let sy := fun i => (BitVec.ofNat w (y i)).toInt
    does (.viadd c f) (fun i => (x i + y i) % 2 ^ w) ∧
    does (.visub c f) (fun i => (2 ^ w + x i - y i) % 2 ^ w) ∧
    does (.vand c f) (fun i => x i &&& y i) ∧
    does (.vor c f) (fun i => x i ||| y i) ∧
    does (.vxor c f) (fun i => x i ^^^ y i) ∧
    does (.vshl c f) (fun i => x i * 2 ^ (y i % w) % 2 ^ w) ∧
    does (.vshr c f) (fun i => x i / 2 ^ (y i % w)) ∧
    does (.vsra c f) (fun i => (sx i / 2 ^ (y i % w) % 2 ^ w).toNat) ∧
    does (.vimin c f) (fun i => if sx i < sy i then x i else y i) ∧
    does (.vimax c f) (fun i => if sx i < sy i then y i else x i)

/-- The floating operations per enabled lane (R169, R170): the exact result is rounded once, to the lane's format under flush mode;
an operand that is NaN or infinite raises its flag. An operation commanded by itself is the model's choice of log entry 7. -/
def Obligations.VectorFloatResults : Prop :=
  ∀ (c : SiteNo) (f : VecF) (s : State), s.runs c → plainVec f → f.lt.toNat < 4 → f.s1 = 0 → f.imm8 = 0 →
    let o := s.site c.val
    let w := if f.lt = 0 then 64 else if f.lt = 1 then 32 else 16
    let ff := (fmtOf f.lt.toNat).getD F32
    let flush := decide (o.f CORE_VCTL_FLUSH = 1)
    let rd := fun (r : BitVec 5) (i : Nat) => flushIn ff flush (ff.dec (lane (o.vreg r.toNat).val w i))
    let a := rd f.va
    let b := rd f.vb
    let z := rd f.vc
    let pa := (o.vreg f.va.toNat).poi
    let pb := (o.vreg f.vb.toNat).poi
    let pz := (o.vreg f.vc.toNat).poi
    let special : List FV → Flags := fun l => flagIf (l.any FV.isNan) flNANI ||| flagIf (l.any FV.isInf) flINFI
    let rounds : Instr → Bool → (Nat → FV × Bool) → (Nat → List FV) → Prop := fun i src r l =>
      VecLanes c f w src (fun j => let q := vecRound ff flush (r j); (ff.enc q.1, q.2 ||| special (l j))) s (exec i s)
    let picks : Instr → Bool → (Nat → FV) → (Nat → Bool) → Prop := fun i src r nan =>
      VecLanes c f w src (fun j => (ff.enc (r j), flagIf (nan j) flNANI)) s (exec i s)
    (f.vc = 0 →
      rounds (.vadd c f) (pa || pb) (fun j => (a j).add (b j)) (fun j => [a j, b j]) ∧
      rounds (.vsub c f) (pa || pb) (fun j => (a j).add (b j).negate) (fun j => [a j, b j]) ∧
      rounds (.vmul c f) (pa || pb) (fun j => (a j).mul (b j)) (fun j => [a j, b j]) ∧
      picks (.vmin c f) (pa || pb) (fun j => (a j).min (b j)) (fun j => (a j).isNan || (b j).isNan) ∧
      picks (.vmax c f) (pa || pb) (fun j => (a j).max (b j)) (fun j => (a j).isNan || (b j).isNan) ∧
      (f.vb = 0 → picks (.vabs c f) pa (fun j => (a j).abs) (fun j => (a j).isNan) ∧
        picks (.vneg c f) pa (fun j => (a j).negate) (fun j => (a j).isNan))) ∧
    rounds (.vfma c f) (pa || pb || pz) (fun j => FV.fma (a j) (b j) (z j)) (fun j => [a j, b j, z j]) ∧
    rounds (.vfms c f) (pa || pb || pz) (fun j => FV.fma (a j) (b j) (z j).negate) (fun j => [a j, b j, z j])

/-- VROT, VBCAST and VTLU per enabled lane (R169, R174). -/
def Parts.VectorMoves : Prop :=
  ∀ (c : SiteNo) (f : VecF) (s : State), s.runs c → plainVec f → f.vb = 0 → f.vc = 0 →
    let o := s.site c.val
    let w := if f.lt = 0 then 64 else if f.lt = 1 then 32 else 16
    let va := o.vreg f.va.toNat
    (f.lt.toNat < 3 → f.s1 = 0 → f.imm8.toNat < 2048 / w →
      VecLanes c f w va.poi (fun i => (lane va.val w ((i + f.imm8.toNat) % (2048 / w)), 0)) s (exec (.vrot c f) s)) ∧
    (f.lt.toNat < 3 → f.va = 0 → f.imm8 = 0 →
      VecLanes c f w (o.sreg f.s1.toNat).poi (fun _ => ((o.sreg f.s1.toNat).val.toNat % 2 ^ w, 0)) s (exec (.vbcast c f) s)) ∧
    (∀ t, f.lt = 1 → f.s1 = 0 → f.imm8.toNat < 32 → mfind o.tables f.imm8.toNat = some t →
      VecLanes c f 32 va.poi (fun i => let y := t.eval (F32.dec (lane va.val 32 i)); (F32.enc y.1, y.2)) s (exec (.vtlu c f) s))

/-- VSEL takes every lane of VD from VA where the predicate's bit is 1 and from VB elsewhere; VEXT puts lane IMM8 of VA into S1,
with bit 0 of its predicate at 1 (R169). -/
def Parts.VectorSelects : Prop :=
  ∀ (c : SiteNo) (f : VecF) (s : State), s.runs c → plainVec f → f.lt.toNat < 3 → f.vc = 0 →
    let o := s.site c.val
    let w := if f.lt = 0 then 64 else if f.lt = 1 then 32 else 16
    let va := o.vreg f.va.toNat
    let vb := o.vreg f.vb.toNat
    let p := o.preg f.pred.toNat
    (f.s1 = 0 → f.imm8 = 0 → ∃ t, exec (.vsel c f) s = .next t ∧ OnlySite c.val s t ∧
      let d := t.site c.val
      d = { o with vregs := d.vregs, regs := d.regs } ∧
      (∀ i, i < 2048 / w → lane (d.vreg f.vd.toNat).val w i = lane (if p.val.getLsbD i then va.val else vb.val) w i) ∧
      (d.vreg f.vd.toNat).poi = (va.poi || vb.poi || p.poi) ∧ (∀ i, i ≠ f.vd.toNat → d.vreg i = o.vreg i) ∧
      (∀ x, x.key ≠ CORE_VFL_FLAGS.key → ¬ isCounter x → d.f x = o.f x)) ∧
    (f.vb = 0 → f.vd = 0 → f.imm8.toNat < 2048 / w → ∃ t, exec (.vext c f) s = .next t ∧ OnlySite c.val s t ∧
      let d := t.site c.val
      d = { o with sregs := d.sregs, regs := d.regs } ∧ (∀ x, d.f x = o.f x ∨ x.key = CORE_VFL_FLAGS.key) ∧
      (∀ i, d.sreg i = if p.val.getLsbD 0 = true ∧ i = f.s1.toNat ∧ i ≠ 0 then ⟨BitVec.ofNat 64 (lane va.val w f.imm8.toNat), va.poi⟩
        else o.sreg i))

/-- VROT, VBCAST, VTLU, VSEL and VEXT. An operation commanded by itself is the model's choice of log entry 7. -/
def Obligations.VectorMovesAndSelects : Prop :=
  Parts.VectorMoves ∧ Parts.VectorSelects

/-- VFCMP and VICMP write the enabled lanes' conditions to predicate VD and keep its other bits below the lane count; bits from the
lane count on become 0 (R116, R170). An operation commanded by itself is the model's choice of log entry 7. -/
def Obligations.VectorCompares : Prop :=
  ∀ (c : SiteNo) (f : VecF) (s : State), s.runs c → plainVec f → f.vc = 0 → f.s1 = 0 → f.vd.toNat < 16 → f.vd ≠ 0 →
    let o := s.site c.val
    let w := if f.lt = 0 then 64 else if f.lt = 1 then 32 else 16
    let x := fun i => lane (o.vreg f.va.toNat).val w i
    let y := fun i => lane (o.vreg f.vb.toNat).val w i
    let ff := (fmtOf f.lt.toNat).getD F32
    let flush := decide (o.f CORE_VCTL_FLUSH = 1)
    let rd := fun (v : Nat) => flushIn ff flush (ff.dec v)
    let on := fun i => (o.preg f.pred.toNat).val.getLsbD i
    let sets : Instr → (Nat → Bool) → Prop := fun i g => ∃ t, exec i s = .next t ∧ OnlySite c.val s t ∧
      let d := t.site c.val
      d = { o with pregs := d.pregs, regs := d.regs } ∧
      (∀ j, j < 2048 / w → (d.preg f.vd.toNat).val.getLsbD j = if on j then g j else (o.preg f.vd.toNat).val.getLsbD j) ∧
      (∀ j, 2048 / w ≤ j → (d.preg f.vd.toNat).val.getLsbD j = false) ∧
      (∀ j, j ≠ f.vd.toNat → d.preg j = o.preg j) ∧
      (∀ z, z.key ≠ CORE_VFL_FLAGS.key → ¬ isCounter z → d.f z = o.f z)
    (f.lt.toNat < 4 → f.imm8.toNat < 7 → sets (.vfcmp c f) (fun i => fpCond f.imm8.toNat (rd (x i)) (rd (y i)))) ∧
    (f.lt.toNat < 3 → f.imm8.toNat < 6 → sets (.vicmp c f) (fun i => intCond f.imm8.toNat w (x i) (y i)))

/-- VCVT converts the lanes of the source format into lanes of the destination format, as many as the wider of the two allows, each
by the conversion procedure; a lane that is not enabled keeps the element of VD (R116, R171, R172). -/
def Parts.VectorConvert : Prop :=
  ∀ (c : SiteNo) (f : VecF) (s : State) (fs fd : Fmt), s.runs c → f.vb = 0 → f.vc = 0 → f.s1 = 0 → f.imm8 = 0 → vecRoundOk f = true →
    fmtOf f.lt.toNat = some fs → fmtOf f.df.toNat = some fd →
    let o := s.site c.val
    let m := vecMode o f
    ∃ t, exec (.vcvt c f) s = .next t ∧ OnlySite c.val s t ∧
      let d := t.site c.val
      d = { o with vregs := d.vregs, regs := d.regs } ∧
      (∀ i, i < cvtLanes fs fd → elemAt (d.vreg f.vd.toNat).val.toNat fd.w i =
        if (o.preg f.pred.toNat).val.getLsbD i
        then (fd.convert m.1 m.2 (vecDraw o f i) (fs.dec (elemAt (o.vreg f.va.toNat).val.toNat fs.w i))).1 % 2 ^ fd.w
        else elemAt (o.vreg f.vd.toNat).val.toNat fd.w i) ∧
      (∀ i, i ≠ f.vd.toNat → d.vreg i = o.vreg i) ∧
      (∀ x, x.key ≠ CORE_VFL_FLAGS.key → ¬ isCounter x → d.f x = o.f x)

/-- VQBLK quantises 64 F32 lanes by blocks of 16 or 32: S1 takes the block scales and VD the elements, densely packed (R173). -/
def Parts.VectorQuantise : Prop :=
  ∀ (c : SiteNo) (f : VecF) (s : State) (fd : Fmt), s.runs c → f.vb = 0 → f.vc = 0 → f.pred = 0 → f.lt = 1 → f.imm8.toNat < 2 →
    vecRoundOk f = true → 4 ≤ f.df.toNat → f.df.toNat ≤ 8 → fmtOf f.df.toNat = some fd →
    let o := s.site c.val
    let m := vecMode o f
    let sz := if f.imm8 = 0 then 16 else 32
    let blk := fun b => quantBlock fd m.1 m.2 (fun j => vecDraw o f (sz * b + j))
      ((List.range sz).map (fun j => F32.dec (lane (o.vreg f.va.toNat).val 32 (sz * b + j))))
    ∃ t, exec (.vqblk c f) s = .next t ∧ OnlySite c.val s t ∧
      let d := t.site c.val
      d = { o with sregs := d.sregs, vregs := d.vregs, regs := d.regs } ∧
      (∀ b, b < 64 / sz → f.s1 ≠ 0 → elemAt (d.sreg f.s1.toNat).val.toNat 8 b = (blk b).1 % 2 ^ 8) ∧
      (∀ b j, b < 64 / sz → j < sz →
        elemAt (d.vreg f.vd.toNat).val.toNat fd.w (sz * b + j) = ((blk b).2.1.getD j 0) % 2 ^ fd.w) ∧
      (∀ i, i ≠ f.vd.toNat → d.vreg i = o.vreg i) ∧ (∀ i, i ≠ f.s1.toNat → d.sreg i = o.sreg i) ∧
      (∀ x, x.key ≠ CORE_VFL_FLAGS.key → ¬ isCounter x → d.f x = o.f x)

/-- VCVT converts lanes and VQBLK quantises blocks. An operation commanded by itself is the model's choice of log entry 7. -/
def Obligations.VectorConversions : Prop :=
  Parts.VectorConvert ∧ Parts.VectorQuantise

/-- Loads from the core store (R109, R158, R176): the value extended as the mnemonic says, poisoned by any word it reads. -/
def Parts.LoadsFromTheStore : Prop :=
  ∀ (c : SiteNo) (f : LsF) (s : State), s.ready c f.pred → ((s.site c.val).sreg f.ra.toNat).poi = false →
    let o := s.site c.val
    let a := (o.ea f.ra f.off).toNat
    a < storeSize →
    let n : Nat → Nat := fun k => leNat (o.store.read a k)
    let scalar : Instr → Nat → Word → Prop := fun i k v => a % k = 0 → ScalarLoad c f v (o.store.poisoned a k) s (exec i s)
    let vector : Instr → Nat → Prop := fun i k => a % k = 0 → VectorLoad c f (BitVec.ofNat 2048 (n k)) (o.store.poisoned a k) s (exec i s)
    (f.vr = 0 →
      scalar (.ld1u c f) 1 (BitVec.ofNat 64 (n 1)) ∧ scalar (.ld1s c f) 1 ((BitVec.ofNat 8 (n 1)).signExtend 64) ∧
      scalar (.ld2u c f) 2 (BitVec.ofNat 64 (n 2)) ∧ scalar (.ld2s c f) 2 ((BitVec.ofNat 16 (n 2)).signExtend 64) ∧
      scalar (.ld4u c f) 4 (BitVec.ofNat 64 (n 4)) ∧ scalar (.ld4s c f) 4 ((BitVec.ofNat 32 (n 4)).signExtend 64) ∧
      scalar (.ld8 c f) 8 (BitVec.ofNat 64 (n 8))) ∧
    (f.sr = 0 → vector (.vld128 c f) 128 ∧ vector (.vld256 c f) 256)

/-- Loads from the site's registers and from the status of a channel in use (R125, R175, R212): the value as read, never poisoned. -/
def Parts.LoadsFromRegisters : Prop :=
  ∀ (c : SiteNo) (f : LsF) (s : State), s.ready c f.pred → ((s.site c.val).sreg f.ra.toNat).poi = false → f.vr = 0 →
    let o := s.site c.val
    let a := (o.ea f.ra f.off).toNat
    (∀ off, a = 0x800000 + off → off < 0xC000 →
      let v : Nat → Nat := fun k => leNat (o.winBytes c.val s.devidx off k)
      (off % 8 = 0 → exec (.ld8 c f) s = .next (s.putS c f.sr (BitVec.ofNat 64 (v 8)) false)) ∧
      (off % 4 = 0 → exec (.ld4u c f) s = .next (s.putS c f.sr (BitVec.ofNat 64 (v 4)) false))) ∧
    (∀ ch, ch < 6 → a = 0x2008000 + 256 * ch + 8 → o.chanOn ch = true →
      exec (.ld8 c f) s = .next (s.putS c f.sr (BitVec.ofNat 64 (o.chanStatus ch)) false))

/-- Loads from the core store, the register window and a channel's status. An operation commanded by itself is the model's choice of
log entry 7. -/
def Obligations.Loads : Prop :=
  Parts.LoadsFromTheStore ∧ Parts.LoadsFromRegisters

/-- Stores into the core store outside the spill regions (R99, R176): the bytes at the address sa + sext(OFF), and no others. An
operation commanded by itself is the model's choice of log entry 7. -/
def Obligations.StoresToTheStore : Prop :=
  ∀ (c : SiteNo) (f : LsF) (s : State), s.ready c f.pred → ((s.site c.val).sreg f.ra.toNat).poi = false →
    let o := s.site c.val
    let a := (o.ea f.ra f.off).toNat
    a < storeSize →
    let stores : Instr → Nat → Nat → Prop := fun i k v => a % k = 0 → o.inSpill a k = false → StoreOf c a k v s (exec i s)
    (f.vr = 0 →
      let v := (o.sreg f.sr.toNat).val.toNat
      stores (.st1 c f) 1 v ∧ stores (.st2 c f) 2 v ∧ stores (.st4 c f) 4 v ∧ stores (.st8 c f) 8 v) ∧
    (f.sr = 0 →
      let v := (o.vreg f.vr.toNat).val.toNat
      stores (.vst128 c f) 128 v ∧ stores (.vst256 c f) 256 v)

/-- A post to a send channel in use marks the next k slots filled at the tail (R212, R213): the tail moves on by them, each carries
the micro-batch index of MB, and a post of more slots than are free sets OVR. -/
def Parts.ChannelPost : Prop :=
  ∀ (c : SiteNo) (ch : Fin 6) (v : BitVec 64) (s : State), s.runs c →
    let o := s.site c.val
    let k := v.toNat % 512
    o.chanOn ch.val = true → o.sends ch.val = true → k ≤ 256 →
    let x := o.chan ch.val
    let room := o.nsl ch.val - x.filled
    let m := if k < room then k else room
    exec (.chPost c ch v) s = .next (s.setSite c.val (o.setChan ch.val
      { x with tail := (x.tail + m) % o.nsl ch.val, filled := x.filled + m, posted := x.posted ++ List.replicate m x.mb,
               ovr := x.ovr || decide (room < k) }))

/-- A release on a receive channel in use frees the k oldest slots: the head moves on by them, and as many credits go back to the
peer; a release of more slots than are filled sets OVR. MB on a send channel is the low 16 bits stored (R212). -/
def Parts.ChannelReleaseAndMb : Prop :=
  ∀ (c : SiteNo) (ch : Fin 6) (v : BitVec 64) (s : State), s.runs c →
    let o := s.site c.val
    let k := v.toNat % 512
    let x := o.chan ch.val
    let m := if k < x.filled then k else x.filled
    o.chanOn ch.val = true →
    (o.sends ch.val = false → k ≤ 256 →
      let u := s.setSite c.val (o.setChan ch.val
        { x with head := (x.head + m) % o.nsl ch.val, filled := x.filled - m, ovr := x.ovr || decide (x.filled < k) })
      exec (.chRelease c ch v) s = .next (if m = 0 then u
        else u.emit (.credit (o.f (CORE_CH_PDEV ch.val)) (o.f (CORE_CH_PROLE ch.val)) (o.f (CORE_CH_PCH ch.val)) m))) ∧
    (o.sends ch.val = true → exec (.chMb c ch v) s = .next (s.setSite c.val (o.setChan ch.val { x with mb := v.setWidth 16 })))

/-- A port command of a channel that is not in use raises ACCESS with detail UNMAP in the LS slot (R138, R212). -/
def Parts.ChannelNotInUseTraps : Prop :=
  ∀ (c : SiteNo) (ch : Fin 6) (v : BitVec 64) (s : State), s.runs c → (s.site c.val).chanOn ch.val = false →
    ∀ i ∈ [Instr.chPost c ch v, .chRelease c ch v, .chMb c ch v],
      ∃ t, exec i s = .next t ∧ (t.site c.val).recorded exACCESS acUNMAP (2 ^ 9) ((s.site c.val).f CORE_PC_PC) ∧
        (t.site c.val).chans = (s.site c.val).chans

/-- Posts, releases and MB at a stream channel. An operation commanded by itself is the model's choice of log entry 7. -/
def Obligations.ChannelPorts : Prop :=
  Parts.ChannelPost ∧ Parts.ChannelReleaseAndMb ∧ Parts.ChannelNotInUseTraps

/-- A store of a vector register to the merge alias merges each 32-byte record it carries into the resident record at its place,
with the table of the record's set, and changes no other record (R205, R208). The set's table is a free value (log entry 18).
The set's exponent table is a free value (log entry 18). An operation commanded by itself is the model's choice of log entry 7. -/
def Obligations.RecordMerge : Prop :=
  ∀ (c : SiteNo) (wide : Bool) (r : Fin 512) (vr : BitVec 5) (s : State), s.runs c →
    let o := s.site c.val
    let n := if wide then 8 else 4
    r.val % n = 0 → (o.pendingRows.filter (fun d => d.desc.inSeq && d.desc.rset = r.val / 256)) = [] →
    let v := (o.vreg vr.toNat).val.toNat
    ∃ t, exec (.recordMergeStore c wide r vr) s = .next t ∧ t = s.setSite c.val { o with recs := (t.site c.val).recs } ∧
      (∀ j, j < n → leNat ((t.site c.val).recs.read (32 * (r.val + j)) 32) =
        leNat (leBytes 32 (Rec.merge (o.mergeExpt (r.val / 256)) (recordAt o.recs (32 * (r.val + j))) (Rec.ofNat (v / 256 ^ (32 * j) % 256 ^ 32))).toNat)) ∧
      (∀ j, j < r.val ∨ r.val + n ≤ j → (t.site c.val).recs.read (32 * j) 32 = o.recs.read (32 * j) 32)

/-- A bundle whose wait is met, that breaks no rule and holds only scalar operations other than MTSR: all its results are written,
the wait's count leaves the token, the PC moves on (to the target after the second delay bundle), and core.cycle counts (R127,
R132, R152, R157, R164). The fixed-latency pipeline of the site acts first, in `Site.settle`. One command is one ACLK cycle (log
entry 23). -/
def Obligations.BundleIssues : Prop :=
  ∀ (c : SiteNo) (s : State),
    let x := (s.site c.val).active + 1
    let s1 := s.onSite c.val (fun d => Site.settle x { d with active := x })
    let p := s1.site c.val
    let pc := p.f CORE_PC_PC
    let b := (p.fetch pc).1
    let cnt := bitsOf b 22 17
    let tok := bitsOf b 16 12
    let ops := (bundleSlots b).filterMap (·.2)
    s.clocked c → s.withheld c.val = false → p.active? = true → (p.fetch pc).2 = false →
    (cnt = 0 ∨ (cnt ≤ p.f (CORE_TOK_CNT tok) ∧ p.f (CORE_TOK_ERR tok) ≠ 1 ∧ p.f (CORE_TOK_OVF tok) ≠ 1)) →
    bundleViols p (bundleSlots b) x pc = [] →
    (∀ o ∈ ops, (∃ k q, o = .nop k q) ∨ ∃ q f, o = .sc q f ∧ q ≠ .mtsr) → (∀ o ∈ ops, opPoisonUse p o = false) →
    ∃ t, exec (.bundleIssue c) s = .next t ∧
      let d := t.site c.val
      let e := (ops.foldl (fun z o => match o with
        | .sc q f => scEffect p q f c.val z
        | _ => z) s1).site c.val
      SameFiles e d ∧ d.f CORE_PC_PC = (nextPc p.branch pc).1 ∧ d.branch = (nextPc p.branch pc).2 ∧ d.f CORE_STATE_STATE = 1 ∧
        d.f CORE_CYCLE_CYCLE = (p.f CORE_CYCLE_CYCLE + 1) % 2 ^ 64 ∧
        (∀ k, k < 32 → d.f (CORE_TOK_CNT k) = if cnt ≠ 0 ∧ k = tok then (p.f (CORE_TOK_CNT k) - cnt) % 2 ^ 16 else p.f (CORE_TOK_CNT k)) ∧
        (∀ m, m ≠ c.val → t.site m = s.site m)

/-- A bundle that stalls (R132, R144) changes no register file and no PC, and one that breaks a rule records its lowest cause and
stops the core with the PC on it (R138, R139). One command is one ACLK cycle (log entry 23). -/
def Obligations.BundleStallsOrTraps : Prop :=
  ∀ (c : SiteNo) (s : State),
    let x := (s.site c.val).active + 1
    let s1 := s.onSite c.val (fun d => Site.settle x { d with active := x })
    let p := s1.site c.val
    let pc := p.f CORE_PC_PC
    let b := (p.fetch pc).1
    let cnt := bitsOf b 22 17
    let tok := bitsOf b 16 12
    s.clocked c → s.withheld c.val = false → p.active? = true → (p.fetch pc).2 = false →
    (cnt = 0 ∨ (p.f (CORE_TOK_ERR tok) ≠ 1 ∧ p.f (CORE_TOK_OVF tok) ≠ 1)) →
    (p.f (CORE_TOK_CNT tok) < cnt → ∃ t, exec (.bundleIssue c) s = .next t ∧
      (t.site c.val).f CORE_STATE_STATE = (if p.atGear tok cnt then 5 else 2) ∧ (t.site c.val).f CORE_PC_PC = pc ∧
      SameFiles p (t.site c.val) ∧ (t.site c.val).f CORE_CYCLE_CYCLE = (p.f CORE_CYCLE_CYCLE + 1) % 2 ^ 64) ∧
    (cnt ≤ p.f (CORE_TOK_CNT tok) → bundleViols p (bundleSlots b) x pc ≠ [] → ∃ t v, exec (.bundleIssue c) s = .next t ∧
      v ∈ bundleViols p (bundleSlots b) x pc ∧ (∀ u ∈ bundleViols p (bundleSlots b) x pc, v.cause ≤ u.cause) ∧
      (t.site c.val).f CORE_STATE_STATE = 3 ∧ (t.site c.val).f CORE_STATE_CAUSE = v.cause % 256 ∧ (t.site c.val).f CORE_PC_PC = pc ∧
      SameFiles p (t.site c.val))

/-- CORE_PC (R148): 0 after reset; a write while the core runs, stalls or stands at a gear point is ignored; any other write sets
the bundle index from bits 11:0, and the register reads back with bits 31:12 at 0; the bundle it names is the next to issue. A write reaches
the register while the die's clock and the hub die run (R20, R21). -/
def Obligations.CorePcRegister : Prop :=
  ∀ (c : SiteNo) (v : BitVec 32) (s : State),
    let o := s.site c.val
    (State.reset.site c.val).f CORE_PC_PC = 0 ∧
    (s.hdRuns = true → s.clocked c → o.f CORE_STATE_STATE ∈ [1, 2, 5] → exec (.corePcWrite c v) s = .next (s.setSite c.val o)) ∧
    (s.hdRuns = true → s.clocked c → o.f CORE_STATE_STATE ∉ [1, 2, 5] → ∃ t, exec (.corePcWrite c v) s = .next t ∧ OnlySite c.val s t ∧
      t.site c.val = { o with regs := (t.site c.val).regs, branch := none, brShadow := 0 } ∧ (t.site c.val).f CORE_PC_PC = v.toNat % 4096 ∧
      leNat ((t.site c.val).winBytes c.val t.devidx 0x9008 4) = v.toNat % 4096 ∧
      ∀ x, x.key ≠ CORE_PC_PC.key → (t.site c.val).f x = o.f x) ∧
    (let x := o.active + 1
     let p := (s.onSite c.val (fun d => Site.settle x { d with active := x })).site c.val
     s.clocked c → s.withheld c.val = false → p.active? = true → p.fetch (p.f CORE_PC_PC) = (0, false) → p.halfBusy (p.f CORE_PC_PC / 2048) = false →
      p.branch = none → ∃ t, exec (.bundleIssue c) s = .next t ∧ (t.site c.val).f CORE_PC_PC = (p.f CORE_PC_PC + 1) % 4096 ∧
        SameFiles p (t.site c.val))

/-- FEED and FEEDV that break no rule: every open pass of the site's packs captures the vector for its next accumulator row and
counts it, and the pass that has its last vector closes (R64, R73, R178). An operation commanded by itself is the model's choice
of log entry 7. -/
def Obligations.FeedsAreCaptured : Prop :=
  ∀ (c : SiteNo) (v : Bool) (f : FeedF) (s : State), s.ready c f.pred →
    let o := s.site c.val
    let op := Op.feed v f
    opPoisonUse o op = false → soloViols o.solo op o.active (o.f CORE_PC_PC) = [] →
    ∃ t, exec (if v then .feedv c f else .feed c f) s = .next t ∧
      let d := t.site c.val
      let fmt := f.fmt.toNat
      let src := if v then elemAt (o.vreg f.vs.toNat).val.toNat 256 f.chunk.toNat
        else leNat (o.store.read (o.ea f.ra f.off).toNat (feedBytes fmt))
      SameFiles o d ∧ (∀ b, d.store.mark b = o.store.mark b) ∧
      (∀ a p q, (a, p) ∈ o.packs → o.pass a p = some q →
        (if q.done + 1 < q.m then d.pass a p = some { q with done := q.done + 1 } else d.pass a p = none) ∧
        ∃ z ∈ (d.arr a).vecs, z.pack = p ∧ z.row = (q.base + q.done) % 256 ∧ z.fmt = f.fmt ∧ z.clr = q.clr ∧
          z.codes = (List.range (vecElems fmt)).map (fun i => elemAt src ((fmtOf fmt).getD I8).w i)) ∧
      (∀ a, (d.arr a).vecs.length = (o.arr a).vecs.length + ((o.packs.filter (fun ap => ap.1 = a ∧ (o.pass ap.1 ap.2).isSome)).length)) ∧
      (∀ a p, o.pass a p = none → d.pass a p = none)

/-- LDW that breaks no rule, with no load before it under way on the array: the tile of its sixteen rows stands in the quarters of
its pack, with its format, rows, columns and codes; every other tile is as before (R70, R71, R77, R179). An operation commanded
by itself is the model's choice of log entry 7. -/
def Obligations.LoadsReachTheirTile : Prop :=
  ∀ (c : SiteNo) (a : Fin 4) (f : LdwF) (s : State), s.ready c f.pred →
    let o := s.site c.val
    let op := Op.ldw a.val f
    opPoisonUse o op = false → soloViols o.solo op o.active (o.f CORE_PC_PC) = [] → (o.arr a.val).loads = [] →
    ∃ t, exec (.ldw c a f) s = .next t ∧
      let d := t.site c.val
      let mode := o.packMode a.val
      let qs := quartersOf mode f.pack.toNat
      let buf := if f.buf then 1 else 0
      SameFiles o d ∧ (∀ b, d.store.mark b = o.store.mark b) ∧ (d.arr a.val).loads = [] ∧
      (∀ i q, (q, i) ∈ qs.zipIdx → ∃ y, mfind (d.arr a.val).tiles (buf * 4 + q) = some y ∧ y.fmt = f.wfmt ∧
        y.kv = f.kvm1.toNat + 1 ∧ y.ncols = Nat.min (f.nvm1.toNat + 1 - 16 * i) 16 ∧ y.blk = blkOf f.scl.toNat ∧
        y.codes = tileCodes (loadedRows o mode f) f.wfmt.toNat i) ∧
      (∀ k, (∀ q ∈ qs, k ≠ buf * 4 + q) → mfind (d.arr a.val).tiles k = mfind (o.arr a.val).tiles k)

/-- PASS that breaks no rule opens a pass on the packs of PMASK and on no other, from row BASE for M vectors (R73, R74). -/
def Parts.PassOpens : Prop :=
  ∀ (c : SiteNo) (a : Fin 4) (f : PassF) (s : State), s.ready c f.pred →
    let o := s.site c.val
    let op := Op.pass a.val f
    soloViols o.solo op o.active (o.f CORE_PC_PC) = [] →
    ∃ t, exec (.pass c a f) s = .next t ∧
      let d := t.site c.val
      SameFiles o d ∧ SameMems o d ∧
      (∀ p, p < 4 → f.pmask.getLsbD p = true → ∃ q, d.pass a.val p = some q ∧ q.buf = (if f.buf then 1 else 0) ∧ q.base = f.base.toNat ∧
        q.m = f.mm1.toNat + 1 ∧ q.done = 0 ∧ q.clr = f.clr ∧ q.drn = f.drn ∧ q.ddi = f.ddi.toNat) ∧
      (∀ b p, b ≠ a.val ∨ f.pmask.getLsbD p = false → d.pass b p = o.pass b p) ∧
      (∀ b k, mfind (d.arr b).tiles k = mfind (o.arr b).tiles k)

/-- DRAIN that breaks no rule schedules CNT rows of its pack from row FIRST on, one read a cycle and wrapping modulo 256, behind
those scheduled before and ordered among themselves by row (R76, R204). -/
def Parts.DrainSchedules : Prop :=
  ∀ (c : SiteNo) (a : Fin 4) (f : DrainF) (s : State), s.ready c f.pred →
    let o := s.site c.val
    let op := Op.drain a.val f
    soloViols o.solo op o.active (o.f CORE_PC_PC) = [] →
    ∃ t l, exec (.drain c a f) s = .next t ∧
      let d := t.site c.val
      SameFiles o d ∧ SameMems o d ∧ d.drainQ = o.drainQ ++ l ∧
      l.length = f.cntm1.toNat + 1 ∧
      (∀ i, i < f.cntm1.toNat + 1 → ∃ r, r ∈ l ∧ r.row = (f.first.toNat + i) % 256 ∧ r.rd = o.active + 1 + i) ∧
      (∀ i, i + 1 < l.length → (l[i]?.map DrainRow.row).getD 0 < (l[i + 1]?.map DrainRow.row).getD 0) ∧
      (∀ r ∈ l, r.arr = a.val ∧ r.pack = f.pack.toNat) ∧
      (∀ r ∈ l, r.op = true ∧ r.desc = o.desc f.ddi.toNat ∧ r.terms = none)

/-- PASS opens passes and DRAIN schedules rows. An operation commanded by itself is the model's choice of log entry 7. -/
def Obligations.PassesAndDrains : Prop :=
  Parts.PassOpens ∧ Parts.DrainSchedules

/-- DMAC and DMAD that break no rule start one transfer: it stands behind the outstanding ones with its token, kind, ends, rows,
bytes and strides, marked as one that ends with an error where its module addresses allow none, and nothing has moved yet (R131,
R133, R183 to R186). A DMAD whose descriptor is poisoned starts none and signals it (R159, R239); one whose predicate bit is 0
starts none (R155). An operation commanded by itself is the model's choice of log entry 7. -/
def Obligations.DmaStarts : Prop :=
  ∀ (c : SiteNo) (s : State),
    let o := s.site c.val
    (∀ f : DmacF, s.ready c f.pred → opPoisonUse o (.dmac f) = false →
      ((dmacXfer o f).details o (o.f CORE_PC_PC / 2048)) = [] →
      exec (.dmac c f) s = .next (s.setSite c.val ({ o with dmas := o.dmas ++ [
        { tok := f.tok.toNat, kind := .copy, srcl := f.srcl, dstl := f.dstl, src := (o.sreg f.rsrc.toNat).val.toNat % 2 ^ 44,
          dst := (o.sreg f.rdst.toNat).val.toNat % 2 ^ 44, rows := 1, rbytes := (o.sreg f.rlen.toNat).val.toNat % 2 ^ 32,
          sstride := 0, dstride := 0, bad := s.badXfer c.val (dmacXfer o f), held := none, tag := none }] } : Site))) ∧
    (∀ f : DmadF, s.runs c → (o.preg f.pred.toNat).poi = false → opPoisonUse o (.dmad f) = false →
      let a := (o.ea f.ra f.off).toNat
      let v := leNat (o.store.read a 64)
      soloViols o.solo (.dmad f) o.active (o.f CORE_PC_PC) = [] →
      ∃ t, exec (.dmad c f) s = .next t ∧ SameFiles o (t.site c.val) ∧ (∀ b, (t.site c.val).store.mark b = o.store.mark b) ∧
        (o.enabled f.pred.toNat = true → o.store.poisoned a 64 = false → (t.site c.val).dmas = o.dmas ++ [
          { tok := f.tok.toNat, kind := if v % 16 = 1 then .transpose ((esizeBits (v / 16 % 8)).getD 8) else .copy,
            srcl := v / 256 % 2 = 1, dstl := v / 512 % 2 = 1, src := v / 2 ^ 64 % 2 ^ 44, dst := v / 2 ^ 128 % 2 ^ 44,
            rows := v / 2 ^ 192 % 2 ^ 32, rbytes := v / 2 ^ 224 % 2 ^ 32, sstride := v / 2 ^ 256 % 2 ^ 32,
            dstride := v / 2 ^ 288 % 2 ^ 32, bad := s.badXfer c.val (dmadXfer v), held := none, tag := none }]) ∧
        (o.enabled f.pred.toNat = false ∨ o.store.poisoned a 64 = true → (t.site c.val).dmas = o.dmas) ∧
        (o.enabled f.pred.toNat = true → o.store.poisoned a 64 = true → o.poisonSig = false → Out.fwSignal c.val sigPoison ∈ t.out))

/-- ACC_ADD takes the oldest captured vector of an array into its accumulator row: with CLR the column sums stand alone, without it
each is added to the row's word with compensation (R92 to R95). An array with none in flight is left as it is. -/
def Obligations.AccumulatorAdds : Prop :=
  ∀ (c : SiteNo) (a : Fin 4) (s : State),
    let o := s.site c.val
    (¬ s.clocked c → exec (.accAdd c a) s = .next s) ∧
    (s.clocked c → (o.arr a.val).vecs = [] → exec (.accAdd c a) s = .next (s.setSite c.val o)) ∧
    (∀ v rest, s.clocked c → (o.arr a.val).vecs = v :: rest → ∃ t, exec (.accAdd c a) s = .next t ∧ ((t.site c.val).arr a.val).vecs = rest ∧
      SameFiles o (t.site c.val) ∧
      (∀ q y, v.tiles = [(q, y)] → q < 4 → y.ncols ≤ 16 → o.pendingRows = [] → o.f (ACC_CFG_SEN a.val) ≠ 1 →
        (v.clr = false → ((o.arr a.val).rowSt v.row q).isInt = v.isInt) →
        ∀ i, i < y.ncols → ((t.site c.val).arr a.val).word v.row (16 * q + i) =
          (colAdd v y i (if v.clr then none else some ((o.arr a.val).word v.row (16 * q + i)).dec.1)).1))

/-- DRAIN_ROW takes the oldest scheduled row through the drain stages (R105 to R107, R136, R190 to R193, R213, R216): its final
values, as `DrainRow.drained` computes them, go to its destination, the core store at the addresses of R192 or the send channel
at its write cursor, and no other byte of the store changes; its record is updated; the flag word of the tile so far goes into
core.status and the array's flags; NaNs and infinities are counted. Of a tile that is poisoned, the words of the elements that
still stand are poisoned too. With no row scheduled, or the die's clock stopped, nothing changes. -/
def Parts.DrainRowWrites : Prop :=
  ∀ (c : SiteNo) (s : State),
    let o := s.site c.val
    (¬ s.clocked c → exec (.drainRow c) s = .next s) ∧
    (o.pendingRows = [] → ∃ t, exec (.drainRow c) s = .next t ∧ OnlySite c.val s t ∧ t.site c.val = o ∧ t.out = s.out) ∧
    (∀ x r, s.clocked c → o.oldestRow = some (x, r) → ∃ t, exec (.drainRow c) s = .next t ∧ OnlySite c.val s t ∧
      let d := t.site c.val
      let pw := packWidth (o.packMode r.arr)
      let w := r.drained (o.f CORE_STEP_STEP) pw (recordAt o.recs r.recAddr) (r.desc.usesRec && o.recs.poisoned r.recAddr 32)
      let tile := mget DrainTile.reset o.outTiles r.tile
      let fl := tile.flags ||| w.flags
      let poi := (fl &&& flPOI) ≠ 0
      let base := r.desc.daddr + r.desc.dstride * r.row + r.desc.esize * (pw * r.pack)
      let ch := o.chan r.desc.ch
      let row := (List.range pw).flatMap (fun n => leBytes r.desc.esize (((w.codes.find? (fun y => y.1 = n)).map (·.2)).getD 0))
      let slot := o.slotAddr r.desc.ch ch.tail ch.cursor
      SameFiles o d ∧ d.istore = o.istore ∧ d.dmas = o.dmas ∧ d.pendingRows.length + 1 = o.pendingRows.length ∧
      d.f CORE_STATUS_FLAGS = (o.f CORE_STATUS_FLAGS ||| fl.toNat) % 2 ^ 7 ∧
      (r.arr < 4 → d.f (ACC_FLAGS_FLAGS r.arr) = (o.f (ACC_FLAGS_FLAGS r.arr) ||| fl.toNat) % 2 ^ 7) ∧
      (poi → d.f CORE_STATUS_POIW = 1) ∧
      (∀ n, w.rcd = some n → r.desc.rset < 2 → r.row < 256 → d.recs.read r.recAddr 32 = leBytes 32 n.toNat) ∧
      (∀ m, w.rcd = none ∨ m < r.recAddr ∨ r.recAddr + 32 ≤ m → (d.recs.mark m).1 = (o.recs.mark m).1) ∧
      (r.desc.dst = 1 → base + r.desc.esize * w.codes.length ≤ storeSize →
        (∀ i y, w.codes[i]? = some y → leNat (d.store.read (base + r.desc.esize * i) r.desc.esize) = y.2 % 256 ^ r.desc.esize) ∧
        (poi → 0 < w.codes.length → 0 < r.desc.esize → d.store.poisoned base (r.desc.esize * w.codes.length) = true) ∧
        (∀ m, m < base ∨ base + r.desc.esize * w.codes.length ≤ m → (d.store.mark m).1 = (o.store.mark m).1)) ∧
      (r.desc.dst = 1 → storeSize < base + r.desc.esize * w.codes.length → ∀ m, (d.store.mark m).1 = (o.store.mark m).1) ∧
      (r.desc.dst = 2 → o.nsl r.desc.ch ≤ ch.filled → (d.chan r.desc.ch).ovr = true ∧ ∀ m, (d.store.mark m).1 = (o.store.mark m).1) ∧
      (r.desc.dst = 2 → ch.filled < o.nsl r.desc.ch →
        (slot + row.length ≤ storeSize → d.store.read slot row.length = row ∧
          ∀ m, m < slot ∨ slot + row.length ≤ m → (d.store.mark m).1 = (o.store.mark m).1) ∧
        (storeSize < slot + row.length → ∀ m, (d.store.mark m).1 = (o.store.mark m).1) ∧
        (ch.cursor + row.length < o.slotBytes r.desc.ch → d.chan r.desc.ch = ({ ch with cursor := ch.cursor + row.length } : Chan)) ∧
        (o.slotBytes r.desc.ch ≤ ch.cursor + row.length → (d.chan r.desc.ch).cursor = 0)) ∧
      (r.desc.dst ≠ 1 → r.desc.dst ≠ 2 → ∀ m, (d.store.mark m).1 = (o.store.mark m).1) ∧
      (poi → ∀ e ∈ tile.held, o.store.read e.1 e.2.length = e.2 → d.store.poisoned (e.1 / 8 * 8) 8 = true) ∧
      (r.desc.cnt = true → d.f DRN_CNT_NCNT = Nat.min (o.f DRN_CNT_NCNT + (w.codes.filter (fun y => codeNan r.desc.fmt y.2)).length) (2 ^ 20 - 1) ∧
        d.f DRN_CNT_ICNT = Nat.min (o.f DRN_CNT_ICNT + (w.codes.filter (fun y => codeInf r.desc.fmt y.2)).length) (2 ^ 20 - 1) ∧
        d.f DRN_CNT_PCNT = Nat.min (o.f DRN_CNT_PCNT + (if poi then tile.elems + w.codes.length else 0)) (2 ^ 20 - 1)) ∧
      (r.desc.cnt = false → d.f DRN_CNT_NCNT = o.f DRN_CNT_NCNT ∧ d.f DRN_CNT_ICNT = o.f DRN_CNT_ICNT ∧ d.f DRN_CNT_PCNT = o.f DRN_CNT_PCNT) ∧
      (r.desc.nrm = true → o.drainQ.length = 1 → d.f DRN_NORM_NORM =
        ((normTerms r.desc.fmt w.codes).foldl (fun a y => (word64 (add64 (F64.dec a) (F64.dec y.toNat))).toNat) (o.f DRN_NORM_NORM)) % 2 ^ 64))

/-- ARR_REPAIR_APPLY: a map that waits takes effect once the array is idle and clears every ready bit; until then, with none
waiting, and while the die's clock stops, nothing changes (R87). -/
def Parts.RepairApplies : Prop :=
  ∀ (c : SiteNo) (a : Fin 4) (s : State),
    let o := s.site c.val
    (∀ m, s.clocked c → (o.arr a.val).newRepair = some m → o.arrBusy a.val = false → (o.arr a.val).loads = [] →
      ∃ t, exec (.arrRepairApply c a) s = .next t ∧ OnlySite c.val s t ∧ SameFiles o (t.site c.val) ∧ SameMems o (t.site c.val) ∧
        (t.site c.val).f (ARR_REPAIR_FROW a.val) = m.1 % 32 ∧ (t.site c.val).f (ARR_REPAIR_FCOL a.val) = m.2 % 128 ∧
        ((t.site c.val).arr a.val).tiles = [] ∧ ((t.site c.val).arr a.val).newRepair = none ∧
        (∀ b, b ≠ a.val → (t.site c.val).arr b = o.arr b)) ∧
    ((o.arr a.val).newRepair = none ∨ o.arrBusy a.val = true ∨ (o.arr a.val).loads ≠ [] ∨ ¬ s.clocked c →
      ∃ t, exec (.arrRepairApply c a) s = .next t ∧ OnlySite c.val s t ∧ t.site c.val = o ∧ t.out = s.out)

/-- A scheduled row goes through the drain; a repair map takes effect on an idle array. A drained row as one command is the model's
(log entry 7). -/
def Obligations.RowsAndRepairs : Prop :=
  Parts.DrainRowWrites ∧ Parts.RepairApplies

/-- An outstanding transfer other than a collective completes (R131, R133, R186, R222, R223): it is no longer outstanding and its
token counts one, or shows the overflow at 65,535. One found bad at its issue, or refused by the page rules in COMMIT, moves
nothing and sets the token's error bit; one that a page to open, a snapshot, a retirement, an earlier request of its bursts or a
stopped clock holds waits; a lost one sets the error bit; any other moves its rows as `State.dmaMove` says, for a single row its bytes. No byte outside its destination changes. A source that a collective waited for may then send READY (R317), which
`State.sendReadies` does. -/
def Parts.DmaCompletes : Prop :=
  ∀ (c : SiteNo) (k : Nat) (lost : Bool) (s : State),
    let o := s.site c.val
    (¬ s.clocked c → exec (.dmaComplete c k lost) s = .next s) ∧
    (s.clocked c → o.dmas[k]? = none → exec (.dmaComplete c k lost) s = .next s.sendReadies) ∧
    (∀ d : Dma, s.clocked c → o.dmas[k]? = some d → (∀ a b, d.kind ≠ .collective a b) → d.tok < 32 →
      let door := !d.dstl && d.dst = doorBase + 0x40 * o.roleNo && d.rows = 1 && d.rbytes = 64
      let rule := if d.bad || door then some d.bad else s.pageRule o.roleNo d
      let held := rule = some false && !door &&
        ((d.hbmSources c.val).any (fun r => s.readWaits r.1 r.2) || d.hbmTargets.any (fun r => s.writeWaits r.1 r.2))
      let far : Nat → Prop := fun a => ∀ r ∈ d.localTargets, a < r.1 ∨ r.1 + r.2 ≤ a
      let n := o.f (CORE_TOK_CNT d.tok)
      let ends : Bool → State → Prop := fun err t =>
        SameFiles o (t.site c.val) ∧
        (n < 65535 → (t.site c.val).f (CORE_TOK_CNT d.tok) = n + 1 ∧
          (t.site c.val).f (CORE_TOK_ERR d.tok) = if err then 1 else o.f (CORE_TOK_ERR d.tok)) ∧
        (n = 65535 → (t.site c.val).f (CORE_TOK_CNT d.tok) = n ∧ (t.site c.val).f (CORE_TOK_OVF d.tok) = 1)
      (rule = none ∨ held = true → exec (.dmaComplete c k lost) s = .next s.sendReadies) ∧
      (rule = some true → ∃ t, exec (.dmaComplete c k lost) s = .next t ∧ ends true t ∧ (t.site c.val).dmas = ldrop o.dmas k ∧
        SameMems o (t.site c.val) ∧ (∀ a, t.hbm.mark a = s.hbm.mark a) ∧ ∀ m, m ≠ c.val → t.site m = s.site m) ∧
      (rule = some false → held = false → door = false → ∃ t, exec (.dmaComplete c k lost) s = .next t ∧ ends lost t ∧
        (t.site c.val).dmas = ldrop o.dmas k ∧ (∀ m, m ≠ c.val → t.site m = s.site m) ∧
        (lost = false →
          (∀ m, (t.site c.val).store.mark m = ((s.dmaMove c.val d).site c.val).store.mark m) ∧
          (∀ m, (t.site c.val).istore.mark m = ((s.dmaMove c.val d).site c.val).istore.mark m) ∧
          (∀ m, (t.site c.val).recs.mark m = ((s.dmaMove c.val d).site c.val).recs.mark m)) ∧
        (lost = false → d.kind = .copy → d.rows = 1 → d.srcl = true → d.dstl = true → d.src + d.rbytes ≤ storeSize → d.dst + d.rbytes ≤ storeSize →
          (∀ i, i < d.rbytes → ((t.site c.val).store.mark (d.dst + i)).1 = (o.store.mark (d.src + i)).1) ∧
          (∀ m, m < d.dst ∨ d.dst + d.rbytes ≤ m → ((t.site c.val).store.mark m).1 = (o.store.mark m).1)) ∧
        (∀ m, far m → ((t.site c.val).store.mark m).1 = (o.store.mark m).1) ∧
        (∀ m, far (0x1000000 + m) → ((t.site c.val).istore.mark m).1 = (o.istore.mark m).1) ∧
        (∀ m, far (0x2000000 + m) → far (0x2004000 + m) → ((t.site c.val).recs.mark m).1 = (o.recs.mark m).1) ∧
        (lost = false → d.dstl = false → ∀ m, t.hbm.mark m = (s.dmaMove c.val d).hbm.mark m) ∧
        (d.dstl = true → ∀ m, t.hbm.mark m = s.hbm.mark m) ∧
        (∀ m, (∀ r ∈ d.hbmTargets, m < r.1 ∨ r.1 + r.2 ≤ m) → (t.hbm.mark m).1 = (s.hbm.mark m).1)) ∧
      (d.bad = false → door = true → ∃ t, exec (.dmaComplete c k lost) s = .next t ∧ SameFiles o (t.site c.val) ∧
        (∀ e ∈ ldrop o.dmas k, e ∈ (t.site c.val).dmas) ∧
        (lost = true → ends true t ∧ (t.site c.val).dmas = ldrop o.dmas k ∧ ∀ a, t.hbm.mark a = s.hbm.mark a)))

/-- BARRIER_RELEASE (R20, R21, R134): a group with every member's arrival takes one arrival of each away and counts each member's
token once at the site of its role, where that die's clock runs, up to 65,535, an event beyond it showing as the token's overflow; a group
that is not complete, or has no member, waits, and so does every group while the hub die is stopped. -/
def Parts.BarrierReleases : Prop :=
  ∀ (g : Nat) (s : State),
    let ms := s.barrierMembers g
    (ms = [] ∨ s.hdRuns = false ∨ (∃ m ∈ ms, (g, m.2) ∉ s.gate.arrivals) → exec (.barrierRelease g) s = .next s) ∧
    (ms ≠ [] → s.hdRuns = true → (∀ m ∈ ms, (g, m.2) ∈ s.gate.arrivals) → (∀ m ∈ ms, m.1 < 32) → ∃ t, exec (.barrierRelease g) s = .next t ∧
      (∀ r, t.gate.arrivals.count (g, r) = s.gate.arrivals.count (g, r) - (ms.filter (fun m => m.2 = r)).length) ∧
      (∀ h r, h ≠ g → t.gate.arrivals.count (h, r) = s.gate.arrivals.count (h, r)) ∧
      ∀ n k, n < 832 → k < 32 →
        let old := (s.site n).f (CORE_TOK_CNT k)
        let events := if s.dieRuns (n / 104) then (ms.filter (fun m => m.1 = k && s.siteOf m.2 = some n)).length else 0
        SameFiles (s.site n) (t.site n) ∧ SameMems (s.site n) (t.site n) ∧
        (t.site n).f (CORE_TOK_CNT k) = Nat.min (old + events) 65535 ∧
        (t.site n).f (CORE_TOK_OVF k) = if 65535 < old + events then 1 else (s.site n).f (CORE_TOK_OVF k))

/-- A copy completes and counts its token; a complete barrier group releases. -/
def Obligations.TransfersAndBarriers : Prop :=
  Parts.DmaCompletes ∧ Parts.BarrierReleases

/-- Channel slots (R213, R214): the oldest posted slot of a send channel leaves for a credit, its data go to the peer, and the
channel's token counts; a slot in its turn is stored at the tail of a receive channel and counts it, a duplicate is discarded,
and one ahead of its turn is reported as an unrecoverable link; returned credits add up to 511. On a die whose clock is stopped nothing
happens (R20). -/
def Obligations.ChannelSlots : Prop :=
  ∀ (c : SiteNo) (ch : Fin 6) (s : State),
    let o := s.site c.val
    let x := o.chan ch.val
    let tok := 24 + ch.val
    let counts : State → Prop := fun t => (t.site c.val).f (CORE_TOK_CNT tok) = Nat.min (o.f (CORE_TOK_CNT tok) + 1) 65535 ∧
      (t.site c.val).f (CORE_TOK_OVF tok) = if o.f (CORE_TOK_CNT tok) = 65535 then 1 else o.f (CORE_TOK_OVF tok)
    (¬ s.clocked c → exec (.channelSlotSent c ch) s = .next s ∧ (∀ m, exec (.channelSlotArrive c ch m) s = .next s) ∧
      ∀ n, exec (.channelCreditReturn c ch n) s = .next s) ∧
    (s.clocked c → o.chanOn ch.val = true →
    (∀ mb rest, o.sends ch.val = true → x.posted = mb :: rest → 0 < x.credits → ∃ t, exec (.channelSlotSent c ch) s = .next t ∧
      SameFiles o (t.site c.val) ∧ (∀ m, (t.site c.val).store.mark m = o.store.mark m) ∧
      (t.site c.val).chan ch.val = (
        { x with head := (x.head + 1) % o.nsl ch.val, filled := x.filled - 1, credits := x.credits - 1, txSeq := x.txSeq + 1, posted := rest } : Chan) ∧
      counts t ∧
      (o.f (CORE_CH_PDEV ch.val) = s.devidx → Out.slot s.devidx (o.f (CORE_CH_PROLE ch.val)) (o.f (CORE_CH_PCH ch.val))
        ⟨s.stepNo, BitVec.ofNat 32 s.epoch, mb, BitVec.ofNat 32 x.txSeq, o.slotWords ch.val x.head⟩ ∈ t.out)) ∧
    (o.sends ch.val = true → x.posted = [] ∨ x.credits = 0 → exec (.channelSlotSent c ch) s = .next s) ∧
    (∀ m : SlotMsg, o.sends ch.val = false → m.words.length * 8 = o.slotBytes ch.val →
      (m.seq.toNat = x.rxSeq → x.filled < o.nsl ch.val → ∃ t, exec (.channelSlotArrive c ch m) s = .next t ∧
        SameFiles o (t.site c.val) ∧ (t.site c.val).chan ch.val = (
          { x with tail := (x.tail + 1) % o.nsl ch.val, filled := x.filled + 1, rxSeq := x.rxSeq + 1 } : Chan) ∧
        (t.site c.val).store = o.store.store (o.slotAddr ch.val x.tail 0) (wordMarksOf m.words) ∧ counts t) ∧
      (m.seq.toNat < x.rxSeq → exec (.channelSlotArrive c ch m) s = .next s) ∧
      (x.rxSeq < m.seq.toNat → exec (.channelSlotArrive c ch m) s = .next (s.reportFault 0x05 noBlame 0 false))) ∧
    (∀ n : BitVec 9, o.sends ch.val = true → exec (.channelCreditReturn c ch n) s =
      .next (s.setSite c.val (o.setChan ch.val ({ x with credits := Nat.min (x.credits + n.toNat) 511 } : Chan)))))

/-- A core stalled on a token for more than its limit of 1,024-cycle units stops with WAITTO and the token as DETAIL; with the limit
off or not passed, not stalled, or on a die whose clock is stopped, nothing changes (R20, R135, R138). -/
def Parts.WaitLimits : Prop :=
  ∀ (c : SiteNo) (s : State),
    let o := s.site c.val
    (s.clocked c → o.f CORE_STATE_STATE = 2 → o.f CORE_WAITLIM_LIM ≠ 0 → 1024 * o.f CORE_WAITLIM_LIM < o.stall → o.f CORE_PC_PC < 4096 →
      ∃ t, exec (.waitTimeout c) s = .next t ∧ SameFiles o (t.site c.val) ∧
      (t.site c.val).recorded exWAITTO (o.waitTok.getD 0) 0 (o.f CORE_PC_PC)) ∧
    (¬ s.clocked c ∨ o.f CORE_STATE_STATE ≠ 2 ∨ o.f CORE_WAITLIM_LIM = 0 ∨ o.stall ≤ 1024 * o.f CORE_WAITLIM_LIM → exec (.waitTimeout c) s = .next s)

/-- HALT, GO and a write to CORE_PC (R20, R21, R146, R148, R166): on a die whose clock runs beside a running
hub die, HALT stops an active core, GO starts a stopped one and keeps its exception record, and CORE_PC takes a value only while the
core is stopped, discarding a branch target; elsewhere nothing changes. -/
def Parts.CoreStartsAndStops : Prop :=
  ∀ (c : SiteNo) (v : BitVec 32) (s : State),
    let o := s.site c.val
    (s.hdRuns = false ∨ ¬ s.clocked c → exec (.coreGo c) s = .next s ∧ exec (.coreHalt c) s = .next s ∧ exec (.corePcWrite c v) s = .next s) ∧
    (s.hdRuns = true → s.clocked c → o.active? = true → exec (.coreGo c) s = .next (s.setSite c.val o) ∧
      exec (.corePcWrite c v) s = .next (s.setSite c.val o) ∧
      ∃ t, exec (.coreHalt c) s = .next t ∧ (t.site c.val).f CORE_STATE_STATE = 4 ∧ (t.site c.val).f CORE_PC_PC = o.f CORE_PC_PC ∧
        (t.site c.val).f CORE_STATE_CAUSE = o.f CORE_STATE_CAUSE ∧ SameFiles o (t.site c.val) ∧ SameMems o (t.site c.val)) ∧
    (s.hdRuns = true → s.clocked c → o.active? = false → exec (.coreHalt c) s = .next (s.setSite c.val o) ∧
      (∃ t, exec (.coreGo c) s = .next t ∧ (t.site c.val).f CORE_STATE_STATE = 1 ∧
        (t.site c.val).f CORE_STATE_CAUSE = o.f CORE_STATE_CAUSE ∧
        (t.site c.val).f CORE_STATE_DETAIL = o.f CORE_STATE_DETAIL ∧ (t.site c.val).f CORE_PC_PC = o.f CORE_PC_PC ∧
        SameFiles o (t.site c.val) ∧ SameMems o (t.site c.val)) ∧
      (∃ t, exec (.corePcWrite c v) s = .next t ∧ (t.site c.val).f CORE_PC_PC = v.toNat % 4096 ∧ (t.site c.val).branch = none ∧
        (t.site c.val).f CORE_STATE_STATE = o.f CORE_STATE_STATE ∧ SameFiles o (t.site c.val) ∧ SameMems o (t.site c.val)))

/-- The wait limit, HALT, GO and CORE_PC. The expiry of the limit is an event (log entry 57). -/
def Obligations.CoreControl : Prop :=
  Parts.WaitLimits ∧ Parts.CoreStartsAndStops

/-- A counter that wraps starts over at 0 and, with no chained successor, sets its overflow bit (R472); freezing a bank sets its FRZ
(R474); reading a counter answers its value to a reader that may read it and nothing to another (R471, R473). A stopped die counts
nothing, and its registers are not reached (R20 to R22). -/
def Parts.CountersCount : Prop :=
  ∀ (c : SiteNo) (i : Fin 64) (s : State), i.val < 16 →
    let o := s.site c.val
    (s.clocked c → o.f (PMC_CTR_VALUE i.val) = 2 ^ 48 - 1 → o.f PMC_CTL_FRZ = 0 → o.f (PMC_SEL_CHAIN (i.val + 1)) ≠ 1 ∨ i.val = 15 →
      ∃ t, exec (.counterWrap (.core c) i) s = .next t ∧ OnlySite c.val s t ∧ (t.site c.val).f (PMC_CTR_VALUE i.val) = 0 ∧
        ((t.site c.val).f PMC_CTL_OVF).testBit i.val = true) ∧
    (∀ on, s.hdRuns = true → s.clocked c → exec (.pmcFreeze (.core c) on) s = .next (s.setSite c.val (o.set PMC_CTL_FRZ (if on then 1 else 0)))) ∧
    (∀ (d : Fin 12) on, s.hdRuns = true → s.dieRuns d.val = true → exec (.pmcFreeze (.die d) on) s = .next (s.setD d.val PMC_DCTL_FRZ (if on then 1 else 0))) ∧
    (∀ b on, s.hdRuns = false → exec (.pmcFreeze b on) s = .next s) ∧
    (¬ s.clocked c → exec (.counterWrap (.core c) i) s = .next s ∧ (∀ on, exec (.pmcFreeze (.core c) on) s = .next s) ∧
      ∀ w, exec (.pmcRead (.core c) i w) s = .next s) ∧
    (s.hdRuns = true → s.clocked c → exec (.pmcRead (.core c) i .firmware) s = .next (s.emit (.value (BitVec.ofNat 64 (o.f (PMC_CTR_VALUE i.val)))))) ∧
    (o.f (PMC_SEL_USER i.val) ≠ 1 → exec (.pmcRead (.core c) i .runtime) s = .next s)

/-- Tag records (R478, R480): on a die whose clock runs, a record of a bundle with no DMA outstanding is made final by setting its
DONE bit; a pop, beside a running hub die, frees the oldest unread record (R20 to R22). -/
def Parts.TagRecords : Prop :=
  ∀ (c : SiteNo) (j : Fin 16) (s : State),
    let o := s.site c.val
    (∀ x n, s.clocked c → o.tag.opened.find? (fun t => t.1 = j.val) = some (x, n, 0) → ∃ t, exec (.tagRecordDone c j) s = .next t ∧
      ((t.site c.val).f (PMC_TREC_RECORD j.val 4)).testBit 32 = true ∧
      (t.site c.val).tag.opened = o.tag.opened.filter (fun u => u.1 ≠ j.val)) ∧
    (s.hdRuns = true → s.clocked c → 0 < o.tagCount → o.tagCount ≤ 16 → ∃ t, exec (.tagPop c) s = .next t ∧ (t.site c.val).tagCount = o.tagCount - 1 ∧
      (t.site c.val).f PMC_THEAD_HEAD = (o.f PMC_THEAD_HEAD + 1) % 16) ∧
    (s.hdRuns = true → s.clocked c → o.tagCount = 0 → exec (.tagPop c) s = .next (s.setSite c.val o)) ∧
    (s.hdRuns = false ∨ ¬ s.clocked c → exec (.tagPop c) s = .next s)

/-- Counters wrap, freeze and are read; tag records are made final and popped. COUNTER_WRAP is read as log entry 33 says. -/
def Obligations.CountersAndTags : Prop :=
  Parts.CountersCount ∧ Parts.TagRecords

/-- A core at a gear point with nothing pending, no overrun and no reason to move counts t31 on its site (R144). -/
def Parts.GearPoints : Prop :=
  ∀ (c : SiteNo) (s : State) (r : Nat),
    let o := s.site c.val
    s.hdRuns = true → o.role = some r → (s.marks r).commitDone = false → (∀ e ∈ o.chans, e.2.ovr = false) →
    o.f CORE_STATE_STATE = 5 → s.gate.replay = false → o.shadow = [] → o.tableShadow = [] → s.mustMove c.val = false →
    ∃ t, exec (.coreGearChange c) s = .next t ∧ (t.site c.val).f (CORE_TOK_CNT 31) = Nat.min (o.f (CORE_TOK_CNT 31) + 1) 65535 ∧
      (t.site c.val).gearOrd = o.gearOrd + 1 ∧ SameFiles o (t.site c.val) ∧ SameMems o (t.site c.val)

/-- A step entry of a role that is due, with the gate in RUN (R141): the core's registers take their entry values, it starts at
CORE_ENTRY, and the role is due no more. A role that may not enter is left as it is. -/
def Parts.StepEntries : Prop :=
  ∀ (c : SiteNo) (s : State) (r : Nat),
    let o := s.site c.val
    o.role = some r → s.siteOf r = some c.val →
    (s.entryReady c.val r = false → exec (.stepEntry c) s = .next s) ∧
    (s.entryReady c.val r = true → s.gateState = gRUN → s.gate.resuming = false → ∃ t, exec (.stepEntry c) s = .next t ∧
      let d := t.site c.val
      d.f CORE_STATE_STATE = 1 ∧ d.f CORE_STATE_CAUSE = 0 ∧ d.f CORE_PC_PC = o.f CORE_ENTRY_ENTRY % 4096 ∧
      (∀ k, k < 32 → d.f (CORE_TOK_CNT k) = 0 ∧ d.f (CORE_TOK_ERR k) = 0 ∧ d.f (CORE_TOK_OVF k) = 0) ∧
      d.f CORE_STEP_STEP = s.gate.step.toNat ∧ d.f CORE_STATUS_FLAGS = 0 ∧ d.f CORE_STATUS_POIW = 0 ∧ d.f CORE_VFL_FLAGS = 0 ∧
      d.f CORE_VCTL_SAT = 1 ∧ d.f CORE_VCTL_RMODE = 0 ∧ d.f CORE_VCTL_FLUSH = 0 ∧ SameFiles o d ∧
      t.gate.due = s.gate.due.filter (· ≠ r))

/-- A core at a gear point goes on; a step entry sets its registers. A role waits for its core to be quiet (log entry 55). -/
def Obligations.GearAndStepEntry : Prop :=
  Parts.GearPoints ∧ Parts.StepEntries

/-- The verdict of CHECK at a gate in WAIT whose digests are here, on the totals of its own reduction once it has them (R217 to
R220, R287, R315, R335): poison and a differing configuration take the gate to REWIND with every core of a live role stopped; a
NaN verdict under SKIP takes it to SKIP with the loss scale halved and every role due; anywhere else than in WAIT nothing
changes. -/
def Parts.VerdictsThatFail : Prop :=
  ∀ (u : SliceTotals) (s : State),
    let v := s.rep.check.total.getD u
    (s.gateState ≠ gWAIT ∨ s.hdRuns = false ∨ s.rep.check.begun = true → exec (.checkVerdict u) s = .next s) ∧
    (s.hdRuns = true → s.rep.check.begun = false → s.gateState = gWAIT → (v.pcnt ≠ 0 ∨ v.cfgMismatch = true) → ∃ t, exec (.checkVerdict u) s = .next t ∧ t.gateState = gREWIND ∧
      (∀ n ∈ s.liveSites, (t.site n).active? = false) ∧ t.hd PEL_CGNORM_G = F64.enc (s.gOf v.norm) % 2 ^ 64) ∧
    (s.hdRuns = true → s.rep.check.begun = false → s.gateState = gWAIT → v.pcnt = 0 → v.cfgMismatch = false → (v.ncnt ≠ 0 ∨ v.icnt ≠ 0) → s.hd PEL_CGCFG_POL = 0 →
      int8 (s.hd PEL_CGLS_LSMIN) ≤ s.lsExp - 1 → ∃ t, exec (.checkVerdict u) s = .next t ∧ t.gateState = gSKIP ∧
      t.lscale = pow2Code (s.lsExp - 1) % 2 ^ 32 ∧ t.gate.due = s.liveRoles)

/-- A verdict without a fault on a step that is no digest step opens COMMIT with the step block that R218 gives, for cores none of
which is stalled (R218, R219). -/
def Parts.CheckPasses : Prop :=
  ∀ (u : SliceTotals) (s : State),
    let v := s.rep.check.total.getD u
    s.hdRuns = true → s.rep.check.begun = false → s.gateState = gWAIT → v.pcnt = 0 → v.cfgMismatch = false → v.ncnt = 0 → v.icnt = 0 →
    (s.gOf v.norm).isFin = true → s.digestStep s.stepNo.toNat = false → (∀ n ∈ s.liveSites, (s.site n).f CORE_STATE_STATE ≠ 2) →
    ∃ t, exec (.checkVerdict u) s = .next t ∧ t.gateState = gCOMMIT ∧ t.gate.phase = 5 ∧
      t.gate.block = s.blockOf (F32.enc (toF32 (s.gammaOf (s.gOf v.norm)))) (F64.enc (s.gOf v.norm)) 0 0 0

/-- The verdict of CHECK takes the gate to REWIND, SKIP or COMMIT. The rewind itself is another command (log entry 60). -/
def Obligations.CheckVerdicts : Prop :=
  Parts.VerdictsThatFail ∧ Parts.CheckPasses

/-- Commit pages (R222): a DMA that would open its role's next page is held until the page's pre-image is copied, and the copy opens
the page. The copy waits while the page is under retirement or for the priority copy of a checkpoint round (R391). -/
def Parts.CommitPages : Prop :=
  (∀ (c : SiteNo) (k r : Nat) (d : Dma) (s : State),
    s.clocked c → (s.site c.val).dmas[k]? = some d → (s.site c.val).role = some r → d.bad = false →
    (s.pageRule r d = none → (s.pageSt r).copying = none → ∃ t, exec (.commitPageWrite c k) s = .next t ∧
      (t.pageSt r).copying = some (s.pageSt r).next ∧ (t.site c.val).dmas[k]? = some ({ d with held := some (s.pageSt r).next } : Dma)) ∧
    (s.pageRule r d ≠ none → exec (.commitPageWrite c k) s = .next s)) ∧
  (∀ (r : Fin 800) (i : Nat) (s : State), (s.pageSt r.val).copying = some i → s.gateState = gCOMMIT → s.gate.stopped = false →
    ((s.retiring ((s.pagesOf r.val).getD i 0 * 65536) 65536 = true ∨ s.snapHeld ((s.pagesOf r.val).getD i 0) = true) →
      exec (.preimageCopyDone r) s = .next s) ∧
    (s.retiring ((s.pagesOf r.val).getD i 0 * 65536) 65536 = false → s.snapHeld ((s.pagesOf r.val).getD i 0) = false →
    ∃ t, exec (.preimageCopyDone r) s = .next t ∧ (t.pageSt r.val).copying = none ∧ (t.pageSt r.val).next = i + 1 ∧
      (∀ a, s.preimageAt r.val i = some a → t.hbm = (s.hbmNote ((s.pagesOf r.val).getD i 0 * 65536) 65536).hbm.copyRange
        ((s.pagesOf r.val).getD i 0 * 65536) a 65536))) ∧
  (∀ (r : Fin 800) (s : State), (s.pageSt r.val).copying = none → exec (.preimageCopyDone r) s = .next s)

/-- DONE, the boundary and the resumption of COMMIT (R219, R221, R223): each waits for its conditions, and changes nothing before. -/
def Parts.GateMoves : Prop :=
  ∀ s : State,
    (s.hdRuns = true → s.gateState = gCOMMIT → s.gate.resuming = false → s.gate.stopped = false → s.commitComplete = true →
      s.rep.referee = false → ∃ t, exec .gateDone s = .next t ∧ t.gateState = gDONE ∧ t.rep.mirrors = [] ∧ t.gate = s.gate) ∧
    (s.hdRuns = true → s.gateState = gCOMMIT → s.gate.resuming = false → s.gate.stopped = false → s.commitComplete = true →
      s.rep.referee = true → ∃ t, exec .gateDone s = .next t ∧ t.gateState = gIDLE ∧ t.rep.referee = false ∧
        Out.refereeResult (s.copyShard 0) (s.copyDigest (s.copyPages 0)) ∈ t.out) ∧
    ((s.gateState ≠ gCOMMIT ∨ s.commitComplete = false ∨ s.hdRuns = false) → exec .gateDone s = .next s) ∧
    (s.hdRuns = true → s.gateState = gDONE → s.gearMayBegin = true → s.overrunSite = none → s.pel.selfReports = 0 → s.pel.dueProps = [] →
      ∃ t, exec .stepBoundary s = .next t ∧ t.gateState = gRUN ∧ t.gate.step = s.gate.step + 1 ∧ t.gate.phase = 1 ∧ t.gate.replay = false) ∧
    (∀ n, s.hdRuns = true → s.gateState = gDONE → s.gearMayBegin = true → s.overrunSite = some n → s.host.halted = false →
      s.pel.selfReports = 0 → s.pel.dueProps = [] →
      ∃ t, exec .stepBoundary s = .next t ∧ t.gateState = gHALT ∧ t.host.halted = true ∧ t.gate.step = s.gate.step) ∧
    ((s.gateState ≠ gDONE ∨ s.gearMayBegin = false ∨ s.hdRuns = false) → exec .stepBoundary s = .next s) ∧
    (s.hdRuns = true → s.gateState = gCOMMIT → s.gate.stopped = true → s.gate.resuming = false → s.restored = true → s.fenced = false →
      s.host.halted = false → (∀ n ∈ s.liveSites, (s.site n).dmas = [] ∧ (s.site n).active? = false) →
      ∃ t, exec .commitResume s = .next t ∧ t.gate.resuming = true ∧ t.gate.replay = true ∧ t.gate.due = s.liveRoles ∧ t.gate.phase = 5) ∧
    (s.gateState ≠ gCOMMIT ∨ s.hdRuns = false → exec .commitResume s = .next s)

/-- The step record (R330): an entry joins the record of the step in flight and goes to every live partner, unless the module is fenced (R373);
a partner's entry is kept with its step and number and acknowledged; an acknowledgement takes its entry off those awaited. A fenced
module takes neither, and a stopped hub die nothing (R21). -/
def Parts.StepRecords : Prop :=
  ∀ (e : StepEntry) (p : Fin 2) (n : Nat) (s : State),
    (s.hdRuns = true → s.gateState ≠ gIDLE → ∃ t, exec (.stepRecordEntry ⟨.own, e⟩) s = .next t ∧ e ∈ t.entriesOf s.stepNo ∧ t.rep.nextEntry = s.rep.nextEntry + 1 ∧
      t.rep.unacked = s.rep.unacked ++ s.livePartners.map (fun q => (s.rep.nextEntry, q.1)) ∧
      t = { s with rep := t.rep, out := t.out } ∧ (s.fenced = true → t.out = s.out) ∧ ∀ q ∈ s.livePartners, s.fenced = false → Out.record q.1 s.stepNo s.rep.nextEntry e ∈ t.out) ∧
    (∀ (q : Fin 2) (step : BitVec 64) (no : Nat), s.hdRuns = true → s.gateState ≠ gIDLE → s.fenced = false → (∃ l ∈ s.livePartners, l.1 = q.val) →
      ∃ t, exec (.stepRecordEntry ⟨.partner q step no, e⟩) s = .next t ∧ t = { s with rep := t.rep, out := t.out } ∧
        Out.recordAck q.val no ∈ t.out ∧ ∃ x, (q.val, step, no, x) ∈ t.rep.partnerRecs) ∧
    (∀ src, s.gateState = gIDLE ∨ s.hdRuns = false → exec (.stepRecordEntry ⟨src, e⟩) s = .next s) ∧
    (s.hdRuns = true → s.fenced = false → exec (.stepRecordAck p n) s =
      .next { s with rep := { s.rep with unacked := s.rep.unacked.filter (fun u => u ≠ (n, p.val)) } }) ∧
    (s.hdRuns = false ∨ s.fenced = true → exec (.stepRecordAck p n) s = .next s)

/-- Commit pages, DONE, the step boundary, the resumption and step records. -/
def Obligations.CommitAndBoundary : Prop :=
  Parts.CommitPages ∧ Parts.GateMoves ∧ Parts.StepRecords

/-- Digests (R335): at a digest step, before CHECK or while CHECK waits for it, the copy digests of the own shard and of each mirror
held here are there. -/
def Parts.Digests : Prop :=
  ∀ s : State,
    let due := s.hdRuns = true ∧ ((s.gateState = gRUN ∧ s.gate.phase < 4) ∨ s.rep.check.begun = true) ∧ s.digestStep s.stepNo.toNat = true ∧ s.rep.digestReady = false
    (due → ∃ t, exec .digestComputeDone s = .next t ∧ t.rep.digestReady = true ∧ t.rep.ownDigest = s.copyDigest (s.copyPages 0) ∧
      t.rep.mirrorDigests = (s.copies.filter (fun c => c ≠ 0)).map (fun c => (s.copyShard c, s.copyDigest (s.copyPages c))) ∧
      ∀ a, (t.hbm.mark a) = s.hbm.mark a) ∧
    (¬ due → exec .digestComputeDone s = .next s)

/-- Repairs (R337): the winner's pages overwrite a copy that lost, repaired once it has the winner's digest; the holder of a winning
copy sends its pages. The pages wait while one of them is under retirement or held by a checkpoint round (R242, R389). With the hub
die stopped nothing happens (R21). -/
def Parts.Repairs : Prop :=
  ∀ (own : Bool) (pages : List PageData) (s : State),
    let written := pages.foldl (fun m p => m.store (p.page * 65536) (pageMarks p)) s.hbm
    let ours : List Nat → Bool := fun l => pages.all (fun p => p.page ∈ l)
    let waits := pages.any (fun p => s.writeWaits (p.page * 65536) 65536)
    (s.hdRuns = false → exec (.copyRepair own pages) s = .next s) ∧
    (s.hdRuns = true →
    (∀ c, s.repairTarget own pages = some c → waits = true → exec (.copyRepair own pages) s = .next s) ∧
    (∀ c, s.repairTarget own pages = some c → waits = false → ∃ t, exec (.copyRepair own pages) s = .next t ∧ t = { s with hbm := written, rep := t.rep } ∧
      (c.2 = none ∨ t.copyDigest (s.copyPages c.1) ≠ c.2 → t.rep = s.rep) ∧
      (c.2 ≠ none → t.copyDigest (s.copyPages c.1) = c.2 → t.rep = { s.rep with losing := s.rep.losing.filter (fun l => l.1 ≠ c.1) })) ∧
    (∀ w, s.repairTarget own pages = none → s.fenced = false →
      s.rep.winning.find? (fun w => (w.1 = 0) = own && ours (s.copyPages w.1)) = some w →
      ∃ t, exec (.copyRepair own pages) s = .next t ∧ t = { s.notePages (pages.map (·.page)) with out := t.out } ∧
        ∀ d ∈ w.2, Out.pages d (s.copyShard w.1) (s.pagesOut w.1 (pages.map (·.page))) ∈ t.out) ∧
    (s.repairTarget own pages = none → (s.fenced = true ∨ ∀ w ∈ s.rep.winning, ((w.1 = 0) = own && ours (s.copyPages w.1)) = false) →
      exec (.copyRepair own pages) s = .next s))

/-- The referee (R339): on a domestique it opens COMMIT of the step again from the fetched pages, for the owner's roles; a holder sends it the
pre-image log of its copy, what the reduced shard's ranges hold, and the step block; at a holder, logs that agree and a copy equal to its
result settle the shard's verdict, and without these the shard has no copy. -/
def Parts.Referee : Prop :=
  ∀ s : State,
    (∀ step block pages, s.hdRuns = true → s.loaded = true → s.fenced = false → s.host.admitted = false → s.rep.tier2 = [] →
      s.gateState = gIDLE → s.holdsPass = true → ∃ t, exec (.refereeRun (.run step block pages)) s = .next t ∧ t.gateState = gCOMMIT ∧
        t.rep.referee = true ∧ t.gate.step = step ∧ t.gate.block = block ∧ t.gate.replay = true ∧ t.gate.resuming = true ∧
        t.gate.phase = 5 ∧ t.gate.due = s.copyRoles 0 ∧
        t.hbm = pages.foldl (fun m p => m.store (p.page * 65536) (pageMarks p)) s.hbm) ∧
    (∀ step block pages, s.hdRuns = false ∨ s.loaded = false ∨ s.fenced = true ∨ s.host.admitted = true ∨ s.rep.tier2 ≠ [] ∨
      s.gateState ≠ gIDLE ∨ s.holdsPass = false → exec (.refereeRun (.run step block pages)) s = .next s) ∧
    (∀ referee shard, (s.hdRuns = false ∨ s.fenced = true ∨ shard.toNat ∉ s.rep.verdictWait → exec (.refereeRun (.fetch referee shard)) s = .next s) ∧
      (s.hdRuns = true → s.fenced = false → shard.toNat ∈ s.rep.verdictWait → ∀ c, s.copies.find? (fun c => s.copyShard c = shard.toNat) = some c →
        ∃ t log kept, exec (.refereeRun (.fetch referee shard)) s = .next t ∧ Out.refereeLog referee shard.toNat log kept s.gate.block ∈ t.out ∧
          log.map (·.words) = (s.logPages c).map (fun p => chunkWords 8192 (s.hbm.marks (p * 65536) 65536)) ∧ t.hbm = s.hbm)) ∧
    (∀ logs result copies c rest, s.hdRuns = true → copies = c :: rest →
      let h := c.shard.toNat
      let agree := logs.all (fun d => d = logs.headD 0) && copies.any (fun c => c.shard.toNat = h && !c.poi && c.dig = result)
      (h ∈ s.rep.verdictWait → agree = true → ∃ t, exec (.refereeRun (.settle logs result copies)) s = .next t ∧
        t.rep.verdictWait = s.rep.verdictWait.filter (· ≠ h) ∧
        (∀ e ∈ s.ownCopies copies, e.1.shard.toNat = h → e.1.dig ≠ result → (e.2, some result) ∈ t.rep.losing)) ∧
      (h ∈ s.rep.verdictWait → agree = false → exec (.refereeRun (.settle logs result copies)) s =
        .next (({ s with rep := { s.rep with tier3 := true, verdictWait := [] } } : State).reportFault 0x04 noBlame noCopyDetail false)) ∧
      (h ∉ s.rep.verdictWait → exec (.refereeRun (.settle logs result copies)) s = .next s)) ∧
    (∀ logs result, exec (.refereeRun (.settle logs result [])) s = .next s)

/-- Listed pages (R340): at a rewind or before COMMIT resumes, a listed page is rewritten from a clean copy; when no standing holder
has one, the shard is without a copy; this module sends its own copy, or its mirror while that is CURRENT, to other holders. -/
def Parts.PoisonPages : Prop :=
  ∀ (holder : BitVec 16) (pg : PageData) (s : State),
    let dirty := (pageMarks pg).any (·.2) = true ∨ pg.words.length ≠ 8192
    let open_ := s.hdRuns = true ∧ holder.toNat ≠ s.devidx ∧ s.restoring = true ∧ pg.page ∈ s.rep.poison ∧
      s.writeWaits (pg.page * 65536) 65536 = false ∧ s.sourceCurrent pg.page holder.toNat = true
    let gives : Nat → Prop := fun c => c = 0 ∨ mget 0 s.rep.mirrors (c - 1) = 0
    (open_ → ¬ dirty → ∃ t, exec (.poisonPageRestore ⟨holder, pg⟩) s = .next t ∧
      t.hbm = s.hbm.store (pg.page * 65536) (pageMarks pg) ∧ t.rep.poison = s.rep.poison.filter (· ≠ pg.page) ∧
      t.hd TDM_POIS_RESTORED = Nat.min (s.hd TDM_POIS_RESTORED + 1) (2 ^ TDM_POIS_RESTORED.width - 1) ∧ t.sites = s.sites) ∧
    (open_ → dirty → ∃ t, exec (.poisonPageRestore ⟨holder, pg⟩) s = .next t ∧ t.hbm = s.hbm ∧ t.rep.poison = s.rep.poison ∧
      (pg.page, holder.toNat) ∈ t.rep.noCopy ∧
      (∀ c, s.copyOf pg.page = some c → (∀ d ∈ s.otherHolders c, d = holder.toNat ∨ (pg.page, d) ∈ s.rep.noCopy) →
        t.rep.tier3 = true ∧ t.hd TDM_VERDICT_VALID = 1 ∧ t.hd TDM_VERDICT_OUT = dvNOCOPY)) ∧
    (holder.toNat ≠ s.devidx → (s.restoring = false ∨ pg.page ∉ s.rep.poison ∨ s.writeWaits (pg.page * 65536) 65536 = true ∨
        s.sourceCurrent pg.page holder.toNat = false) →
      exec (.poisonPageRestore ⟨holder, pg⟩) s = .next s) ∧
    (s.hdRuns = true → holder.toNat = s.devidx → s.loaded = true → s.fenced = false → ∃ t, exec (.poisonPageRestore ⟨holder, pg⟩) s = .next t ∧
      (t = s ∨ t = { s.notePages [pg.page] with out := t.out }) ∧
      (∀ c, s.copyOf pg.page = some c → ¬ gives c → t = s) ∧ (∀ c, s.copyOf pg.page = some c → gives c → ∀ p ∈ s.livePartners, c = 0 ∨ p.1 + 1 = c →
        Out.pages p.2 (s.copyShard c) (s.pagesOut c [pg.page]) ∈ t.out)) ∧
    (s.hdRuns = false ∨ (holder.toNat = s.devidx ∧ (s.loaded = false ∨ s.fenced = true)) → exec (.poisonPageRestore ⟨holder, pg⟩) s = .next s)

/-- Tier 1 (R342): a step in flight is rewound, its cores stop, every role is due, and ATT counts; COMMIT stops for R223; a module
held is released. -/
def Parts.TierOne : Prop :=
  ∀ (cause : BitVec 8) (s : State),
    let takes := s.hdRuns = true ∧ s.fenced = false ∧ s.host.halted = false ∧ s.host.admitted = true ∧ cause.toNat ≤ 0x0E
    (¬ takes → exec (.tier1Rewind cause) s = .next s) ∧
    (takes → s.held = false → (s.gateState = gRUN ∨ s.gateState = gWAIT ∨ s.gateState = gREWIND) →
      ∃ t, exec (.tier1Rewind cause) s = .next t ∧ t.gateState = gREWIND ∧ t.gate.replay = true ∧ t.gate.step = s.gate.step ∧
        t.gate.due = s.liveRoles ∧ t.attOf s.stepNo.toNat = (s.attOf s.stepNo.toNat + 1) % 256 ∧
        (∀ n ∈ s.liveSites, (t.site n).active? = false)) ∧
    (takes → s.held = false → s.gateState = gCOMMIT → ∃ t, exec (.tier1Rewind cause) s = .next t ∧ t.gateState = gCOMMIT ∧
      t.gate.stopped = true ∧ (∀ n ∈ s.liveSites, (t.site n).active? = false)) ∧
    (takes → s.held = false → (s.gateState = gIDLE ∨ s.gateState = gDONE ∨ s.gateState = gSKIP) → exec (.tier1Rewind cause) s = .next s) ∧
    (takes → s.held = true → ∃ t, exec (.tier1Rewind cause) s = .next t ∧ t.hd PEL_STATUS_STATE = 1 ∧ t.rep.tier2 = [] ∧ t.pel.gone = [] ∧
      (s.gateState = gREWIND → s.gate.due = [] → t.gate.due = s.liveRoles))

/-- Tier 2 begins (R343, R344): a domestique in no slice, with no image and a signed pass, and no test to pass since a fence, becomes the replacement; the captain of
the lost module's pod tells it which index it replaces and asks for its circuits; a partner sends its copies. -/
def Parts.TierTwo : Prop :=
  ∀ (subj : BitVec 16) (ser : BitVec 64) (s : State), s.hdRuns = true → s.fenced = false →
    (ser = s.serial → s.host.admitted = false → s.loaded = false → s.holdsPass = true → s.test.mustTest = false →
      ∃ t, exec (.tier2Recovery subj ser) s = .next t ∧ t.hd PEL_STATUS_STATE = 4 ∧
      t.rep.tier2 = [⟨subj.toNat, 4, s.time, ser, [], [], [], [], []⟩]) ∧
    (ser = s.serial → s.host.admitted = false → (s.loaded = true ∨ s.holdsPass = false ∨ s.test.mustTest = true) → exec (.tier2Recovery subj ser) s = .next s) ∧
    ((ser ≠ s.serial ∨ s.host.admitted = true) → s.loaded = true → s.declared subj.toNat = true → s.captainFor subj.toNat = true →
      ∃ t y, exec (.tier2Recovery subj ser) s = .next t ∧ t.tier2Of subj.toNat = some y ∧ y.stage = 3 ∧ y.dom = ser ∧
        Out.domestique ser subj.toNat ∈ t.out ∧
        (domPairs subj.toNat ser ≠ [] → ∃ r ∈ t.pel.ocs, r.pairs = domPairs subj.toNat ser ∧ r.subj = some subj.toNat)) ∧
    ((ser ≠ s.serial ∨ s.host.admitted = true) → s.loaded = true → s.declared subj.toNat = true → s.captainFor subj.toNat = false →
      ∃ t, exec (.tier2Recovery subj ser) s = .next t ∧ t.hbm = s.hbm ∧ t.sites = s.sites ∧ t.gate = s.gate ∧ t.pel = s.pel ∧
        ∀ im p dg, s.img = some im → im.resil.partners.find? (fun p => p.2.1 = subj.toNat) = some p → s.copyDigest (s.copyPages 0) = some dg →
          Out.transfer subj.toNat (s.copyShard 0) (s.pagesOut 0 (s.copyPages 0)) dg (s.copyStep 0) [] ∈ t.out) ∧
    ((ser ≠ s.serial ∨ s.host.admitted = true) → (s.loaded = false ∨ s.declared subj.toNat = false) → exec (.tier2Recovery subj ser) s = .next s)

/-- The catch-up replay (R334, R345): a domestique whose own shard is here opens the recorded step in RUN, alone; a member in COMMIT
of the step whose mirror is behind lets that mirror's roles enter COMMIT again; anyone else does nothing. -/
def Parts.CatchUps : Prop :=
  ∀ (x : CatchUp) (s : State),
    (s.hdRuns = false ∨ s.fenced = true ∨ s.loaded = false → exec (.catchupReplay x) s = .next s) ∧
    (s.hdRuns = true → s.fenced = false → s.loaded = true → s.host.admitted = false →
      (∀ y l, s.rep.tier2 = y :: l → 4 ≤ y.stage → 0 ∈ y.got → ∃ t, exec (.catchupReplay x) s = .next t ∧ t.gateState = gRUN ∧
        t.gate.step = x.step ∧ t.gate.catchUp = true ∧ t.gate.replay = true ∧ t.gate.due = s.liveRoles) ∧
      (∀ y l, s.rep.tier2 = y :: l → (y.stage < 4 ∨ 0 ∉ y.got) → exec (.catchupReplay x) s = .next s) ∧
      (s.rep.tier2 = [] → exec (.catchupReplay x) s = .next s)) ∧
    (s.hdRuns = true → s.fenced = false → s.loaded = true → s.host.admitted = true →
      (∀ m, s.rep.mirrors.find? (fun m => m.2 = 1) = some m → s.gateState = gCOMMIT → s.stepNo = x.step →
        ∃ t, exec (.catchupReplay x) s = .next t ∧ t.gate.resuming = true ∧ t.gate.replay = true ∧
          (∀ e ∈ s.mirrorPairs m.1, e.1 ∈ t.gate.due ∧ (t.pageSt e.1).opens = [] ∧ (t.pageSt e.1).next = 0)) ∧
      ((s.rep.mirrors.find? (fun m => m.2 = 1) = none ∨ s.gateState ≠ gCOMMIT ∨ s.stepNo ≠ x.step) → exec (.catchupReplay x) s = .next s))

/-- Tier 3 (R346): the cores stop, the module is held in REWIND, and what waited for a referee is given up; a module that runs no
job does nothing. -/
def Parts.TierThree : Prop :=
  ∀ s : State,
    (s.hdRuns = true → s.fenced = false → s.loaded = true → s.host.admitted = true → ∃ t, exec .tier3Restore s = .next t ∧
      t.gateState = (if s.gateState = gIDLE then gIDLE else gREWIND) ∧
      t.hd PEL_STATUS_STATE = 2 ∧ t.rep.tier3 = true ∧ t.rep.verdictWait = [] ∧ (∀ n ∈ s.liveSites, (t.site n).active? = false)) ∧
    (s.hdRuns = false ∨ s.fenced = true ∨ s.loaded = false ∨ s.host.admitted = false → exec .tier3Restore s = .next s)

/-- A transfer to the domestique (R343, R349): one whose digest matches is in place and counts as got; with the last one the domestique reports
ready, unless its shard stands at an earlier boundary than a mirror: then the catch-up replay comes first; one that does not match is
asked for once more; when it fails again its holder is reported, and once no other holder can give the copy, tier 3 follows. -/
def Parts.Transfers : Prop :=
  ∀ (x : Transfer) (y : Tier2) (l : List Tier2) (s : State), s.rep.tier2 = y :: l →
    let c := x.copy.val
    let h := x.holder.toNat
    let takes := s.hdRuns = true ∧ s.barredHere = false ∧ s.loaded = true ∧ s.host.admitted = false ∧ s.fenced = false ∧ 4 ≤ y.stage ∧ s.portsReady = true ∧ c ∉ y.got ∧ c ∈ s.copies ∧
      (c, h) ∉ y.failed ∧ s.declared h = false
    let whole := ∀ d ∈ s.copies, d = c ∨ d ∈ y.got
    let good := arrivedDigest x.pages = some x.sentDigest ∧ x.pages.map (·.page) = s.copyPages c
    (¬ takes → exec (.stateTransferDone x) s = .next s) ∧
    (takes → good → ∃ t z, exec (.stateTransferDone x) s = .next t ∧
      t.hbm = x.pages.foldl (fun m p => m.store (p.page * 65536) (pageMarks p)) s.hbm ∧
      (c = 0 → t.gate.step = x.step) ∧ (c ≠ 0 → ∀ e, y.steps.find? (fun e => e.1 = 0) = some e → t.gate.step = e.2) ∧
      z ∈ t.rep.tier2 ∧ z.subj = y.subj ∧ c ∈ z.got ∧ z.steps = (c, x.step) :: y.steps ∧ (¬ whole → z.stage = 7) ∧
      (whole → (∃ e ∈ z.steps, t.gate.step.toNat < e.2.toNat) → z.stage = 9) ∧
      (whole → (∀ e ∈ z.steps, e.2.toNat ≤ t.gate.step.toNat) → z.stage = 10)) ∧
    (takes → ¬ good → (c, h) ∉ y.retried → exec (.stateTransferDone x) s =
      .next (s.setTier2 ({ y with retried := y.retried ++ [(c, h)] } : Tier2))) ∧
    (takes → ¬ good → (c, h) ∈ y.retried → ∃ t, exec (.stateTransferDone x) s = .next t ∧ t.hbm = s.hbm ∧
      ((∀ d ∈ s.otherHolders c, d = h ∨ (c, d) ∈ y.failed) → t.rep.tier3 = true))

/-- Without a domestique (R344): a REFEREE verdict leaves the shard without a copy, which the captains are told (log entry 129), and a lost module halts the job, by HALT with
the code 0x0E from the lead captain to the slice. -/
def Parts.NoDomestique : Prop :=
  ∀ s : State,
    (s.hdRuns = true → s.rep.verdictWait ≠ [] → exec (.noDomestique true) s =
      .next (({ s with rep := { s.rep with tier3 := true, verdictWait := [] } } : State).reportFault 0x04 noBlame noCopyDetail false)) ∧
    (s.hdRuns = false ∨ s.rep.verdictWait = [] → exec (.noDomestique true) s = .next s) ∧
    (s.hdRuns = true → s.isLead = true → s.pel.gone ≠ [] → s.fenced = false → s.slice ≠ [] →
      ∃ t f, exec (.noDomestique false) s = .next t ∧ Out.pel 0x0C s.epoch s.slice 6 [BitVec.ofNat 64 0x0E] f ∈ t.out) ∧
    (s.hdRuns = false ∨ s.isLead = false ∨ s.pel.gone = [] → exec (.noDomestique false) s = .next s)

/-- Digests, repairs, the recovery tiers and state transfers. Log entries 46 and 74 name what the model chose. -/
def Obligations.Recovery : Prop :=
  Parts.Digests ∧ Parts.Repairs ∧ Parts.Referee ∧ Parts.PoisonPages ∧ Parts.TierOne ∧ Parts.TierTwo ∧ Parts.CatchUps ∧ Parts.TierThree ∧ Parts.Transfers ∧ Parts.NoDomestique

/-- Patrol, rewrite, recheck (R240, R241, R244): no byte reads differently after a patrol read or a rewrite, the words touched are
CORRECTED no more, and a word that did not decode CLEAN or poison waits for its recheck; a recheck writes a CORRECTED word back
corrected and an UNCORRECTABLE one as poison, and with no reserve page left a row whose second read fails is poisoned where it
does not read CLEAN, where reserve pages that other lasting rows wait for count as taken. On a stopped die nothing happens (R20). -/
def Parts.HbmScrubbing : Prop :=
  ∀ s : State,
    (∀ (k : Fin 24) (b : Nat), s.dieRuns (k.val / 3) = true → b < 0x1200000000 / 64 → ∃ t, exec (.hbmPatrol k b) s = .next t ∧ (∀ a, t.hbm.mark a = s.hbm.mark a) ∧
      (∀ i, i < 8 → (t.hbm.dec (hbmModule k.val (b * 64) + 8 * i)).2 ≠ .corrected) ∧
      (∀ i, i < 8 → let w := hbmModule k.val (b * 64) + 8 * i
        ((s.hbm.dec w).2 = .corrected ∨ (s.hbm.dec w).2 = .uncorrectable) → ∃ e ∈ t.fab.rechecks, e.1 = w) ∧
      mget 0 t.fab.patrol k.val = (mget 0 s.fab.patrol k.val + 1) % (0x1200000000 / 64) ∧
      t.d (k.val / 3) (HBM_STATUS_SCRUB (k.val % 3)) = (if mget 0 t.fab.patrol k.val = 0 then 0 else 1) ∧ t.sites = s.sites) ∧
    (∀ (k : Fin 24) (b : Nat), 0x1200000000 / 64 ≤ b ∨ s.dieRuns (k.val / 3) = false → exec (.hbmPatrol k b) s = .next s) ∧
    (∀ w, s.dieRuns (hbmDie (w / 8 * 8)) = true → w / 8 * 8 ∈ s.fab.rewrites → ∃ t, exec (.hbmCorrectionRewrite w) s = .next t ∧ t = { s with hbm := t.hbm, fab := t.fab } ∧
      (∀ a, t.hbm.mark a = s.hbm.mark a) ∧ (t.hbm.dec w).2 ≠ .corrected ∧ t.fab.rewrites = s.fab.rewrites.filter (· ≠ w / 8 * 8)) ∧
    (∀ w, w / 8 * 8 ∉ s.fab.rewrites ∨ s.dieRuns (hbmDie (w / 8 * 8)) = false → exec (.hbmCorrectionRewrite w) s = .next s) ∧
    (∀ w fails ev, s.hdRuns = true → s.dieRuns (hbmDie (w / 8 * 8)) = true → s.fab.rechecks.find? (fun e => e.1 = w / 8 * 8) = some ev →
      let d := s.hbm.dec w
      let free := s.reserveLeft (w / 8 * 8)
      ∃ t, exec (.hbmErrorRecheck w fails) s = .next t ∧
        t.fab.rechecks = s.fab.rechecks.filter (fun e => e.1 ≠ w / 8 * 8) ∧
        (d.2 = .uncorrectable → t.hbm.dec w = (d.1, .poison)) ∧
        (d.2 = .corrected → (free ≠ 0 ∨ fails = false) → t.hbm.dec w = (d.1, .clean)) ∧
        (d.2 = .corrected → free = 0 → fails = true → t.hbm.dec w = (d.1, .poison)) ∧
        (d.2 = .clean ∨ d.2 = .poison → t.hbm.dec w = d) ∧
        (free = 0 → fails = true → t.pel.selfReports = s.pel.selfReports + 1 ∧ t.unfit = true) ∧
        (s.d (hbmDie (w / 8 * 8)) (HBM_ERRLOG_VALID (hbmStack (w / 8 * 8) % 3)) = 0 →
          t.d (hbmDie (w / 8 * 8)) (HBM_ERRLOG_VALID (hbmStack (w / 8 * 8) % 3)) = 1 ∧
          (fails = true → t.d (hbmDie (w / 8 * 8)) (HBM_ERRLOG_LAST (hbmStack (w / 8 * 8) % 3)) = 1 ∧
            t.d (hbmDie (w / 8 * 8)) (HBM_ERRLOG_TYPE (hbmStack (w / 8 * 8) % 3)) = (if free = 0 then 5 else 4)))) ∧
    (∀ w fails, s.fab.rechecks.find? (fun e => e.1 = w / 8 * 8) = none ∨ s.hdRuns = false ∨ s.dieRuns (hbmDie (w / 8 * 8)) = false → exec (.hbmErrorRecheck w fails) s = .next s)

/-- Page retirement (R242, R243): the copy of a page that holds a lasting row begins while a reserve page is free and the stack
copies no other page; at its end the page stands redirected to a reserve page that no other has, one reserve page fewer is free,
its words keep their values, and an UNCORRECTABLE one is poisoned. On a stopped die nothing happens (R20). -/
def Parts.PageRetirement : Prop :=
  ∀ (k : Fin 24) (p : Nat) (s : State),
    let free := s.d (k.val / 3) (HBM_STATUS_RSVFREE (k.val % 3))
    let lasts := ∃ e ∈ s.test.table, e.kind = ukHBMROW ∧ e.state = seLASTING ∧ e.unit % 32 = k.val ∧ e.unit / 2 ^ 11 % 64 = p % 64 ∧
      e.unit / 2 ^ 17 = p / 64
    (s.hdRuns = true → s.dieRuns (k.val / 3) = true → lasts → mfind s.fab.retired (k.val * 2 ^ 21 + p) = none → mfind s.fab.copying k.val = none → free ≠ 0 →
      exec (.pageRetire k p) s = .next { s with fab := { s.fab with copying := mset k.val p s.fab.copying } }) ∧
    (s.hdRuns = false ∨ s.dieRuns (k.val / 3) = false ∨ ¬ lasts ∨ free = 0 ∨ mfind s.fab.retired (k.val * 2 ^ 21 + p) ≠ none ∨ mfind s.fab.copying k.val ≠ none →
      exec (.pageRetire k p) s = .next s) ∧
    (s.dieRuns (k.val / 3) = false → exec (.pageRetireDone k) s = .next s) ∧
    (s.dieRuns (k.val / 3) = true → mfind s.fab.copying k.val = some p → s.fab.held = [] → ∃ t i, exec (.pageRetireDone k) s = .next t ∧ mfind t.fab.copying k.val = none ∧
      mfind t.fab.retired (k.val * 2 ^ 21 + p) = some i ∧ (∀ q ∈ s.fab.retired, q.1 / 2 ^ 21 = k.val → q.2 ≠ i) ∧
      t.d (k.val / 3) (HBM_STATUS_RSVFREE (k.val % 3)) = (free - 1) % 2 ^ (HBM_STATUS_RSVFREE (k.val % 3)).width ∧
      (∀ a, (t.hbm.dec a).1 = (s.hbm.dec a).1) ∧
      (∀ a, a % 8 = 0 → hbmStack a = k.val → stackPage (hbmAddr a) = p → (t.hbm.dec a).2 ≠ .uncorrectable)) ∧
    (mfind s.fab.copying k.val = none → ∃ t, exec (.pageRetireDone k) s = .next t ∧ t.fab.copying = s.fab.copying ∧
      t.fab.retired = s.fab.retired ∧ (s.fab.held = [] → s.col.colls = [] → t = s))

/-- Patrol, rewrite, recheck and page retirement. -/
def Obligations.HbmErrors : Prop :=
  Parts.HbmScrubbing ∧ Parts.PageRetirement

/-- A packet at a die (R15, R20, R229, R232, R236, R239, R245 to R248): a header that does not decode is counted as BAD and goes no
further; one that breaks a rule of its fields is counted and answered with ERRRSP; a packet for another die joins the input of
an arbiter on its way there, with a weight of at least 1: of the link that leads there, or where it comes from a node of the die of the
router of that node (R250, R265, log entry 109); a request of HBM that this die holds waits, or is served and answered
in the response class, where HX reaches the host window only (R448); control space is read and written by the rules of its writer; an
address that this die does not hold is answered with ERRRSP; and a response or message ends here. -/
def Parts.PacketsAtADie : Prop :=
  ∀ (d : Fin 12) (p : NocPkt) (s : State),
    let h := hdrNat p.hdr
    let data := payloadOf h p.data
    let a := hAddr h
    let ok := s.dieRuns d.val = true ∧ (∀ w ∈ p.hdr, (cwDecode w).2 ≠ .uncorrectable) ∧ nocBad h p.data.length = false
    let here := hDst h / 256 = d.val
    let reads := hType h = nocRD ∨ hType h = nocCFGRD
    let writes := hType h = nocWR ∨ hType h = nocCFGWR
    let own := a < hbmSize ∧ hbmDie a = d.val ∧ (hSrc h / 256 = 11 → hostLo ≤ a)
    let ctl := ctlBase ≤ a ∧ (a - ctlBase) / 2 ^ 24 = d.val
    let answer : Nat → Nat → List (Byte × Bool) → Out := fun typ n l => Out.noc d.val (mkHdr typ 1 (hDst h) (hSrc h) (hTag h) n a 1) l
    let counts : State → Prop := fun t =>
      t.d d.val NOC_ERR_BAD = Nat.min (s.d d.val NOC_ERR_BAD + 1) (2 ^ NOC_ERR_BAD.width - 1)
    let refuses : State → Prop := fun t => ∃ n, 1 ≤ n ∧ n ≤ 256 ∧ answer nocERRRSP n [] ∈ t.out
    (s.dieRuns d.val = false → exec (.nocPacketReceive d p) s = .next s) ∧
    (s.dieRuns d.val = true → (∃ w ∈ p.hdr, (cwDecode w).2 = .uncorrectable) →
      ∃ t, exec (.nocPacketReceive d p) s = .next t ∧ counts t ∧ t = { s with regs := t.regs }) ∧
    (s.dieRuns d.val = true → (∀ w ∈ p.hdr, (cwDecode w).2 ≠ .uncorrectable) → nocBad h p.data.length = true →
      ∃ t, exec (.nocPacketReceive d p) s = .next t ∧ counts t ∧ refuses t ∧ t = { s with regs := t.regs, out := t.out, free := t.free }) ∧
    (ok → ¬ here → ∃ t k, exec (.nocPacketReceive d p) s = .next t ∧ t = { s with regs := t.regs, out := t.out, fab := t.fab } ∧
      k = (if hSrc h / 256 ≠ d.val then nocKey d.val (s.nocRoute d.val (hDst h / 256) (hCls h)) (hCls h) (nocInput d.val h)
        else nocKey d.val (if s.gatewayPath d.val (hSrc h % 256) = [] then s.nocRoute d.val (hDst h / 256) (hCls h)
          else 16 + meshNode d.val (hSrc h % 256)) (hCls h) (16 + hSrc h % 256)) ∧
      (t.nocIn k).waits = (s.nocIn k).waits ++ [(h, data)] ∧ (t.nocIn k).weight = Nat.max 1 (h / 2 ^ 96 % 4096)) ∧
    (ok → here → reads → own → s.mustWait s.fab.held h [] = false → ∃ t n, exec (.nocPacketReceive d p) s = .next t ∧
      1 ≤ n ∧ n ≤ 256 - a % 256 ∧ answer nocRDRSP n (s.hbm.marks a n) ∈ t.out ∧
      (s.gateState ≠ gCOMMIT → ∀ m, t.hbm.mark m = s.hbm.mark m)) ∧
    (ok → here → writes → own → s.mustWait s.fab.held h data = false → ∃ t, exec (.nocPacketReceive d p) s = .next t ∧
      answer nocWRACK 0 [] ∈ t.out ∧ (s.hitsOpenPage a data = false → t.hbm = s.hbm.store a data) ∧
      (s.hitsOpenPage a data = true → Out.fwSignal (832 + hbmDie a) sigPoison ∈ t.out)) ∧
    (∀ l, ok → here → own → (reads ∧ l = [] ∨ writes ∧ l = data) → s.mustWait s.fab.held h l = true →
      ∃ t, exec (.nocPacketReceive d p) s = .next t ∧ t.fab.held = s.fab.held ++ [(d.val, h, l)] ∧ t.hbm = s.hbm) ∧
    (∀ q r who, ok → here → reads → ¬ own → ctl → s.placeReg a = some q → q.reg = some r → nocWriter (hSrc h) = some who →
      ((s.hdRuns = true ∧ who ≠ .program) → h / 2 ^ 96 % 4096 ≠ 0 →
        (∀ w ∈ p.hdr, (cwDecode w).2 ≠ .corrected) →
        ∃ t, exec (.nocPacketReceive d p) s = .next t ∧
        answer nocCFGRSP (r.wid / 8) ((leBytes (r.wid / 8) (s.readReg q)).map (fun b => (b, false))) ∈ t.out) ∧
      (s.hdRuns = false ∨ who = .program → ∃ t, exec (.nocPacketReceive d p) s = .next t ∧ refuses t)) ∧
    (∀ q r, ok → here → writes → ¬ own → ctl → s.placeReg a = some q → q.reg = some r → (∀ b ∈ data, b.2 = false) →
      (doorOf a = none ∨ data.length ≠ 64) → nocWriter (hSrc h) = some .firmware →
      ∃ t n, exec (.nocPacketReceive d p) s = .next t ∧
        ((hType h = nocWR ∧ answer nocWRACK 0 [] ∈ t.out) ∨ (hType h = nocCFGWR ∧ 1 ≤ n ∧ n ≤ 256 ∧ answer nocCFGRSP n [] ∈ t.out))) ∧
    (ok → here → reads → ¬ own → (¬ ctl ∨ s.placeReg a = none ∨ nocWriter (hSrc h) = none) → ∃ t, exec (.nocPacketReceive d p) s = .next t ∧ refuses t ∧ t.hbm = s.hbm) ∧
    (ok → here → writes → ¬ own → (¬ ctl ∨ (s.placeReg a = none ∧ (doorOf a = none ∨ data.length ≠ 64))) →
      ∃ t, exec (.nocPacketReceive d p) s = .next t ∧ refuses t ∧ t.hbm = s.hbm) ∧
    (ok → here → ¬ reads → ¬ writes → ∃ t, exec (.nocPacketReceive d p) s = .next t ∧ t = { s with regs := t.regs })

/-- Die-to-die blocks (R251 to R255): a block that decodes is delivered corrected; one that does not is asked for again over its
group; when the replay does not decode either, the group is removed, the link retrains, and the block is asked for over a
remaining group; a block that took another group's place has both attempts there. Where the errors of the block itself have just had
its group removed, it is asked for over a remaining group. A group that is not in service, whose link retrains or whose die's clock is
stopped takes no block. -/
def Parts.LinkBlocks : Prop :=
  ∀ (g : GroupId) (b : List CodeWord) (s : State),
    let wait := mfind s.fab.replay (gidKey g)
    let on := s.groupLive g = true ∧ s.dieRuns g.die.val = true
    let again : State → Prop := fun t =>
      (t.lasting ukGROUP (gidKey g) = false → mfind t.fab.replay (gidKey g) = some 1 ∧ Out.replayReq g ∈ t.out) ∧
      (s.blockLanes g b = [] → t.lasting ukGROUP (gidKey g) = false)
    let moves : State → Prop := fun t =>
      ∀ x : GroupId, s.blockLanes g b = [] → x.die = g.die → x.link = g.link → x.group ≠ g.group →
        x.group.val < groupsOf g.die.val g.link.val → s.lasting ukGROUP (gidKey x) = false → mfind s.fab.replay (gidKey x) = none →
        ∃ y, Out.replayReq y ∈ t.out ∧ y.die = g.die ∧ y.link = g.link ∧ mfind t.fab.replay (gidKey y) = some 2
    (on → b.length = 32 → wait = none →
      (blockOk b = true → ∃ t, exec (.d2dBlockReceive g b) s = .next t ∧ Out.block g (blockWords b) ∈ t.out ∧
        (s.blockLanes g b = [] → t = { s with regs := t.regs, out := t.out, fab := { s.fab with blocks := t.fab.blocks } })) ∧
      (blockOk b = false → ∃ t, exec (.d2dBlockReceive g b) s = .next t ∧ again t)) ∧
    (¬ on ∨ b.length ≠ 32 ∨ wait ≠ none → exec (.d2dBlockReceive g b) s = .next s) ∧
    (∀ why, on → b.length = 32 → wait = some why →
      (blockOk b = true → ∃ t, exec (.d2dBlockReplay g b) s = .next t ∧ Out.block g (blockWords b) ∈ t.out ∧
        mfind t.fab.replay (gidKey g) = none) ∧
      (blockOk b = false → why = 2 → ∃ t, exec (.d2dBlockReplay g b) s = .next t ∧ again t) ∧
      (blockOk b = false → why ≠ 2 → ∃ t, exec (.d2dBlockReplay g b) s = .next t ∧ mfind t.fab.replay (gidKey g) = none ∧
        linkKey g ∈ t.fab.retrain ∧ moves t)) ∧
    (¬ on ∨ b.length ≠ 32 ∨ wait = none → exec (.d2dBlockReplay g b) s = .next s) ∧
    (s.dieRuns g.die.val = true →
      exec (.d2dRetrainDone g) s = .next { s with fab := { s.fab with retrain := s.fab.retrain.filter (· ≠ linkKey g) } }) ∧
    (s.dieRuns g.die.val = false → exec (.d2dRetrainDone g) s = .next s)

/-- NoC packets at a die and blocks of a die-to-die link. Log entry 72 names the choices for packets. -/
def Obligations.PacketsAndBlocks : Prop :=
  Parts.PacketsAtADie ∧ Parts.LinkBlocks

/-- Identity frames (R293, R294): they go out while no neighbour is accepted; a frame of another form is counted and dropped;
without an image the port waits in NOIMG; another major version, a neighbour that the image does not expect, and the expected
neighbour take the port to REFUSED, MISMATCH, or UP once each side has accepted the other. A network die whose clock is stopped takes
and sends none (R20). -/
def Parts.IdentityExchange : Prop :=
  ∀ (p : PortId) (fr : BitVec 512) (s : State),
    let k := portKey p
    let st := s.portState k
    let takes := s.ndRuns k = true ∧ idFrameOk fr = true ∧ (st = psUP ∨ st = psIDENT ∨ st = psNOIMG ∨ st = psMISMATCH ∨ st = psREFUSED)
    let match_ : PortCfg → Prop := fun c => idf fr 96 16 = c.ndev ∧ idf fr 112 5 = c.nport ∧ idf fr 117 2 = c.nsub ∧ idf fr 208 32 = s.jobLo
    let peer : State → Prop := fun t => (t.port k).peerSerial = BitVec.ofNat 64 (idf fr 32 64) ∧ (t.port k).peerBuild = idf fr 176 32
    (s.ndRuns k = false → exec (.identityFrameSend p) s = .next s ∧ exec (.identityFrameReceive p fr) s = .next s) ∧
    (s.ndRuns k = true → (st = psIDENT ∨ st = psNOIMG ∨ st = psMISMATCH ∨ st = psREFUSED) → exec (.identityFrameSend p) s = .next (s.emit (.identity p (s.identityOf k)))) ∧
    (st ≠ psIDENT → st ≠ psNOIMG → st ≠ psMISMATCH → st ≠ psREFUSED → exec (.identityFrameSend p) s = .next s) ∧
    (s.ndRuns k = true → idFrameOk fr = false → exec (.identityFrameReceive p fr) s = .next (s.bumpPerr k NET_PERR_DROPID 1)) ∧
    (idFrameOk fr = true → ¬ takes → exec (.identityFrameReceive p fr) s = .next s) ∧
    (takes → s.loaded = false → ∃ t, exec (.identityFrameReceive p fr) s = .next t ∧ t.portState k = psNOIMG ∧
      (t.port k).accepted = false ∧ peer t ∧ t = { s with regs := t.regs, net := t.net }) ∧
    (takes → s.loaded = true → idf fr 96 16 = 0xFFFF → ∃ t, exec (.identityFrameReceive p fr) s = .next t ∧ peer t ∧
      t.portState k = (if st = psMISMATCH ∨ st = psREFUSED then st else psIDENT)) ∧
    (takes → s.loaded = true → idf fr 96 16 ≠ 0xFFFF → idf fr 152 8 ≠ s.umaj → ∃ t, exec (.identityFrameReceive p fr) s = .next t ∧
      t.portState k = psREFUSED ∧ peer t ∧ (st ≠ psREFUSED → (t.port k).accepted = false)) ∧
    (takes → s.loaded = true → idf fr 96 16 ≠ 0xFFFF → idf fr 152 8 = s.umaj → (∀ c, s.expected k = some c → ¬ match_ c) →
      ∃ t, exec (.identityFrameReceive p fr) s = .next t ∧ t.portState k = psMISMATCH ∧ peer t ∧ (st ≠ psMISMATCH → (t.port k).accepted = false)) ∧
    (∀ c, takes → s.loaded = true → idf fr 96 16 ≠ 0xFFFF → idf fr 152 8 = s.umaj → s.expected k = some c → match_ c →
      ∃ t, exec (.identityFrameReceive p fr) s = .next t ∧ (t.port k).accepted = true ∧ peer t ∧
        t.pf k NET_PSTAT_PEERDEV = c.ndev % 2 ^ 16 ∧
        t.portState k = (if idf fr 24 1 = 1 ∨ (s.port k).confirmed = true then psUP else psIDENT))

/-- The life of a port (R294, R296, R304, R306, R307): a dark port that sees light trains; a trained port asks for its neighbour,
waits as a spare, or is UP for storage, with no neighbour accepted; a failure of a port that is UP retrains it once, and retires it when it is lasting; a
good retraining leads back to the identity exchange and a failed one retires the port. On a network die whose clock is stopped nothing
happens (R20). -/
def Parts.PortLives : Prop :=
  ∀ (p : PortId) (s : State),
    let k := portKey p
    let st := s.portState k
    let on := s.ndRuns k = true
    let lasts := ((s.noteFail (portUnit p)).fault24 ukPORT (portUnit p) false).2
    let retires : State → Prop := fun t =>
      (∀ j c, (j = k ∨ (j, k) ∈ s.net.takeover) → s.portCfg j = some c → c.spare ≠ k / 4) → t.portState k = psRETIRED
    (¬ on → exec (.portLightReturn p) s = .next s ∧ exec (.portTrained p) s = .next s ∧ (∀ c, exec (.portFailure p c) s = .next s) ∧
      ∀ up, exec (.portRetrainDone p up) s = .next s) ∧
    (on → (st = psDARK ∨ (st = psSPARE ∧ s.placeOfPort k ≠ k)) → ∃ t, exec (.portLightReturn p) s = .next t ∧ t.portState k = psTRAINING ∧
      t = { s with regs := t.regs }) ∧
    (st ≠ psDARK → (st ≠ psSPARE ∨ s.placeOfPort k = k) → exec (.portLightReturn p) s = .next s) ∧
    (on → st = psTRAINING → ∃ t, exec (.portTrained p) s = .next t ∧ t = { s with regs := t.regs, net := t.net } ∧
      t.port k = ({ s.port k with accepted := false, confirmed := false, retraining := false } : PortSt) ∧
      t.portState k = if s.storagePort k then psUP else if s.idleSpare k then psSPARE else if s.loaded then psIDENT else psNOIMG) ∧
    (st ≠ psTRAINING → exec (.portTrained p) s = .next s) ∧
    (∀ cause : BitVec 4, on → st = psUP → (cause = 1 ∨ cause = 2) → ∃ t, exec (.portFailure p cause) s = .next t ∧
      (lasts = false → t.portState k = psTRAINING ∧ (t.port k).retraining = true ∧ (t.port k).accepted = false ∧
        t.pf k NET_PSTAT_CAUSE = cause.toNat) ∧
      (lasts = true → retires t)) ∧
    (∀ cause : BitVec 4, st ≠ psUP ∨ (cause ≠ 1 ∧ cause ≠ 2) → exec (.portFailure p cause) s = .next s) ∧
    (on → (s.port k).retraining = true → ∃ t, exec (.portRetrainDone p true) s = .next t ∧ (t.port k).retraining = false ∧
      (t.port k).accepted = false ∧ t.portState k = if s.storagePort k then psUP else if s.loaded then psIDENT else psNOIMG) ∧
    (on → (s.port k).retraining = true → ∃ t, exec (.portRetrainDone p false) s = .next t ∧ retires t) ∧
    ((s.port k).retraining = false → ∀ up, exec (.portRetrainDone p up) s = .next s)

/-- The life of a network port. -/
def Obligations.PortLife : Prop :=
  Parts.IdentityExchange ∧ Parts.PortLives

/-- Link-level replay (R305, R306): a frame in its turn is taken and every 16th acknowledged, any other asks for a replay; the
acknowledgement timer and the acknowledgements do what R305 says; a frame that the replay delivers ends it and is logged, and a
replay that fails takes the port from UP. On a network die whose clock is stopped nothing happens (R20). -/
def Parts.LinkReplay : Prop :=
  ∀ (p : PortId) (fr : LlrFrame) (s : State),
    let k := portKey p
    let f := s.bumpPerr k NET_PERR_FECU fr.fecBad
    let x := s.port k
    let on := s.ndRuns k = true ∧ s.portState k = psUP ∧ s.llrOn k = true
    let lasts := ((s.noteFail (portUnit p)).fault24 ukPORT (portUnit p) false).2
    (¬ on → exec (.llrFrameReceive p fr) s = .next (if s.ndRuns k then f else s) ∧ exec (.llrAckTimer p) s = .next s ∧ ∀ n r, exec (.llrAck p n r) s = .next s) ∧
    (on → fr.ok = true → fr.seq.toNat = x.llrRx → x.unackedRx < 15 →
      exec (.llrFrameReceive p fr) s = .next (f.setPort k ({ x with llrRx := (x.llrRx + 1) % 2 ^ 24, unackedRx := x.unackedRx + 1 } : PortSt))) ∧
    (on → fr.ok = true → fr.seq.toNat = x.llrRx → 15 ≤ x.unackedRx →
      exec (.llrFrameReceive p fr) s = .next ((f.setPort k ({ x with llrRx := (x.llrRx + 1) % 2 ^ 24, unackedRx := 0 } : PortSt)).emit
        (.llr p ((x.llrRx + 1) % 2 ^ 24) false))) ∧
    (on → (fr.ok = false ∨ fr.seq.toNat ≠ x.llrRx) →
      exec (.llrFrameReceive p fr) s = .next ((f.setPort k ({ x with replayWanted := true } : PortSt)).emit (.llr p x.llrRx true))) ∧
    (on → x.unackedRx ≠ 0 → exec (.llrAckTimer p) s = .next ((s.setPort k ({ x with unackedRx := 0 } : PortSt)).emit (.llr p x.llrRx false))) ∧
    (x.unackedRx = 0 → exec (.llrAckTimer p) s = .next s) ∧
    (∀ (n : BitVec 24) (r : Bool), on → ∃ t, exec (.llrAck p n r) s = .next t ∧
      let old : Nat → Prop := fun q => q ≠ n.toNat ∧ (n.toNat + 2 ^ 24 - q) % 2 ^ 24 - 1 < 2 ^ 23
      (∀ e ∈ x.llrBuf, ¬ old e.1 → e ∈ (t.port k).llrBuf) ∧
      (x.queue = [] → x.frames = [] → ∀ e ∈ (t.port k).llrBuf, e ∈ x.llrBuf ∧ ¬ old e.1) ∧
      (r = true → ∀ e ∈ x.llrBuf, ¬ old e.1 → e.2.numbered k e.1 ∈ t.out)) ∧
    (s.ndRuns k = true → s.portState k = psUP → x.replayWanted = true → fr.ok = true → fr.seq.toNat = x.llrRx → ∃ t, exec (.llrReplay p fr) s = .next t ∧
      (t.port k).replayWanted = false ∧ (t.port k).llrRx = (x.llrRx + 1) % 2 ^ 24 ∧ t.portState k = psUP ∧
      NetEvent.replayed k fr.seq.toNat ∈ t.net.log) ∧
    (s.ndRuns k = true → s.portState k = psUP → x.replayWanted = true → (fr.ok = false ∨ fr.seq.toNat ≠ x.llrRx) → ∃ t, exec (.llrReplay p fr) s = .next t ∧
      (lasts = false → t.portState k = psTRAINING ∧ (t.port k).retraining = true) ∧
      (lasts = true → (∀ j c, (j = k ∨ (j, k) ∈ s.net.takeover) → s.portCfg j = some c → c.spare ≠ k / 4) → t.portState k = psRETIRED)) ∧
    (s.ndRuns k = false ∨ s.portState k ≠ psUP ∨ x.replayWanted = false → exec (.llrReplay p fr) s = .next s)

/-- A packet at a port (R291, R297, R301, R373): the checks of R301 in order, with the counter that each names; one for another
module goes on untagged where the routes lead; one of the next step is held while there is room; a duplicate is counted and acknowledged
again, one ahead of its turn is held, and the one whose turn it is is delivered. -/
def Parts.PacketsIn : Prop :=
  ∀ (p : PortId) (pk : UalPkt) (s : State),
    let k := portKey p
    let w := ndWin (keyDie k)
    let h := pk.h
    let cur := s.stepNo.toNat
    let x := s.stream (streamKey h.srcdev.toNat h.cls.toNat)
    let runs : Host.Outcome State Fault Refusal := exec (.ualarPacketReceive p pk) s
    let dropped : Fld → Prop := fun f => runs = .next (s.bumpD w f 1)
    let pel := h.cls.toNat = 3
    let open_ := s.portState k = psUP ∧ s.ndRuns k = true ∧ s.portsFenced k = false ∧ s.storagePort k = false
    let good := h.vmaj.toNat = s.umaj ∧ kindOk h.cls.toNat h.kind.toNat = true ∧ pk.rsvd = false ∧ h.nwords.toNat ≤ 512 ∧ pk.lenBad = false ∧
      pk.words.length = h.nwords.toNat
    let ours := s.loaded = true ∧ h.job.toNat = s.jobLo
    let passes := open_ ∧ s.frameOk pk.frame = true ∧ good ∧ ours ∧ (h.epoch.toNat = s.epoch ∨ (pel ∧ s.epoch ≤ h.epoch.toNat)) ∧
      (pel ∨ (s.gate.catchUp = false ∧ s.catchUpNoise h = false ∧ (cur < h.step.toNat ∨ (h.step.toNat = cur ∧ s.hd PEL_STATUS_ATT ≤ h.att.toNat))))
    let here := passes ∧ h.dstdev.toNat = s.devidx
    let used := ((s.net.hold.filter (fun q => keyDie q.1 = keyDie k)).map (fun q => pktBytes q.2)).sum
    (¬ open_ ∨ s.frameOk pk.frame = false → runs = .next s) ∧
    (open_ → s.frameOk pk.frame = true → ¬ good → dropped UAL_DROP_BAD) ∧
    (open_ → s.frameOk pk.frame = true → good → ¬ ours → dropped UAL_DROP_FOREIGN) ∧
    (open_ → s.frameOk pk.frame = true → good → ours → h.epoch.toNat < s.epoch → dropped UAL_DROP_OLDEP) ∧
    (open_ → s.frameOk pk.frame = true → good → ours → s.epoch < h.epoch.toNat → ¬ pel → ∃ t, runs = .next t ∧
      t.d w UAL_DROP_NEWEP = Nat.min (s.d w UAL_DROP_NEWEP + 1) (2 ^ UAL_DROP_NEWEP.width - 1)) ∧
    (open_ → s.frameOk pk.frame = true → good → ours → h.epoch.toNat = s.epoch → ¬ pel →
      (h.step.toNat < cur ∨ (h.step.toNat = cur ∧ h.att.toNat < s.hd PEL_STATUS_ATT)) → dropped UAL_DROP_OLDEP) ∧
    (passes → h.dstdev.toNat ≠ s.devidx → s.routePort h.srcdev.toNat h.dstdev.toNat h.cls.toNat = none → dropped UAL_DROP_FOREIGN) ∧
    (∀ q, passes → h.dstdev.toNat ≠ s.devidx → s.routePort h.srcdev.toNat h.dstdev.toNat h.cls.toNat = some q →
      runs = .next (s.egress q ({ pk with frame := { pk.frame with tags := 0 } } : UalPkt))) ∧
    (here → h.step.toNat = cur + 1 → used + pktBytes pk ≤ 262144 → ∃ t, runs = .next t ∧ t.net.hold = s.net.hold ++ [(k, pk)] ∧
      t = { s with net := t.net, out := t.out }) ∧
    (here → h.step.toNat = cur + 1 → 262144 < used + pktBytes pk → runs = .next s) ∧
    (here → ¬ pel → cur + 2 ≤ h.step.toNat → ∃ t, runs = .next t ∧
      t.d w UAL_DROP_BAD = Nat.min (s.d w UAL_DROP_BAD + 1) (2 ^ UAL_DROP_BAD.width - 1)) ∧
    (here → h.step.toNat = cur ∨ (pel ∧ h.step.toNat ≠ cur + 1) → (h.cls ≠ 2 ∨ h.kind ≠ 0) → s.rep.check.own = none → s.net.ctlWait = [] →
      (h.seq.toNat < x.rxNext → ∃ t, runs = .next t ∧ t.d w UAL_RETX_DUP = Nat.min (s.d w UAL_RETX_DUP + 1) (2 ^ UAL_RETX_DUP.width - 1) ∧
        (t.stream (streamKey h.srcdev.toNat h.cls.toNat)).rxNext = x.rxNext) ∧
      (x.rxNext < h.seq.toNat → ∃ t, runs = .next t ∧ (t.stream (streamKey h.srcdev.toNat h.cls.toNat)).rxNext = x.rxNext ∧
        (∃ q ∈ (t.stream (streamKey h.srcdev.toNat h.cls.toNat)).held, q.h.seq = h.seq)) ∧
      (h.seq.toNat = x.rxNext → (h.cls ≠ 1 ∨ h.kind ≠ 1) → ∃ t, runs = .next t ∧
        x.rxNext < (t.stream (streamKey h.srcdev.toNat h.cls.toNat)).rxNext ∧
        (t.stream (streamKey h.srcdev.toNat h.cls.toNat)).ackDue = true))

/-- Acknowledgements and re-sends (R302, R373): an acknowledgement frees what stands below it, and what had been re-sent is counted;
an acknowledgement that is due is sent by itself; an expiry re-sends every packet that is not acknowledged, and past RTRY shows
an unrecoverable link, which halts the job in a slice without captains (log entry 131). A fenced module sends and takes none. -/
def Parts.UalarTimers : Prop :=
  ∀ (st : StreamId) (ack : BitVec 32) (s : State),
    let key := streamKey st.dev.toNat st.cls.toNat
    let x := s.stream key
    let late := x.unacked.any (fun q => decide (s.d (ndWin 0) UAL_CFG_RTRY ≤ q.2.1))
    (s.fenced = true → exec (.ualAck st ack) s = .next s ∧ exec (.ualAckTimer st) s = .next s ∧ exec (.ualRtoExpiry st) s = .next s) ∧
    (s.fenced = false → (∀ q ∈ x.unacked, ack.toNat ≤ q.1) → exec (.ualAck st ack) s = .next s) ∧
    (s.fenced = false → s.net.ctlWait = [] → ∃ t, exec (.ualAck st ack) s = .next t ∧
      (t.stream key).unacked = x.unacked.filter (fun q => decide (ack.toNat ≤ q.1)) ∧
      t.d (ndWin (s.streamDie key)) UAL_RETX_RETX = Nat.min (s.d (ndWin (s.streamDie key)) UAL_RETX_RETX +
        (x.unacked.filter (fun q => decide (q.1 < ack.toNat ∧ q.2.1 ≠ 0))).length) (2 ^ UAL_RETX_RETX.width - 1)) ∧
    (s.fenced = false → ∃ t, exec (.ualAck st ack) s = .next t ∧ ∀ q ∈ (t.stream key).unacked, ack.toNat ≤ q.1 ∨ s.net.ctlWait ≠ []) ∧
    (x.ackDue = false → exec (.ualAckTimer st) s = .next s) ∧
    (s.fenced = false → x.ackDue = true → (s.routePort s.devidx (key / 4) 2).isSome = true → ∃ t, exec (.ualAckTimer st) s = .next t ∧
      (t.stream key).ackDue = false ∧ (t.stream key).rxNext = x.rxNext ∧ (t.stream key).unacked = x.unacked) ∧
    (x.ackDue = true → s.routePort s.devidx (key / 4) 2 = none → exec (.ualAckTimer st) s = .next s) ∧
    (x.unacked = [] → exec (.ualRtoExpiry st) s = .next s) ∧
    (s.fenced = false → x.unacked ≠ [] → late = false → ∃ t, exec (.ualRtoExpiry st) s = .next t ∧
      (t.stream key).unacked = x.unacked.map (fun q => (q.1, q.2.1 + 1, q.2.2))) ∧
    (s.fenced = false → x.unacked ≠ [] → late = true → exec (.ualRtoExpiry st) s =
      .next (if s.loaded && !s.hasCaptains then (s.reportFault 0x05 noBlame 0 false).haltJob 0x05 else s.reportFault 0x05 noBlame 0 false))

/-- Rates, pauses and neighbours (R292, R300, R303, R304, R307, R373): an echo halves the rate toward its sender, down to 1/64;
every lowered rate rises by 1/64, up to the full one; a notification halves a queue pair's rate as it has recovered since; a
pause of a class is kept, and packets of the other classes are not held by it; a solicitation for the port's own address is
answered on a port that is not fenced; replacement routes stand before the entries they replace, the spares that still wait for the
OCS are free again, and with none the links of the ports that wait are unrecoverable. -/
def Parts.RatesAndPauses : Prop :=
  ∀ (p : PortId) (s : State),
    let k := portKey p
    let on := (∃ im, s.img = some im ∧ im.pfc = true) ∧ s.portState k = psUP ∧ s.ndRuns k = true
    (∀ dev : BitVec 16, ∃ t, exec (.ecnEcho dev) s = .next t ∧ t = { s with net := t.net } ∧
      let r := s.rate dev.toNat
      t.rate dev.toNat = (if r.1 < 2 * 2 ^ r.2 then (1, 0) else (r.1, r.2 + 1)) ∧ ∀ d, d ≠ dev.toNat → t.rate d = s.rate d) ∧
    (mcanon (64, 0) s.net.rates = true → ∃ t, exec .ecnRateRaise s = .next t ∧ t = { s with net := t.net } ∧
      ∀ d, t.rate d = if (s.rate d).1 + 2 ^ (s.rate d).2 < 64 * 2 ^ (s.rate d).2 then ((s.rate d).1 + 2 ^ (s.rate d).2, (s.rate d).2)
        else (64, 0)) ∧
    (∀ (nd : Fin 2) (q : Fin 256), ∃ t, exec (.roceCnp nd q) s = .next t ∧ t = { s with net := t.net } ∧
      let r := s.qpRate (nd.val * 256 + q.val)
      (t.qpRate (nd.val * 256 + q.val)).1 * (2 * r.2) = r.1 * (t.qpRate (nd.val * 256 + q.val)).2) ∧
    (∀ b, on → (s.port k).queue = [] →
      exec (.pfcPause p 1 b) s = .next (s.setPort k ({ s.port k with pauseBulk := b } : PortSt)) ∧
      exec (.pfcPause p 3 b) s = .next (s.setPort k ({ s.port k with pauseColl := b } : PortSt))) ∧
    (∀ b, on → ∃ t u, exec (.pfcPause p 1 b) s = .next t ∧ (t.port k).pauseBulk = b ∧ (t.port k).pauseColl = (s.port k).pauseColl ∧
      exec (.pfcPause p 3 b) s = .next u ∧ (u.port k).pauseColl = b ∧ (u.port k).pauseBulk = (s.port k).pauseBulk) ∧
    (∀ prio b, ¬ on ∨ (prio ≠ 1 ∧ prio ≠ 3) → exec (.pfcPause p prio b) s = .next s) ∧
    (∀ a, s.portAddr k = some a → (s.ndRuns k = true → s.portsFenced k = false → ∃ t, exec (.neighbourSolicitation p a) s = .next t ∧
        t = s.frameOut k (.advert a) ∧ (s.numbers k = false → t = s.emit (.advert p a))) ∧
      ∀ b, b ≠ a → exec (.neighbourSolicitation p b) s = .next s) ∧
    (∀ a, s.portAddr k = none ∨ s.portsFenced k = true ∨ s.ndRuns k = false → exec (.neighbourSolicitation p a) s = .next s) ∧
    (∀ rs im, s.hdRuns = true → s.img = some im → rs ≠ [] → exec (.replacementRoutes rs) s =
      .next { s with img := some ({ im with routes := rs ++ im.routes } : Image),
                     net := { s.net with nextWait := [], takeover := s.net.takeover.filter (fun x => x ∉ s.unconnected) } }) ∧
    (∀ im, s.hdRuns = true → s.img = some im → ∃ t, exec (.replacementRoutes []) s = .next t ∧ t.net.nextWait = [] ∧
      (s.net.nextWait = [] → s.unconnected = [] → t = s)) ∧
    (∀ rs, s.img = none ∨ s.hdRuns = false → exec (.replacementRoutes rs) s = .next s)

/-- Link-level replay, Ualar packets, rates and pauses. Log entry 26 names the form of acknowledgements. -/
def Obligations.LinksAndStreams : Prop :=
  Parts.LinkReplay ∧ Parts.PacketsIn ∧ Parts.UalarTimers ∧ Parts.RatesAndPauses

/-- Posts (R308 to R310): a write to another role's doorbell, or of another size, is an error of its token and posts nothing; a
descriptor that breaks R310 completes with an error of its own token; any other is in flight with the fields of R309. On a die whose
clock is stopped nothing happens (R20). -/
def Parts.CollectivePosts : Prop :=
  ∀ (c : SiteNo) (door : Fin 800) (n : Nat) (desc : BitVec 512) (tok : Fin 16) (s : State),
    let o := s.site c.val
    let q := collOf desc.toNat c.val s.stepNo
    let right := o.role = some door.val ∧ n = 64
    let bad := s.badDesc desc.toNat q
    let addr := s.badCollAddr o.roleNo q
    (o.role = none ∨ ¬ s.clocked c → exec (.collectivePost c door n desc tok) s = .next s) ∧
    (∀ r, s.clocked c → o.role = some r → ¬ right → ∃ t, exec (.collectivePost c door n desc tok) s = .next t ∧ t.col = s.col ∧
      (o.f (CORE_TOK_CNT tok.val) < 65535 → (t.site c.val).f (CORE_TOK_ERR tok.val) = 1 ∧
        (t.site c.val).f (CORE_TOK_CNT tok.val) = o.f (CORE_TOK_CNT tok.val) + 1)) ∧
    (s.clocked c → right → bad = true ∨ addr = true → ∃ t, exec (.collectivePost c door n desc tok) s = .next t ∧ t.col = s.col ∧
      (bad = true → t.d (ndWin 0) COL_STATUS_ERRS = Nat.min (s.d (ndWin 0) COL_STATUS_ERRS + 1) (2 ^ COL_STATUS_ERRS.width - 1)) ∧
      (o.f (CORE_TOK_CNT q.tok) < 65534 → (t.site c.val).f (CORE_TOK_ERR q.tok) = 1 ∧
        (t.site c.val).f (CORE_TOK_CNT q.tok) = o.f (CORE_TOK_CNT q.tok) + (if q.tok = tok.val then 2 else 1))) ∧
    (s.clocked c → right → bad = false → addr = false → ∃ t d, exec (.collectivePost c door n desc tok) s = .next t ∧
      (q.gid, q.bucket, q.len) ∈ t.col.seen ∧ d ∈ t.col.colls ∧ d.gid = q.gid ∧ d.bucket = q.bucket ∧ d.op = q.op ∧ d.dt = q.dt ∧ d.src = q.src ∧
      d.dst = q.dst ∧ d.len = q.len ∧ d.crec = q.crec ∧ d.site = c.val ∧ q.dma ∈ (t.site c.val).dmas ∧
      (o.f (CORE_TOK_CNT tok.val) < 65535 → (t.site c.val).f (CORE_TOK_CNT tok.val) = o.f (CORE_TOK_CNT tok.val) + 1))

/-- Messages of the engine (R308, R312, R316 to R318, R373): a rank's readiness counts at the decider, which decides once every rank
that it awaits is ready; a decision is taken once; a chunk is kept once and acknowledged; an acknowledgement is kept with its
collective; a fenced module takes none of them. -/
def Parts.CollectiveMessages : Prop :=
  ∀ (gid bucket : BitVec 16) (s : State),
    let g := gid.toNat
    let b := bucket.toNat
    let decided := s.col.decisions.any (fun d => d.1 = g && d.2.1 = b)
    (s.fenced = true → (∀ rank, exec (.ualReady gid bucket rank) s = .next s) ∧ (∀ l f, exec (.decideMsg gid bucket l f) s = .next s) ∧
      (∀ r n ws, exec (.chunkReceive gid bucket r n ws) s = .next s) ∧ ∀ r n, exec (.chunkAck gid bucket r n) s = .next s) ∧
    (∀ rank, s.fenced = false → s.rankIn g = some 0 → rank < s.nranks g → decided = false →
      ∃ t, exec (.ualReady gid bucket rank) s = .next t ∧ rank ∈ t.readyRanks g b ∧ (∀ r ∈ s.readyRanks g b, r ∈ t.readyRanks g b) ∧
        (s.recorded g b = none → (∀ r, r < s.nranks g → r = rank ∨ r ∈ s.readyRanks g b) → (g, b, [], false) ∈ t.col.decisions)) ∧
    (∀ rank, s.fenced = false → (s.rankIn g ≠ some 0 ∨ s.nranks g ≤ rank ∨ decided = true) → exec (.ualReady gid bucket rank) s = .next s) ∧
    (∀ late fold, s.fenced = false → (s.rankIn g).isSome = true → decided = false →
      ∃ t, exec (.decideMsg gid bucket late fold) s = .next t ∧ t.col.decisions = s.col.decisions ++ [(g, b, late, fold)] ∧
        (∀ c, s.coll g b = some c → (t.coll g b).map (·.decision) = some (some (late, fold)))) ∧
    (∀ late fold, s.fenced = false → (s.rankIn g = none ∨ decided = true) → exec (.decideMsg gid bucket late fold) s = .next s) ∧
    (∀ rank chunk c, s.fenced = false → s.coll g b = some c → exec (.chunkAck gid bucket rank chunk) s =
      .next (s.setColl { c with acked := linsert (rank, chunk) c.acked })) ∧
    (∀ rank chunk, s.coll g b = none → exec (.chunkAck gid bucket rank chunk) s = .next s) ∧
    (∀ rank chunk ws c me q, s.fenced = false → s.coll g b = some c → s.rankIn g = some me → rank ≠ me → rank < s.nranks g →
      q ∈ c.pieces (s.nranks g) me rank → q.1 = chunk → (∀ z ∈ c.pieces (s.nranks g) me rank, z.1 = chunk → z = q) →
      let late := match c.decision with
        | some d => d.1
        | none => []
      ws.length = (c.pad (s.nranks g) rank q.2.1 (decide (rank ∈ s.foldRanks c late)) +
        leafBytes c.dt (decide (rank ∈ s.foldRanks c late) && c.reduces) * q.2.2 + 7) / 8 →
      (c.contrib.any (fun x => x.1 = rank && x.2.1 = chunk) = false → ∃ t, exec (.chunkReceive gid bucket rank chunk ws) s = .next t ∧
        (t.coll g b).map (·.contrib) = some (c.contrib ++ [(rank, chunk, ws)])) ∧
      (c.contrib.any (fun x => x.1 = rank && x.2.1 = chunk) = true → ∃ t, exec (.chunkReceive gid bucket rank chunk ws) s = .next t ∧
        t.col = s.col)) ∧
    (∀ rank chunk ws, (s.coll g b = none ∨ s.rankIn g = none ∨ s.rankIn g = some rank ∨ s.nranks g ≤ rank) →
      exec (.chunkReceive gid bucket rank chunk ws) s = .next s)

/-- Cutoff, completion, deadlines (R308, R316, R317, R319): at the cutoff the decider announces the late ranks, or waits where its
policy says so or too many are late; a collective whose contributions are all here stores its result and completion record,
counts CTOK, and is in flight no more; a resumption is counted; a deadline that is missed is counted and reported. The result and the
record stand where no pannier lies, as the image keeps them apart. While the clock of the engine's die is stopped nothing happens (R20). -/
def Parts.CollectiveEnds : Prop :=
  ∀ (gid bucket : BitVec 16) (s : State),
    let g := gid.toNat
    let b := bucket.toNat
    let dl := s.groupDl g
    let on := s.dieRuns (ndWin 0) = true
    let apart : Nat → Nat → Prop := fun a n => ∀ nd, nd < 2 → a + n ≤ s.panBase nd ∨ s.panBase nd + s.panBytes nd ≤ a
    let missed : State → Prop := fun t =>
      t.d (ndWin 0) BRM_STATUS_MISS = Nat.min (s.d (ndWin 0) BRM_STATUS_MISS + 1) (2 ^ BRM_STATUS_MISS.width - 1)
    let awaits := (s.coll g b).isSome = true ∨ (s.rankIn g = some 0 ∧ s.col.decisions.any (fun d => d.1 = g && d.2.1 = b) = false ∧
      s.readyRanks g b ≠ [])
    (¬ on → exec (.cutoffExpiry gid bucket) s = .next s ∧ exec (.collectiveComplete gid bucket) s = .next s ∧
      exec (.collectiveResume gid bucket) s = .next s ∧ exec (.collectiveDeadline gid bucket) s = .next s ∧ exec .phaseTimerExpiry s = .next s) ∧
    ((g, b) ∉ s.col.cutoffs ∨ s.recorded g b ≠ none → exec (.cutoffExpiry gid bucket) s = .next s) ∧
    (on → (g, b) ∈ s.col.cutoffs → s.recorded g b = none → (dl.policy = 0 ∨ dl.maxlate < (s.lateRanks g b).length) → exec (.cutoffExpiry gid bucket) s =
      .next { s with col := { s.col with cutoffs := s.col.cutoffs.filter (fun c => c ≠ (g, b)) } }) ∧
    (on → (g, b) ∈ s.col.cutoffs → s.recorded g b = none → dl.policy ≠ 0 → (s.lateRanks g b).length ≤ dl.maxlate →
      s.col.decisions.any (fun d => d.1 = g && d.2.1 = b) = false → ∃ t, exec (.cutoffExpiry gid bucket) s = .next t ∧
      (g, b) ∉ t.col.cutoffs ∧ (g, b, s.lateRanks g b, decide (dl.policy = 1)) ∈ t.col.decisions) ∧
    (∀ c me late fold, on → s.coll g b = some c → s.rankIn g = some me → c.decision = some (late, fold) → s.collReady c me late = true →
      ∃ t, exec (.collectiveComplete gid bucket) s = .next t ∧ t.coll g b = none ∧
        (∀ d ∈ (t.site c.site).dmas, d.kind ≠ .collective g b) ∧
        ((s.site c.site).f (CORE_TOK_CNT c.tok) < 65535 → c.tok < 32 →
          (t.site c.site).f (CORE_TOK_CNT c.tok) = (s.site c.site).f (CORE_TOK_CNT c.tok) + 1) ∧
        (∀ res, res = (s.collResult c me late (s.foldRanks c late)).flatten → apart c.dst res.length → apart c.crec 64 → c.crec + 64 ≤ c.dst ∨ c.dst + res.length ≤ c.crec →
          (∀ i x, res[i]? = some x → (t.hbm.mark (c.dst + i)).1 = x.1) ∧
          t.hbm.read c.crec 64 = collRecord c (s.nranks g - late.length) (if c.reduces then (s.foldRanks c late).length else 0) (marksPoi res))) ∧
    (∀ c, s.coll g b = some c → (c.decision = none ∨ s.rankIn g = none) → exec (.collectiveComplete gid bucket) s = .next s) ∧
    (∀ c me d, s.coll g b = some c → s.rankIn g = some me → c.decision = some d → s.collReady c me d.1 = false →
      exec (.collectiveComplete gid bucket) s = .next s) ∧
    (∀ c me, on → s.coll g b = some c → s.rankIn g = some me → ∃ t, exec (.collectiveResume gid bucket) s = .next t ∧ t.col = s.col ∧
      t.d (ndWin 0) COL_STATUS_RESUME = Nat.min (s.d (ndWin 0) COL_STATUS_RESUME + 1) (2 ^ COL_STATUS_RESUME.width - 1)) ∧
    (s.coll g b = none ∨ s.rankIn g = none → exec (.collectiveResume gid bucket) s = .next s ∧ exec (.collectiveComplete gid bucket) s = .next s) ∧
    (dl.deadline = 0 ∨ ¬ awaits → exec (.collectiveDeadline gid bucket) s = .next s) ∧
    (on → dl.deadline ≠ 0 → awaits → ∃ t, exec (.collectiveDeadline gid bucket) s = .next t ∧ missed t) ∧
    (s.d (ndWin 0) BRM_STATUS_TIMER = 0 ∨ s.phaseLimit (s.d (ndWin 0) BRM_STATUS_TIMER) = 0 → exec .phaseTimerExpiry s = .next s) ∧
    (on → s.d (ndWin 0) BRM_STATUS_TIMER ≠ 0 → s.phaseLimit (s.d (ndWin 0) BRM_STATUS_TIMER) ≠ 0 → ∃ t, exec .phaseTimerExpiry s = .next t ∧ missed t ∧
      t.d (ndWin 0) BRM_STATUS_TIMER = 0)

/-- Collectives: messages, cutoff, completion and deadlines. Log entries 27, 28 and 30 name the model's choices. -/
def Obligations.Collectives : Prop :=
  Parts.CollectivePosts ∧ Parts.CollectiveMessages ∧ Parts.CollectiveEnds

/-- Every peloton message (R301, R357, R361, R362, R365, R372, R373): a module that is fenced, or whose hub die is stopped, takes no
part; one of another job, with a reserved value, or of an older epoch is discarded and counted where it came in, FENCED apart,
which counts in every epoch; one of a later epoch is taken in after the module has asked for what it lacks. -/
def Parts.PelotonMessages : Prop :=
  ∀ (i : Instr) (h : PelHdr) (old bad : Bool) (s : State), pelMsg i = some (h, old, bad) →
    let here := s.hdRuns = true ∧ s.fenced = false
    let good := s.loaded = true ∧ h.rsvd = false ∧ bad = false ∧ h.job.toNat = s.jobLo
    let now : PelHdr := { h with epoch := BitVec.ofNat 32 s.epoch }
    (¬ here → exec i s = .next s) ∧
    (here → (¬ good ∨ (old = false ∧ h.epoch.toNat < s.epoch)) → exec i s = .next
      (if h.plane = 1 then s.bumpHd MGT_CNT_DROPA 1 else if h.plane = 2 then s.bumpHd MGT_CNT_DROPB 1 else s.bumpD (ndWin 0) UAL_DROP_BAD 1)) ∧
    (here → good → s.epoch < h.epoch.toNat → exec i s = exec (withHdr i now) s.askSync) ∧
    (here → good → old = true → h.epoch.toNat < s.epoch → s.epoch < 2 ^ 32 → exec i s = exec (withHdr i now) s)

/-- Heartbeats and quorum (R354, R356 to R360): a heartbeat raises HBSEQ; the first copy of one clears the misses of its subject and
withdraws a report, a further copy only adds its plane; a miss is counted and from the eighth on reported; the loss of quorum
fences the module with REASON 2. That HBSEQs are told apart over half their range is the model's (log entry 112). -/
def Parts.Heartbeats : Prop :=
  ∀ (s : State) (h : PelHdr) (m : HbMsg) (subj : BitVec 16),
    let part := s.hdRuns = true ∧ s.loaded = true ∧ s.hasCaptains = true ∧ s.fenced = false
    let src := h.src.toNat
    let x := mfind s.pel.heard src
    let known := match x with
      | some y => y.seqs
      | none => []
    let counts := s.hdRuns = true ∧ s.fenced = false ∧ s.hasCaptains = true ∧ subj.toNat ∈ s.subjects
    (part → ∃ t, exec .heartbeatSend s = .next t ∧ t.pel.hbseq = (s.pel.hbseq + 1) % 2 ^ 32 ∧ t.pel.heard = s.pel.heard ∧
      (s.hbPeers ++ s.hbPod ≠ [] → ∃ f g, Out.pel 0x00 s.epoch (s.hbPeers ++ s.hbPod) 2 (s.hbWords 1) f ∈ t.out ∧
        Out.pel 0x00 s.epoch (s.hbPeers ++ s.hbPod) 4 (s.hbWords 2) g ∈ t.out)) ∧
    (¬ part → exec .heartbeatSend s = .next s) ∧
    (s.hdRuns = true → s.loaded = true → s.hasCaptains = true → s.inQuorum = false → exec .quorumLossFence s = .next (s.fence 2) ∧
      (s.fenced = false → (s.fence 2).pel.fencedWhy = some 2 ∧ (s.fence 2).hd PEL_STATUS_STATE = 3)) ∧
    (s.hdRuns = false ∨ s.loaded = false ∨ s.hasCaptains = false ∨ s.inQuorum = true → exec .quorumLossFence s = .next s) ∧
    (s.takes h → m.state.toNat ≤ 2 → m.plane ≠ 3 → s.hasCaptains = false → exec (.hb h m) s = .next s) ∧
    (s.takes h → m.state.toNat ≤ 2 → m.plane ≠ 3 → s.hasCaptains = true → m.hbseq.toNat ∉ known →
      ∃ t, exec (.hb h m) s = .next t ∧ mfind t.pel.heard src = some ⟨s.time, m.hbseq.toNat, 2 ^ h.plane.val, (m.hbseq.toNat :: known).take (2 ^ 31)⟩ ∧
        (∀ i ∈ s.subjIdx src, t.hd (PEL_SUBJ_MISSES i) = 0 ∧ t.hd (PEL_SUBJ_REPORTED i) = 0 ∧
          (s.hd (PEL_SUBJ_REPORTED i) = 1 → s.captainsOf (podOf src) ≠ [] →
            t.sentPel 0x02 s.epoch (s.captainsOf (podOf src)) (packWords 1 [(0, 16, src), (32, 32, m.hbseq.toNat)])))) ∧
    (∀ y, s.takes h → m.state.toNat ≤ 2 → m.plane ≠ 3 → s.hasCaptains = true → x = some y → m.hbseq.toNat ∈ y.seqs →
      ∃ t, exec (.hb h m) s = .next t ∧ t = { s with pel := t.pel } ∧
        mfind t.pel.heard src = some (if m.hbseq.toNat = y.seq then { y with planes := y.planes ||| 2 ^ h.plane.val } else y)) ∧
    (counts → ∃ t, exec (.heartbeatMiss subj) s = .next t ∧ ∀ i ∈ s.subjIdx subj.toNat,
      let n := Nat.min (s.hd (PEL_SUBJ_MISSES i) + 1) 255
      t.hd (PEL_SUBJ_MISSES i) = n ∧ (n < 8 → t.hd (PEL_SUBJ_REPORTED i) = s.hd (PEL_SUBJ_REPORTED i)) ∧
      (8 ≤ n → t.hd (PEL_SUBJ_REPORTED i) = 1 ∧ (s.captainsOf (podOf subj.toNat) ≠ [] → ∃ last,
        t.sentPel 0x01 s.epoch (s.captainsOf (podOf subj.toNat)) (packWords 1 [(0, 16, subj.toNat), (16, 8, n), (32, 32, last)])))) ∧
    (¬ counts → exec (.heartbeatMiss subj) s = .next s)

/-- Reports, proposals and votes (R359, R363, R364): a captain keeps a report until it is withdrawn; it proposes a subject once a
majority of the watchers reports it and its own view or 1 ms agrees; it accepts the first proposal for the coming epoch, that
one again, and no other; an acceptance counts once, and with a majority the declaration goes out; a proposal without a majority
is given up and its subject kept. -/
def Parts.Proposals : Prop :=
  ∀ (s : State) (h : PelHdr) (subj : BitVec 16) (n : BitVec 8) (q : BitVec 32),
    let d := subj.toNat
    let confirms := s.hdRuns = true ∧ s.fenced = false ∧ s.hasCaptains = true ∧ s.captainFor d = true ∧ s.declared d = false ∧
      s.majorityReports d = true ∧ (s.heardLately d = false ∨ s.stoodLong d = true) ∧
      (s.backupFor d = false ∨ (s.proposalSeen d = false ∧ s.stoodLong d = true))
    let src := h.src.toNat
    let answer : State → Nat → Nat → Nat → Prop := fun t ep who same =>
      t.sentPel 0x05 s.epoch [src] (packWords 1 [(0, 32, ep), (32, 16, who), (48, 1, same)])
    (s.takes h → s.captainFor d = true → ∃ t, exec (.missMsg h subj n q) s = .next t ∧ t = { s with pel := t.pel } ∧
      (∀ r, r ∈ t.pel.reports ↔ r = (d, src) ∨ r ∈ s.pel.reports) ∧
      (t.majorityReports d = true → s.pel.stood.any (fun e => e.1 = d) = false → (d, s.time) ∈ t.pel.stood)) ∧
    (s.takes h → s.captainFor d = false → exec (.missMsg h subj n q) s = .next s) ∧
    (s.takes h → ∃ t, exec (.withdrawMsg h subj q) s = .next t ∧ t = { s with pel := t.pel } ∧
      t.pel.reports = s.pel.reports.filter (fun r => r ≠ (d, src)) ∧ (t.majorityReports d = false → ∀ e ∈ t.pel.stood, e.1 ≠ d)) ∧
    (confirms → exec (.captainConfirm subj) s = .next (s.propose d 0x01)) ∧
    (¬ confirms → exec (.captainConfirm subj) s = .next s) ∧
    (∀ c, s.declared d = false → s.epoch < 2 ^ 32 - 1 → s.pel.proposal = none → s.fenced = false → s.captains ≠ [] →
      (s.propose d c).pel.proposal = some ⟨s.epoch + 1, d, c, []⟩ ∧
      (s.propose d c).sentPel 0x04 s.epoch (s.captains.map (·.2.1)) (packWords 1 [(0, 32, s.epoch + 1), (32, 16, d), (48, 8, c)])) ∧
    (∀ m : ProposeMsg, s.takes h → m.cause.toNat ≤ 0x0E →
      let caps := s.isCaptain s.devidx = true ∧ s.isCaptain src = true
      let mine := (m.newEp.toNat, m.subj.toNat, src)
      (¬ caps → exec (.proposeMsg h m) s = .next s) ∧
      (caps → s.pel.accepted = some mine ∨ (m.newEp.toNat = s.epoch + 1 ∧ ∀ a, s.pel.accepted = some a → a.1 ≠ m.newEp.toNat) →
        ∃ t, exec (.proposeMsg h m) s = .next t ∧ t.pel.accepted = some mine ∧ mine ∈ t.pel.proposed ∧ answer t m.newEp.toNat m.subj.toNat 1) ∧
      (∀ a, caps → s.pel.accepted = some a → a ≠ mine → a.1 = m.newEp.toNat →
        ∃ t, exec (.proposeMsg h m) s = .next t ∧ t.pel.accepted = some a ∧ mine ∈ t.pel.proposed ∧ answer t m.newEp.toNat a.2.1 0) ∧
      (caps → m.newEp.toNat ≠ s.epoch + 1 → (∀ a, s.pel.accepted = some a → a.1 ≠ m.newEp.toNat) →
        ∃ t who, exec (.proposeMsg h m) s = .next t ∧ t.pel.accepted = s.pel.accepted ∧ mine ∈ t.pel.proposed ∧ answer t m.newEp.toNat who 0)) ∧
    (∀ m : AcceptMsg, s.takes h →
      (∀ p, s.pel.proposal = some p → m.same = true → m.newEp.toNat = p.newEp → m.subj.toNat = p.subj → s.isCaptain src = true → src ∉ p.accepts →
        ∃ t, exec (.acceptMsg h m) s = .next t ∧ t.pel.proposal = some ({ p with accepts := src :: p.accepts } : Proposal) ∧
        (2 * p.accepts.length ≤ s.captains.length → s.captains.length < 2 * (p.accepts.length + 1) →
          t.sentPel 0x06 s.epoch (s.captains.map (·.2.1)) (declareWords p.newEp p.subj p.cause
            (Nat.max s.tierNow (if (s.lostWith p.subj).all (s.shardLives (s.lostWith p.subj)) then 2 else 3)) s.faultBoundary (s.nextAtt s.faultBoundary))) ∧
        (s.captains.length < 2 * p.accepts.length ∨ 2 * (p.accepts.length + 1) ≤ s.captains.length → t = { s with pel := t.pel })) ∧
      ((∀ p, s.pel.proposal = some p → m.same = false ∨ m.newEp.toNat ≠ p.newEp ∨ m.subj.toNat ≠ p.subj ∨ s.isCaptain src = false ∨ src ∈ p.accepts) →
        exec (.acceptMsg h m) s = .next s)) ∧
    (s.hdRuns = false ∨ s.fenced = true → exec .proposeTimeout s = .next s) ∧
    (s.hdRuns = true → s.fenced = false → s.pel.proposal = none → exec .proposeTimeout s = .next (match s.pel.wish with
      | [] => s
      | w :: l => ({ s with pel := { s.pel with wish := l } } : State).propose w.1 w.2)) ∧
    (∀ p, s.hdRuns = true → s.fenced = false → s.pel.proposal = some p → s.captains.length < 2 * p.accepts.length → exec .proposeTimeout s = .next s) ∧
    (∀ p, s.hdRuns = true → s.fenced = false → s.pel.proposal = some p → 2 * p.accepts.length ≤ s.captains.length →
      ∃ t, exec .proposeTimeout s = .next t ∧ t.pel.proposal = none ∧ (p.subj, p.cause) ∈ t.pel.wish ∧
        (s.syncTo ≠ [] → t.sentPel 0x09 s.epoch s.syncTo (packWords 1 [(0, 32, s.epoch)])))

/-- Peloton messages turned away; heartbeats, misses, quorum, reports, proposals and votes. Timers are events (log entry 57). -/
def Obligations.HeartbeatsAndProposals : Prop :=
  Parts.PelotonMessages ∧ Parts.Heartbeats ∧ Parts.Proposals

/-- Declarations (R365): the next one is adopted with its epoch, subject and cause, acknowledged in the new epoch, and the module
holds at its step entry; the subject of one fences itself; an older one changes nothing; one further ahead is held; a captain
answers SYNC with the declarations after the epoch asked for, at most 64; those of a SYNCREP that follow on the epoch are
adopted, and acknowledged to a captain of the subject's pod (log entry 131). -/
def Parts.Declarations : Prop :=
  ∀ (s : State) (h : PelHdr), s.takes h →
    (∀ m : DeclareMsg, m.cause.toNat ≤ 0x0E → m.tier ≠ 0 →
      (m.newEp.toNat ≤ s.epoch → exec (.declareMsg h m) s = .next s) ∧
      (m.newEp.toNat = s.epoch + 1 → ∃ t, exec (.declareMsg h m) s = .next t ∧
        (m.newEp.toNat, m.subj.toNat, m.cause.toNat) ∈ t.pel.adopted ∧ m.subj.toNat ∈ t.pel.gone ∧ m.newEp.toNat ≤ t.epoch) ∧
      (m.newEp.toNat = s.epoch + 1 → s.pel.held = [] → ∃ t, exec (.declareMsg h m) s = .next t ∧ t.epoch = m.newEp.toNat ∧
        t.hd PEL_DECL_SUBJ = m.subj.toNat ∧ t.hd PEL_DECL_CAUSE = m.cause.toNat ∧ t.hd PEL_DECL_TIER = m.tier.toNat ∧
        t.sentPel 0x0D m.newEp.toNat [h.src.toNat] (packWords 1 [(0, 8, 0x06), (32, 32, m.newEp.toNat)]) ∧
        (m.subj.toNat = s.devidx → t.pel.fencedWhy = some 1 ∧ t.hd PEL_STATUS_STATE = 3) ∧
        (m.subj.toNat ≠ s.devidx → s.host.admitted = true → s.host.halted = false → t.hd PEL_STATUS_STATE = 2 ∧
          (m.step.toNat, m.att.toNat) ∈ t.pel.rewinds)) ∧
      (s.epoch + 1 < m.newEp.toNat → (∀ x ∈ s.pel.held, x.2 ≠ m) → ∃ t, exec (.declareMsg h m) s = .next t ∧
        t.pel.held = s.pel.held ++ [(h.src.toNat, m)] ∧ t.epoch = s.epoch ∧
        (s.syncTo ≠ [] → t.sentPel 0x09 s.epoch s.syncTo (packWords 1 [(0, 32, s.epoch)]))) ∧
      (s.epoch + 1 < m.newEp.toNat → (∃ x ∈ s.pel.held, x.2 = m) → exec (.declareMsg h m) s = .next s)) ∧
    (∀ e : BitVec 32,
      let l := (s.pel.adopted.filter (fun d => decide (e.toNat < d.1))).take 64
      (s.isCaptain s.devidx = false ∨ l = [] → exec (.syncMsg h e) s = .next s) ∧
      (s.isCaptain s.devidx = true → l ≠ [] → ∃ t, exec (.syncMsg h e) s = .next t ∧ t.pel = s.pel ∧
        t.sentPel 0x0A s.epoch [h.src.toNat] (l.map (fun d => BitVec.ofNat 64 (d.1 + d.2.1 * 2 ^ 32 + d.2.2 * 2 ^ 48))))) ∧
    (∀ ws : List (BitVec 64), ws ≠ [] → ws.length ≤ 64 → (∀ w ∈ ws, w.toNat < 2 ^ 56 ∧ w.toNat / 2 ^ 48 ≤ 0x0E) →
      ((∀ w ∈ ws, w.toNat % 2 ^ 32 ≠ s.epoch + 1) → s.pel.held = [] → exec (.syncRep h ws) s = .next s) ∧
      (∀ w l, ws = w :: l → w.toNat % 2 ^ 32 = s.epoch + 1 → ∃ t, exec (.syncRep h ws) s = .next t ∧ s.epoch + 1 ≤ t.epoch ∧
        (s.epoch + 1, w.toNat / 2 ^ 32 % 2 ^ 16, w.toNat / 2 ^ 48) ∈ t.pel.adopted ∧ (w.toNat / 2 ^ 32 % 2 ^ 16) ∈ t.pel.gone ∧
        (s.proposerOf (w.toNat / 2 ^ 32 % 2 ^ 16) ≠ [] →
          t.sentPel 0x0D (s.epoch + 1) (s.proposerOf (w.toNat / 2 ^ 32 % 2 ^ 16)) (packWords 1 [(0, 8, 0x06), (32, 32, s.epoch + 1)]))) ∧
      ∃ t, exec (.syncRep h ws) s = .next t ∧ s.epoch ≤ t.epoch ∧ ∀ d ∈ s.pel.adopted, d ∈ t.pel.adopted)

/-- Faults, rewinds, halts, evictions, ACKs (R369 to R372, R342): a module that is no captain does not act on FAULT, one of another
pod's captains passes it to the lead, and the lead acts on it once; a rewind with a higher ATT holds the module, stops its cores
and is acknowledged, another is discarded; HALT stops the cores of live roles and tells the job runtime; a captain proposes a
module of its pod that is evicted or fenced; the last ACK of a rewind releases the slice. -/
def Parts.PelotonOrders : Prop :=
  ∀ (s : State) (h : PelHdr), s.takes h →
    let src := h.src.toNat
    (∀ m : FaultMsg, m.cause.toNat ≤ 0x0E →
      let b := m.blame.toNat
      let c := m.cause.toNat
      let key := (h.step.toNat, h.att.toNat, src, c, b, m.detail.toNat)
      let cap := s.isCaptain s.devidx = true
      let late := c = 2 ∧ m.detail.toNat = 7
      (¬ cap → exec (.pelFault h m) s = .next s) ∧
      (cap → key ∉ s.pel.faultsSeen → c = 6 → s.captainFor b = true → s.backupFor b = false → s.declared b = false → ∃ t, exec (.pelFault h m) s = .next t ∧ (b, 6) ∈ t.pel.dueProps) ∧
      (cap → s.isLead = true → key ∈ s.pel.faultsSeen → exec (.pelFault h m) s = .next s) ∧
      (cap → c ≠ 6 → ¬ late → s.isLead = true → key ∉ s.pel.faultsSeen → ∃ t, exec (.pelFault h m) s = .next t ∧ key ∈ t.pel.faultsSeen ∧
        (c = 9 ∨ c = 10 ∨ c = 11 → s.slice ≠ [] → t.sentPel 0x0C s.epoch s.slice (packWords 1 [(0, 8, c)])) ∧
        (c = 3 ∨ (c = 4 ∧ m.detail.toNat ≠ noCopyDetail) ∨ c = 5 ∨ (c = 2 ∧ s.pel.missed = [] ∧ s.test.blames = [] ∧ s.pel.declaredFor = []) →
          (s.gateState = gRUN ∨ s.gateState = gWAIT ∨ s.gateState = gSKIP ∨ s.gateState = gREWIND) →
          t.sentPel 0x07 s.epoch ((s.captains.filter (fun c => c.1 < 2)).map (·.2.1))
            (rewindWords (s.nextAtt s.faultBoundary) c s.tierNow s.faultBoundary)) ∧
        (c = 4 → m.detail.toNat = noCopyDetail → t.rep.tier3 = true ∧ (s.gateState ≠ gIDLE → s.gateState ≠ gHALT →
          t.sentPel 0x07 s.epoch ((s.captains.filter (fun c => c.1 < 2)).map (·.2.1)) (rewindWords (s.nextAtt s.faultBoundary) 4 3 s.faultBoundary))) ∧
        (c = 3 ∨ (c = 4 ∧ m.detail.toNat ≠ noCopyDetail) ∨ c = 5 → s.rep.tier3 = false → (s.gateState = gCOMMIT ∨ s.gateState = gDONE ∨ s.gateState = gIDLE ∨ s.gateState = gHALT) → t = { s with pel := t.pel }) ∧
        (c = 2 → b ≠ noBlame → s.gate.replay = true → (s.stepNo.toNat, m.detail.toNat, b) ∈ s.pel.missed → s.pel.declaredFor = [] → s.declared b = false →
          s.pel.proposal = none → s.epoch < 2 ^ 32 - 1 → t.pel.proposal = some ⟨s.epoch + 1, b, 6, []⟩) ∧
        (c = 2 → s.gate.replay = true → s.slice ≠ [] → (∃ d, (s.stepNo.toNat, m.detail.toNat, d) ∈ s.pel.declaredFor ∧ s.declared d = false) →
          t.sentPel 0x0C s.epoch s.slice (packWords 1 [(0, 8, 0x0C)]))) ∧
      (∀ l, cap → ¬ late → s.isLead = false → s.captainFor src = true → s.leadCaptain = some l → ∃ t, exec (.pelFault h m) s = .next t ∧
        t.sentPel 0x03 s.epoch [l] (packWords 1 [(0, 8, c), (8, 16, b), (24, 16, m.detail.toNat), (40, 1, if m.last then 1 else 0)])) ∧
      (cap → c ≠ 6 → ¬ late → s.isLead = false → s.captainFor src = false → ∃ t, exec (.pelFault h m) s = .next t ∧ key ∈ t.pel.faultsSeen ∧
        t = { s with pel := t.pel, test := t.test }) ∧
      (∀ u, cap → late → key ∉ s.pel.faultsSeen → s.tier2Of b = some u → ∃ t, exec (.pelFault h m) s = .next t ∧ Out.fenceOrder u.dom ∈ t.out) ∧
      (cap → late → s.tier2Of b = none → ∃ t, exec (.pelFault h m) s = .next t ∧ t.rep = s.rep)) ∧
    (∀ m : RewindMsg, m.cause.toNat ≤ 0x0E → m.tier ≠ 0 →
      let b := m.step.toNat
      let cur := Nat.max (if b = s.stepNo.toNat then s.hd PEL_STATUS_ATT else 0) (s.attOf b)
      let acked : State → Prop := fun t => t.sentPel 0x0D s.epoch [src] (packWords 1 [(0, 8, 0x07), (32, 32, m.att.toNat)])
      (m.att.toNat ≤ cur → exec (.pelRewind h m) s = .next s) ∧
      (cur < m.att.toNat → s.host.halted = true → ∃ t, exec (.pelRewind h m) s = .next t ∧ acked t ∧ t.pel = s.pel) ∧
      (cur < m.att.toNat → s.host.halted = false → ∃ t, exec (.pelRewind h m) s = .next t ∧ acked t ∧ (b, m.att.toNat) ∈ t.pel.rewinds ∧
        (s.host.admitted = true → t.hd PEL_STATUS_STATE = 2 ∧ (s.gate.gearOld = [] → ∀ n ∈ s.liveSites, (t.site n).active? = false) ∧
          (b = s.stepNo.toNat → (s.gateState = gRUN ∨ s.gateState = gWAIT ∨ s.gateState = gREWIND) →
            t.gateState = gREWIND ∧ t.gate.replay = true) ∧
          (b = s.stepNo.toNat → t.hd PEL_STATUS_ATT = m.att.toNat) ∧
          (b = s.stepNo.toNat + 1 → s.gateState = gWAIT → t.gate.stopped = true) ∧
          (s.gateState = gCOMMIT → t.gate.stopped = true ∧ t.gateState = gCOMMIT) ∧
          (b ≠ s.stepNo.toNat → s.gateState ≠ gCOMMIT → t.gateState = s.gateState ∧ t.hd PEL_STATUS_ATT = s.hd PEL_STATUS_ATT)))) ∧
    (∀ c : BitVec 8, c.toNat ≤ 0x0E →
      (s.host.halted = true → exec (.pelHalt h c) s = .next s) ∧
      (s.host.halted = false → ∃ t, exec (.pelHalt h c) s = .next t ∧ t.host.halted = true ∧ t.epoch = s.epoch ∧
        (∀ n ∈ s.liveSites, (t.site n).active? = false) ∧ t.gateState = (if s.gateState = gIDLE then gIDLE else gHALT) ∧
        Out.notify 0x01 (BitVec.ofNat 64 c.toNat) ∈ t.out)) ∧
    (∀ d : BitVec 16,
      (s.isCaptain s.devidx = true → d.toNat ∈ s.slice → s.captainFor d.toNat = true → exec (.pelEvict h d) s = .next (s.propose d.toNat 0x07)) ∧
      (s.isCaptain s.devidx = false ∨ d.toNat ∉ s.slice → exec (.pelEvict h d) s = .next s) ∧
      (∀ c l, s.isCaptain s.devidx = true → d.toNat ∈ s.slice → s.captainFor d.toNat = false → s.captainsOf (podOf d.toNat) = c :: l →
        ∃ t, exec (.pelEvict h d) s = .next t ∧ t.pel = s.pel ∧ t.sentPel 0x0B s.epoch [c] (packWords 1 [(0, 16, d.toNat)])) ∧
      (s.captainsOf (podOf d.toNat) = [] → exec (.pelEvict h d) s = .next s)) ∧
    (∀ m : FencedMsg, m.reason ≠ 0 → m.reason.toNat ≤ 5 →
      (s.captainFor src = true → src ∈ s.slice → s.declared src = false → exec (.fencedMsg h m) s = .next (s.propose src 0x08)) ∧
      (s.captainFor src = false ∨ src ∉ s.slice ∨ s.declared src = true → exec (.fencedMsg h m) s = .next s)) ∧
    (∀ (k : BitVec 8) (n : BitVec 32),
      let last := k.toNat = 7 ∧ s.isLead = true ∧ (n.toNat + 1) % 256 = s.nextAtt s.faultBoundary ∧
        s.slice.all (fun d => s.declared d || d = src || (7, n.toNat, d) ∈ s.pel.acks) = true
      (¬ last → ∃ t, exec (.pelAck h k n) s = .next t ∧ t = { s with pel := t.pel } ∧
        ∀ a, a ∈ t.pel.acks ↔ a = (k.toNat, n.toNat, src) ∨ a ∈ s.pel.acks) ∧
      (last → ∃ t, exec (.pelAck h k n) s = .next t ∧ (∀ a ∈ t.pel.acks, a.1 ≠ 7) ∧
        Out.mgt 0x22 0 0 (s.slice.filter (fun d => !s.declared d)) [] s.mgtFrom ∈ t.out))

/-- Declarations, SYNC, rewinds, halts, evictions and acknowledgements. -/
def Obligations.DeclarationsAndOrders : Prop :=
  Parts.Declarations ∧ Parts.PelotonOrders

/-- A fault of cause 0x09 reaches the lead captain, which sends HALT to every module; a module that takes HALT in stops the cores of
its live roles, reports it to its host die, and its epoch and declarations stay as they are (R371). -/
def Obligations.HaltForAProgramError : Prop :=
  ∀ (s : State) (h : PelHdr), s.takes h →
    (∀ m : FaultMsg, m.cause = 9 → s.isCaptain s.devidx = true → s.isLead = true → s.slice ≠ [] →
      (h.step.toNat, h.att.toNat, h.src.toNat, 9, m.blame.toNat, m.detail.toNat) ∉ s.pel.faultsSeen →
      ∃ t, exec (.pelFault h m) s = .next t ∧ t.sentPel 0x0C s.epoch s.slice (packWords 1 [(0, 8, 0x09)]) ∧ t.epoch = s.epoch ∧ t.pel.gone = s.pel.gone) ∧
    (∀ c : BitVec 8, c = 9 → s.host.halted = false → ∃ t, exec (.pelHalt h c) s = .next t ∧ (∀ n ∈ s.liveSites, (t.site n).active? = false) ∧
      Out.notify 0x01 9 ∈ t.out ∧ t.epoch = s.epoch ∧ t.pel.gone = s.pel.gone ∧ t.pel.adopted = s.pel.adopted)

/-- Requests to the optical circuit switch (R378 to R381, R383): a road captain sends 1 to 18 pairs with the next REQID; several may be
in progress; DONE ends one, PARTIAL asks for the pairs that are left, BUSY keeps it for a repeat, REFUSED ends it and treats its ports
or its domestique otherwise; a late answer to a refused request is undone by a request to disconnect; a repeat and a retry send the one
sent longest ago again under its REQID to both controllers; a timeout ends the oldest and reports the fault, or after a PARTIAL gives
the ports that are missing to R307. PEL_OCS shows the last request sent. -/
def Obligations.CircuitSwitch : Prop :=
  ∀ s : State,
    let ask := s.mayAsk = true
    let others : Nat → List OcsReq := fun id => s.pel.ocs.filter (fun q => q.reqid ≠ id)
    let sent : State → OcsReq → List OcsReq → Prop := fun t r l => t.pel.ocs = l ++ [r] ∧ t.hd PEL_OCS_REQID = r.reqid % 2 ^ 32 ∧
      t.hd PEL_OCS_STATUS = 0xFF ∧ t.hd PEL_OCS_DONEMASK = 0 ∧ t.pel.nextReq = (r.reqid + 1) % 2 ^ 32 ∧
      Out.ocs 0 false (s.ocsBytes r.reqid r.pairs) ∈ t.out
    let again : State → OcsReq → Prop := fun t r => t.pel.ocs = others r.reqid ++ [({ r with sends := r.sends + 1 } : OcsReq)] ∧
      t = { s with pel := t.pel, out := t.out } ∧
      ∀ c ∈ s.ocsCtl, Out.ocs c false (s.ocsBytes r.reqid r.pairs) ∈ t.out ∧ Out.ocs c true (s.ocsBytes r.reqid r.pairs) ∈ t.out
    let spares : State → OcsReq → Prop := fun t r => ∀ x ∈ s.net.takeover,
      (∃ p ∈ r.pairs, p.aser = s.serial ∧ p.aport.toNat = x.2 / 4) → x ∉ t.net.takeover ∧ x.1 ∈ t.net.nextWait
    (∀ ps, ask → ps ≠ [] → ps.length ≤ 18 → ∃ t, exec (.ocsRequest ps) s = .next t ∧
      sent t ⟨s.pel.nextReq, ps, 1, s.rep.tier2 = [] && s.rep.verdictWait = [], false, false, none, s.time⟩ s.pel.ocs) ∧
    (∀ ps, ¬ ask ∨ ps = [] ∨ 18 < ps.length → exec (.ocsRequest ps) s = .next s) ∧
    (∀ m : OcsRsp, ¬ ask ∨ m.magic ≠ 0x4F43 ∨ m.ver ≠ 1 ∨ m.typ ≠ 2 → exec (.ocsResponse m) s = .next s) ∧
    (∀ m : OcsRsp, ask → m.magic = 0x4F43 → m.ver = 1 → m.typ = 2 → s.ocsFind m.reqid.toNat = none →
      ((∀ o ∈ s.pel.ocsOld, o.1 ≠ m.reqid.toNat) → exec (.ocsResponse m) s = .next s) ∧
      (∀ o, s.pel.ocsOld.find? (fun o => o.1 = m.reqid.toNat) = some o → ∃ t, exec (.ocsResponse m) s = .next t ∧ (∀ x ∈ t.pel.ocsOld, x.1 ≠ m.reqid.toNat) ∧
        (m.status = 0 ∨ m.status = 1 →
          sent t ⟨s.pel.nextReq, o.2.map (fun p => { p with disconnect := true }), 1, true, false, false, none, s.time⟩ s.pel.ocs) ∧
        (m.status ≠ 0 → m.status ≠ 1 → t.out = s.out ∧ t.pel.ocs = s.pel.ocs))) ∧
    (∀ (m : OcsRsp) r, ask → m.magic = 0x4F43 → m.ver = 1 → m.typ = 2 → s.ocsFind m.reqid.toNat = some r →
      let left := ((r.pairs.zipIdx).filter (fun p => !m.doneMask.getLsbD p.2)).map (·.1)
      ∃ t, exec (.ocsResponse m) s = .next t ∧
        (m.status = 0 → t.pel.ocs = others r.reqid ∧
          (s.hd PEL_OCS_REQID = r.reqid → t.hd PEL_OCS_STATUS = 0 ∧ t.hd PEL_OCS_DONEMASK = m.doneMask.toNat)) ∧
        (m.status = 1 → left = [] → t.pel.ocs = others r.reqid) ∧
        (m.status = 1 → left ≠ [] → sent t ({ r with reqid := s.pel.nextReq, pairs := left, sends := 1, busy := false, rest := true } : OcsReq)
          (others r.reqid)) ∧
        (m.status = 3 → t.pel.ocs = others r.reqid ++ [({ r with busy := true } : OcsReq)] ∧
          (s.hd PEL_OCS_REQID = r.reqid → t.hd PEL_OCS_STATUS = 3)) ∧
        (m.status ≠ 0 → m.status ≠ 1 → m.status ≠ 3 → r.forSpare = true → t.pel.ocs = others r.reqid ∧ spares t r) ∧
        (m.status ≠ 0 → m.status ≠ 1 → m.status ≠ 3 → r.forSpare = false → (r.reqid, r.pairs) ∈ t.pel.ocsOld ∧
          (r.subj = none → Config.nextDomestique (r.pairs.map (·.aser)) = none → t.pel.ocs = others r.reqid) ∧
          (∀ d u ser, r.subj = some d → s.tier2Of d = some u → Config.nextDomestique u.tried = some ser → Out.domestique ser d ∈ t.out) ∧
          (∀ ser, r.subj = none → Config.nextDomestique (r.pairs.map (·.aser)) = some ser →
            sent t ⟨s.pel.nextReq, r.pairs.map (fun p => { p with aser := ser }), 1, false, false, false, none, s.time⟩ (others r.reqid)))) ∧
    (∀ r, ask → s.pel.ocs.find? (·.busy) = some r → ∃ t, exec .ocsBusyRepeat s = .next t ∧ again t r) ∧
    (∀ r, ask → s.pel.ocs.find? (fun q => !q.busy) = some r → ∃ t, exec .ocsRetryTimer s = .next t ∧ again t r) ∧
    (¬ ask ∨ s.pel.ocs.find? (·.busy) = none → exec .ocsBusyRepeat s = .next s) ∧
    (¬ ask ∨ s.pel.ocs.find? (fun q => !q.busy) = none → exec .ocsRetryTimer s = .next s) ∧
    (∀ r, ask → s.ocsOldest = some r →
      (r.rest = false → ∃ t, exec .ocsTimeout s = .next t ∧ t.pel.ocs = others r.reqid ∧ t.hd PEL_FLOG_VALID ≠ 0) ∧
      (r.rest = true → ∃ t, exec .ocsTimeout s = .next t ∧ t.pel.ocs = others r.reqid ∧ spares t r)) ∧
    (¬ ask ∨ s.ocsOldest = none → exec .ocsTimeout s = .next s)

/-- Alarms and fences (R373, R436, R437): an alarm is marked, logged and its policy applied: LOG alone, HALT with the fence, ERASE
with the device key and the current challenge gone too; code 0 and the reserved ones are never raised; a fence stops every core
of a live role, shows FENCED, and is announced on both management planes while it stands. A hub die whose clocks stand does none
of it. -/
def Parts.AlarmsAndFences : Prop :=
  ∀ s : State,
    (∀ (c : Fin 16) d, c.val = 0 ∨ 4 < c.val ∨ s.hdRuns = false → exec (.securityAlarm c d) s = .next s) ∧
    (∀ (c : Fin 16) d, 1 ≤ c.val → c.val ≤ 4 → s.hdRuns = true → ∃ t, exec (.securityAlarm c d) s = .next t ∧ t.sec.raised.getLsbD (c.val - 1) = true ∧
      (s.hd SEC_ALMLOG_VALID = 0 → t.hd SEC_ALMLOG_VALID = 1 ∧ t.hd SEC_ALMLOG_ALARM = c.val) ∧
      t.sentMgt 0x30 6 0 s.podCaptains [] ∧
      (s.alarmPolicy c.val = 0 → t.pel = s.pel ∧ t.sec.dev = s.sec.dev) ∧
      (1 ≤ s.alarmPolicy c.val → (s.fenced = false → t.pel.fencedWhy = some 4) ∧ ∀ l, s.loader = some l → t.loader = some { l with code := 0x23, sec := noSec }) ∧
      (2 ≤ s.alarmPolicy c.val → t.sec.dev = none ∧ t.sec.chal = none ∧ t.hd SEC_STATUS_KSTATE = 2)) ∧
    (∀ why, s.hdRuns = true → s.fenced = false → ∃ t, exec (.fence why) s = .next t ∧ t.pel.fencedWhy = some (fenceCode why) ∧
      t.hd PEL_STATUS_STATE = 3 ∧ (∀ n ∈ s.liveSites, (t.site n).active? = false) ∧ t.ckp.round = none ∧
      Out.notify 0x02 (BitVec.ofNat 64 (fenceCode why)) ∈ t.out) ∧
    (∀ why, s.hdRuns = false ∨ s.fenced = true → exec (.fence why) s = .next s) ∧
    (∀ why, s.hdRuns = true → s.pel.fencedWhy = some why → s.podCaptains ≠ [] → ∃ t, exec .fencedTimer s = .next t ∧
      t = { s with out := t.out } ∧ t.sentPel 0x08 (2 ^ 32 - 1) s.podCaptains (packWords 2 [(0, 4, why), (32, 32, s.epoch), (64, 64, s.serial.toNat)])) ∧
    (s.hdRuns = false ∨ s.pel.fencedWhy = none ∨ s.podCaptains = [] → exec .fencedTimer s = .next s)

/-- Clock faults (R20 to R22): a die that runs stops with the fault shown, and the module fences with REASON 3; for the hub die its
standby controller takes over and raises the alarm, and the dies that lose their links to it stop what they drive. A die that
stands stopped shows and counts a further fault and does no more, and one that stops after the hub die stops alone. -/
def Parts.ClockFaults : Prop :=
  ∀ (d : Fin 12) (nd : Fin 2) (cd : Fin 8) (s : State),
    let runs := s.d d.val CLK_STATUS_STOPPED ≠ 1
    let unlocked : State → Prop := fun t => t.d d.val CLK_STATUS_STOPPED = 1 ∧ t.d d.val CLK_STATUS_UNLOCK = 1 ∧ t.d d.val CLK_STATUS_LOCK = 0
    let glitched : State → Prop := fun t => t.d d.val CLK_STATUS_STOPPED = 1 ∧ t.d d.val CLK_STATUS_GLITCH = 1
    let erased : State → Prop := fun t => 2 ≤ s.alarmPolicy alCGLITCH → t.sec.dev = none ∧ t.sec.chal = none
    let fences : State → Prop := fun t => (s.fenced = false → t.pel.fencedWhy = some 3) ∧ t.sec.raised.getLsbD 2 = true ∧ erased t ∧
      (d.val = 11 → t.host.hxUp = false)
    let standby : State → Prop := fun t => t.pel.standby = true ∧ t.pel.fencedWhy = some 3 ∧ t.host.hxUp = false ∧ t.sec.raised.getLsbD 2 = true ∧
      erased t ∧ t.sites = s.sites
    let counts : State → State → Prop := fun t u => t.d d.val CLK_STATUS_UNLOCKS = satAdd CLK_STATUS_UNLOCKS.width (s.d d.val CLK_STATUS_UNLOCKS) 1 ∧
      u.d d.val CLK_STATUS_GLITCHES = satAdd CLK_STATUS_GLITCHES.width (s.d d.val CLK_STATUS_GLITCHES) 1
    (¬ runs → ∃ t u, exec (.pllUnlock d) s = .next t ∧ unlocked t ∧ exec (.clockGlitch d) s = .next u ∧ glitched u ∧ counts t u ∧
      t = { s with regs := t.regs } ∧ u = { s with regs := u.regs }) ∧
    (runs → ∃ t u, exec (.pllUnlock d) s = .next t ∧ unlocked t ∧ exec (.clockGlitch d) s = .next u ∧ glitched u ∧ counts t u ∧
      (d.val = 8 → standby t ∧ standby u) ∧
      (d.val ≠ 8 → s.pel.standby = false → fences t ∧ fences u) ∧
      (d.val ≠ 8 → s.pel.standby = true → t = { s with regs := t.regs } ∧ u = { s with regs := u.regs })) ∧
    (s.pel.standby = true → s.podCaptains ≠ [] → ∃ t, exec .fencedStandbyTimer s = .next t ∧ t = { s with out := t.out } ∧
      t.sentPel 0x08 (2 ^ 32 - 1) s.podCaptains (packWords 2 [(0, 4, 3), (32, 32, s.epoch), (64, 64, s.serial.toNat)])) ∧
    (s.pel.standby = true → exec (.networkLinkLoss nd) s = .next { s with net := { s.net with cut := linsert nd.val s.net.cut } } ∧
      ∃ t, exec (.hubLinkStop cd) s = .next t ∧ (∀ n ∈ s.liveSites, n / 104 = cd.val → (t.site n).active? = false) ∧
        (∀ n, n / 104 ≠ cd.val → t.site n = s.site n)) ∧
    (s.pel.standby = false → exec (.networkLinkLoss nd) s = .next s ∧ exec (.hubLinkStop cd) s = .next s) ∧
    (s.pel.standby = false ∨ s.podCaptains = [] → exec .fencedStandbyTimer s = .next s)

/-- Alarms, fencing and clock faults. Log entry 44 says what a full alarm log does. -/
def Obligations.AlarmsAndClocks : Prop :=
  Parts.AlarmsAndFences ∧ Parts.ClockFaults

/-- A round on a module (R388, R393, R394, R396): an order for a step that is still to come begins it, one that is late is answered;
a seal after the data signs it, or fails it where the module cannot sign; CKOK ends it as complete or abandons it, and a manifest
written by then is overwritten with zeros; a failed
queue pair or a poisoned page of it fails it. What is not an order of the lead captain for this module and this round changes
nothing. -/
def Parts.CheckpointRound : Prop :=
  ∀ (m : CkMsg) (s : State),
    let answered : State → Nat → Nat → Nat → Nat → Nat → Prop := fun t typ status slot step seq =>
      t.sentMgt 0x20 0 0 [s.ckLead] (ckPayload typ status s.devidx slot step seq s.jobLo 0 0)
    let late := s.gateState ≠ gIDLE ∧ m.step.toNat ≤ s.stepNo.toNat
    (s.ckOrdered m 1 = false → exec (.ckOrder m) s = .next s) ∧
    (s.ckOrdered m 1 = true → late → ∃ t, exec (.ckOrder m) s = .next t ∧ t.ckp = s.ckp ∧ answered t 2 2 m.slot.toNat m.step.toNat m.ckseq.toNat) ∧
    (∀ r, s.ckOrdered m 1 = true → ¬ late → s.ckp.round = some r → r.ckseq = m.ckseq.toNat → exec (.ckOrder m) s = .next s) ∧
    (s.ckOrdered m 1 = true → ¬ late → (∀ r, s.ckp.round = some r → r.ckseq ≠ m.ckseq.toNat) → ∃ t, exec (.ckOrder m) s = .next t ∧
      t.ckp.round = some (Round.fresh m) ∧ t.hd CKP_ROUND_CKSEQ = m.ckseq.toNat ∧ t.hd CKP_STATUS_SLOT = m.slot.toNat ∧
      (s.ckLead ≠ s.devidx → t.ckp.lead = some (m.step.toNat, s.time)) ∧
      (s.ckp.round ≠ none → Out.notify 0x06 (BitVec.ofNat 64 (2 ^ 64 - 1)) ∈ t.out)) ∧
    (∀ r, s.ckp.round = some r →
      let seals := s.ckOrdered m 3 = true ∧ r.ckseq = m.ckseq.toNat ∧ s.hd CKP_STATUS_STATE = 2 ∧ r.sealed = false
      let ends := s.ckOrdered m 5 = true ∧ r.ckseq = m.ckseq.toNat
      let zeroed : State → Prop := fun t => r.sealed = true → s.storesTo t r.slot 0 (List.replicate 65536 0)
      let failed : State → Prop := fun t => t.ckp.round = none ∧ answered t 2 1 r.slot r.step.toNat r.ckseq ∧ zeroed t
      (seals → s.provisioned = true → ∃ t, exec (.ckSeal m) s = .next t ∧ t.ckp.round = some ({ r with sealed := true } : Round) ∧ t.hd CKP_STATUS_STATE = 3 ∧
        s.storesTo t r.slot 0 (s.manifest r) ∧ answered t 4 0 r.slot r.step.toNat r.ckseq) ∧
      (seals → s.provisioned = false → ∃ t, exec (.ckSeal m) s = .next t ∧ failed t) ∧
      (¬ seals → exec (.ckSeal m) s = .next s) ∧
      (ends → m.status = 0 → r.sealed = true → ∃ t, exec (.ckOk m) s = .next t ∧ t.ckp.round = none ∧ t.ckp.newest = some r.slot ∧
        t.hd CKP_LASTOK_STEP = r.step.toNat ∧ t.hd CKP_STATUS_STATE = 0 ∧ Out.notify 0x06 r.step ∈ t.out) ∧
      (ends → m.status = 3 → ∃ t, exec (.ckOk m) s = .next t ∧ t.ckp.round = none ∧ t.ckp.newest = s.ckp.newest ∧ zeroed t) ∧
      (¬ ends ∨ (m.status ≠ 3 ∧ (m.status ≠ 0 ∨ r.sealed = false)) → exec (.ckOk m) s = .next s) ∧
      (s.takesPart = true → ∃ t, exec (.checkpointRoundFail .queuePair) s = .next t ∧ failed t) ∧
      (∀ p, s.takesPart = true → r.armed = true → p ∈ r.protect → p ∉ r.acked → ∃ t, exec (.checkpointRoundFail (.poisoned p)) s = .next t ∧ failed t ∧
        p ∈ t.rep.poison) ∧
      (∀ p, r.armed = false ∨ p ∉ r.protect ∨ p ∈ r.acked → exec (.checkpointRoundFail (.poisoned p)) s = .next s)) ∧
    (s.ckp.round = none → exec (.ckSeal m) s = .next s ∧ exec (.ckOk m) s = .next s) ∧
    (∀ why, s.ckp.round = none ∨ s.takesPart = false → exec (.checkpointRoundFail why) s = .next s)

/-- The lead captain's part (R386, R387, R393, R396, R399): it collects the stored and the sealed data of the round and orders the
seal and the end; it abandons the round at a failure or when its time is up; it collects the slots of every place, and with the
last one orders the restore or halts the job. -/
def Parts.CheckpointLead : Prop :=
  ∀ (m : CkMsg) (s : State),
    let order : State → Nat → Nat → Nat → Nat → Prop := fun t typ status step seq => ∀ d ∈ s.slice,
      t.sentMgt 0x20 0 0 [d] (ckPayload typ status d s.nextSlot step seq s.jobLo 0 0)
    let gives := s.takesPart = true ∧ s.ckMine m 7 = true ∧ s.ckLead = s.devidx ∧ m.dev.toNat ∈ s.slice
    let slots := s.ckp.slots.filter (fun e => e.1 ≠ m.dev.toNat) ++ [(m.dev.toNat, m.step0.toNat, m.step1.toNat)]
    (s.ckCollects m 2 = true → m.status = 0 → ∃ t, exec (.ckData m) s = .next t ∧ (∀ d, d ∈ t.ckp.dataOk ↔ d = m.dev.toNat ∨ d ∈ s.ckp.dataOk) ∧
      t.ckp.leadRound = s.ckp.leadRound ∧
      (s.wholeSlice s.ckp.dataOk = false → s.wholeSlice t.ckp.dataOk = true → order t 3 0 m.step.toNat m.ckseq.toNat)) ∧
    (s.ckCollects m 2 = true → (m.status = 1 ∨ m.status = 2) → ∃ t, exec (.ckData m) s = .next t ∧ t.ckp.leadRound = false ∧ t.ckp.again = true) ∧
    (s.ckCollects m 2 = false ∨ m.status = 3 → exec (.ckData m) s = .next s) ∧
    (s.ckCollects m 4 = true → ∃ t, exec (.ckSealed m) s = .next t ∧ (∀ d, d ∈ t.ckp.sealed ↔ d = m.dev.toNat ∨ d ∈ s.ckp.sealed) ∧
      (s.wholeSlice t.ckp.sealed = true → t.ckp.leadRound = false ∧ t.ckp.newest = some s.nextSlot) ∧
      (s.wholeSlice t.ckp.sealed = false → t.ckp.leadRound = s.ckp.leadRound ∧ t.out = s.out)) ∧
    (s.ckCollects m 4 = false → exec (.ckSealed m) s = .next s) ∧
    (s.takesPart = true → s.ckLead = s.devidx → s.ckp.leadRound = true → ∃ t, exec .cktoExpiry s = .next t ∧ t.ckp.leadRound = false ∧ t.ckp.again = true ∧
      ∀ b x, s.ckp.lead = some (b, x) → order t 5 3 b (s.ckp.nextSeq - 1)) ∧
    (s.takesPart = false ∨ s.ckLead ≠ s.devidx ∨ s.ckp.leadRound = false → exec .cktoExpiry s = .next s) ∧
    (¬ gives → exec (.ckSlots m) s = .next s) ∧
    (gives → ∃ t, exec (.ckSlots m) s = .next t ∧ t.ckp.slots = slots ∧
      (s.wholeSlice (slots.map (·.1)) = false → t = { s with ckp := t.ckp }) ∧
      (∀ b, s.wholeSlice (slots.map (·.1)) = true → commonStep slots = some b → ∀ e ∈ slots,
        t.sentMgt 0x20 0 0 [e.1] (ckPayload 8 0 e.1 ((slotWith e b).getD 0) b 0 s.jobLo 0 0)) ∧
      (s.wholeSlice (slots.map (·.1)) = true → commonStep slots = none → t.host.halted = true))

/-- Copy-on-write (R389 to R392, R396): a write to a protected page is held; the copy into a free page of the stage lets it go on,
and waits for a page and for a retirement; storage's acknowledgement of the next page is noted, and frees the page from the
stage; a page with a poisoned word fails the round. A die whose clocks stand takes no part (R20). -/
def Parts.CopyOnWrite : Prop :=
  ∀ (p ns : Nat) (who : PageWriter) (s : State),
    let a := p * 65536
    (∀ r, s.ckp.round = some r →
      let copies := s.reaches (pageDie p) = true ∧ s.snapHeld p = true ∧ r.held.any (fun h => h.1 = p) = true
      let writes := s.takesPart = true ∧ s.dieRuns (pageDie p) = true ∧ r.armed = true ∧ s.nextWrite r = some p
      let spoiled : State → Prop := fun t => t.ckp.round = none ∧ p ∈ t.rep.poison
      (s.dieRuns (pageDie p) = true → s.snapHeld p = true → (p, who) ∉ r.held → ∃ t, exec (.snapshotHeldWrite p who) s = .next t ∧
        t.ckp.round = some ({ r with held := r.held ++ [(p, who)] } : Round) ∧ t.hbm = s.hbm ∧ t.sites = s.sites) ∧
      (s.dieRuns (pageDie p) = false ∨ s.snapHeld p = false ∨ (p, who) ∈ r.held → exec (.snapshotHeldWrite p who) s = .next s) ∧
      (¬ copies → exec (.priorityCopyDone p ns) s = .next s) ∧
      (copies → (s.freeStage r (pageDie p) = none ∨ s.retiring a 65536 = true) → exec (.priorityCopyDone p ns) s = .next s) ∧
      (∀ i, copies → s.freeStage r (pageDie p) = some i → s.retiring a 65536 = false → s.hbm.badIn a 65536 = false → ∃ t x,
        exec (.priorityCopyDone p ns) s = .next t ∧ t.ckp.round = some x ∧ p ∈ x.copied ∧ (p, i) ∈ x.staged ∧ (∀ h ∈ x.held, h.1 ≠ p) ∧
        ((∀ role ∈ s.liveRoles, ∀ j, (s.pageSt role).copying = some j → (s.pagesOf role)[j]? ≠ some p) →
          t.hbm = s.hbm.copyRange a (s.stageAddr (pageDie p) i) 65536)) ∧
      (∀ i, copies → s.freeStage r (pageDie p) = some i → s.retiring a 65536 = false → s.hbm.badIn a 65536 = true → ∃ t,
        exec (.priorityCopyDone p ns) s = .next t ∧ spoiled t) ∧
      (∀ i, s.reaches (pageDie p) = true → (p, i) ∈ r.staged → p ∈ r.acked → ∃ t x, exec (.stagePageFreed p) s = .next t ∧ t.ckp.round = some x ∧
        x.staged = r.staged.filter (fun e => e.1 ≠ p) ∧ x.acked = r.acked) ∧
      (s.reaches (pageDie p) = false ∨ p ∉ r.acked ∨ (∀ e ∈ r.staged, e.1 ≠ p) → exec (.stagePageFreed p) s = .next s) ∧
      (∀ k fmt base, writes → s.objOf p = some (k, fmt, base) → s.hbm.badIn (s.pageAt r p) 65536 = false → ∃ t x,
        exec (.checkpointPageWriteAck p) s = .next t ∧ t.ckp.round = some x ∧ x.acked = r.acked ++ [p] ∧ p ∈ x.copied ∧ (∀ h ∈ x.held, h.1 ≠ p) ∧
        s.storesTo t r.slot (objOff s.ckObjs k + (p * 65536 - base) / (if fmt = 0 then 1 else 2)) (storedPage fmt (s.hbm.read (s.pageAt r p) 65536)).1 ∧
        (r.protect.all (fun q => q ∈ r.acked ++ [p]) = true → t.hd CKP_STATUS_STATE = 2)) ∧
      (∀ k fmt base, writes → s.objOf p = some (k, fmt, base) → s.hbm.badIn (s.pageAt r p) 65536 = true → ∃ t,
        exec (.checkpointPageWriteAck p) s = .next t ∧ spoiled t) ∧
      (¬ writes ∨ s.objOf p = none → exec (.checkpointPageWriteAck p) s = .next s)) ∧
    (s.ckp.round = none → exec (.snapshotHeldWrite p who) s = .next s ∧ exec (.priorityCopyDone p ns) s = .next s ∧
      exec (.stagePageFreed p) s = .next s ∧ exec (.checkpointPageWriteAck p) s = .next s)

/-- The restore (R399, R400): a query is answered with the slots' boundaries; manifests that are valid and of the boundary start it,
with every core of a live role stopped and the step of the boundary, and the first object is read by RDMA READ; an object whose
digest matches is put in its place, an owner's into the mirror pages of its pages, and the next one is read, or the module reports
ready; one whose digest does not match is read once more, and then the restore fails and the slot is reported empty. -/
def Parts.Restores : Prop :=
  ∀ (m : CkMsg) (s : State),
    let reads : State → Restore → Prop := fun t r => ∃ f, Out.rdmaRead r.src (numAt (r.mfs.getD r.src []) (64 + 64 * r.obj + 16) 8)
      (mfObj (r.mfs.getD r.src []) r.obj).2.2.2.1 f ∈ t.out
    let failed : State → Nat → Prop := fun t slot => t.ckp.restore = none ∧ t.hd CKP_STATUS_STATE = 0 ∧
      t.ckp.own = (if slot = 0 then noStep else s.ckp.own.1, if slot = 1 then noStep else s.ckp.own.2)
    let ofPartner : Manifest × Nat → Prop := fun e => ∃ im p, s.img = some im ∧ im.resil.partners.find? (fun p => p.1 = e.2) = some p ∧
      s.manifestOk p.2.1 (numAt e.1 5 1) e.1 = true
    (∀ l, s.ckOrdered m 6 = true → ∃ t, exec (.ckQuery m l) s = .next t ∧
      t.ckp.own = (s.slotStep 0 (l.getD 0 []), s.slotStep 1 (l.getD 1 [])) ∧
      t.sentMgt 0x20 0 0 [s.ckLead] (ckPayload 7 0 s.devidx 0 0 0 s.jobLo t.ckp.own.1 t.ckp.own.2)) ∧
    (∀ l, s.ckOrdered m 6 = false → exec (.ckQuery m l) s = .next s) ∧
    (∀ mf l, s.ckOrdered m 8 = true →
      let valid := s.manifestOk s.devidx m.slot.toNat mf = true ∧ (∀ e ∈ l.zipIdx, ofPartner e) ∧ ∀ b ∈ mf :: l, mfStep b = m.step.toNat
      (valid → ∃ t, exec (.ckRestore m mf l) s = .next t ∧ t.gate.step = m.step ∧ t.hd CKP_STATUS_STATE = 4 ∧
        t.ckp.restore = some ⟨mf :: l, 0, 0, false⟩ ∧ reads t ⟨mf :: l, 0, 0, false⟩ ∧ t.gateState = (if s.gateState = gIDLE then gIDLE else gREWIND) ∧
        ∀ n ∈ s.liveSites, (t.site n).active? = false) ∧
      (¬ valid → ∃ t, exec (.ckRestore m mf l) s = .next t ∧ failed t m.slot.toNat)) ∧
    (∀ mf l, s.ckOrdered m 8 = false → exec (.ckRestore m mf l) s = .next s) ∧
    (∀ x : ObjectRead, s.ckp.restore = none → exec (.restoreObjectRead x) s = .next s) ∧
    (∀ (x : ObjectRead) r, s.ckp.restore = some r →
      let o := mfObj (r.mfs.getD r.src []) r.obj
      let due := s.takesPart = true ∧ x.src = r.src ∧ x.idx = r.obj ∧ x.second = r.retried
      let right := x.stored.length = o.2.2.2.1 ∧ sha32 x.stored = o.2.2.2.2
      (¬ due → exec (.restoreObjectRead x) s = .next s) ∧
      (due → right → ∃ t, exec (.restoreObjectRead x) s = .next t ∧
        t.hbm = (if r.src = 0 then s.hbm.write o.1 (restoredBytes o.2.1 x.stored) false
          else s.hbm.fillPages (s.mirrorPages (r.src - 1)) o.1 (restoredBytes o.2.1 x.stored)) ∧
        ((s.nextObj r).src < r.mfs.length → t.ckp.restore = some (s.nextObj r) ∧ reads t (s.nextObj r)) ∧
        (r.mfs.length ≤ (s.nextObj r).src → t.ckp.restore = none ∧ t.hd CKP_STATUS_STATE = 0 ∧
          t.ckp.newest = some (numAt (r.mfs.getD 0 []) 5 1) ∧ t.sentMgt 0x21 s.stepNo (BitVec.ofNat 64 s.jobLo) [s.ckLead] [] ∧
          t.hd PEL_CGLS_LSCALE = numAt (r.mfs.getD 0 []) 36 4 % 2 ^ PEL_CGLS_LSCALE.width ∧ t.hd PEL_CGSTATE_CLEAN = numAt (r.mfs.getD 0 []) 40 2 % 2 ^ PEL_CGSTATE_CLEAN.width)) ∧
      (due → ¬ right → r.retried = false →
        ∃ t, exec (.restoreObjectRead x) s = .next t ∧ t.ckp = { s.ckp with restore := some ({ r with retried := true } : Restore) } ∧ t.hbm = s.hbm ∧ reads t r) ∧
      (due → ¬ right → r.retried = true → ∃ t, exec (.restoreObjectRead x) s = .next t ∧ failed t (numAt (r.mfs.getD 0 []) 5 1)))

/-- Checkpoint rounds, the lead's part, copy-on-write and restores. Log entries 42 and 77 name the model's choices. -/
def Obligations.CheckpointWork : Prop :=
  Parts.CheckpointRound ∧ Parts.CheckpointLead ∧ Parts.CopyOnWrite ∧ Parts.Restores

/-- Writes of registers by firmware and the job runtime (R232, R281, R282, R289): without hub-die firmware, or at an address without
a register, nothing is written; a write that is rejected changes nothing but FRM_WREJ, which shows its writer, code and address;
one that is accepted gives each RW or LIVE field it covers its value, makes the value of each SHADOW field pending, clears the
bits of an RW1C field, and leaves every field of another register as it was. -/
def Parts.RegisterWrites : Prop :=
  ∀ (w : Writer) (addr : BitVec 44) (v mask : BitVec 64) (s : State),
    let who := if w = .firmware then 0 else 1
    (w ≠ .program → s.hdRuns = false → exec (.regWrite w addr v mask) s = .next s) ∧
    (w ≠ .program → s.placeReg addr.toNat = none → Config.tableWord addr.toNat = none → exec (.regWrite w addr v mask) s = .next s) ∧
    (∀ u, w ≠ .program → s.hdRuns = true → s.placeReg addr.toNat = none → Config.tableWord addr.toNat = some u →
      let r := s.writeTable w (u.1 % 832) (u.2.1 % 32) (u.2.2 % tableWords) v.toNat
      exec (.regWrite w addr v mask) s = .next (if r.2 = 0 then r.1 else r.1.recordRejection who r.2 addr.toNat)) ∧
    (∀ p r, w ≠ .program → s.hdRuns = true → s.placeReg addr.toNat = some p → p.reg = some r →
      let code := s.writeCode w p r v.toNat mask.toNat
      let t := s.writeReg p r v.toNat mask.toNat
      let hit := r.hit mask.toNat
      let val : Fld → Nat := fun x => bitsOf v.toNat x.hi x.lo
      (code ≠ 0 → ∃ t, exec (.regWrite w addr v mask) s = .next t ∧
        t.hd FRM_WREJ_VALID = 1 ∧ t.hd FRM_WREJ_CODE = code ∧ t.hd FRM_WREJ_WRITER = who ∧ t.hd FRM_WREJ_ADDR = addr.toNat % 2 ^ FRM_WREJ_ADDR.width ∧
        t = { s with regs := t.regs } ∧ ∀ x n, x.off ≠ FRM_WREJ_CODE.off → x.off < 2 ^ 24 → x.lo < 64 → t.d n x = s.d n x) ∧
      (code = 0 → exec (.regWrite w addr v mask) s = .next t) ∧
      (∀ k off, p = .die k off → (∀ x ∈ hit, x.cls = .rw ∨ x.cls = .shadow ∨ (x.cls = .live ∧ (x = BIST_CFG_HOLD → k ≠ hdWin))) →
        (∀ x ∈ hit, x.cls = .rw ∨ x.cls = .live → t.d k x = val x) ∧
        (∀ x ∈ hit, x.cls = .shadow → mfind t.shadow (dieKey k x) = some (val x) ∧ t.d k x = s.d k x) ∧
        t.sites = s.sites ∧ t.hbm = s.hbm ∧ t.out = s.out ∧ ∀ x n, x.off ≠ off → x.off < 2 ^ 24 → x.lo < 64 → t.d n x = s.d n x) ∧
      (∀ k off x, p = .die k off → hit = [x] → x.cls = .rw1c → s.d k x < 2 ^ x.width → s.d k x &&& val x = 0 → t.d k x = s.d k x) ∧
      (∀ k off x, p = .die k off → hit = [x] → x.cls = .rw1c → s.d k x < 2 ^ x.width → s.d k x &&& val x ≠ s.d k x → t.d k x = s.d k x - (s.d k x &&& val x)) ∧
      (∀ n off, p = .site n off → off < 0x9200 ∨ 0x9600 ≤ off → (∀ x ∈ hit, x.cls = .rw ∨ x.cls = .shadow) → (∀ x ∈ hit, x ≠ CORE_PC_PC) →
        (∀ x ∈ hit, x.cls = .rw → (t.site n).f x = val x) ∧
        (∀ x ∈ hit, x.cls = .shadow → mfind (t.site n).shadow x.key = some (val x) ∧ (t.site n).f x = (s.site n).f x) ∧
        (∀ m, m ≠ n → t.site m = s.site m) ∧ t.regs = s.regs ∧ t.hbm = s.hbm ∧ t.out = s.out ∧
        ∀ x, x.off ≠ off → x.lo < 64 → (t.site n).f x = (s.site n).f x))

/-- A write to its own site window by the program of a core that runs takes ACCESS with detail PRIV (R125); where it covers a STATIC field, it
leaves the code of that rejection too (R281). The core of a site that does not run, or of a die whose clocks stand, issues no write. -/
def Parts.ProgramWrites : Prop :=
  ∀ (addr : BitVec 44) (v mask : BitVec 64) (s : State),
    let goes := exec (.regWrite .program addr v mask) s
    ((∀ n off, s.placeReg addr.toNat ≠ some (.site n off)) → goes = .next s) ∧
    (∀ n off r, s.placeReg addr.toNat = some (.site n off) → siteReg off = some r →
      ((s.site n).f CORE_STATE_STATE ≠ 1 ∨ s.dieRuns (n / 104) = false → goes = .next s) ∧
      (s.dieRuns (n / 104) = true → (s.site n).f CORE_STATE_STATE = 1 →
        let static := (r.hit mask.toNat).any (fun x => x.cls = .stat) = true
        ∃ t, goes = .next t ∧ (t.site n).recorded exACCESS acPRIV (2 ^ 9) ((s.site n).f CORE_PC_PC) ∧
          (static → (t.site n).f CORE_STATE_RJCT = 1) ∧ (¬ static → (t.site n).f CORE_STATE_RJCT = 0) ∧
          SameFiles (s.site n) (t.site n) ∧ SameMems (s.site n) (t.site n) ∧ t.hbm = s.hbm))

/-- REGRD and REGWR (R232, R281, R452, R471): a register's value is answered; a hidden counter, an address without a register and a
rejected write are REJECTED, with their code, which R288 does not reserve; an accepted write has its effect and is answered OK. -/
def Parts.HostRegisters : Prop :=
  ∀ (h : HostHdr) (addr v mask : BitVec 64) (s : State),
    let reads := s.hostTakes h 0x01 false false
    let writes := s.hostTakes h 0x02 false false
    let coded : Nat → Prop := fun c => (1 ≤ c ∧ c ≤ 5) ∨ (16 ≤ c ∧ c ≤ 35)
    (∀ p r, s.placeReg addr.toNat = some p → p.reg = some r →
      (reads → s.ctrHidden p = false → exec (.regrd h addr) s = .next (s.emit (.hostRsp h.via h.typ h.tag rsOK 0 (BitVec.ofNat 64 (s.readReg p)) []))) ∧
      (reads → s.ctrHidden p = true → exec (.regrd h addr) s = .next (s.emit (.hostRsp h.via h.typ h.tag rsREJECTED 4 0 []))) ∧
      (writes → s.writeCode .runtime p r v.toNat mask.toNat = 0 → exec (.regwr h addr v mask) s =
        .next ((s.writeReg p r v.toNat mask.toNat).emit (.hostRsp h.via h.typ h.tag rsOK 0 0 []))) ∧
      (writes → s.writeCode .runtime p r v.toNat mask.toNat ≠ 0 → exec (.regwr h addr v mask) s =
        .next ((s.recordRejection 1 (s.writeCode .runtime p r v.toNat mask.toNat) addr.toNat).emit
          (.hostRsp h.via h.typ h.tag rsREJECTED (s.writeCode .runtime p r v.toNat mask.toNat) 0 [])))) ∧
    (s.placeReg addr.toNat = none →
      (reads → ∃ code, coded code ∧ exec (.regrd h addr) s = .next (s.emit (.hostRsp h.via h.typ h.tag rsREJECTED code 0 [])).skipFree) ∧
      (writes → Config.tableWord addr.toNat = none → ∃ code, coded code ∧
        exec (.regwr h addr v mask) s = .next (s.emit (.hostRsp h.via h.typ h.tag rsREJECTED code 0 [])).skipFree) ∧
      (∀ u, writes → Config.tableWord addr.toNat = some u → ∃ t c, exec (.regwr h addr v mask) s = .next t ∧ (c = 3 ∨ c = 4) ∧
        t.hd FRM_WREJ_CODE = c ∧ t.out = .hostRsp h.via h.typ h.tag rsREJECTED c 0 [] :: s.out ∧ t.sites = s.sites))

/-- Writes and reads of registers by firmware, runtime, program and host. Log entries 40 and 67 name the model's choices. -/
def Obligations.RegisterAccess : Prop :=
  Parts.RegisterWrites ∧ Parts.ProgramWrites ∧ Parts.HostRegisters

/-- A request of the host message layer (R430, R451, R452): without hub-die firmware or a port that is up it is lost; in recovery
a management port discards and counts all but FWINSTALL, and so it does with a message marked as a response; a bad one, of another TYPE, with
a reserved bit or a PLEN that its TYPE does not allow, or one that its port does not take, is counted and answered BADMSG;
the 65th of the job runtime is REFUSED with code 4. That a response is discarded is the model's choice (log entry 128). -/
def Obligations.HostRequests : Prop :=
  ∀ (i : Instr) (h : HostHdr) (typ : Nat) (mgt recov : Bool) (s : State), hostReq i = some (h, typ, mgt, recov) →
    let bad := h.typ.toNat ≠ typ ∨ h.rsvd = true ∨ plenOk typ h.plen.toNat = false ∨ (if h.via = .hx then 65536 else 8192) < h.plen.toNat
    ((s.hdRuns = false ∨ s.viaUp h.via = false) → exec i s = .next s) ∧
    (s.hdRuns = true → s.viaUp h.via = true → ((s.hd SEC_STATUS_RECOV = 1 ∧ recov = false) ∨ h.rsp = true) → exec i s = .next (match h.via with
      | .hx => s
      | .mgtA => s.bumpHd MGT_CNT_DROPA 1
      | .mgtB => s.bumpHd MGT_CNT_DROPB 1)) ∧
    (s.hdRuns = true → s.viaUp h.via = true → (s.hd SEC_STATUS_RECOV ≠ 1 ∨ recov = true) → h.rsp = false →
      ((bad ∨ (h.via ≠ .hx ∧ mgt = false)) → ∃ t, exec i s = .next t ∧ t.out = .hostRsp h.via h.typ h.tag rsBADMSG 0 0 [] :: s.out ∧
        t.hd UCI_MSG_BAD = satAdd UCI_MSG_BAD.width (s.hd UCI_MSG_BAD) 1 ∧ t = { s with regs := t.regs, out := t.out }) ∧
      (¬ bad → h.via = .hx → 64 ≤ s.host.outstanding → exec i s = .next (s.emit (.hostRsp h.via h.typ h.tag rsREFUSED 4 0 []))))

/-- Loading a frame image (R276 to R278): a request in NONE or REJECTED starts the loader, which finds the code of the first check
that fails; another is REJECTED with code 0x22, one of an unfit module with 0x1E. At the end an image that passed is in force
with every one of its roles on its site, and one that did not, or a hardware fault, leaves STATE REJECTED with its code; the
request is answered while the host link is up. -/
def Parts.FrameImageLoads : Prop :=
  ∀ (h : HostHdr) (s : State),
    let idle := s.hd FRM_STATUS_STATE = 0 ∨ s.hd FRM_STATUS_STATE = 3
    (s.hostTakes h 0x03 false false → ¬ idle → exec (.frmload h) s = .next (s.emit (.hostRsp h.via h.typ h.tag rsREJECTED 0x22 0 []))) ∧
    (s.hostTakes h 0x03 false false → idle → s.unfit = true → exec (.frmload h) s = .next (s.emit (.hostRsp h.via h.typ h.tag rsREJECTED 0x1E 0 []))) ∧
    (s.hostTakes h 0x03 false false → idle → s.unfit = false →
      ∃ t l, exec (.frmload h) s = .next t ∧ t.loader = some l ∧ l.via = h.via ∧ l.tag = h.tag ∧ t.hd FRM_STATUS_STATE = 1 ∧
        t.host.outstanding = s.host.outstanding + 1 ∧
        (∀ code sec, s.checkLoad = .bad code sec → l.code = code ∧ l.sec = sec ∧ l.image = none) ∧
        (∀ hd ss key dig, s.checkLoad = .good hd ss key dig → l.code = 0 ∧ l.image = some (imageOf hd ss key (imageDieKeys ss)) ∧ l.places = s.placed ss) ∧
        t.sites = s.sites ∧ t.hbm = s.hbm ∧ t.img = s.img) ∧
    (∀ l hw, s.loader = some l → s.hdRuns = true → ∃ t, exec (.frameLoadComplete hw) s = .next t ∧ t.loader = none ∧
      t.host.outstanding = s.host.outstanding - 1 ∧
      let answered : Nat → Nat → Prop := fun status code => s.host.hxUp = true → t.out.head? = some (.hostRsp l.via 0x03 l.tag status code 0 [])
      (∀ im, l.image = some im → l.code = 0 → hw = false → t.img = some im ∧ t.hd FRM_STATUS_STATE = 2 ∧ t.gate = Gate.reset ∧
        (∀ p ∈ l.places, (∀ q ∈ l.places, q.2 = p.2 → q = p) → (t.site p.2).role = some p.1) ∧ answered rsOK 0) ∧
      (∀ im, l.image = some im → l.code = 0 → hw = true → t.hd FRM_STATUS_STATE = 3 ∧ t.hd FRM_STATUS_LCODE = 0x23 ∧
        (∀ p ∈ l.places, t.site p.2 = Site.reset) ∧ answered rsREJECTED 0x23) ∧
      (l.code ≠ 0 → t.hd FRM_STATUS_STATE = 3 ∧ t.hd FRM_STATUS_LCODE = l.code % 2 ^ FRM_STATUS_LCODE.width ∧ t.img = s.img ∧ t.sites = s.sites ∧
        answered rsREJECTED l.code) ∧
      (s.host.hxUp = false → t.out = s.out)) ∧
    (∀ hw, s.loader = none ∨ s.hdRuns = false → exec (.frameLoadComplete hw) s = .next s)

/-- Panniers beyond sending (R328, R329): a packet of the bulk or collective class whose record does not fit sets OVF, switches
keeping off and, while the hub die runs, halts the job; one that fits, or another, changes nothing; a resent packet leaves on the port its destination
routes to and is counted there; one without a route, or a number without a record, sends nothing. -/
def Parts.Panniers : Prop :=
  ∀ (nd : Fin 2) (s : State),
    (∀ k : UalPkt,
      let full := s.loaded = true ∧ k.h.cls.toNat < 2 ∧ s.panBytes nd.val < ((s.kept nd.val).map Kept.size).sum + Kept.size ⟨k.h.step, 0, k⟩
      (full → ∃ t, exec (.pannierOverflow nd k) s = .next t ∧ t.d (ndWin nd.val) PAN_STATUS_OVF = 1 ∧ nd.val ∈ t.rep.panOff ∧ t.rep.pan = s.rep.pan ∧
        (s.hdRuns = true → t.host.halted = true)) ∧
      (¬ full → exec (.pannierOverflow nd k) s = .next s)) ∧
    (∀ n r, (s.kept nd.val)[n]? = some r → exec (.pannierResend nd n .retransmission) s = .next (s.resend r.pkt none) ∧
      (∀ a, exec (.pannierResend nd n (.catchUp a)) s = .next (s.resend r.pkt (some a)) ∧
        exec (.pannierResend nd n (.referee a)) s = .next (s.resend r.pkt (some a))) ∧
      let door := s.routePort s.devidx r.pkt.h.dstdev.toNat r.pkt.h.cls.toNat
      ∀ a, (door = none → s.resend r.pkt a = s) ∧
        (∀ q, door = some q → (s.portState q ≠ psUP ∨ s.portsFenced q = true ∨ s.storagePort q = true) → (s.resend r.pkt a).out = s.out) ∧
        (∀ q, door = some q → r.pkt.h.cls.toNat < 2 → (s.resend r.pkt a).d (ndWin (keyDie q)) PAN_RESEND_PKTS =
          Nat.min (s.d (ndWin (keyDie q)) PAN_RESEND_PKTS + 1) (2 ^ PAN_RESEND_PKTS.width - 1)) ∧
        (s.resendHdr r.pkt a).words = r.pkt.words ∧ (r.pkt.h.cls.toNat < 2 → (s.resendHdr r.pkt a).h.resend = true)) ∧
    (∀ n why, (s.kept nd.val)[n]? = none → exec (.pannierResend nd n why) s = .next s)

/-- Frame loads, and the panniers of a step. The order of the loader's checks is the model's (log entry 35). -/
def Obligations.FrameLoads : Prop :=
  Parts.FrameImageLoads ∧ Parts.Panniers

/-- A fault of a unit (R406, R407, R409): a LASTING unit stays so and its entry takes the time; the first fault enters an EVENT with the powered
seconds; a second one within 24 hours, one whose retry failed too, or one that finds the table full makes the unit LASTING. A KIND or UNIT that is
not coded as R407 gives changes nothing. -/
def Parts.SpareTableFaults : Prop :=
  ∀ (kind : BitVec 8) (unit : BitVec 48) (second : Bool) (s : State),
    let k := kind.toNat
    let u := unit.toNat
    let l := s.test.table
    let again := ∃ e ∈ l, e.isFor k u = true ∧ e.state = seEVENT ∧ e.expired s.tsec = false
    let full := 4096 ≤ (l.filter (fun e => !e.expired s.tsec)).length
    let goes := exec (.spareTableFault kind unit second) s
    ((s.hdRuns = false ∨ k = 0 ∨ 0x0B < k ∨ unitOk k u = false) → goes = .next s) ∧
    (s.hdRuns = true → unitOk k u = true → s.lasting k u = true → ∃ t, goes = .next t ∧ t.regs = s.regs ∧ t.sites = s.sites ∧ t.test.excess = s.test.excess ∧
      t.test.table = l.map (fun e => if e.isFor k u = true ∧ e.state = seLASTING then { e with tlast := s.tsec } else e)) ∧
    (s.hdRuns = true → unitOk k u = true → s.lasting k u = false → ∃ t, goes = .next t ∧
      ((second = true ∨ again ∨ full) → t.lasting k u = true) ∧
      (second = false → ¬ again → ¬ full → ⟨k, seEVENT, u, s.tsec, s.tsec⟩ ∈ t.test.table ∧ t.lasting k u = false ∧
        (∀ e ∈ l, e.isFor k u = false → e.expired s.tsec = false → e ∈ t.test.table) ∧ t = { s with test := t.test, mgt := t.mgt, out := t.out }))

/-- FULL of an idle module (R243, R411, R413, R419): the runs of the installed package's entries count, and when they cover every unit, each unit
that became LASTING has a spare and the module can sign, it writes a pass record with WHERE 3; otherwise the record before stands. With a job loaded
nothing runs. QUICK runs where it applies, and keeps the newest pass record. -/
def Parts.SelfTests : Prop :=
  ∀ (res : FullResult) (quick : QuickResult) (s : State),
    let p := s.test.pkg
    let rs := pkgRuns p (fun _ => true) res.runs
    let rep := res.repaired.foldl (fun s u => s.hardRepair u.toNat) (s.testRuns 1)
    let r := rep.runAll rs
    let qs := pkgRuns p (fun e => decide (numAt e 0 1 = 8 ∨ numAt e 0 1 = 10) && !entryMargin e) quick.runs
    (s.hdRuns = false ∨ s.jobLoaded = true ∨ s.quickApplies = false → exec (.selfTestQuick quick) s = .next s) ∧
    (s.hdRuns = true → s.jobLoaded = false → s.quickApplies = true → ∃ t, exec (.selfTestQuick quick) s = .next t ∧ t.test.pass = s.test.pass ∧
      ((∀ e ∈ qs, misr e.first = e.expSig) → t = s.testRuns 2)) ∧
    (s.jobLoaded = true ∨ s.hdRuns = false → exec (.selfTestFull res) s = .next s) ∧
    (s.hdRuns = true → s.jobLoaded = false → ∃ t, exec (.selfTestFull res) s = .next t ∧
      ((s.provisioned = false ∨ p = [] ∨ r.1.covers p (fun _ => true) classUnits rs = false ∨ ∃ u ∈ r.2, r.1.noSpare u.1 u.2 = true) → t = r.1) ∧
      (s.provisioned = true → p ≠ [] → r.1.covers p (fun _ => true) classUnits rs = true → (∀ u ∈ r.2, r.1.noSpare u.1 u.2 = false) → ∃ p, t.test.pass = some p ∧ p.wher = 3 ∧ p.bootcnt = r.1.test.bootcnt ∧
        p.tsec = r.1.tsec ∧ p.orderly = false ∧ t.test.mustTest = false ∧ t.free = r.1.free + 1 ∧ t.test.table = r.1.test.table) ∧
      ((∀ e ∈ rs, misr e.first = e.expSig) → r = (rep, [])))

/-- Slices (R412, R423): one that is due is counted, and starts at once when none runs, HOLD is 0, the gate is in RUN and no
recovery is under way, with the sites of its number that are not LASTING to be tested; it waits otherwise, and one that HOLD
keeps longer than an interval is reported. -/
def Parts.Slices : Prop :=
  ∀ s : State,
    let due := s.hdRuns = true ∧ s.host.admitted = true ∧ s.sliced = true
    let waits := s.hd BIST_CFG_HOLD = 1 ∨ s.test.visit ≠ none ∨ s.gateState ≠ gRUN ∨ s.rep.tier2 ≠ [] ∨ s.rep.tier3 = true
    (¬ due → exec .sliceDue s = .next s) ∧
    (due → waits → ∃ t, exec .sliceDue s = .next t ∧ t.test = { s.test with due := s.test.due + 1 } ∧
      (0 < s.test.due → s.hd BIST_CFG_HOLD = 1 → Out.notify 0x07 8 ∈ t.out) ∧
      ((s.test.due = 0 ∨ s.hd BIST_CFG_HOLD ≠ 1) → t = { s with test := t.test })) ∧
    (due → ¬ waits → ∃ t, exec .sliceDue s = .next t ∧ t.test.due = s.test.due ∧ t.test.nextSlice = (s.test.nextSlice + 1) % 32 ∧
        t.test.visits = s.test.visits + 1 ∧
        ((∀ n, n < 832 → sliceOf n = s.test.nextSlice → s.siteBad n = true) → t.test.visit = none) ∧
        ((∃ n, n < 832 ∧ sliceOf n = s.test.nextSlice ∧ s.siteBad n = false) →
          t.test.visit = some ⟨s.test.nextSlice, (List.range 832).filter (fun n => decide (sliceOf n = s.test.nextSlice) && !s.siteBad n), [], [], 0,
            s.test.visits + 1, s.test.pkg, false⟩) ∧
        t.hd BIST_STATUS_SLICE = s.test.nextSlice % 2 ^ BIST_STATUS_SLICE.width ∧ t = { s with test := t.test, regs := t.regs })

/-- Tests of a slice's sites, of spare ports and of a freed control core (R411, R414, R418, R419): a site of the slice without a role is put under
test; the runs of the entries that the visit's package applies count; a site that passes is noted, one that fails twice becomes LASTING and is
shown, and the visit ends with the last of them. A spare port that is not in use and fails twice becomes LASTING, one that fails once is an EVENT;
a control core is done with once its entries have run. -/
def Parts.SiteTests : Prop :=
  ∀ (c : SiteNo) (s : State),
    let passes : EntryRun → Prop := fun e => misr e.first = e.expSig
    let twice : EntryRun → Prop := fun e => misr e.first ≠ e.expSig ∧ misr e.second ≠ e.expSig
    let once : EntryRun → Prop := fun e => misr e.first ≠ e.expSig ∧ misr e.second = e.expSig
    let shown : State → EntryRun → Prop := fun t e => t.hd BIST_FAIL_VALID = 1 ∧ t.hd BIST_FAIL_TESTID = e.testId.toNat % 2 ^ BIST_FAIL_TESTID.width
    (s.test.visit = none ∨ s.hdRuns = false → exec (.siteTest c) s = .next s ∧ (∀ r, exec (.siteTestDone c r) s = .next s) ∧
      ∀ r, exec (.portTest r) s = .next s) ∧
    (∀ v, s.hdRuns = true → s.test.visit = some v →
      let starts := c.val ∈ v.todo ∧ (s.site c.val).role = none ∧ s.hd BIST_CFG_HOLD = 0
      let runs : List EntryRun → List EntryRun := fun r => (pkgRuns v.pkg v.atSite r).filter (fun x => unitOfSite c.val x.kind.toNat x.unit.toNat)
      let ports : List PortRun → List EntryRun := fun r =>
        pkgRuns v.pkg (v.beside 9) (r.map (fun p => { p.run with kind := 0x07, unit := BitVec.ofNat 48 p.port.val }))
      let ctl : List PortRun → Nat → List EntryRun := fun r i => (pkgRuns v.pkg (v.beside 8) (r.map (·.run))).filter (fun x => x.unit.toNat = i)
      let whole : List PortRun → Nat → Prop := fun r i => ctl r i ≠ [] ∧ s.covers v.pkg (v.beside 8) (fun _ => [(ukCTL, i)]) (ctl r i) = true
      (starts → exec (.siteTest c) s = .next { s with test := { s.test with
        visit := some { v with todo := v.todo.filter (· ≠ c.val), testing := linsert c.val v.testing } } }) ∧
      (¬ starts → exec (.siteTest c) s = .next s) ∧
      (∀ r, c.val ∉ v.testing → exec (.siteTestDone c r) s = .next s) ∧
      (∀ r, c.val ∈ v.testing → (∀ e ∈ runs r, passes e) →
        let sound := s.siteBad c.val = false ∧ s.covers v.pkg v.atSite (fun k => siteUnits k c.val) (runs r) = true
        let w : Visit := { v with testing := v.testing.filter (· ≠ c.val), passed := if sound then linsert c.val v.passed else v.passed }
        exec (.siteTestDone c r) s = .next (if w.todo = [] ∧ w.testing = [] ∧ s.test.ctlTest = none
          then ({ s with test := { s.test with visit := none } } : State).trySlice else { s with test := { s.test with visit := some w } })) ∧
      (∀ r e, c.val ∈ v.testing → runs r = [e] → twice e → e.kind = 1 →
        ∃ t, exec (.siteTestDone c r) s = .next t ∧ t.siteBad c.val = true ∧ shown t e) ∧
      (∀ r e, c.val ∈ v.testing → runs r = [e] → once e → e.kind = 1 → s.test.table = [] → s.siteBad c.val = false →
        ∃ t, exec (.siteTestDone c r) s = .next t ∧ t.siteBad c.val = false ∧ shown t e ∧ t.test.table = [⟨1, seEVENT, siteUnit c.val, s.tsec, s.tsec⟩]) ∧
      (∀ r, (∀ e ∈ ports r, e.unit.toNat ∉ s.freePorts ∨ passes e) →
        ((∀ i, s.test.ctlTest = some i → ¬ whole r i) → exec (.portTest r) s = .next s) ∧
        (∀ i, s.test.ctlTest = some i → whole r i → (∀ e ∈ ctl r i, passes e) → exec (.portTest r) s =
          .next (({ s with test := { s.test with ctlTest := none } } : State).closeVisit)) ∧
        (∀ i e, s.test.ctlTest = some i → whole r i → ctl r i = [e] → twice e →
          ∃ t, exec (.portTest r) s = .next t ∧ t.lasting ukCTL i = true ∧ t.test.ctlTest = none)) ∧
      (∀ r e, s.test.ctlTest = none → ports r = [e] → e.unit.toNat ∈ s.freePorts → twice e →
        ∃ t, exec (.portTest r) s = .next t ∧ t.lasting ukPORT e.unit.toNat = true ∧ shown t e) ∧
      (∀ r e, s.test.ctlTest = none → ports r = [e] → e.unit.toNat ∈ s.freePorts → once e → s.test.table = [] →
        ∃ t, exec (.portTest r) s = .next t ∧ t.test.table = [⟨7, seEVENT, e.unit.toNat, s.tsec, s.tsec⟩]))

/-- A phase of a regulator (R416, R485): one that passes, is LASTING, or does not exist, changes nothing; one whose retry fails too
is LASTING and out of service; one whose retry passes is an EVENT and stays in service. -/
def Parts.PhaseChecks : Prop :=
  ∀ (rail : Fin 32) (phase : Fin 16) (ok retryOk : Bool) (s : State),
    let u := phaseUnit rail.val phase.val
    let skips := s.hdRuns = false ∨ ok = true ∨ s.lasting ukPHASE u = true ∨ railPhases rail.val < phase.val ∨ railPhases rail.val = 0
    (skips → exec (.phaseCheck rail phase ok retryOk) s = .next s) ∧
    (¬ skips → retryOk = false → s.test.table.length < 4096 → ∃ t, exec (.phaseCheck rail phase ok retryOk) s = .next t ∧ t.lasting ukPHASE u = true ∧
      (t.railAt rail.val).phok.getLsbD phase.val = false) ∧
    (¬ skips → retryOk = true → s.test.table.length < 4096 → (∀ e ∈ s.test.table, e.isFor ukPHASE u = false) →
      ∃ t, exec (.phaseCheck rail phase ok retryOk) s = .next t ∧ t.pwr = s.pwr ∧ ⟨ukPHASE, seEVENT, u, s.tsec, s.tsec⟩ ∈ t.test.table) ∧
    (¬ skips → ∃ t, exec (.phaseCheck rail phase ok retryOk) s = .next t ∧ t.hbm = s.hbm ∧ t.sites = s.sites)

/-- TCINSTALL (R420): a chunk that is not in its place drops the upload with code 0x1; chunks before the last are kept; with the
last the package is installed, or rejected with the code of the first check that fails, which PKGERR shows. -/
def Parts.TestContent : Prop :=
  ∀ (h : HostHdr) (off len : BitVec 64) (chunk : Bytes) (s : State), s.hostTakes h 0x09 false false →
    (upload s.test.upload off.toNat len.toNat chunk = none → ∃ t, exec (.tcInstall h off len chunk) s = .next t ∧ t.test.upload = [] ∧
      t.test.pkg = s.test.pkg ∧ t.hd BIST_STATUS_PKGERR = 1 ∧ t.out = .hostRsp h.via h.typ h.tag rsREJECTED 1 0 [] :: s.out) ∧
    (∀ b, upload s.test.upload off.toNat len.toNat chunk = some b →
      (b.length < len.toNat → exec (.tcInstall h off len chunk) s =
        .next (({ s with test := { s.test with upload := b } } : State).emit (.hostRsp h.via h.typ h.tag rsOK 0 0 []))) ∧
      (len.toNat ≤ b.length → ∃ t, exec (.tcInstall h off len chunk) s = .next t ∧ t.test.upload = [] ∧ t.hd BIST_STATUS_PKGERR = s.pkgCode b ∧
        (s.pkgCode b = 0 → t.test.pkg = b ∧ t.out = .hostRsp h.via h.typ h.tag rsOK 0 0 [] :: s.out ∧
          mget 0 t.sec.m 3 = num256 (sha32 (bytes256 0 ++ sha32 b))) ∧
        (s.pkgCode b ≠ 0 → t.test.pkg = s.test.pkg ∧ t.out = .hostRsp h.via h.typ h.tag rsREJECTED (s.pkgCode b) 0 [] :: s.out ∧ t.sec = s.sec)))

/-- The spare table, self-tests, test slices, site tests and test content. Log entries 24 and 80 name the model's choices. -/
def Obligations.Testing : Prop :=
  Parts.SpareTableFaults ∧ Parts.SelfTests ∧ Parts.Slices ∧ Parts.SiteTests ∧ Parts.PhaseChecks ∧ Parts.TestContent

/-- The device certificate and the challenge (R434): a certificate that chains to the device CA and carries the device key's point
makes the key store PROVISIONED, another changes nothing; CHAL answers a new challenge, which expiry takes away. -/
def Parts.CertificatesAndChallenges : Prop :=
  ∀ (cert : Bytes) (h : HostHdr) (s : State),
    (∀ k, s.sec.dev = some k → s.hdRuns = true → certPoint 3 s.sec.roots s.sec.rootsRevoked cert = some (k.x, k.y) →
      ∃ t, exec (.deviceCertInstall cert) s = .next t ∧ t.sec.dev = some { k with cert := cert } ∧ t.hd SEC_STATUS_KSTATE = 1 ∧
        t = { s with sec := t.sec, regs := t.regs }) ∧
    (∀ k, s.sec.dev = some k → certPoint 3 s.sec.roots s.sec.rootsRevoked cert ≠ some (k.x, k.y) → exec (.deviceCertInstall cert) s = .next s) ∧
    (s.sec.dev = none ∨ s.hdRuns = false → exec (.deviceCertInstall cert) s = .next s) ∧
    (s.hostTakes h 0x06 true false → ∃ c t, exec (.chal h) s = .next t ∧ t.sec.chal = some c ∧
      t.out = .hostRsp h.via h.typ h.tag rsOK 0 0 (bytes256 c) :: s.out ∧ t.regs = s.regs) ∧
    exec .challengeExpiry s = .next { s with sec := { s.sec with chal := none } }

/-- SIGNREQ (R433, R434): every request uses the challenge up. One that fails a check is REJECTED with the number of the first that
fails and has no effect; one that passes has the effect of its TYPE and is answered OK. A SCANUNLOCK whose erase or check fails, a free
value, leaves scan locked and raises the alarm for tamper (R421). -/
def Parts.SignedRequests : Prop :=
  ∀ (h : HostHdr) (b : Bytes) (s : State), s.hostTakes h 0x07 true false →
    (s.reqCode b ≠ 0 → ∃ t, exec (.signreq h b) s = .next t ∧ t.sec = { s.sec with chal := none } ∧ t.test = s.test ∧
      Out.hostRsp h.via h.typ h.tag rsREJECTED (s.reqCode b) 0 [] ∈ t.out) ∧
    (s.reqCode b = 0 → s.typeOk b = false → ∃ t code, exec (.signreq h b) s = .next t ∧ t.sec = { s.sec with chal := none } ∧ t.test = s.test ∧
      Out.hostRsp h.via h.typ h.tag rsREJECTED code 0 [] ∈ t.out) ∧
    (s.reqCode b = 0 → s.typeOk b = true → numAt b 5 1 = srSCANUNLOCK → Config.freeBit s.free = true → ∃ t, exec (.signreq h b) s = .next t ∧
      t.sec.chal = none ∧ t.sec.dev = none ∧ t.hd SEC_STATUS_SCAN = s.hd SEC_STATUS_SCAN ∧ t.sec.raised.getLsbD 0 = true) ∧
    (s.reqCode b = 0 → s.typeOk b = true → (numAt b 5 1 = srSCANUNLOCK → Config.freeBit s.free = false) → ∃ t pay,
      exec (.signreq h b) s = .next t ∧ t.sec.chal = none ∧ t.out = .hostRsp h.via h.typ h.tag rsOK 0 0 pay :: s.out ∧
      (numAt b 5 1 = srSCANUNLOCK → t.sec.dev = none ∧ t.hd SEC_STATUS_KSTATE = 2 ∧ t.hd SEC_STATUS_SCAN = 1) ∧
      (numAt b 5 1 = srSMAPCLEAR → t.test.table = [] ∧ t.test.excess = [] ∧ t.test.stackGone = false) ∧
      (numAt b 5 1 = srOWNERSET → t.keySlot 14 = ⟨1, numAt b 64 66, numAt b 130 66⟩) ∧
      (numAt b 5 1 = srFKEYADD → t.keySlot (numAt b 6 1) = ⟨1, numAt b 64 66, numAt b 130 66⟩) ∧
      (numAt b 5 1 = srFKEYREVOKE → (t.keySlot (numAt b 6 1)).state = 2) ∧
      (numAt b 5 1 = srALMPOL → t.hd SEC_ALMPOL_TAMPER = numAt b 64 1 % 4 ∧ t.hd SEC_ALMPOL_VGLITCH = numAt b 64 1 / 4 % 4 ∧
        t.hd SEC_ALMPOL_CGLITCH = numAt b 64 1 / 16 % 4 ∧ t.hd SEC_ALMPOL_OVERTEMP = numAt b 64 1 / 64 % 4) ∧
      (numAt b 5 1 = srOWNERCLEAR → ∀ k, k < 8 ∨ k = 14 → t.keySlot k = ⟨0, 0, 0⟩))

/-- ATTEST and FWINSTALL (R431, R435, R460): a PROVISIONED module answers the report over the nonce, another refuses; the last chunk
of a package that verifies is written to the inactive bank, which becomes the active one while the firmware that runs stays;
another is REJECTED with its code. -/
def Parts.AttestationAndFirmware : Prop :=
  ∀ (h : HostHdr) (s : State),
    (∀ nonce, s.hostTakes h 0x08 true false → s.provisioned = true → ∃ t pay, exec (.attest h nonce) s = .next t ∧
      t.out = .hostRsp h.via h.typ h.tag rsOK 0 0 (s.report nonce ++ pay) :: s.out ∧ t = { s with out := t.out, free := t.free }) ∧
    (∀ nonce, s.hostTakes h 0x08 true false → s.provisioned = false → ∃ t code, exec (.attest h nonce) s = .next t ∧
      t.out = .hostRsp h.via h.typ h.tag rsREFUSED code 0 [] :: s.out ∧ t = { s with out := t.out, free := t.free }) ∧
    (∀ (off len : BitVec 64) (chunk : Bytes), s.hostTakes h 0x0A true true →
      (upload s.sec.upload off.toNat len.toNat chunk = none → exec (.fwInstall h off len chunk) s =
        .next (({ s with sec := { s.sec with upload := [] } } : State).emit (.hostRsp h.via h.typ h.tag rsREJECTED 1 0 []))) ∧
      (∀ b, upload s.sec.upload off.toNat len.toNat chunk = some b →
        (b.length < len.toNat → exec (.fwInstall h off len chunk) s =
          .next (({ s with sec := { s.sec with upload := b } } : State).emit (.hostRsp h.via h.typ h.tag rsOK 0 0 []))) ∧
        (len.toNat ≤ b.length → s.fwCode b ≠ 0 → exec (.fwInstall h off len chunk) s =
          .next (({ s with sec := { s.sec with upload := [] } } : State).emit (.hostRsp h.via h.typ h.tag rsREJECTED (s.fwCode b) 0 []))) ∧
        (len.toNat ≤ b.length → s.fwCode b = 0 → ∃ t, exec (.fwInstall h off len chunk) s = .next t ∧
          mget [] t.sec.banks (1 - s.hd SEC_STATUS_BANK) = b ∧ t.hd SEC_STATUS_BANK = 1 - s.hd SEC_STATUS_BANK ∧ t.sec.run = s.sec.run ∧
          t.out = .hostRsp h.via h.typ h.tag rsOK 0 0 [] :: s.out)))

/-- Certificates, challenges, signed requests, attestation and firmware. Log entries 12, 82 and 83 name the model's choices. -/
def Obligations.KeysAndFirmware : Prop :=
  Parts.CertificatesAndChallenges ∧ Parts.SignedRequests ∧ Parts.AttestationAndFirmware

/-- The barrier (R438, R461): without its supply, or at node 0x7F, nothing crosses; a frame that the filter turns away is counted in
FILT, one above the rate of its code in RATE; another outward frame is sent and counted in OUTOK. -/
def Parts.FacilityBarrier : Prop :=
  ∀ (outward : Bool) (code : BitVec 4) (node : BitVec 7) (d : Bytes) (s : State),
    ((s.fac.up = false ∨ s.fac.node = 0x7F) → exec (.facilityFrameFilter outward code node d) s = .next s) ∧
    (s.fac.up = true → s.fac.node ≠ 0x7F →
      (s.filtered outward code.toNat node.toNat d → exec (.facilityFrameFilter outward code node d) s = .next (s.bumpHd FAC_XSTAT_FILT 1)) ∧
      (¬ s.filtered outward code.toNat node.toNat d → canRate code.toNat ≤ s.crossedLately code.toNat →
        exec (.facilityFrameFilter outward code node d) s = .next (s.bumpHd FAC_XSTAT_RATE 1)) ∧
      (¬ s.filtered outward code.toNat node.toNat d → s.crossedLately code.toNat < canRate code.toNat → outward = true →
        ∃ t, exec (.facilityFrameFilter outward code node d) s = .next t ∧ t.out = .can code.toNat d :: s.out ∧
          t.hd FAC_XSTAT_OUTOK = satAdd 16 (s.hd FAC_XSTAT_OUTOK) 1 ∧ (code.toNat, s.time) ∈ t.fac.sent ∧
          t = { s with fac := t.fac, regs := t.regs, out := t.out }) ∧
      (¬ s.filtered outward code.toNat node.toNat d → s.crossedLately code.toNat < canRate code.toNat → outward = false →
        ∃ t, exec (.facilityFrameFilter outward code node d) s = .next t ∧ t.hd FAC_XSTAT_INOK = satAdd 16 (s.hd FAC_XSTAT_INOK) 1))

/-- FCOOL and FPWR (R462, R490) are inward frames at the barrier, from the module's own node. Where one crosses and firmware runs,
the supply in force is the worst of the last FCOOL, the measured flow and a leak, and the target is the last LIMIT, or 2,750 W
under SUPPLY 1 where that is lower or there is no limit. One with a reserved value has no effect but on FILT. -/
def Parts.FacilityInputs : Prop :=
  ∀ (d : BitVec 64) (s : State),
    let open_ := s.fac.up = true ∧ s.fac.node ≠ 0x7F
    let leak := if s.hd THM_COOL_LEAK = 1 then 2 else 0
    let sup := Nat.max (Nat.max (d.toNat % 256) s.fac.measured) leak
    exec (.fcool d) s = exec (.facilityFrameFilter false 3 s.fac.node (leBytes 8 d.toNat)) s ∧
    exec (.fpwr d) s = exec (.facilityFrameFilter false 4 s.fac.node (leBytes 8 d.toNat)) s ∧
    exec (.fmtrq d) s = exec (.facilityFrameFilter false 6 s.fac.node (leBytes 8 d.toNat)) s ∧
    (open_ → s.hdRuns = true → d.toNat % 256 ≤ 2 → d.toNat < 2 ^ 40 → s.crossedLately 3 < 10 → s.fac.measured ≤ 2 → ∃ t, exec (.fcool d) s = .next t ∧
      t.fac.supply = d.toNat % 256 ∧ t.hd THM_COOL_SUPPLY = sup ∧ t.hd PWR_STATUS_COOLRED = (if sup = 1 then 1 else 0) ∧
      (sup = 2 → s.hd THM_COOL_SUPPLY ≠ 2 → t.pwr.down = true) ∧ t.hbm = s.hbm ∧ t.img = s.img) ∧
    (open_ → 2 < d.toNat % 256 ∨ 2 ^ 40 ≤ d.toNat → exec (.fcool d) s = .next (s.bumpHd FAC_XSTAT_FILT 1)) ∧
    (open_ → s.hdRuns = true → d.toNat < 2 ^ 16 → s.crossedLately 4 < 10 → ∃ t, exec (.fpwr d) s = .next t ∧ t.fac.limit = d.toNat ∧
      t.hd PWR_TARGET_TARGET = (if s.supply = 1 ∧ (d.toNat = 0 ∨ 2750 < d.toNat) then 2750 else d.toNat) ∧ t.hbm = s.hbm ∧ t.img = s.img) ∧
    (open_ → 2 ^ 16 ≤ d.toNat → exec (.fpwr d) s = .next (s.bumpHd FAC_XSTAT_FILT 1)) ∧
    (s.hdRuns = false → ∃ t u, exec (.fcool d) s = .next t ∧ exec (.fpwr d) s = .next u ∧ t.fac.supply = s.fac.supply ∧ t.pwr = s.pwr ∧
      u.fac.limit = s.fac.limit ∧ u.pwr = s.pwr)

/-- Frames that the module sends (R440, R461): FSTAT, FALARM and FID are outward frames at the barrier with their contents; the
answer to an FMTRQ that crosses is the five frames of a record the meter holds, or one frame without content. -/
def Parts.FacilityFrames : Prop :=
  ∀ s : State,
    let fl := s.hd PWR_STATUS_LIMITLOW + 2 * s.hd PWR_STATUS_COOLRED + (if s.degraded then 4 else 0) + (if s.unfit then 8 else 0)
    let sends : Host.Outcome State Fault Refusal → BitVec 4 → Bytes → Prop := fun r c d => r = exec (.facilityFrameFilter true c s.fac.node d) s
    (s.hdRuns = true → sends (exec .fstat s) 1 (leBytes 1 s.identState ++ leBytes 1 fl ++ leBytes 2 (s.hd PWR_STATUS_PIN) ++
      leBytes 2 (s.hd PWR_STATUS_VIN) ++ leBytes 2 (s.hd THM_STATUS_TOUT) ++ leBytes 2 (s.hd THM_STATUS_TJMAX) ++ leBytes 2 (s.hd PWR_TARGET_TARGET) ++
      leBytes 4 0)) ∧
    (s.hdRuns = true → sends (exec .fid s) 7 (leBytes 8 s.serial.toNat ++ leBytes 2 0xA1 ++ leBytes 1 s.fac.node.toNat ++ leBytes 1 s.identState ++
      leBytes 4 s.fwSvn)) ∧
    (∀ (code action : BitVec 8) (v : BitVec 16), s.hdRuns = true → 1 ≤ code.toNat → code.toNat ≤ 4 → action.toNat ≤ 3 →
      sends (exec (.falarm code action v) s) 2 (leBytes 1 code.toNat ++ leBytes 1 action.toNat ++ leBytes 2 v.toNat ++ leBytes 4 0)) ∧
    (∀ (code action : BitVec 8) (v : BitVec 16), (s.hdRuns = false ∨ code.toNat = 0 ∨ 4 < code.toNat ∨ 3 < action.toNat) →
      exec (.falarm code action v) s = .next s) ∧
    (s.hdRuns = false → exec .fstat s = .next s ∧ exec .fid s = .next s) ∧
    (∀ d : BitVec 64, s.hdRuns = true → s.fac.up = true → s.fac.node ≠ 0x7F → s.fac.sent = [] → d.toNat < 2 ^ 32 →
      ((s.meterUp = false ∨ s.meterRec d.toNat = none) → ∃ t, exec (.fmtrq d) s = .next t ∧ t.out = .can 5 (fmtrFrame d.toNat 0 0 []) :: s.out) ∧
      (∀ r, s.meterUp = true → s.meterRec d.toNat = some r → ∃ t, exec (.fmtrq d) s = .next t ∧
        t.out = [4, 3, 2, 1, 0].map (fun i => Out.can 5 (fmtrFrame d.toNat i 5 r)) ++ s.out))

/-- The supply of the facility side (R455, R493): without it the node address is gone; with its return the address is read, and an
address in force stays. -/
def Parts.FacilitySupply : Prop :=
  ∀ (sa : BitVec 7) (s : State),
    exec .facSupplyLoss s = .next { s with fac := { s.fac with up := false, node := 0, sent := [] } } ∧
    (s.fac.up = false → exec (.facSupplyReturn sa) s = .next { s with fac := { s.fac with up := true, node := sa } }) ∧
    (s.fac.up = true → exec (.facSupplyReturn sa) s = .next s)

/-- The facility channel: barrier, inputs, frames and supply. Log entry 85 names the model's choices. -/
def Obligations.FacilityChannel : Prop :=
  Parts.FacilityBarrier ∧ Parts.FacilityInputs ∧ Parts.FacilityFrames ∧ Parts.FacilitySupply

/-- The meter (R441 to R445): it counts energy; a job opens once and closes once, and its record is kept under the next number; a
record is fetched by its number; a JOBSTOP that waited for the link is sent when the link returns; a loss of input keeps the
energy and the time of an open job. Log entry 86 names the model's choices. -/
def Obligations.MeterCommands : Prop :=
  ∀ s : State,
    (∀ (p : BitVec 32) ok, ∃ t, exec (.meterRead p ok) s = .next t ∧ t.mtr.energy = s.mtr.energy + p.toNat ∧ t.mtr.inRange = ok ∧
      t.mtr.recs = s.mtr.recs ∧
      (s.hdRuns = true → s.meterUp = true → t.hd MTR_ENERGY_MWH = (s.mtr.energy + p.toNat) / 360 % 2 ^ 64 ∧ t.hd MTR_POWER_DW = p.toNat ∧
        t.mtr.readTime = s.time ∧ t.mtr.readOk = (s.mtr.selfOk && ok && s.mtr.job.isNone)) ∧
      (s.meterUp = false ∨ s.hdRuns = false → t = { s with mtr := t.mtr })) ∧
    (∀ job step0 : BitVec 64, s.meterUp = true →
      (s.mtr.job = none → ∃ t, exec (.jobStart job step0) s = .next t ∧ t.mtr.job = some ⟨job, step0, s.mwh, s.meterSecs, !s.mtr.inRange⟩ ∧
        t.out = .meterRsp true [] :: s.out ∧ t = { s with mtr := t.mtr, out := t.out }) ∧
      (s.mtr.job ≠ none → exec (.jobStart job step0) s = .next (s.emit (.meterRsp false [])))) ∧
    (∀ (step1 : BitVec 64) late, s.meterUp = true →
      (s.mtr.job ≠ none → s.mtr.lost = none → ∃ t, exec (.jobStop step1 late) s = .next t ∧ t.mtr.job = none ∧ t.mtr.nextSeq = (s.mtr.nextSeq + 1) % 2 ^ 32 ∧
        t.mtr.recs.getLast?.map (·.rseq) = some s.mtr.nextSeq ∧ t.mtr.recs.length ≤ 1024 ∧ t.out = .meterRsp true [] :: s.out ∧
        t = { s with mtr := t.mtr, out := t.out, free := t.free }) ∧
      (s.mtr.job = none ∨ s.mtr.lost ≠ none → exec (.jobStop step1 late) s = .next (s.emit (.meterRsp false [])))) ∧
    (∀ n : BitVec 32, s.meterUp = true →
      (∀ r, s.meterRec n.toNat = some r → exec (.fetchRecord n) s = .next (s.emit (.meterRsp true r))) ∧
      (s.meterRec n.toNat = none → exec (.fetchRecord n) s = .next (s.emit (.meterRsp false [])))) ∧
    (s.meterUp = false → ∀ (a b : BitVec 64) l (n : BitVec 32), exec (.jobStart a b) s = .next s ∧ exec (.jobStop a l) s = .next s ∧
      exec (.fetchRecord n) s = .next s ∧ exec .meterLinkLoss s = .next s) ∧
    (s.hdRuns = false → exec .meterLinkLoss s = .next s ∧ exec .meterLinkReturn s = .next s) ∧
    (s.mtr.job ≠ none → s.mtr.lost = none →
      exec .meterInputLoss s = .next { s with mtr := { s.mtr with lost := some (s.mwh, s.meterSecs) } }) ∧
    ((s.mtr.job = none ∨ s.mtr.lost ≠ none) → exec .meterInputLoss s = .next s) ∧
    (s.hdRuns = true → s.meterUp = true → (∃ t, exec .meterLinkLoss s = .next t ∧ t.meterUp = false ∧ t.mtr = s.mtr) ∧ exec .meterLinkReturn s = .next s) ∧
    (s.hdRuns = true → s.meterUp = false → ∃ t, exec .meterLinkReturn s = .next t ∧ t.meterUp = true ∧ t.mtr.pendingStop = none ∧
      t.out = (match s.mtr.pendingStop with
        | some st => [Out.meter 2 st 1]
        | none => []) ++ s.out)

/-- Power and input (R482 to R484): a sample shows input power and voltage, and above the limits the emergency throttle stands and
is counted; an overrun of the throttle is a fault of the module, once declared for which the rails of the compute dies go down (`pwr.down`); a
voltage from 40 V to 60 V is no fault, one above 60 V is shown, and one below 40 V or above 66 V takes the input away. -/
def Parts.InputPower : Prop :=
  ∀ s : State,
    (s.hdRuns = false → (∀ (pin vin : BitVec 16) a b, exec (.powerSample pin vin a b) s = .next s) ∧ exec .throttleOverrun s = .next s ∧
      ∀ v, exec (.inputVoltageFault v) s = .next s) ∧
    (∀ (pin vin : BitVec 16) o62 o55, s.hdRuns = true → ∃ t, exec (.powerSample pin vin o62 o55) s = .next t ∧ t.hd PWR_STATUS_PIN = pin.toNat ∧
      t.hd PWR_STATUS_VIN = vin.toNat ∧
      let begins := (o62 || o55) = true ∧ s.hd PWR_STATUS_EMERG = 0
      (begins → t.hd PWR_STATUS_EMERG = 1 ∧ t.hd PWR_EMCNT_COUNT = satAdd PWR_EMCNT_COUNT.width (s.hd PWR_EMCNT_COUNT) 1) ∧
      (¬ begins → t.hd PWR_STATUS_EMERG = s.hd PWR_STATUS_EMERG ∧ t = { s with regs := t.regs })) ∧
    (s.hdRuns = true → s.hd PWR_STATUS_EMERG = 1 → ∃ t, exec .throttleOverrun s = .next t ∧ t.pwr.down = true ∧ t.pwr.input = s.pwr.input) ∧
    (s.hd PWR_STATUS_EMERG ≠ 1 → exec .throttleOverrun s = .next s) ∧
    (∀ v : BitVec 16, 4000 ≤ v.toNat → v.toNat ≤ 6000 → exec (.inputVoltageFault v) s = .next s) ∧
    (∀ v : BitVec 16, s.hdRuns = true → 6000 < v.toNat → v.toNat ≤ 6600 → ∃ t, exec (.inputVoltageFault v) s = .next t ∧
      t.hd PWR_STATUS_VIN = v.toNat ∧ t.pwr = s.pwr ∧ t.sites = s.sites) ∧
    (∀ v : BitVec 16, s.hdRuns = true → (v.toNat < 4000 ∨ 6600 < v.toNat) → ∃ t, exec (.inputVoltageFault v) s = .next t ∧ t.pwr.input = false ∧
      (s.pwr.input = true → t.img = none ∧ t.sites = [] ∧ t.host.stage = 0))

/-- Loss of power (R408, R413, R455, R491): every core site, HBM, the image, the gate and the fields of every die window are as after reset, but
for the fields that the key store holds; the spare-mapping table, the firmware banks, the key slots and the device key stay, and the challenge is
gone; a power-down without a shut-down is not orderly. The PRESENT contact that breaks is a loss of power, and one that mates is noted. -/
def Parts.LossOfPower : Prop :=
  ∀ s : State,
    (s.pwr.input = false → exec .inputLoss s = .next s) ∧
    (s.pwr.input = true → ∃ t, exec .inputLoss s = .next t ∧ t.pwr.input = false ∧ t.pwr.present = s.pwr.present ∧ t.sites = [] ∧
      t.hbm = State.reset.hbm ∧ t.img = none ∧ t.gate = Gate.reset ∧ t.host.stage = 0 ∧ t.host.hxUp = false ∧ t.test.table = s.test.table ∧
      t.sec.banks = s.sec.banks ∧ t.sec.dev = s.sec.dev ∧ t.sec.slots = s.sec.slots ∧ t.sec.chal = none ∧ t.time = s.time ∧ t.pending = s.pending ∧
      t.hd SEC_STATUS_SVN = s.hd SEC_STATUS_SVN ∧ t.hd SEC_STATUS_KSTATE = s.hd SEC_STATUS_KSTATE ∧ t.hd SEC_STATUS_BANK = s.hd SEC_STATUS_BANK ∧
      (∀ w x, dieKey w x ∉ storeKeys → t.d w x = x.reset % 2 ^ x.width) ∧ (s.host.shut = false → ∀ p, t.test.pass = some p → p.orderly = false) ∧ (s.host.shut = true → t.test.pass = s.test.pass)) ∧
    (∃ t, exec .presentBreak s = .next t ∧ t.pwr.present = false ∧ t.pwr.input = false ∧ (s.pwr.input = true → t.img = none ∧ t.sites = []) ∧
      (s.pwr.input = false → t = { s with pwr := t.pwr })) ∧
    exec .presentMate s = .next { s with pwr := { s.pwr with present := true } }

/-- Temperatures and coolant (R490, R498): a sample shows the hottest junction and its die, the coolant and the measured supply; a
junction that reaches 110 C raises OVERTEMP; a leak stands as SUPPLY 2, for which the rails of the compute dies go down once the module is declared
(`pwr.down`). -/
def Parts.Temperatures : Prop :=
  ∀ s : State,
    (s.hdRuns = false → (∀ x, exec (.thermalSample x) s = .next s) ∧ exec .leakSensed s = .next s) ∧
    (∀ x : Thermal, s.hdRuns = true → ∃ t, exec (.thermalSample x) s = .next t ∧
      t.hd THM_STATUS_TOUT = x.tout.toNat ∧ t.hd THM_STATUS_TIN = x.tin.toNat ∧ t.hd THM_COOL_FLOW = x.flow.toNat ∧
      t.fac.measured = (if x.noFlow1s then 2 else if x.lowFlow1s then 1 else 0) ∧
      (hottest x.tj = none → t.hd THM_STATUS_TJMAX = 0 ∧ t.hd THM_STATUS_TJDIE = 0xF ∧ t.sec = s.sec) ∧
      (∀ h, hottest x.tj = some h → t.hd THM_STATUS_TJMAX = (BitVec.ofInt 16 h.2).toNat ∧ t.hd THM_STATUS_TJDIE = h.1 % 16 ∧
        (tooHot (BitVec.ofInt 16 h.2).toNat = true → tooHot (s.hd THM_STATUS_TJMAX) = false → t.sec.raised.getLsbD 3 = true) ∧
        (tooHot (BitVec.ofInt 16 h.2).toNat = false ∨ tooHot (s.hd THM_STATUS_TJMAX) = true → t.sec = s.sec))) ∧
    (s.hdRuns = true → ∃ t, exec .leakSensed s = .next t ∧ t.hd THM_COOL_LEAK = 1 ∧ (s.fac.supply ≤ 2 → s.fac.measured ≤ 2 → t.hd THM_COOL_SUPPLY = 2 ∧
      (s.hd THM_COOL_SUPPLY ≠ 2 → t.pwr.down = true)))

/-- Power-up (R413, R429 to R432, R454): input power on a module that is not up counts a boot; with firmware that verifies in the
active bank, else in the other, it runs that firmware and comes to stage 10 with HX released, and with neither it stops in
recovery. A module that is up, shut down or without its contact is left as it is. -/
def Parts.PowerUp : Prop :=
  ∀ (b : BootInput) (s : State),
    let bank := s.hd SEC_STATUS_BANK
    let good := fun (k : Nat) => mget [] s.sec.banks k ≠ [] ∧ s.fwCode (mget [] s.sec.banks k) = 0
    ((s.pwr.present = false ∨ s.host.stage ≠ 0 ∨ s.host.shut = true) → exec (.powerUp b) s = .next s) ∧
    (s.pwr.present = true → s.host.stage = 0 → s.host.shut = false → ∃ t, exec (.powerUp b) s = .next t ∧ t.pwr.input = true ∧
      t.test.bootcnt = (s.test.bootcnt + 1) % 2 ^ 32 ∧ t.mtr.lastSerial = b.meterSerial ∧ t.mtr.selfOk = b.meterOk ∧ (b.meterSeal = true → t.mtr.sealBroken = true) ∧
      (s.hd SEC_STATUS_RECOV = 0 → good bank → t.sec.run = mget [] s.sec.banks bank ∧ t.host.stage = 10 ∧ t.host.hxUp = true ∧
        t.hd SEC_STATUS_RECOV = 0) ∧
      (s.hd SEC_STATUS_RECOV = 0 → ¬ good bank → good (1 - bank) → t.sec.run = mget [] s.sec.banks (1 - bank) ∧
        t.hd SEC_STATUS_BANK = 1 - bank ∧ t.host.stage = 10 ∧ t.host.hxUp = true) ∧
      (¬ good bank → ¬ good (1 - bank) → t.hd SEC_STATUS_RECOV = 1 ∧ t.host.stage = 3 ∧ t.host.hxUp = s.host.hxUp))

/-- MODRESET, SHUTDOWN and SELFTEST (R411, R412, R421, R452, R455): refused with code 1 while a job is loaded; else a reset boots again, as far as
the firmware banks allow, and leaves unlocked scan so; a shut-down leaves the module shut with its pass record orderly; and a self-test on demand
writes a pass record with WHERE 4 when it covers the installed package, every signature is the expected one and the module can sign. -/
def Parts.ResetAndShutdown : Prop :=
  ∀ (h : HostHdr) (b : BootInput) (full : Bool) (res : FullResult) (s : State),
    let bank := s.hd SEC_STATUS_BANK
    let good := fun (k : Nat) => mget [] s.sec.banks k ≠ [] ∧ s.fwCode (mget [] s.sec.banks k) = 0
    let p := s.test.pkg
    let rs := pkgRuns p (fun _ => true) res.runs
    let resets := s.hostTakes h 0x0F false false
    let shuts := s.hostTakes h 0x0B false false
    let tests := s.hostTakes h 0x0C false false
    let refused : Host.Outcome State Fault Refusal := .next (s.emit (.hostRsp h.via h.typ h.tag rsREFUSED 1 0 []))
    (s.jobLoaded = true → (resets → exec (.modReset h b) s = refused) ∧ (shuts → exec (.shutdown h full res) s = refused) ∧
      (tests → exec (.selftest h res) s = refused)) ∧
    (s.jobLoaded = false →
      (resets → ∃ t, exec (.modReset h b) s = .next t ∧ Out.hostRsp h.via h.typ h.tag rsOK 0 0 [] ∈ t.out ∧
        t.test.bootcnt = (s.test.bootcnt + 1) % 2 ^ 32 ∧ t.img = none ∧ t.fenced = false ∧ t.sec.banks = s.sec.banks ∧ t.mtr.recs = s.mtr.recs ∧
        t.hd SEC_STATUS_SCAN = s.hd SEC_STATUS_SCAN ∧
        (good bank → t.sec.run = mget [] s.sec.banks bank ∧ t.host.stage = 10 ∧ t.host.hxUp = true) ∧
        (¬ good bank → ¬ good (1 - bank) → t.hd SEC_STATUS_RECOV = 1 ∧ t.host.stage = 3)) ∧
      (shuts → ∃ t, exec (.shutdown h full res) s = .next t ∧ t.host.shut = true ∧ Out.hostRsp h.via h.typ h.tag rsOK 0 0 [] ∈ t.out ∧
        t.sites = [] ∧ t.hbm = State.reset.hbm ∧ (∀ p, t.test.pass = some p → p.orderly = true) ∧
        (full = false → t.test.table = s.test.table)) ∧
      (tests → ∃ t, exec (.selftest h res) s = .next t ∧ Out.hostRsp h.via h.typ h.tag rsOK 0 0 [] ∈ t.out ∧
        (res.repaired = [] → (∀ e ∈ rs, misr e.first = e.expSig) → p ≠ [] → s.covers p (fun _ => true) classUnits rs = true → s.provisioned = true →
          ∃ r, t.test.pass = some r ∧ r.wher = 4 ∧ r.tsec = s.tsec)))

/-- Input power, its loss, temperatures, power-up, reset and shutdown. Log entries 51 and 84 name the model's choices. -/
def Obligations.PowerAndReset : Prop :=
  Parts.InputPower ∧ Parts.LossOfPower ∧ Parts.Temperatures ∧ Parts.PowerUp ∧ Parts.ResetAndShutdown

/-- The host link (R450, R456, R466): a good flit in sequence is taken and a replayed one counted, and where the other end asks for it the flits
that it has not acknowledged leave again; a failed one is asked for again, and a
second failure retrains the module, or takes it out of service within 24 hours of the one before; so does a retraining that
fails. The watchdog's write starts its second again; at its expiry HX is reset without a job, and with one the host die stays
down. -/
def Parts.HostLink : Prop :=
  ∀ (m : Fin 4) (fl : HostFlit) (s : State),
    (s.hdRuns = false → exec (.hostFlitReceive m fl) s = .next s ∧ (∀ ok, exec (.hostLinkRetrainDone m ok) s = .next s) ∧ exec .hxwdKick s = .next s ∧
      exec .hxWatchdogExpiry s = .next s) ∧
    (s.host.hxUp = false → exec .hxwdKick s = .next s) ∧
    (s.hdRuns = true →
      ((s.host.hxUp = false ∨ 2 ≤ s.linkSt m.val) → exec (.hostFlitReceive m fl) s = .next s) ∧
      (s.host.hxUp = true → s.linkSt m.val < 2 → flitOk fl = true → fl.seq.toNat ≠ s.host.rxSeq → ∃ t, exec (.hostFlitReceive m fl) s = .next t ∧
        t = { s with host := t.host, out := t.out } ∧ t.host.rxSeq = s.host.rxSeq ∧ t.host.peerAck = s.host.peerAck ∧
        (fl.again = true → s.hostUnacked ≤ s.host.txSent → ∀ j, j < s.hostUnacked →
          ∀ o ∈ s.hostFlit (s.host.txSent - s.hostUnacked + j), o ∈ t.out)) ∧
      (s.host.hxUp = true → s.linkSt m.val < 2 → flitOk fl = true → fl.seq.toNat = s.host.rxSeq → ∃ t, exec (.hostFlitReceive m fl) s = .next t ∧
        t = { s with host := t.host, regs := t.regs, out := t.out } ∧ t.host.rxSeq = (s.host.rxSeq + 1) % 2 ^ 16 ∧ t.host.peerAck = fl.ack.toNat ∧
        t.linkSt m.val = 0 ∧ (fl.replayed = false → t.regs = s.regs) ∧
        (fl.replayed = true → t.hd UCI_STATUS_RETRY = satAdd 16 (s.hd UCI_STATUS_RETRY) 1)) ∧
      (s.host.hxUp = true → flitOk fl = false → s.linkSt m.val = 0 → ∃ t, exec (.hostFlitReceive m fl) s = .next t ∧ t.linkSt m.val = 1 ∧
        t.host.rxSeq = s.host.rxSeq ∧ t.out = .hostAgain s.host.rxSeq :: s.out) ∧
      (s.host.hxUp = true → flitOk fl = false → s.linkSt m.val = 1 → (∀ e ∈ s.host.linkFails, e.1 = m.val → dayUnits < s.time - e.2) →
        ∃ t, exec (.hostFlitReceive m fl) s = .next t ∧ t.linkSt m.val = 2 ∧ (m.val, s.time) ∈ t.host.linkFails ∧
          t.out.head? = some (.hostAgain s.host.rxSeq)) ∧
      (s.host.hxUp = true → flitOk fl = false → s.linkSt m.val = 1 → (∃ e ∈ s.host.linkFails, e.1 = m.val ∧ s.time - e.2 ≤ dayUnits) →
        ∃ t, exec (.hostFlitReceive m fl) s = .next t ∧ t.linkSt m.val = 3 ∧ t.out.head? = some (.hostAgain s.host.rxSeq)) ∧
      (s.linkSt m.val ≠ 2 → ∀ ok, exec (.hostLinkRetrainDone m ok) s = .next s) ∧
      (s.linkSt m.val = 2 → (∃ t, exec (.hostLinkRetrainDone m true) s = .next t ∧ t.linkSt m.val = 0) ∧
        ∃ t, exec (.hostLinkRetrainDone m false) s = .next t ∧ t.linkSt m.val = 3 ∧ s.time ∈ t.host.retrainFails) ∧
      (s.host.hxUp = true → exec .hxwdKick s = .next { s with host := { s.host with kicked := s.time } }) ∧
      ((s.hd UCI_HXWD_EN = 0 ∨ s.time < s.host.kicked + 40000) → exec .hxWatchdogExpiry s = .next s) ∧
      (s.hd UCI_HXWD_EN ≠ 0 → s.host.kicked + 40000 ≤ s.time → s.loaded = false → ∃ t, exec .hxWatchdogExpiry s = .next t ∧
        t.host.hxUp = true ∧ t.host.outstanding = 0 ∧ t.host.kicked = s.time) ∧
      (s.hd UCI_HXWD_EN ≠ 0 → s.host.kicked + 40000 ≤ s.time → s.loaded = true → ∃ t, exec .hxWatchdogExpiry s = .next t ∧
        t.host.hxUp = false ∧ t.host.outstanding = 0 ∧ t.img = s.img))

/-- The messages of the host die and of the management ports (R372, R452, R453, R457, R458): an eviction goes to the primary captain
of the pod; identity and status are answered; NOTIFY and ALERT of assigned codes are sent; a checkpoint message is answered OK
to a captain of the slice, and to a module of it where the lead captain takes what the modules send or the slice has no captains, else BADMSG; a
response takes the device that has answered off the first message that waits for it; a message that waits for its answer is repeated, up to 100
sendings; a plane whose link is up learns its prefix. That a response comes in as this row is the model's (log entry 128). -/
def Parts.HostMessages : Prop :=
  ∀ (h : HostHdr) (s : State),
    let prim := (s.captains.filter (fun c => c.1 = 0 && c.2.2 = podOf s.devidx)).map (fun c => c.2.1)
    let plane : Bool → Prop := fun b => s.hdRuns = true ∧ s.viaUp (if b then .mgtB else .mgtA) = true
    (∀ dev : BitVec 16, s.hostTakes h 0x0D false false →
      (s.loaded = true → s.fenced = false → ∃ t, exec (.hostEvict h dev) s = .next t ∧ Out.hostRsp h.via h.typ h.tag rsOK 0 0 [] ∈ t.out ∧
        t.pel = s.pel ∧ t.sites = s.sites ∧ (prim ≠ [] → t.sentPel 0x0B s.epoch prim (packWords 1 [(0, 16, dev.toNat)]))) ∧
      (s.loaded = true → s.fenced = true → exec (.hostEvict h dev) s = .next (s.emit (.hostRsp h.via h.typ h.tag rsREFUSED 3 0 []))) ∧
      (s.loaded = false → exec (.hostEvict h dev) s = .next (s.emit (.hostRsp h.via h.typ h.tag rsREFUSED 2 0 [])))) ∧
    (s.hostTakes h 0x0E true false → exec (.hostStatus h) s = .next (s.emit (.hostRsp h.via h.typ h.tag rsOK 0 0 (s.identPayload s.identState)))) ∧
    (s.pwr.input = false ∨ s.viaUp h.via = false → exec (.identMsg h) s = .next s) ∧
    (s.pwr.input = true → s.viaUp h.via = true → h.rsp = true →
      (s.hdRuns = true → exec (.identMsg h) s = .next (match h.via with
        | .hx => s
        | .mgtA => s.bumpHd MGT_CNT_DROPA 1
        | .mgtB => s.bumpHd MGT_CNT_DROPB 1)) ∧
      (s.hdRuns = false → exec (.identMsg h) s = .next s)) ∧
    (s.pwr.input = true → s.viaUp h.via = true → h.rsp = false →
      (hdrBad h 0x10 = false → h.via ≠ .hx → exec (.identMsg h) s =
        .next (s.emit (.hostRsp h.via h.typ h.tag rsOK 0 0 (s.identPayload (if s.pel.standby then 5 else s.identState))))) ∧
      (hdrBad h 0x10 = true ∨ h.via = .hx → s.hdRuns = true → exec (.identMsg h) s =
        .next ((s.bumpHd UCI_MSG_BAD 1).emit (.hostRsp h.via h.typ h.tag rsBADMSG 0 0 []))) ∧
      (hdrBad h 0x10 = true ∨ h.via = .hx → s.hdRuns = false → exec (.identMsg h) s = .next s)) ∧
    (∀ (ev : BitVec 8) (a : BitVec 64),
      let sends := s.hdRuns = true ∧ s.host.hxUp = true ∧ 1 ≤ ev.toNat ∧ ev.toNat ≤ 8
      (sends → exec (.notifyHost ev a) s = .next (s.emit (.notify ev.toNat a))) ∧ (¬ sends → exec (.notifyHost ev a) s = .next s)) ∧
    (∀ code : BitVec 8,
      let sends := s.hdRuns = true ∧ 1 ≤ code.toNat ∧ code.toNat ≤ 9
      (sends → ∃ t, exec (.alertMsg code) s = .next t ∧ t.mgt = s.mgt ++ [⟨0x30, BitVec.ofNat 64 code.toNat, 0, s.podCaptains, [], 1⟩] ∧
        t.out = .notify 0x07 (BitVec.ofNat 64 code.toNat) :: .mgt 0x30 (BitVec.ofNat 64 code.toNat) 0 s.podCaptains [] s.mgtFrom :: s.out ∧
        t = { s with mgt := t.mgt, out := t.out }) ∧
      (¬ sends → exec (.alertMsg code) s = .next s)) ∧
    (∀ (src : MgtSrc) (m : CkMsg),
      let dev := src.dev.toNat
      let takes := s.loaded = true ∧ (s.captainDev dev = true ∨ (dev ∈ s.slice ∧ (s.hasCaptains = false ∨
        (s.ckLead = s.devidx ∧ (m.typ = 2 ∨ m.typ = 4 ∨ m.typ = 7)))))
      let serves := plane src.mgtB ∧ s.hd SEC_STATUS_RECOV ≠ 1
      (serves → src.rsp = none → takes → exec (.ckptMsg src m) s = .next (s.emit (.mgtRsp 0x20 rsOK 0 dev s.mgtFrom))) ∧
      (serves → src.rsp = none → ¬ takes → exec (.ckptMsg src m) s =
        .next ((s.bumpHd UCI_MSG_BAD 1).emit (.mgtRsp 0x20 rsBADMSG 0 dev (s.bumpHd UCI_MSG_BAD 1).mgtFrom))) ∧
      (∀ typ, serves → src.rsp = some typ →
        let waits : MgtMsg → Prop := fun x => x.typ = typ.toNat ∧ (x.dst = [] ∨ dev ∈ x.dst)
        ((∀ x ∈ s.mgt, ¬ waits x) → exec (.ckptMsg src m) s = .next s) ∧
        (∀ a x b, s.mgt = a ++ x :: b → (∀ y ∈ a, ¬ waits y) → waits x → exec (.ckptMsg src m) s = .next { s with mgt :=
          a ++ (if x.dst.all (fun d => d = dev) = true then [] else [({ x with dst := x.dst.filter (fun d => d ≠ dev) } : MgtMsg)]) ++ b })) ∧
      (plane src.mgtB → s.hd SEC_STATUS_RECOV = 1 → exec (.ckptMsg src m) s =
        .next (s.bumpHd (if src.mgtB = true then MGT_CNT_DROPB else MGT_CNT_DROPA) 1)) ∧
      (¬ plane src.mgtB → exec (.ckptMsg src m) s = .next s)) ∧
    (s.hdRuns = true → ∃ t, exec .mgtResendTimer s = .next t ∧ (∀ m ∈ t.mgt, m.sends ≤ 100) ∧ t = { s with mgt := t.mgt, regs := t.regs, out := t.out } ∧
      (∀ m ∈ s.mgt, m.sends < 100 → ({ m with sends := m.sends + 1 } : MgtMsg) ∈ t.mgt ∧ Out.mgt m.typ m.arg0 m.arg1 m.dst m.payload s.mgtFrom ∈ t.out)) ∧
    (s.hdRuns = false → exec .mgtResendTimer s = .next s) ∧
    (∀ (b : Bool) (net : BitVec 64),
      (plane b → ∃ t, exec (.routerAdvertisement b net) s = .next t ∧ t = { s with regs := t.regs } ∧
        t.hd (if b then MGT_PFXB_PFX else MGT_PFXA_PFX) = netOrder net ∧ bitOf (t.hd (if b then MGT_STATUS_PLB else MGT_STATUS_PLA)) 1 = true ∧
        t.hd (if b then MGT_PFXA_PFX else MGT_PFXB_PFX) = s.hd (if b then MGT_PFXA_PFX else MGT_PFXB_PFX)) ∧
      (¬ plane b → exec (.routerAdvertisement b net) s = .next s))

/-- ADMIT (R387, R463, R464): refused with its code and a REASON, which is one of those assigned; else the request stays outstanding. In a slice
without captains a module that is not to restore admits itself: the job's first step is open, with the gate in RUN, every live role due and JOBSTART
sent to the meter. Otherwise it waits for SLSTART, and is refused at its time-out with REASON 5; for a restore the module that leads reads the slots of
every place. -/
def Parts.Admission : Prop :=
  ∀ (h : HostHdr) (step0 : BitVec 64) (restore : Bool) (s : State),
    let refused : Nat → Nat → State := fun code reason => s.emit (.hostRsp h.via h.typ h.tag rsREFUSED code 0 (s.admitPayload 1 reason step0.toNat))
    (s.hostTakes h 0x04 false false →
      (s.hd FRM_STATUS_STATE ≠ 2 → exec (.hostAdmission h step0 restore) s = .next (refused 2 1)) ∧
      (s.hd FRM_STATUS_STATE = 2 → s.fenced = true → ∃ reason, 1 ≤ reason ∧ reason ≤ 6 ∧
        exec (.hostAdmission h step0 restore) s = .next (refused 3 reason).skipFree) ∧
      (s.hd FRM_STATUS_STATE = 2 → s.fenced = false → s.host.admission ≠ none → ∃ reason, 1 ≤ reason ∧ reason ≤ 6 ∧
        exec (.hostAdmission h step0 restore) s = .next (refused 4 reason).skipFree) ∧
      (s.hd FRM_STATUS_STATE = 2 → s.fenced = false → s.host.admission = none → s.admitReason ≠ 0 → ∃ code, exec (.hostAdmission h step0 restore) s =
        .next (refused code s.admitReason).skipFree) ∧
      (s.hd FRM_STATUS_STATE = 2 → s.fenced = false → s.host.admission = none → s.admitReason = 0 →
        (s.hasCaptains = true → restore = false → ∃ t, exec (.hostAdmission h step0 restore) s = .next t ∧
          t.host.admission = some ⟨h.tag, step0, false⟩ ∧ t.host.outstanding = s.host.outstanding + 1 ∧ t.gate = s.gate ∧
          t.sentMgt 0x21 step0 (BitVec.ofNat 64 s.jobLo) [s.ckLead] []) ∧
        (s.hasCaptains = false → restore = false → s.overrunSite = none → ∃ t, exec (.hostAdmission h step0 restore) s = .next t ∧
          t.host.admission = none ∧ t.host.admitted = true ∧ t.gate.step = step0 ∧ t.gateState = gRUN ∧ t.gate.due = s.liveRoles ∧
          t.hd PEL_STATUS_EPOCH = 1 ∧ t.host.outstanding = s.host.outstanding ∧ Out.meter 1 (BitVec.ofNat 64 s.jobId) step0 ∈ t.out) ∧
        (s.hasCaptains = false → restore = false → s.overrunSite ≠ none → ∃ t, exec (.hostAdmission h step0 restore) s = .next t ∧
          t.host.admission = none ∧ t.host.halted = true) ∧
        (restore = true → s.ckLead = s.devidx → ∃ t, exec (.hostAdmission h step0 restore) s = .next t ∧
          t.host.admission = some ⟨h.tag, step0, true⟩ ∧ t.ckp.slots = [] ∧ t.gate = s.gate ∧
          ∀ d ∈ s.slice, t.sentMgt 0x20 0 0 [d] (ckPayload 6 0 d 0 0 0 s.jobLo 0 0)) ∧
        (restore = true → s.ckLead ≠ s.devidx → ∃ t, exec (.hostAdmission h step0 restore) s = .next t ∧
          t.host.admission = some ⟨h.tag, step0, true⟩ ∧ t = { s with host := t.host }))) ∧
    (∀ a, s.hdRuns = true → s.host.admission = some a → ∃ t code, exec .admissionTimeout s = .next t ∧ t.host.admission = none ∧
      t.out = .hostRsp .hx 0x04 a.tag rsREFUSED code 0 (s.admitPayload 1 5 a.step0.toNat) :: s.out ∧ t.gate = s.gate) ∧
    (s.hdRuns = false ∨ s.host.admission = none → exec .admissionTimeout s = .next s)

/-- The host link, host messages and admission. Log entry 89 names the model's choices. -/
def Obligations.HostLinkAndAdmission : Prop :=
  Parts.HostLink ∧ Parts.HostMessages ∧ Parts.Admission

/-- SLREADY and SLSTART (R343, R374, R387, R400, R458, R463): a bad one, or one at a module without an image, is answered BADMSG and counted; the
module that leads sends SLSTART once every module that it waits for stands with equal arguments; SLSTART of the lead admits the job that waits, lets
a domestique enter its step and a held module go on; a fenced module refuses either with code 3. In recovery, and without hub-die firmware, neither is
taken. -/
def Parts.SliceStart : Prop :=
  ∀ (dev : BitVec 16) (step0 : BitVec 64) (jobLo : BitVec 32) (s : State),
    let bad : Nat → Host.Outcome State Fault Refusal := fun typ =>
      .next ((s.bumpHd UCI_MSG_BAD 1).emit (.mgtRsp typ rsBADMSG 0 dev.toNat (s.bumpHd UCI_MSG_BAD 1).mgtFrom))
    let wait := if s.host.admitted = true ∧ s.ckp.slots = [] ∧ s.rep.tier3 = false ∧ s.pel.gone ≠ [] then s.pel.gone else s.slice
    let takes := s.hdRuns = true ∧ s.hd SEC_STATUS_RECOV ≠ 1
    let leads := takes ∧ s.loaded = true ∧ s.ckLead = s.devidx ∧ dev.toNat ∈ s.slice ∧ jobLo.toNat = s.jobLo
    let lead := takes ∧ s.loaded = true ∧ dev.toNat ∈ s.slice ∧ dev.toNat = s.ckLead
    (¬ takes → exec (.slReady dev step0 jobLo) s = .next s ∧ exec (.slStart dev) s = .next s) ∧
    (takes → ¬ leads → exec (.slReady dev step0 jobLo) s = bad 0x21) ∧
    (leads → s.fenced = true → exec (.slReady dev step0 jobLo) s = .next (s.emit (.mgtRsp 0x21 rsREFUSED 3 dev.toNat s.mgtFrom))) ∧
    (leads → s.fenced = false →
      ∃ t, exec (.slReady dev step0 jobLo) s = .next t ∧ t.sentRsp 0x21 rsOK 0 dev.toNat ∧
        ((∀ d ∈ wait, d = dev.toNat ∨ (d, step0, jobLo) ∈ s.host.ready) → (∀ r ∈ s.host.ready, r.1 ≠ dev.toNat → r.2 = (step0, jobLo)) →
          t.host.ready = [] ∧ t.ckp.slots = [] ∧ t.sentMgt 0x22 0 0 s.slice []) ∧
        ((∃ d ∈ wait, d ≠ dev.toNat ∧ ∀ r ∈ s.host.ready, r.1 ≠ d) ∨ (∃ r ∈ s.host.ready, r.1 ≠ dev.toNat ∧ r.2 ≠ (step0, jobLo)) →
          (dev.toNat, step0, jobLo) ∈ t.host.ready ∧ t.mgt = s.mgt)) ∧
    (takes → ¬ lead → exec (.slStart dev) s = bad 0x22) ∧
    (lead → ∃ t, exec (.slStart dev) s = .next t ∧ t.sentRsp 0x22 rsOK 0 dev.toNat ∧
      (∀ a, s.host.admission = some a → s.fenced = true → t.host.admission = none ∧ t.gate = s.gate ∧ ∃ reason, 1 ≤ reason ∧ reason ≤ 6 ∧
        Out.hostRsp .hx 0x04 a.tag rsREFUSED 3 0 (s.admitPayload 1 reason a.step0.toNat) ∈ t.out) ∧
      (∀ a, s.host.admission = some a → s.fenced = false → s.overrunSite = none → t.host.admission = none ∧ t.host.admitted = true ∧
        t.gate.step = (if a.restore then s.stepNo else a.step0) ∧ t.gate.replay = a.restore ∧ t.gateState = gRUN ∧ t.gate.due = s.liveRoles) ∧
      (s.host.admission = none → s.fenced = true → t = { s with out := t.out, free := t.free }) ∧
      (s.host.admission = none → s.fenced = false → s.rep.tier2 ≠ [] → s.host.admitted = false → t.host.admitted = true ∧ t.hd PEL_STATUS_STATE = 1 ∧
        t.gateState = gREWIND ∧ t.gate.due = s.liveRoles ∧ Out.meter 1 (BitVec.ofNat 64 s.jobId) s.stepNo ∈ t.out) ∧
      (s.host.admission = none → s.fenced = false → s.host.admitted = true → s.held = true → t.hd PEL_STATUS_STATE = 1 ∧ t.rep.tier2 = []) ∧
      (s.host.admission = none → s.fenced = false → (s.rep.tier2 = [] ∨ s.host.admitted = true) → s.held = false → t = { s with out := t.out }))

/-- The release of a job (R280, R374, R443, R463, R465): refused without an image, and without FORCE while a step runs; else the image, its
sites and its pending values are gone, the gate is IDLE and STATE is NONE, JOBSTOP goes to the meter with the last step whose boundary was reached
(log entry 128), an ADMIT that waits still waits, and a module that was fenced must pass a full test and never takes its place again. A
captain's RELORDER notifies the host, and its time-out releases the job; RELORDER of another device is a bad message, and one at a module without an
image is refused with code 2. -/
def Parts.Releases : Prop :=
  ∀ (h : HostHdr) (dev : BitVec 16) (s : State),
    let gone := fun (t : State) => t.img = none ∧ t.sites = [] ∧ t.shadow = [] ∧ t.roleSite = [] ∧ t.gateState = gIDLE ∧
      t.hd FRM_STATUS_STATE = 0 ∧ t.hd FRM_STATUS_JOBLO = 0 ∧ t.host.admitted = false ∧ t.host.relOrder = false ∧ t.fenced = false ∧ t.hbm = s.hbm ∧
      t.host.admission = s.host.admission ∧ (s.host.admitted = true → s.meterUp = true → Out.meter 2 s.stepNo 0 ∈ t.out) ∧
      (s.fenced = true → t.test.mustTest = true ∧ (s.jobId, s.devidx) ∈ t.test.barred)
    let takes := s.hdRuns = true ∧ s.hd SEC_STATUS_RECOV ≠ 1
    (∀ force, s.hostTakes h 0x05 false false →
      (s.loaded = false → exec (.hostRelease h force) s = .next (s.emit (.hostRsp h.via h.typ h.tag rsREFUSED 2 0 []))) ∧
      (s.loaded = true → force = false → (s.gateState = gRUN ∨ s.gateState = gWAIT ∨ s.gateState = gCOMMIT) →
        exec (.hostRelease h force) s = .next (s.emit (.hostRsp h.via h.typ h.tag rsREFUSED 1 0 []))) ∧
      (s.loaded = true → (force = true ∨ (s.gateState ≠ gRUN ∧ s.gateState ≠ gWAIT ∧ s.gateState ≠ gCOMMIT)) →
        ∃ t, exec (.hostRelease h force) s = .next t ∧ gone t ∧ Out.hostRsp h.via h.typ h.tag rsOK 0 0 [] ∈ t.out)) ∧
    (¬ takes → exec (.relOrder dev) s = .next s) ∧
    (takes → s.loaded = false → exec (.relOrder dev) s = .next (s.emit (.mgtRsp 0x23 rsREFUSED 2 dev.toNat s.mgtFrom))) ∧
    (takes → s.loaded = true → s.captainDev dev.toNat = false → exec (.relOrder dev) s =
      .next ((s.bumpHd UCI_MSG_BAD 1).emit (.mgtRsp 0x23 rsBADMSG 0 dev.toNat (s.bumpHd UCI_MSG_BAD 1).mgtFrom))) ∧
    (takes → s.loaded = true → s.captainDev dev.toNat = true → ∃ t, exec (.relOrder dev) s = .next t ∧ t.host.relOrder = true ∧
      Out.notify 0x05 (BitVec.ofNat 64 dev.toNat) ∈ t.out ∧ t.img = s.img) ∧
    (s.hdRuns = true → s.host.relOrder = true → ∃ t, exec .relOrderTimeout s = .next t ∧ gone t) ∧
    (s.hdRuns = false ∨ s.host.relOrder = false → exec .relOrderTimeout s = .next s)

/-- The start of a slice and the release of a job. -/
def Obligations.RunningJobs : Prop :=
  Parts.SliceStart ∧ Parts.Releases
end

