-- ==== Sys2Proof/Laws/Map.lean ====
section
/-! SUPPORT. Sparse maps: reading after writing, and the canonical form kept. -/

set_option autoImplicit false

namespace Sys2Proof.Machine

variable {α : Type}

theorem msorted_some_iff (b : Nat) (m : SMap α) :
    msorted (some b) m = true ↔ (∀ e ∈ m, b < e.1) ∧ m.Pairwise (fun x y => x.1 < y.1) := by
  induction m generalizing b with
  | nil => simp [msorted]
  | cons e m ih =>
    obtain ⟨k, v⟩ := e
    simp only [msorted, Bool.and_eq_true, decide_eq_true_eq, ih, List.pairwise_cons, List.mem_cons]
    constructor
    · rintro ⟨hb, hk, hp⟩
      refine ⟨?_, hk, hp⟩
      rintro e (rfl | he)
      · exact hb
      · exact lt_trans hb (hk e he)
    · rintro ⟨hb, hk, hp⟩
      exact ⟨hb _ (Or.inl rfl), hk, hp⟩

/-- A map is sorted when its keys rise pairwise. -/
theorem msorted_none_iff (m : SMap α) : msorted none m = true ↔ m.Pairwise (fun x y => x.1 < y.1) := by
  cases m with
  | nil => simp [msorted]
  | cons e m => obtain ⟨k, v⟩ := e; simp [msorted, msorted_some_iff]

theorem mcanon_iff [DecidableEq α] (d : α) (m : SMap α) :
    mcanon d m = true ↔ m.Pairwise (fun x y => x.1 < y.1) ∧ ∀ e ∈ m, e.2 ≠ d := by
  simp [mcanon, msorted_none_iff]

theorem mem_mset {x : Nat} {v : α} {m : SMap α} {e : Nat × α} (h : e ∈ mset x v m) : e = (x, v) ∨ e ∈ m := by
  induction m with
  | nil => simpa [mset] using h
  | cons f m ih =>
    obtain ⟨k, u⟩ := f
    simp only [mset] at h
    split at h
    · simpa using h
    · split at h
      · rcases List.mem_cons.mp h with h | h <;> simp [h]
      · rcases List.mem_cons.mp h with h | h
        · simp [h]
        · rcases ih h with h | h <;> simp [h]

theorem mem_mdel {x : Nat} {m : SMap α} {e : Nat × α} (h : e ∈ mdel x m) : e ∈ m := by
  induction m with
  | nil => exact h
  | cons f m ih =>
    obtain ⟨k, u⟩ := f
    simp only [mdel] at h
    split at h
    · simp [ih h]
    · rcases List.mem_cons.mp h with h | h
      · simp [h]
      · simp [ih h]

theorem mset_sorted {x : Nat} {v : α} {m : SMap α} (h : m.Pairwise (fun a b => a.1 < b.1)) :
    (mset x v m).Pairwise (fun a b => a.1 < b.1) := by
  induction m with
  | nil => simp [mset]
  | cons f m ih =>
    obtain ⟨k, u⟩ := f
    rw [List.pairwise_cons] at h
    simp only [mset]
    split
    · rename_i hx
      refine List.pairwise_cons.mpr ⟨?_, List.pairwise_cons.mpr h⟩
      intro e he
      rcases List.mem_cons.mp he with rfl | he
      · exact hx
      · exact lt_trans hx (h.1 e he)
    · split
      · rename_i hx; subst hx; exact List.pairwise_cons.mpr h
      · refine List.pairwise_cons.mpr ⟨?_, ih h.2⟩
        intro e he
        rcases mem_mset he with rfl | he
        · simp only; omega
        · exact h.1 e he

theorem mdel_sorted {x : Nat} {m : SMap α} (h : m.Pairwise (fun a b => a.1 < b.1)) :
    (mdel x m).Pairwise (fun a b => a.1 < b.1) := by
  induction m with
  | nil => simp [mdel]
  | cons f m ih =>
    obtain ⟨k, u⟩ := f
    rw [List.pairwise_cons] at h
    simp only [mdel]
    split
    · exact ih h.2
    · exact List.pairwise_cons.mpr ⟨fun e he => h.1 e (mem_mdel he), ih h.2⟩

theorem mem_mput [DecidableEq α] {d : α} {x : Nat} {v : α} {m : SMap α} {e : Nat × α} (h : e ∈ mput d x v m) :
    (e = (x, v) ∧ v ≠ d) ∨ e ∈ m := by
  unfold mput at h
  split at h
  · exact Or.inr (mem_mdel h)
  · rename_i hv
    rcases mem_mset h with h | h
    · exact Or.inl ⟨h, hv⟩
    · exact Or.inr h

/-- Writing a key keeps the canonical form. -/
theorem mcanon_mput [DecidableEq α] {d : α} {x : Nat} {v : α} {m : SMap α} (h : mcanon d m = true) :
    mcanon d (mput d x v m) = true := by
  rw [mcanon_iff] at h ⊢
  refine ⟨?_, fun e he => ?_⟩
  · unfold mput
    split
    · exact mdel_sorted h.1
    · exact mset_sorted h.1
  · rcases mem_mput he with ⟨rfl, hv⟩ | he
    · exact hv
    · exact h.2 e he

/-- Dropping entries keeps the canonical form. -/
theorem mcanon_filter [DecidableEq α] {d : α} {m : SMap α} (p : Nat × α → Bool) (h : mcanon d m = true) :
    mcanon d (m.filter p) = true := by
  rw [mcanon_iff] at h ⊢
  exact ⟨h.1.filter p, fun e he => h.2 e (List.mem_filter.mp he).1⟩

theorem mfind_mset (x y : Nat) (v : α) (m : SMap α) : mfind (mset x v m) y = if x = y then some v else mfind m y := by
  induction m with
  | nil => simp [mset, mfind]
  | cons f m ih =>
    obtain ⟨k, u⟩ := f
    simp only [mset]
    split
    · simp [mfind]
    · split
      · rename_i hx; subst hx; simp only [mfind]; split <;> rfl
      · simp only [mfind, ih]
        split
        · rename_i hk; subst hk; rename_i hne; simp [hne]
        · rfl

theorem mfind_mdel_ne {x y : Nat} (h : x ≠ y) (m : SMap α) : mfind (mdel x m) y = mfind m y := by
  induction m with
  | nil => rfl
  | cons f m ih =>
    obtain ⟨k, u⟩ := f
    simp only [mdel]
    split
    · rename_i hx; subst hx; simp only [ih, mfind]; rw [if_neg h]
    · simp only [mfind, ih]

theorem mfind_mdel_self (x : Nat) (m : SMap α) : mfind (mdel x m) x = none := by
  induction m with
  | nil => rfl
  | cons f m ih =>
    obtain ⟨k, u⟩ := f
    simp only [mdel]
    split
    · exact ih
    · rename_i hx; simp only [mfind]; rw [if_neg (Ne.symm hx)]; exact ih

/-- Reading another key after a write. -/
theorem mget_mput_ne [DecidableEq α] (d : α) {x y : Nat} (h : x ≠ y) (v : α) (m : SMap α) :
    mget d (mput d x v m) y = mget d m y := by
  unfold mget mput
  split
  · rw [mfind_mdel_ne h]
  · rw [mfind_mset, if_neg h]

/-- Reading the key written. -/
theorem mget_mput_self [DecidableEq α] (d : α) (x : Nat) (v : α) (m : SMap α) : mget d (mput d x v m) x = v := by
  unfold mget mput
  split
  · rename_i hv; rw [mfind_mdel_self]; simp [hv]
  · rw [mfind_mset, if_pos rfl]; rfl

theorem mem_of_mfind {x : Nat} {v : α} {m : SMap α} (h : mfind m x = some v) : (x, v) ∈ m := by
  induction m with
  | nil => simp [mfind] at h
  | cons f m ih =>
    obtain ⟨k, u⟩ := f
    simp only [mfind] at h
    split at h
    · rename_i hk; simp at h; simp [hk, h]
    · simp [ih h]

end Sys2Proof.Machine
end

