-- ==== Sys2Proof/Laws/State.lean ====
section
/-! SUPPORT. What each update of the state and of a core site changes: one lemma per field per update, and what is read back after a
write. -/

set_option autoImplicit false

namespace Sys2Proof.Machine

@[simp] theorem State.setD_pending (s : State) (w : Nat) (x : Fld) (v : Nat) : (s.setD w x v).pending = s.pending := rfl
@[simp] theorem State.setD_time (s : State) (w : Nat) (x : Fld) (v : Nat) : (s.setD w x v).time = s.time := rfl
@[simp] theorem State.setD_free (s : State) (w : Nat) (x : Fld) (v : Nat) : (s.setD w x v).free = s.free := rfl
@[simp] theorem State.setD_out (s : State) (w : Nat) (x : Fld) (v : Nat) : (s.setD w x v).out = s.out := rfl
@[simp] theorem State.setD_serial (s : State) (w : Nat) (x : Fld) (v : Nat) : (s.setD w x v).serial = s.serial := rfl
@[simp] theorem State.setD_shadow (s : State) (w : Nat) (x : Fld) (v : Nat) : (s.setD w x v).shadow = s.shadow := rfl
@[simp] theorem State.setD_sites (s : State) (w : Nat) (x : Fld) (v : Nat) : (s.setD w x v).sites = s.sites := rfl
@[simp] theorem State.setD_roleSite (s : State) (w : Nat) (x : Fld) (v : Nat) : (s.setD w x v).roleSite = s.roleSite := rfl
@[simp] theorem State.setD_hbm (s : State) (w : Nat) (x : Fld) (v : Nat) : (s.setD w x v).hbm = s.hbm := rfl
@[simp] theorem State.setD_fab (s : State) (w : Nat) (x : Fld) (v : Nat) : (s.setD w x v).fab = s.fab := rfl
@[simp] theorem State.setD_img (s : State) (w : Nat) (x : Fld) (v : Nat) : (s.setD w x v).img = s.img := rfl
@[simp] theorem State.setD_loader (s : State) (w : Nat) (x : Fld) (v : Nat) : (s.setD w x v).loader = s.loader := rfl
@[simp] theorem State.setD_gate (s : State) (w : Nat) (x : Fld) (v : Nat) : (s.setD w x v).gate = s.gate := rfl
@[simp] theorem State.setD_rep (s : State) (w : Nat) (x : Fld) (v : Nat) : (s.setD w x v).rep = s.rep := rfl
@[simp] theorem State.setD_net (s : State) (w : Nat) (x : Fld) (v : Nat) : (s.setD w x v).net = s.net := rfl
@[simp] theorem State.setD_col (s : State) (w : Nat) (x : Fld) (v : Nat) : (s.setD w x v).col = s.col := rfl
@[simp] theorem State.setD_pel (s : State) (w : Nat) (x : Fld) (v : Nat) : (s.setD w x v).pel = s.pel := rfl
@[simp] theorem State.setD_ckp (s : State) (w : Nat) (x : Fld) (v : Nat) : (s.setD w x v).ckp = s.ckp := rfl
@[simp] theorem State.setD_test (s : State) (w : Nat) (x : Fld) (v : Nat) : (s.setD w x v).test = s.test := rfl
@[simp] theorem State.setD_sec (s : State) (w : Nat) (x : Fld) (v : Nat) : (s.setD w x v).sec = s.sec := rfl
@[simp] theorem State.setD_mtr (s : State) (w : Nat) (x : Fld) (v : Nat) : (s.setD w x v).mtr = s.mtr := rfl
@[simp] theorem State.setD_fac (s : State) (w : Nat) (x : Fld) (v : Nat) : (s.setD w x v).fac = s.fac := rfl
@[simp] theorem State.setD_host (s : State) (w : Nat) (x : Fld) (v : Nat) : (s.setD w x v).host = s.host := rfl
@[simp] theorem State.setD_mgt (s : State) (w : Nat) (x : Fld) (v : Nat) : (s.setD w x v).mgt = s.mgt := rfl
@[simp] theorem State.setD_pwr (s : State) (w : Nat) (x : Fld) (v : Nat) : (s.setD w x v).pwr = s.pwr := rfl

@[simp] theorem State.setHd_pending (s : State) (x : Fld) (v : Nat) : (s.setHd x v).pending = s.pending := rfl
@[simp] theorem State.setHd_time (s : State) (x : Fld) (v : Nat) : (s.setHd x v).time = s.time := rfl
@[simp] theorem State.setHd_free (s : State) (x : Fld) (v : Nat) : (s.setHd x v).free = s.free := rfl
@[simp] theorem State.setHd_out (s : State) (x : Fld) (v : Nat) : (s.setHd x v).out = s.out := rfl
@[simp] theorem State.setHd_serial (s : State) (x : Fld) (v : Nat) : (s.setHd x v).serial = s.serial := rfl
@[simp] theorem State.setHd_shadow (s : State) (x : Fld) (v : Nat) : (s.setHd x v).shadow = s.shadow := rfl
@[simp] theorem State.setHd_sites (s : State) (x : Fld) (v : Nat) : (s.setHd x v).sites = s.sites := rfl
@[simp] theorem State.setHd_roleSite (s : State) (x : Fld) (v : Nat) : (s.setHd x v).roleSite = s.roleSite := rfl
@[simp] theorem State.setHd_hbm (s : State) (x : Fld) (v : Nat) : (s.setHd x v).hbm = s.hbm := rfl
@[simp] theorem State.setHd_fab (s : State) (x : Fld) (v : Nat) : (s.setHd x v).fab = s.fab := rfl
@[simp] theorem State.setHd_img (s : State) (x : Fld) (v : Nat) : (s.setHd x v).img = s.img := rfl
@[simp] theorem State.setHd_loader (s : State) (x : Fld) (v : Nat) : (s.setHd x v).loader = s.loader := rfl
@[simp] theorem State.setHd_gate (s : State) (x : Fld) (v : Nat) : (s.setHd x v).gate = s.gate := rfl
@[simp] theorem State.setHd_rep (s : State) (x : Fld) (v : Nat) : (s.setHd x v).rep = s.rep := rfl
@[simp] theorem State.setHd_net (s : State) (x : Fld) (v : Nat) : (s.setHd x v).net = s.net := rfl
@[simp] theorem State.setHd_col (s : State) (x : Fld) (v : Nat) : (s.setHd x v).col = s.col := rfl
@[simp] theorem State.setHd_pel (s : State) (x : Fld) (v : Nat) : (s.setHd x v).pel = s.pel := rfl
@[simp] theorem State.setHd_ckp (s : State) (x : Fld) (v : Nat) : (s.setHd x v).ckp = s.ckp := rfl
@[simp] theorem State.setHd_test (s : State) (x : Fld) (v : Nat) : (s.setHd x v).test = s.test := rfl
@[simp] theorem State.setHd_sec (s : State) (x : Fld) (v : Nat) : (s.setHd x v).sec = s.sec := rfl
@[simp] theorem State.setHd_mtr (s : State) (x : Fld) (v : Nat) : (s.setHd x v).mtr = s.mtr := rfl
@[simp] theorem State.setHd_fac (s : State) (x : Fld) (v : Nat) : (s.setHd x v).fac = s.fac := rfl
@[simp] theorem State.setHd_host (s : State) (x : Fld) (v : Nat) : (s.setHd x v).host = s.host := rfl
@[simp] theorem State.setHd_mgt (s : State) (x : Fld) (v : Nat) : (s.setHd x v).mgt = s.mgt := rfl
@[simp] theorem State.setHd_pwr (s : State) (x : Fld) (v : Nat) : (s.setHd x v).pwr = s.pwr := rfl

@[simp] theorem State.bumpD_pending (s : State) (w : Nat) (x : Fld) (n : Nat) : (s.bumpD w x n).pending = s.pending := rfl
@[simp] theorem State.bumpD_time (s : State) (w : Nat) (x : Fld) (n : Nat) : (s.bumpD w x n).time = s.time := rfl
@[simp] theorem State.bumpD_free (s : State) (w : Nat) (x : Fld) (n : Nat) : (s.bumpD w x n).free = s.free := rfl
@[simp] theorem State.bumpD_out (s : State) (w : Nat) (x : Fld) (n : Nat) : (s.bumpD w x n).out = s.out := rfl
@[simp] theorem State.bumpD_serial (s : State) (w : Nat) (x : Fld) (n : Nat) : (s.bumpD w x n).serial = s.serial := rfl
@[simp] theorem State.bumpD_shadow (s : State) (w : Nat) (x : Fld) (n : Nat) : (s.bumpD w x n).shadow = s.shadow := rfl
@[simp] theorem State.bumpD_sites (s : State) (w : Nat) (x : Fld) (n : Nat) : (s.bumpD w x n).sites = s.sites := rfl
@[simp] theorem State.bumpD_roleSite (s : State) (w : Nat) (x : Fld) (n : Nat) : (s.bumpD w x n).roleSite = s.roleSite := rfl
@[simp] theorem State.bumpD_hbm (s : State) (w : Nat) (x : Fld) (n : Nat) : (s.bumpD w x n).hbm = s.hbm := rfl
@[simp] theorem State.bumpD_fab (s : State) (w : Nat) (x : Fld) (n : Nat) : (s.bumpD w x n).fab = s.fab := rfl
@[simp] theorem State.bumpD_img (s : State) (w : Nat) (x : Fld) (n : Nat) : (s.bumpD w x n).img = s.img := rfl
@[simp] theorem State.bumpD_loader (s : State) (w : Nat) (x : Fld) (n : Nat) : (s.bumpD w x n).loader = s.loader := rfl
@[simp] theorem State.bumpD_gate (s : State) (w : Nat) (x : Fld) (n : Nat) : (s.bumpD w x n).gate = s.gate := rfl
@[simp] theorem State.bumpD_rep (s : State) (w : Nat) (x : Fld) (n : Nat) : (s.bumpD w x n).rep = s.rep := rfl
@[simp] theorem State.bumpD_net (s : State) (w : Nat) (x : Fld) (n : Nat) : (s.bumpD w x n).net = s.net := rfl
@[simp] theorem State.bumpD_col (s : State) (w : Nat) (x : Fld) (n : Nat) : (s.bumpD w x n).col = s.col := rfl
@[simp] theorem State.bumpD_pel (s : State) (w : Nat) (x : Fld) (n : Nat) : (s.bumpD w x n).pel = s.pel := rfl
@[simp] theorem State.bumpD_ckp (s : State) (w : Nat) (x : Fld) (n : Nat) : (s.bumpD w x n).ckp = s.ckp := rfl
@[simp] theorem State.bumpD_test (s : State) (w : Nat) (x : Fld) (n : Nat) : (s.bumpD w x n).test = s.test := rfl
@[simp] theorem State.bumpD_sec (s : State) (w : Nat) (x : Fld) (n : Nat) : (s.bumpD w x n).sec = s.sec := rfl
@[simp] theorem State.bumpD_mtr (s : State) (w : Nat) (x : Fld) (n : Nat) : (s.bumpD w x n).mtr = s.mtr := rfl
@[simp] theorem State.bumpD_fac (s : State) (w : Nat) (x : Fld) (n : Nat) : (s.bumpD w x n).fac = s.fac := rfl
@[simp] theorem State.bumpD_host (s : State) (w : Nat) (x : Fld) (n : Nat) : (s.bumpD w x n).host = s.host := rfl
@[simp] theorem State.bumpD_mgt (s : State) (w : Nat) (x : Fld) (n : Nat) : (s.bumpD w x n).mgt = s.mgt := rfl
@[simp] theorem State.bumpD_pwr (s : State) (w : Nat) (x : Fld) (n : Nat) : (s.bumpD w x n).pwr = s.pwr := rfl

@[simp] theorem State.bumpHd_pending (s : State) (x : Fld) (n : Nat) : (s.bumpHd x n).pending = s.pending := rfl
@[simp] theorem State.bumpHd_time (s : State) (x : Fld) (n : Nat) : (s.bumpHd x n).time = s.time := rfl
@[simp] theorem State.bumpHd_free (s : State) (x : Fld) (n : Nat) : (s.bumpHd x n).free = s.free := rfl
@[simp] theorem State.bumpHd_out (s : State) (x : Fld) (n : Nat) : (s.bumpHd x n).out = s.out := rfl
@[simp] theorem State.bumpHd_serial (s : State) (x : Fld) (n : Nat) : (s.bumpHd x n).serial = s.serial := rfl
@[simp] theorem State.bumpHd_shadow (s : State) (x : Fld) (n : Nat) : (s.bumpHd x n).shadow = s.shadow := rfl
@[simp] theorem State.bumpHd_sites (s : State) (x : Fld) (n : Nat) : (s.bumpHd x n).sites = s.sites := rfl
@[simp] theorem State.bumpHd_roleSite (s : State) (x : Fld) (n : Nat) : (s.bumpHd x n).roleSite = s.roleSite := rfl
@[simp] theorem State.bumpHd_hbm (s : State) (x : Fld) (n : Nat) : (s.bumpHd x n).hbm = s.hbm := rfl
@[simp] theorem State.bumpHd_fab (s : State) (x : Fld) (n : Nat) : (s.bumpHd x n).fab = s.fab := rfl
@[simp] theorem State.bumpHd_img (s : State) (x : Fld) (n : Nat) : (s.bumpHd x n).img = s.img := rfl
@[simp] theorem State.bumpHd_loader (s : State) (x : Fld) (n : Nat) : (s.bumpHd x n).loader = s.loader := rfl
@[simp] theorem State.bumpHd_gate (s : State) (x : Fld) (n : Nat) : (s.bumpHd x n).gate = s.gate := rfl
@[simp] theorem State.bumpHd_rep (s : State) (x : Fld) (n : Nat) : (s.bumpHd x n).rep = s.rep := rfl
@[simp] theorem State.bumpHd_net (s : State) (x : Fld) (n : Nat) : (s.bumpHd x n).net = s.net := rfl
@[simp] theorem State.bumpHd_col (s : State) (x : Fld) (n : Nat) : (s.bumpHd x n).col = s.col := rfl
@[simp] theorem State.bumpHd_pel (s : State) (x : Fld) (n : Nat) : (s.bumpHd x n).pel = s.pel := rfl
@[simp] theorem State.bumpHd_ckp (s : State) (x : Fld) (n : Nat) : (s.bumpHd x n).ckp = s.ckp := rfl
@[simp] theorem State.bumpHd_test (s : State) (x : Fld) (n : Nat) : (s.bumpHd x n).test = s.test := rfl
@[simp] theorem State.bumpHd_sec (s : State) (x : Fld) (n : Nat) : (s.bumpHd x n).sec = s.sec := rfl
@[simp] theorem State.bumpHd_mtr (s : State) (x : Fld) (n : Nat) : (s.bumpHd x n).mtr = s.mtr := rfl
@[simp] theorem State.bumpHd_fac (s : State) (x : Fld) (n : Nat) : (s.bumpHd x n).fac = s.fac := rfl
@[simp] theorem State.bumpHd_host (s : State) (x : Fld) (n : Nat) : (s.bumpHd x n).host = s.host := rfl
@[simp] theorem State.bumpHd_mgt (s : State) (x : Fld) (n : Nat) : (s.bumpHd x n).mgt = s.mgt := rfl
@[simp] theorem State.bumpHd_pwr (s : State) (x : Fld) (n : Nat) : (s.bumpHd x n).pwr = s.pwr := rfl

@[simp] theorem State.setSite_pending (s : State) (n : Nat) (c : Site) : (s.setSite n c).pending = s.pending := rfl
@[simp] theorem State.setSite_time (s : State) (n : Nat) (c : Site) : (s.setSite n c).time = s.time := rfl
@[simp] theorem State.setSite_free (s : State) (n : Nat) (c : Site) : (s.setSite n c).free = s.free := rfl
@[simp] theorem State.setSite_out (s : State) (n : Nat) (c : Site) : (s.setSite n c).out = s.out := rfl
@[simp] theorem State.setSite_serial (s : State) (n : Nat) (c : Site) : (s.setSite n c).serial = s.serial := rfl
@[simp] theorem State.setSite_regs (s : State) (n : Nat) (c : Site) : (s.setSite n c).regs = s.regs := rfl
@[simp] theorem State.setSite_shadow (s : State) (n : Nat) (c : Site) : (s.setSite n c).shadow = s.shadow := rfl
@[simp] theorem State.setSite_roleSite (s : State) (n : Nat) (c : Site) : (s.setSite n c).roleSite = s.roleSite := rfl
@[simp] theorem State.setSite_hbm (s : State) (n : Nat) (c : Site) : (s.setSite n c).hbm = s.hbm := rfl
@[simp] theorem State.setSite_fab (s : State) (n : Nat) (c : Site) : (s.setSite n c).fab = s.fab := rfl
@[simp] theorem State.setSite_img (s : State) (n : Nat) (c : Site) : (s.setSite n c).img = s.img := rfl
@[simp] theorem State.setSite_loader (s : State) (n : Nat) (c : Site) : (s.setSite n c).loader = s.loader := rfl
@[simp] theorem State.setSite_gate (s : State) (n : Nat) (c : Site) : (s.setSite n c).gate = s.gate := rfl
@[simp] theorem State.setSite_rep (s : State) (n : Nat) (c : Site) : (s.setSite n c).rep = s.rep := rfl
@[simp] theorem State.setSite_net (s : State) (n : Nat) (c : Site) : (s.setSite n c).net = s.net := rfl
@[simp] theorem State.setSite_col (s : State) (n : Nat) (c : Site) : (s.setSite n c).col = s.col := rfl
@[simp] theorem State.setSite_pel (s : State) (n : Nat) (c : Site) : (s.setSite n c).pel = s.pel := rfl
@[simp] theorem State.setSite_ckp (s : State) (n : Nat) (c : Site) : (s.setSite n c).ckp = s.ckp := rfl
@[simp] theorem State.setSite_test (s : State) (n : Nat) (c : Site) : (s.setSite n c).test = s.test := rfl
@[simp] theorem State.setSite_sec (s : State) (n : Nat) (c : Site) : (s.setSite n c).sec = s.sec := rfl
@[simp] theorem State.setSite_mtr (s : State) (n : Nat) (c : Site) : (s.setSite n c).mtr = s.mtr := rfl
@[simp] theorem State.setSite_fac (s : State) (n : Nat) (c : Site) : (s.setSite n c).fac = s.fac := rfl
@[simp] theorem State.setSite_host (s : State) (n : Nat) (c : Site) : (s.setSite n c).host = s.host := rfl
@[simp] theorem State.setSite_mgt (s : State) (n : Nat) (c : Site) : (s.setSite n c).mgt = s.mgt := rfl
@[simp] theorem State.setSite_pwr (s : State) (n : Nat) (c : Site) : (s.setSite n c).pwr = s.pwr := rfl

@[simp] theorem State.emit_pending (s : State) (o : Out) : (s.emit o).pending = s.pending := rfl
@[simp] theorem State.emit_time (s : State) (o : Out) : (s.emit o).time = s.time := rfl
@[simp] theorem State.emit_free (s : State) (o : Out) : (s.emit o).free = s.free := rfl
@[simp] theorem State.emit_serial (s : State) (o : Out) : (s.emit o).serial = s.serial := rfl
@[simp] theorem State.emit_regs (s : State) (o : Out) : (s.emit o).regs = s.regs := rfl
@[simp] theorem State.emit_shadow (s : State) (o : Out) : (s.emit o).shadow = s.shadow := rfl
@[simp] theorem State.emit_sites (s : State) (o : Out) : (s.emit o).sites = s.sites := rfl
@[simp] theorem State.emit_roleSite (s : State) (o : Out) : (s.emit o).roleSite = s.roleSite := rfl
@[simp] theorem State.emit_hbm (s : State) (o : Out) : (s.emit o).hbm = s.hbm := rfl
@[simp] theorem State.emit_fab (s : State) (o : Out) : (s.emit o).fab = s.fab := rfl
@[simp] theorem State.emit_img (s : State) (o : Out) : (s.emit o).img = s.img := rfl
@[simp] theorem State.emit_loader (s : State) (o : Out) : (s.emit o).loader = s.loader := rfl
@[simp] theorem State.emit_gate (s : State) (o : Out) : (s.emit o).gate = s.gate := rfl
@[simp] theorem State.emit_rep (s : State) (o : Out) : (s.emit o).rep = s.rep := rfl
@[simp] theorem State.emit_net (s : State) (o : Out) : (s.emit o).net = s.net := rfl
@[simp] theorem State.emit_col (s : State) (o : Out) : (s.emit o).col = s.col := rfl
@[simp] theorem State.emit_pel (s : State) (o : Out) : (s.emit o).pel = s.pel := rfl
@[simp] theorem State.emit_ckp (s : State) (o : Out) : (s.emit o).ckp = s.ckp := rfl
@[simp] theorem State.emit_test (s : State) (o : Out) : (s.emit o).test = s.test := rfl
@[simp] theorem State.emit_sec (s : State) (o : Out) : (s.emit o).sec = s.sec := rfl
@[simp] theorem State.emit_mtr (s : State) (o : Out) : (s.emit o).mtr = s.mtr := rfl
@[simp] theorem State.emit_fac (s : State) (o : Out) : (s.emit o).fac = s.fac := rfl
@[simp] theorem State.emit_host (s : State) (o : Out) : (s.emit o).host = s.host := rfl
@[simp] theorem State.emit_mgt (s : State) (o : Out) : (s.emit o).mgt = s.mgt := rfl
@[simp] theorem State.emit_pwr (s : State) (o : Out) : (s.emit o).pwr = s.pwr := rfl

@[simp] theorem State.skipFree_pending (s : State)  : (s.skipFree ).pending = s.pending := rfl
@[simp] theorem State.skipFree_time (s : State)  : (s.skipFree ).time = s.time := rfl
@[simp] theorem State.skipFree_out (s : State)  : (s.skipFree ).out = s.out := rfl
@[simp] theorem State.skipFree_serial (s : State)  : (s.skipFree ).serial = s.serial := rfl
@[simp] theorem State.skipFree_regs (s : State)  : (s.skipFree ).regs = s.regs := rfl
@[simp] theorem State.skipFree_shadow (s : State)  : (s.skipFree ).shadow = s.shadow := rfl
@[simp] theorem State.skipFree_sites (s : State)  : (s.skipFree ).sites = s.sites := rfl
@[simp] theorem State.skipFree_roleSite (s : State)  : (s.skipFree ).roleSite = s.roleSite := rfl
@[simp] theorem State.skipFree_hbm (s : State)  : (s.skipFree ).hbm = s.hbm := rfl
@[simp] theorem State.skipFree_fab (s : State)  : (s.skipFree ).fab = s.fab := rfl
@[simp] theorem State.skipFree_img (s : State)  : (s.skipFree ).img = s.img := rfl
@[simp] theorem State.skipFree_loader (s : State)  : (s.skipFree ).loader = s.loader := rfl
@[simp] theorem State.skipFree_gate (s : State)  : (s.skipFree ).gate = s.gate := rfl
@[simp] theorem State.skipFree_rep (s : State)  : (s.skipFree ).rep = s.rep := rfl
@[simp] theorem State.skipFree_net (s : State)  : (s.skipFree ).net = s.net := rfl
@[simp] theorem State.skipFree_col (s : State)  : (s.skipFree ).col = s.col := rfl
@[simp] theorem State.skipFree_pel (s : State)  : (s.skipFree ).pel = s.pel := rfl
@[simp] theorem State.skipFree_ckp (s : State)  : (s.skipFree ).ckp = s.ckp := rfl
@[simp] theorem State.skipFree_test (s : State)  : (s.skipFree ).test = s.test := rfl
@[simp] theorem State.skipFree_sec (s : State)  : (s.skipFree ).sec = s.sec := rfl
@[simp] theorem State.skipFree_mtr (s : State)  : (s.skipFree ).mtr = s.mtr := rfl
@[simp] theorem State.skipFree_fac (s : State)  : (s.skipFree ).fac = s.fac := rfl
@[simp] theorem State.skipFree_host (s : State)  : (s.skipFree ).host = s.host := rfl
@[simp] theorem State.skipFree_mgt (s : State)  : (s.skipFree ).mgt = s.mgt := rfl
@[simp] theorem State.skipFree_pwr (s : State)  : (s.skipFree ).pwr = s.pwr := rfl

@[simp] theorem State.onSite_pending (s : State) (n : Nat) (g : Site → Site) : (s.onSite n g).pending = s.pending := by
  unfold State.onSite; dsimp only; split <;> rfl
@[simp] theorem State.onSite_time (s : State) (n : Nat) (g : Site → Site) : (s.onSite n g).time = s.time := by
  unfold State.onSite; dsimp only; split <;> rfl
@[simp] theorem State.onSite_free (s : State) (n : Nat) (g : Site → Site) : (s.onSite n g).free = s.free := by
  unfold State.onSite; dsimp only; split <;> rfl
@[simp] theorem State.onSite_serial (s : State) (n : Nat) (g : Site → Site) : (s.onSite n g).serial = s.serial := by
  unfold State.onSite; dsimp only; split <;> rfl
@[simp] theorem State.onSite_regs (s : State) (n : Nat) (g : Site → Site) : (s.onSite n g).regs = s.regs := by
  unfold State.onSite; dsimp only; split <;> rfl
@[simp] theorem State.onSite_shadow (s : State) (n : Nat) (g : Site → Site) : (s.onSite n g).shadow = s.shadow := by
  unfold State.onSite; dsimp only; split <;> rfl
@[simp] theorem State.onSite_roleSite (s : State) (n : Nat) (g : Site → Site) : (s.onSite n g).roleSite = s.roleSite := by
  unfold State.onSite; dsimp only; split <;> rfl
@[simp] theorem State.onSite_hbm (s : State) (n : Nat) (g : Site → Site) : (s.onSite n g).hbm = s.hbm := by
  unfold State.onSite; dsimp only; split <;> rfl
@[simp] theorem State.onSite_fab (s : State) (n : Nat) (g : Site → Site) : (s.onSite n g).fab = s.fab := by
  unfold State.onSite; dsimp only; split <;> rfl
@[simp] theorem State.onSite_img (s : State) (n : Nat) (g : Site → Site) : (s.onSite n g).img = s.img := by
  unfold State.onSite; dsimp only; split <;> rfl
@[simp] theorem State.onSite_loader (s : State) (n : Nat) (g : Site → Site) : (s.onSite n g).loader = s.loader := by
  unfold State.onSite; dsimp only; split <;> rfl
@[simp] theorem State.onSite_gate (s : State) (n : Nat) (g : Site → Site) : (s.onSite n g).gate = s.gate := by
  unfold State.onSite; dsimp only; split <;> rfl
@[simp] theorem State.onSite_rep (s : State) (n : Nat) (g : Site → Site) : (s.onSite n g).rep = s.rep := by
  unfold State.onSite; dsimp only; split <;> rfl
@[simp] theorem State.onSite_net (s : State) (n : Nat) (g : Site → Site) : (s.onSite n g).net = s.net := by
  unfold State.onSite; dsimp only; split <;> rfl
@[simp] theorem State.onSite_col (s : State) (n : Nat) (g : Site → Site) : (s.onSite n g).col = s.col := by
  unfold State.onSite; dsimp only; split <;> rfl
@[simp] theorem State.onSite_pel (s : State) (n : Nat) (g : Site → Site) : (s.onSite n g).pel = s.pel := by
  unfold State.onSite; dsimp only; split <;> rfl
@[simp] theorem State.onSite_ckp (s : State) (n : Nat) (g : Site → Site) : (s.onSite n g).ckp = s.ckp := by
  unfold State.onSite; dsimp only; split <;> rfl
@[simp] theorem State.onSite_test (s : State) (n : Nat) (g : Site → Site) : (s.onSite n g).test = s.test := by
  unfold State.onSite; dsimp only; split <;> rfl
@[simp] theorem State.onSite_sec (s : State) (n : Nat) (g : Site → Site) : (s.onSite n g).sec = s.sec := by
  unfold State.onSite; dsimp only; split <;> rfl
@[simp] theorem State.onSite_mtr (s : State) (n : Nat) (g : Site → Site) : (s.onSite n g).mtr = s.mtr := by
  unfold State.onSite; dsimp only; split <;> rfl
@[simp] theorem State.onSite_fac (s : State) (n : Nat) (g : Site → Site) : (s.onSite n g).fac = s.fac := by
  unfold State.onSite; dsimp only; split <;> rfl
@[simp] theorem State.onSite_host (s : State) (n : Nat) (g : Site → Site) : (s.onSite n g).host = s.host := by
  unfold State.onSite; dsimp only; split <;> rfl
@[simp] theorem State.onSite_mgt (s : State) (n : Nat) (g : Site → Site) : (s.onSite n g).mgt = s.mgt := by
  unfold State.onSite; dsimp only; split <;> rfl
@[simp] theorem State.onSite_pwr (s : State) (n : Nat) (g : Site → Site) : (s.onSite n g).pwr = s.pwr := by
  unfold State.onSite; dsimp only; split <;> rfl

@[simp] theorem Site.set_shadow (c : Site) (x : Fld) (v : Nat) : (c.set x v).shadow = c.shadow := rfl
@[simp] theorem Site.set_role (c : Site) (x : Fld) (v : Nat) : (c.set x v).role = c.role := rfl
@[simp] theorem Site.set_sregs (c : Site) (x : Fld) (v : Nat) : (c.set x v).sregs = c.sregs := rfl
@[simp] theorem Site.set_vregs (c : Site) (x : Fld) (v : Nat) : (c.set x v).vregs = c.vregs := rfl
@[simp] theorem Site.set_pregs (c : Site) (x : Fld) (v : Nat) : (c.set x v).pregs = c.pregs := rfl
@[simp] theorem Site.set_flight (c : Site) (x : Fld) (v : Nat) : (c.set x v).flight = c.flight := rfl
@[simp] theorem Site.set_active (c : Site) (x : Fld) (v : Nat) : (c.set x v).active = c.active := rfl
@[simp] theorem Site.set_branch (c : Site) (x : Fld) (v : Nat) : (c.set x v).branch = c.branch := rfl
@[simp] theorem Site.set_brShadow (c : Site) (x : Fld) (v : Nat) : (c.set x v).brShadow = c.brShadow := rfl
@[simp] theorem Site.set_stall (c : Site) (x : Fld) (v : Nat) : (c.set x v).stall = c.stall := rfl
@[simp] theorem Site.set_stallHeld (c : Site) (x : Fld) (v : Nat) : (c.set x v).stallHeld = c.stallHeld := rfl
@[simp] theorem Site.set_t30seen (c : Site) (x : Fld) (v : Nat) : (c.set x v).t30seen = c.t30seen := rfl
@[simp] theorem Site.set_poisonSig (c : Site) (x : Fld) (v : Nat) : (c.set x v).poisonSig = c.poisonSig := rfl
@[simp] theorem Site.set_store (c : Site) (x : Fld) (v : Nat) : (c.set x v).store = c.store := rfl
@[simp] theorem Site.set_istore (c : Site) (x : Fld) (v : Nat) : (c.set x v).istore = c.istore := rfl
@[simp] theorem Site.set_recs (c : Site) (x : Fld) (v : Nat) : (c.set x v).recs = c.recs := rfl
@[simp] theorem Site.set_tables (c : Site) (x : Fld) (v : Nat) : (c.set x v).tables = c.tables := rfl
@[simp] theorem Site.set_tableShadow (c : Site) (x : Fld) (v : Nat) : (c.set x v).tableShadow = c.tableShadow := rfl
@[simp] theorem Site.set_tableBuf (c : Site) (x : Fld) (v : Nat) : (c.set x v).tableBuf = c.tableBuf := rfl
@[simp] theorem Site.set_arrs (c : Site) (x : Fld) (v : Nat) : (c.set x v).arrs = c.arrs := rfl
@[simp] theorem Site.set_drainQ (c : Site) (x : Fld) (v : Nat) : (c.set x v).drainQ = c.drainQ := rfl
@[simp] theorem Site.set_outTiles (c : Site) (x : Fld) (v : Nat) : (c.set x v).outTiles = c.outTiles := rfl
@[simp] theorem Site.set_nextTile (c : Site) (x : Fld) (v : Nat) : (c.set x v).nextTile = c.nextTile := rfl
@[simp] theorem Site.set_lastVec (c : Site) (x : Fld) (v : Nat) : (c.set x v).lastVec = c.lastVec := rfl
@[simp] theorem Site.set_portX (c : Site) (x : Fld) (v : Nat) : (c.set x v).portX = c.portX := rfl
@[simp] theorem Site.set_recent (c : Site) (x : Fld) (v : Nat) : (c.set x v).recent = c.recent := rfl
@[simp] theorem Site.set_chans (c : Site) (x : Fld) (v : Nat) : (c.set x v).chans = c.chans := rfl
@[simp] theorem Site.set_dmas (c : Site) (x : Fld) (v : Nat) : (c.set x v).dmas = c.dmas := rfl
@[simp] theorem Site.set_lostToks (c : Site) (x : Fld) (v : Nat) : (c.set x v).lostToks = c.lostToks := rfl
@[simp] theorem Site.set_gearOrd (c : Site) (x : Fld) (v : Nat) : (c.set x v).gearOrd = c.gearOrd := rfl
@[simp] theorem Site.set_tag (c : Site) (x : Fld) (v : Nat) : (c.set x v).tag = c.tag := rfl

@[simp] theorem Site.setArr_regs (c : Site) (a : Nat) (x : Arr) : (c.setArr a x).regs = c.regs := rfl
@[simp] theorem Site.setArr_shadow (c : Site) (a : Nat) (x : Arr) : (c.setArr a x).shadow = c.shadow := rfl
@[simp] theorem Site.setArr_role (c : Site) (a : Nat) (x : Arr) : (c.setArr a x).role = c.role := rfl
@[simp] theorem Site.setArr_sregs (c : Site) (a : Nat) (x : Arr) : (c.setArr a x).sregs = c.sregs := rfl
@[simp] theorem Site.setArr_vregs (c : Site) (a : Nat) (x : Arr) : (c.setArr a x).vregs = c.vregs := rfl
@[simp] theorem Site.setArr_pregs (c : Site) (a : Nat) (x : Arr) : (c.setArr a x).pregs = c.pregs := rfl
@[simp] theorem Site.setArr_flight (c : Site) (a : Nat) (x : Arr) : (c.setArr a x).flight = c.flight := rfl
@[simp] theorem Site.setArr_active (c : Site) (a : Nat) (x : Arr) : (c.setArr a x).active = c.active := rfl
@[simp] theorem Site.setArr_branch (c : Site) (a : Nat) (x : Arr) : (c.setArr a x).branch = c.branch := rfl
@[simp] theorem Site.setArr_brShadow (c : Site) (a : Nat) (x : Arr) : (c.setArr a x).brShadow = c.brShadow := rfl
@[simp] theorem Site.setArr_stall (c : Site) (a : Nat) (x : Arr) : (c.setArr a x).stall = c.stall := rfl
@[simp] theorem Site.setArr_stallHeld (c : Site) (a : Nat) (x : Arr) : (c.setArr a x).stallHeld = c.stallHeld := rfl
@[simp] theorem Site.setArr_t30seen (c : Site) (a : Nat) (x : Arr) : (c.setArr a x).t30seen = c.t30seen := rfl
@[simp] theorem Site.setArr_poisonSig (c : Site) (a : Nat) (x : Arr) : (c.setArr a x).poisonSig = c.poisonSig := rfl
@[simp] theorem Site.setArr_store (c : Site) (a : Nat) (x : Arr) : (c.setArr a x).store = c.store := rfl
@[simp] theorem Site.setArr_istore (c : Site) (a : Nat) (x : Arr) : (c.setArr a x).istore = c.istore := rfl
@[simp] theorem Site.setArr_recs (c : Site) (a : Nat) (x : Arr) : (c.setArr a x).recs = c.recs := rfl
@[simp] theorem Site.setArr_tables (c : Site) (a : Nat) (x : Arr) : (c.setArr a x).tables = c.tables := rfl
@[simp] theorem Site.setArr_tableShadow (c : Site) (a : Nat) (x : Arr) : (c.setArr a x).tableShadow = c.tableShadow := rfl
@[simp] theorem Site.setArr_tableBuf (c : Site) (a : Nat) (x : Arr) : (c.setArr a x).tableBuf = c.tableBuf := rfl
@[simp] theorem Site.setArr_drainQ (c : Site) (a : Nat) (x : Arr) : (c.setArr a x).drainQ = c.drainQ := rfl
@[simp] theorem Site.setArr_outTiles (c : Site) (a : Nat) (x : Arr) : (c.setArr a x).outTiles = c.outTiles := rfl
@[simp] theorem Site.setArr_nextTile (c : Site) (a : Nat) (x : Arr) : (c.setArr a x).nextTile = c.nextTile := rfl
@[simp] theorem Site.setArr_lastVec (c : Site) (a : Nat) (x : Arr) : (c.setArr a x).lastVec = c.lastVec := rfl
@[simp] theorem Site.setArr_portX (c : Site) (a : Nat) (x : Arr) : (c.setArr a x).portX = c.portX := rfl
@[simp] theorem Site.setArr_recent (c : Site) (a : Nat) (x : Arr) : (c.setArr a x).recent = c.recent := rfl
@[simp] theorem Site.setArr_chans (c : Site) (a : Nat) (x : Arr) : (c.setArr a x).chans = c.chans := rfl
@[simp] theorem Site.setArr_dmas (c : Site) (a : Nat) (x : Arr) : (c.setArr a x).dmas = c.dmas := rfl
@[simp] theorem Site.setArr_lostToks (c : Site) (a : Nat) (x : Arr) : (c.setArr a x).lostToks = c.lostToks := rfl
@[simp] theorem Site.setArr_gearOrd (c : Site) (a : Nat) (x : Arr) : (c.setArr a x).gearOrd = c.gearOrd := rfl
@[simp] theorem Site.setArr_tag (c : Site) (a : Nat) (x : Arr) : (c.setArr a x).tag = c.tag := rfl

@[simp] theorem Site.setChan_regs (c : Site) (k : Nat) (x : Chan) : (c.setChan k x).regs = c.regs := rfl
@[simp] theorem Site.setChan_shadow (c : Site) (k : Nat) (x : Chan) : (c.setChan k x).shadow = c.shadow := rfl
@[simp] theorem Site.setChan_role (c : Site) (k : Nat) (x : Chan) : (c.setChan k x).role = c.role := rfl
@[simp] theorem Site.setChan_sregs (c : Site) (k : Nat) (x : Chan) : (c.setChan k x).sregs = c.sregs := rfl
@[simp] theorem Site.setChan_vregs (c : Site) (k : Nat) (x : Chan) : (c.setChan k x).vregs = c.vregs := rfl
@[simp] theorem Site.setChan_pregs (c : Site) (k : Nat) (x : Chan) : (c.setChan k x).pregs = c.pregs := rfl
@[simp] theorem Site.setChan_flight (c : Site) (k : Nat) (x : Chan) : (c.setChan k x).flight = c.flight := rfl
@[simp] theorem Site.setChan_active (c : Site) (k : Nat) (x : Chan) : (c.setChan k x).active = c.active := rfl
@[simp] theorem Site.setChan_branch (c : Site) (k : Nat) (x : Chan) : (c.setChan k x).branch = c.branch := rfl
@[simp] theorem Site.setChan_brShadow (c : Site) (k : Nat) (x : Chan) : (c.setChan k x).brShadow = c.brShadow := rfl
@[simp] theorem Site.setChan_stall (c : Site) (k : Nat) (x : Chan) : (c.setChan k x).stall = c.stall := rfl
@[simp] theorem Site.setChan_stallHeld (c : Site) (k : Nat) (x : Chan) : (c.setChan k x).stallHeld = c.stallHeld := rfl
@[simp] theorem Site.setChan_t30seen (c : Site) (k : Nat) (x : Chan) : (c.setChan k x).t30seen = c.t30seen := rfl
@[simp] theorem Site.setChan_poisonSig (c : Site) (k : Nat) (x : Chan) : (c.setChan k x).poisonSig = c.poisonSig := rfl
@[simp] theorem Site.setChan_store (c : Site) (k : Nat) (x : Chan) : (c.setChan k x).store = c.store := rfl
@[simp] theorem Site.setChan_istore (c : Site) (k : Nat) (x : Chan) : (c.setChan k x).istore = c.istore := rfl
@[simp] theorem Site.setChan_recs (c : Site) (k : Nat) (x : Chan) : (c.setChan k x).recs = c.recs := rfl
@[simp] theorem Site.setChan_tables (c : Site) (k : Nat) (x : Chan) : (c.setChan k x).tables = c.tables := rfl
@[simp] theorem Site.setChan_tableShadow (c : Site) (k : Nat) (x : Chan) : (c.setChan k x).tableShadow = c.tableShadow := rfl
@[simp] theorem Site.setChan_tableBuf (c : Site) (k : Nat) (x : Chan) : (c.setChan k x).tableBuf = c.tableBuf := rfl
@[simp] theorem Site.setChan_arrs (c : Site) (k : Nat) (x : Chan) : (c.setChan k x).arrs = c.arrs := rfl
@[simp] theorem Site.setChan_drainQ (c : Site) (k : Nat) (x : Chan) : (c.setChan k x).drainQ = c.drainQ := rfl
@[simp] theorem Site.setChan_outTiles (c : Site) (k : Nat) (x : Chan) : (c.setChan k x).outTiles = c.outTiles := rfl
@[simp] theorem Site.setChan_nextTile (c : Site) (k : Nat) (x : Chan) : (c.setChan k x).nextTile = c.nextTile := rfl
@[simp] theorem Site.setChan_lastVec (c : Site) (k : Nat) (x : Chan) : (c.setChan k x).lastVec = c.lastVec := rfl
@[simp] theorem Site.setChan_portX (c : Site) (k : Nat) (x : Chan) : (c.setChan k x).portX = c.portX := rfl
@[simp] theorem Site.setChan_recent (c : Site) (k : Nat) (x : Chan) : (c.setChan k x).recent = c.recent := rfl
@[simp] theorem Site.setChan_dmas (c : Site) (k : Nat) (x : Chan) : (c.setChan k x).dmas = c.dmas := rfl
@[simp] theorem Site.setChan_lostToks (c : Site) (k : Nat) (x : Chan) : (c.setChan k x).lostToks = c.lostToks := rfl
@[simp] theorem Site.setChan_gearOrd (c : Site) (k : Nat) (x : Chan) : (c.setChan k x).gearOrd = c.gearOrd := rfl
@[simp] theorem Site.setChan_tag (c : Site) (k : Nat) (x : Chan) : (c.setChan k x).tag = c.tag := rfl

@[simp] theorem Site.setS_regs (c : Site) (i : Nat) (v : Word) (poi : Bool) : (c.setS i v poi).regs = c.regs := by
  unfold Site.setS; split <;> rfl
@[simp] theorem Site.setS_shadow (c : Site) (i : Nat) (v : Word) (poi : Bool) : (c.setS i v poi).shadow = c.shadow := by
  unfold Site.setS; split <;> rfl
@[simp] theorem Site.setS_role (c : Site) (i : Nat) (v : Word) (poi : Bool) : (c.setS i v poi).role = c.role := by
  unfold Site.setS; split <;> rfl
@[simp] theorem Site.setS_vregs (c : Site) (i : Nat) (v : Word) (poi : Bool) : (c.setS i v poi).vregs = c.vregs := by
  unfold Site.setS; split <;> rfl
@[simp] theorem Site.setS_pregs (c : Site) (i : Nat) (v : Word) (poi : Bool) : (c.setS i v poi).pregs = c.pregs := by
  unfold Site.setS; split <;> rfl
@[simp] theorem Site.setS_flight (c : Site) (i : Nat) (v : Word) (poi : Bool) : (c.setS i v poi).flight = c.flight := by
  unfold Site.setS; split <;> rfl
@[simp] theorem Site.setS_active (c : Site) (i : Nat) (v : Word) (poi : Bool) : (c.setS i v poi).active = c.active := by
  unfold Site.setS; split <;> rfl
@[simp] theorem Site.setS_branch (c : Site) (i : Nat) (v : Word) (poi : Bool) : (c.setS i v poi).branch = c.branch := by
  unfold Site.setS; split <;> rfl
@[simp] theorem Site.setS_brShadow (c : Site) (i : Nat) (v : Word) (poi : Bool) : (c.setS i v poi).brShadow = c.brShadow := by
  unfold Site.setS; split <;> rfl
@[simp] theorem Site.setS_stall (c : Site) (i : Nat) (v : Word) (poi : Bool) : (c.setS i v poi).stall = c.stall := by
  unfold Site.setS; split <;> rfl
@[simp] theorem Site.setS_stallHeld (c : Site) (i : Nat) (v : Word) (poi : Bool) : (c.setS i v poi).stallHeld = c.stallHeld := by
  unfold Site.setS; split <;> rfl
@[simp] theorem Site.setS_t30seen (c : Site) (i : Nat) (v : Word) (poi : Bool) : (c.setS i v poi).t30seen = c.t30seen := by
  unfold Site.setS; split <;> rfl
@[simp] theorem Site.setS_poisonSig (c : Site) (i : Nat) (v : Word) (poi : Bool) : (c.setS i v poi).poisonSig = c.poisonSig := by
  unfold Site.setS; split <;> rfl
@[simp] theorem Site.setS_store (c : Site) (i : Nat) (v : Word) (poi : Bool) : (c.setS i v poi).store = c.store := by
  unfold Site.setS; split <;> rfl
@[simp] theorem Site.setS_istore (c : Site) (i : Nat) (v : Word) (poi : Bool) : (c.setS i v poi).istore = c.istore := by
  unfold Site.setS; split <;> rfl
@[simp] theorem Site.setS_recs (c : Site) (i : Nat) (v : Word) (poi : Bool) : (c.setS i v poi).recs = c.recs := by
  unfold Site.setS; split <;> rfl
@[simp] theorem Site.setS_tables (c : Site) (i : Nat) (v : Word) (poi : Bool) : (c.setS i v poi).tables = c.tables := by
  unfold Site.setS; split <;> rfl
@[simp] theorem Site.setS_tableShadow (c : Site) (i : Nat) (v : Word) (poi : Bool) : (c.setS i v poi).tableShadow = c.tableShadow := by
  unfold Site.setS; split <;> rfl
@[simp] theorem Site.setS_tableBuf (c : Site) (i : Nat) (v : Word) (poi : Bool) : (c.setS i v poi).tableBuf = c.tableBuf := by
  unfold Site.setS; split <;> rfl
@[simp] theorem Site.setS_arrs (c : Site) (i : Nat) (v : Word) (poi : Bool) : (c.setS i v poi).arrs = c.arrs := by
  unfold Site.setS; split <;> rfl
@[simp] theorem Site.setS_drainQ (c : Site) (i : Nat) (v : Word) (poi : Bool) : (c.setS i v poi).drainQ = c.drainQ := by
  unfold Site.setS; split <;> rfl
@[simp] theorem Site.setS_outTiles (c : Site) (i : Nat) (v : Word) (poi : Bool) : (c.setS i v poi).outTiles = c.outTiles := by
  unfold Site.setS; split <;> rfl
@[simp] theorem Site.setS_nextTile (c : Site) (i : Nat) (v : Word) (poi : Bool) : (c.setS i v poi).nextTile = c.nextTile := by
  unfold Site.setS; split <;> rfl
@[simp] theorem Site.setS_lastVec (c : Site) (i : Nat) (v : Word) (poi : Bool) : (c.setS i v poi).lastVec = c.lastVec := by
  unfold Site.setS; split <;> rfl
@[simp] theorem Site.setS_portX (c : Site) (i : Nat) (v : Word) (poi : Bool) : (c.setS i v poi).portX = c.portX := by
  unfold Site.setS; split <;> rfl
@[simp] theorem Site.setS_recent (c : Site) (i : Nat) (v : Word) (poi : Bool) : (c.setS i v poi).recent = c.recent := by
  unfold Site.setS; split <;> rfl
@[simp] theorem Site.setS_chans (c : Site) (i : Nat) (v : Word) (poi : Bool) : (c.setS i v poi).chans = c.chans := by
  unfold Site.setS; split <;> rfl
@[simp] theorem Site.setS_dmas (c : Site) (i : Nat) (v : Word) (poi : Bool) : (c.setS i v poi).dmas = c.dmas := by
  unfold Site.setS; split <;> rfl
@[simp] theorem Site.setS_lostToks (c : Site) (i : Nat) (v : Word) (poi : Bool) : (c.setS i v poi).lostToks = c.lostToks := by
  unfold Site.setS; split <;> rfl
@[simp] theorem Site.setS_gearOrd (c : Site) (i : Nat) (v : Word) (poi : Bool) : (c.setS i v poi).gearOrd = c.gearOrd := by
  unfold Site.setS; split <;> rfl
@[simp] theorem Site.setS_tag (c : Site) (i : Nat) (v : Word) (poi : Bool) : (c.setS i v poi).tag = c.tag := by
  unfold Site.setS; split <;> rfl

@[simp] theorem Site.setV_regs (c : Site) (i : Nat) (v : BitVec 2048) (poi : Bool) : (c.setV i v poi).regs = c.regs := rfl
@[simp] theorem Site.setV_shadow (c : Site) (i : Nat) (v : BitVec 2048) (poi : Bool) : (c.setV i v poi).shadow = c.shadow := rfl
@[simp] theorem Site.setV_role (c : Site) (i : Nat) (v : BitVec 2048) (poi : Bool) : (c.setV i v poi).role = c.role := rfl
@[simp] theorem Site.setV_sregs (c : Site) (i : Nat) (v : BitVec 2048) (poi : Bool) : (c.setV i v poi).sregs = c.sregs := rfl
@[simp] theorem Site.setV_pregs (c : Site) (i : Nat) (v : BitVec 2048) (poi : Bool) : (c.setV i v poi).pregs = c.pregs := rfl
@[simp] theorem Site.setV_flight (c : Site) (i : Nat) (v : BitVec 2048) (poi : Bool) : (c.setV i v poi).flight = c.flight := rfl
@[simp] theorem Site.setV_active (c : Site) (i : Nat) (v : BitVec 2048) (poi : Bool) : (c.setV i v poi).active = c.active := rfl
@[simp] theorem Site.setV_branch (c : Site) (i : Nat) (v : BitVec 2048) (poi : Bool) : (c.setV i v poi).branch = c.branch := rfl
@[simp] theorem Site.setV_brShadow (c : Site) (i : Nat) (v : BitVec 2048) (poi : Bool) : (c.setV i v poi).brShadow = c.brShadow := rfl
@[simp] theorem Site.setV_stall (c : Site) (i : Nat) (v : BitVec 2048) (poi : Bool) : (c.setV i v poi).stall = c.stall := rfl
@[simp] theorem Site.setV_stallHeld (c : Site) (i : Nat) (v : BitVec 2048) (poi : Bool) : (c.setV i v poi).stallHeld = c.stallHeld := rfl
@[simp] theorem Site.setV_t30seen (c : Site) (i : Nat) (v : BitVec 2048) (poi : Bool) : (c.setV i v poi).t30seen = c.t30seen := rfl
@[simp] theorem Site.setV_poisonSig (c : Site) (i : Nat) (v : BitVec 2048) (poi : Bool) : (c.setV i v poi).poisonSig = c.poisonSig := rfl
@[simp] theorem Site.setV_store (c : Site) (i : Nat) (v : BitVec 2048) (poi : Bool) : (c.setV i v poi).store = c.store := rfl
@[simp] theorem Site.setV_istore (c : Site) (i : Nat) (v : BitVec 2048) (poi : Bool) : (c.setV i v poi).istore = c.istore := rfl
@[simp] theorem Site.setV_recs (c : Site) (i : Nat) (v : BitVec 2048) (poi : Bool) : (c.setV i v poi).recs = c.recs := rfl
@[simp] theorem Site.setV_tables (c : Site) (i : Nat) (v : BitVec 2048) (poi : Bool) : (c.setV i v poi).tables = c.tables := rfl
@[simp] theorem Site.setV_tableShadow (c : Site) (i : Nat) (v : BitVec 2048) (poi : Bool) : (c.setV i v poi).tableShadow = c.tableShadow := rfl
@[simp] theorem Site.setV_tableBuf (c : Site) (i : Nat) (v : BitVec 2048) (poi : Bool) : (c.setV i v poi).tableBuf = c.tableBuf := rfl
@[simp] theorem Site.setV_arrs (c : Site) (i : Nat) (v : BitVec 2048) (poi : Bool) : (c.setV i v poi).arrs = c.arrs := rfl
@[simp] theorem Site.setV_drainQ (c : Site) (i : Nat) (v : BitVec 2048) (poi : Bool) : (c.setV i v poi).drainQ = c.drainQ := rfl
@[simp] theorem Site.setV_outTiles (c : Site) (i : Nat) (v : BitVec 2048) (poi : Bool) : (c.setV i v poi).outTiles = c.outTiles := rfl
@[simp] theorem Site.setV_nextTile (c : Site) (i : Nat) (v : BitVec 2048) (poi : Bool) : (c.setV i v poi).nextTile = c.nextTile := rfl
@[simp] theorem Site.setV_lastVec (c : Site) (i : Nat) (v : BitVec 2048) (poi : Bool) : (c.setV i v poi).lastVec = c.lastVec := rfl
@[simp] theorem Site.setV_portX (c : Site) (i : Nat) (v : BitVec 2048) (poi : Bool) : (c.setV i v poi).portX = c.portX := rfl
@[simp] theorem Site.setV_recent (c : Site) (i : Nat) (v : BitVec 2048) (poi : Bool) : (c.setV i v poi).recent = c.recent := rfl
@[simp] theorem Site.setV_chans (c : Site) (i : Nat) (v : BitVec 2048) (poi : Bool) : (c.setV i v poi).chans = c.chans := rfl
@[simp] theorem Site.setV_dmas (c : Site) (i : Nat) (v : BitVec 2048) (poi : Bool) : (c.setV i v poi).dmas = c.dmas := rfl
@[simp] theorem Site.setV_lostToks (c : Site) (i : Nat) (v : BitVec 2048) (poi : Bool) : (c.setV i v poi).lostToks = c.lostToks := rfl
@[simp] theorem Site.setV_gearOrd (c : Site) (i : Nat) (v : BitVec 2048) (poi : Bool) : (c.setV i v poi).gearOrd = c.gearOrd := rfl
@[simp] theorem Site.setV_tag (c : Site) (i : Nat) (v : BitVec 2048) (poi : Bool) : (c.setV i v poi).tag = c.tag := rfl

@[simp] theorem Site.setP_regs (c : Site) (i : Nat) (v : BitVec 128) (poi : Bool) : (c.setP i v poi).regs = c.regs := by
  unfold Site.setP; split <;> rfl
@[simp] theorem Site.setP_shadow (c : Site) (i : Nat) (v : BitVec 128) (poi : Bool) : (c.setP i v poi).shadow = c.shadow := by
  unfold Site.setP; split <;> rfl
@[simp] theorem Site.setP_role (c : Site) (i : Nat) (v : BitVec 128) (poi : Bool) : (c.setP i v poi).role = c.role := by
  unfold Site.setP; split <;> rfl
@[simp] theorem Site.setP_sregs (c : Site) (i : Nat) (v : BitVec 128) (poi : Bool) : (c.setP i v poi).sregs = c.sregs := by
  unfold Site.setP; split <;> rfl
@[simp] theorem Site.setP_vregs (c : Site) (i : Nat) (v : BitVec 128) (poi : Bool) : (c.setP i v poi).vregs = c.vregs := by
  unfold Site.setP; split <;> rfl
@[simp] theorem Site.setP_flight (c : Site) (i : Nat) (v : BitVec 128) (poi : Bool) : (c.setP i v poi).flight = c.flight := by
  unfold Site.setP; split <;> rfl
@[simp] theorem Site.setP_active (c : Site) (i : Nat) (v : BitVec 128) (poi : Bool) : (c.setP i v poi).active = c.active := by
  unfold Site.setP; split <;> rfl
@[simp] theorem Site.setP_branch (c : Site) (i : Nat) (v : BitVec 128) (poi : Bool) : (c.setP i v poi).branch = c.branch := by
  unfold Site.setP; split <;> rfl
@[simp] theorem Site.setP_brShadow (c : Site) (i : Nat) (v : BitVec 128) (poi : Bool) : (c.setP i v poi).brShadow = c.brShadow := by
  unfold Site.setP; split <;> rfl
@[simp] theorem Site.setP_stall (c : Site) (i : Nat) (v : BitVec 128) (poi : Bool) : (c.setP i v poi).stall = c.stall := by
  unfold Site.setP; split <;> rfl
@[simp] theorem Site.setP_stallHeld (c : Site) (i : Nat) (v : BitVec 128) (poi : Bool) : (c.setP i v poi).stallHeld = c.stallHeld := by
  unfold Site.setP; split <;> rfl
@[simp] theorem Site.setP_t30seen (c : Site) (i : Nat) (v : BitVec 128) (poi : Bool) : (c.setP i v poi).t30seen = c.t30seen := by
  unfold Site.setP; split <;> rfl
@[simp] theorem Site.setP_poisonSig (c : Site) (i : Nat) (v : BitVec 128) (poi : Bool) : (c.setP i v poi).poisonSig = c.poisonSig := by
  unfold Site.setP; split <;> rfl
@[simp] theorem Site.setP_store (c : Site) (i : Nat) (v : BitVec 128) (poi : Bool) : (c.setP i v poi).store = c.store := by
  unfold Site.setP; split <;> rfl
@[simp] theorem Site.setP_istore (c : Site) (i : Nat) (v : BitVec 128) (poi : Bool) : (c.setP i v poi).istore = c.istore := by
  unfold Site.setP; split <;> rfl
@[simp] theorem Site.setP_recs (c : Site) (i : Nat) (v : BitVec 128) (poi : Bool) : (c.setP i v poi).recs = c.recs := by
  unfold Site.setP; split <;> rfl
@[simp] theorem Site.setP_tables (c : Site) (i : Nat) (v : BitVec 128) (poi : Bool) : (c.setP i v poi).tables = c.tables := by
  unfold Site.setP; split <;> rfl
@[simp] theorem Site.setP_tableShadow (c : Site) (i : Nat) (v : BitVec 128) (poi : Bool) : (c.setP i v poi).tableShadow = c.tableShadow := by
  unfold Site.setP; split <;> rfl
@[simp] theorem Site.setP_tableBuf (c : Site) (i : Nat) (v : BitVec 128) (poi : Bool) : (c.setP i v poi).tableBuf = c.tableBuf := by
  unfold Site.setP; split <;> rfl
@[simp] theorem Site.setP_arrs (c : Site) (i : Nat) (v : BitVec 128) (poi : Bool) : (c.setP i v poi).arrs = c.arrs := by
  unfold Site.setP; split <;> rfl
@[simp] theorem Site.setP_drainQ (c : Site) (i : Nat) (v : BitVec 128) (poi : Bool) : (c.setP i v poi).drainQ = c.drainQ := by
  unfold Site.setP; split <;> rfl
@[simp] theorem Site.setP_outTiles (c : Site) (i : Nat) (v : BitVec 128) (poi : Bool) : (c.setP i v poi).outTiles = c.outTiles := by
  unfold Site.setP; split <;> rfl
@[simp] theorem Site.setP_nextTile (c : Site) (i : Nat) (v : BitVec 128) (poi : Bool) : (c.setP i v poi).nextTile = c.nextTile := by
  unfold Site.setP; split <;> rfl
@[simp] theorem Site.setP_lastVec (c : Site) (i : Nat) (v : BitVec 128) (poi : Bool) : (c.setP i v poi).lastVec = c.lastVec := by
  unfold Site.setP; split <;> rfl
@[simp] theorem Site.setP_portX (c : Site) (i : Nat) (v : BitVec 128) (poi : Bool) : (c.setP i v poi).portX = c.portX := by
  unfold Site.setP; split <;> rfl
@[simp] theorem Site.setP_recent (c : Site) (i : Nat) (v : BitVec 128) (poi : Bool) : (c.setP i v poi).recent = c.recent := by
  unfold Site.setP; split <;> rfl
@[simp] theorem Site.setP_chans (c : Site) (i : Nat) (v : BitVec 128) (poi : Bool) : (c.setP i v poi).chans = c.chans := by
  unfold Site.setP; split <;> rfl
@[simp] theorem Site.setP_dmas (c : Site) (i : Nat) (v : BitVec 128) (poi : Bool) : (c.setP i v poi).dmas = c.dmas := by
  unfold Site.setP; split <;> rfl
@[simp] theorem Site.setP_lostToks (c : Site) (i : Nat) (v : BitVec 128) (poi : Bool) : (c.setP i v poi).lostToks = c.lostToks := by
  unfold Site.setP; split <;> rfl
@[simp] theorem Site.setP_gearOrd (c : Site) (i : Nat) (v : BitVec 128) (poi : Bool) : (c.setP i v poi).gearOrd = c.gearOrd := by
  unfold Site.setP; split <;> rfl
@[simp] theorem Site.setP_tag (c : Site) (i : Nat) (v : BitVec 128) (poi : Bool) : (c.setP i v poi).tag = c.tag := by
  unfold Site.setP; split <;> rfl

/-! ## Reading back -/

/-- A field of a site reads back as written, cut to its width. -/
@[simp] theorem Site.f_set_self (c : Site) (x : Fld) (v : Nat) : (c.set x v).f x = v % 2 ^ x.width := by
  unfold Site.f Site.set; dsimp only; rw [mget_mput_self, Nat.mod_mod]

/-- A field is of its width. -/
theorem Site.f_lt (c : Site) (x : Fld) : c.f x < 2 ^ x.width := Nat.mod_lt _ (Nat.two_pow_pos _)
theorem State.d_lt (s : State) (w : Nat) (x : Fld) : s.d w x < 2 ^ x.width := Nat.mod_lt _ (Nat.two_pow_pos _)

/-- A write to a field leaves the fields in other places. -/
theorem Site.f_set_ne (c : Site) {x y : Fld} (h : x.key ≠ y.key) (v : Nat) : (c.set x v).f y = c.f y := by
  unfold Site.f Site.set mget mput
  dsimp only
  split
  · rw [mfind_mdel_ne h]
  · rw [mfind_mset, if_neg h]

@[simp] theorem State.d_setD_self (s : State) (w : Nat) (x : Fld) (v : Nat) : (s.setD w x v).d w x = v % 2 ^ x.width := by
  unfold State.d State.setD; dsimp only; rw [mget_mput_self, Nat.mod_mod]

theorem State.d_setD_ne (s : State) {w u : Nat} {x y : Fld} (h : dieKey w x ≠ dieKey u y) (v : Nat) : (s.setD w x v).d u y = s.d u y := by
  unfold State.d State.setD mget mput
  dsimp only
  split
  · rw [mfind_mdel_ne h]
  · rw [mfind_mset, if_neg h]

@[simp] theorem State.hd_setHd_self (s : State) (x : Fld) (v : Nat) : (s.setHd x v).hd x = v % 2 ^ x.width :=
  State.d_setD_self s hdWin x v

theorem State.hd_setHd_ne (s : State) {x y : Fld} (h : x.key ≠ y.key) (v : Nat) : (s.setHd x v).hd y = s.hd y :=
  State.d_setD_ne s (by unfold dieKey; omega) v

@[simp] theorem State.site_setSite_self (s : State) (n : Nat) (c : Site) : (s.setSite n c).site n = c := mget_mput_self _ _ _ _

theorem State.site_setSite_ne (s : State) {n m : Nat} (h : n ≠ m) (c : Site) : (s.setSite n c).site m = s.site m := mget_mput_ne _ h _ _

/-- A change of a site is seen at that site. -/
@[simp] theorem State.site_onSite_self (s : State) (n : Nat) (g : Site → Site) : (s.onSite n g).site n = g (s.site n) := by
  have h : (s.setSite n (g (s.site n))).site n = g (s.site n) := State.site_setSite_self _ _ _
  unfold State.onSite
  dsimp only
  split <;> exact h

/-- A change of a site leaves every other site. -/
theorem State.site_onSite_ne (s : State) {n m : Nat} (h : n ≠ m) (g : Site → Site) : (s.onSite n g).site m = s.site m := by
  have h1 := State.site_setSite_ne s h (g (s.site n))
  unfold State.onSite
  dsimp only
  split <;> exact h1

@[simp] theorem State.site_emit (s : State) (o : Out) (n : Nat) : (s.emit o).site n = s.site n := rfl
@[simp] theorem State.site_setD (s : State) (w : Nat) (x : Fld) (v n : Nat) : (s.setD w x v).site n = s.site n := rfl
@[simp] theorem State.site_setHd (s : State) (x : Fld) (v n : Nat) : (s.setHd x v).site n = s.site n := rfl
@[simp] theorem State.hd_emit (s : State) (o : Out) (x : Fld) : (s.emit o).hd x = s.hd x := rfl
@[simp] theorem State.hd_setSite (s : State) (n : Nat) (c : Site) (x : Fld) : (s.setSite n c).hd x = s.hd x := rfl
@[simp] theorem State.hd_onSite (s : State) (n : Nat) (g : Site → Site) (x : Fld) : (s.onSite n g).hd x = s.hd x := by
  unfold State.hd State.d; rw [State.onSite_regs]

/-- s0 holds 0 and discards writes (R115). -/
@[simp] theorem Site.setS_zero (c : Site) (v : Word) (poi : Bool) : c.setS 0 v poi = c := rfl

theorem Site.sreg_setS_self (c : Site) {i : Nat} (h : i ≠ 0) (v : Word) (poi : Bool) : (c.setS i v poi).sreg i = ⟨v, poi⟩ := by
  unfold Site.setS Site.sreg
  rw [if_neg h, if_neg h]
  exact mget_mput_self _ _ _ _

theorem Site.sreg_setS_ne (c : Site) {i j : Nat} (h : i ≠ j) (v : Word) (poi : Bool) : (c.setS i v poi).sreg j = c.sreg j := by
  unfold Site.setS Site.sreg
  split
  · rfl
  · split
    · rfl
    · exact mget_mput_ne _ h _ _

@[simp] theorem Site.vreg_setV_self (c : Site) (i : Nat) (v : BitVec 2048) (poi : Bool) : (c.setV i v poi).vreg i = ⟨v, poi⟩ :=
  mget_mput_self _ _ _ _

theorem Site.vreg_setV_ne (c : Site) {i j : Nat} (h : i ≠ j) (v : BitVec 2048) (poi : Bool) : (c.setV i v poi).vreg j = c.vreg j :=
  mget_mput_ne _ h _ _

theorem Site.preg_setP_ne (c : Site) {i j : Nat} (h : i ≠ j) (v : BitVec 128) (poi : Bool) : (c.setP i v poi).preg j = c.preg j := by
  unfold Site.setP Site.preg
  split
  · rfl
  · split
    · rfl
    · exact mget_mput_ne _ h _ _

end Sys2Proof.Machine
end

