-- ==== Sys2Proof/Laws/Fields.lean ====
section
/-! SUPPORT. What the shared operations of the module leave of the register fields of die windows. -/

set_option autoImplicit false

namespace Sys2Proof.Machine

/-- Two states show the same in a field of a window. -/
theorem State.d_congr {s t : State} (h : t.regs = s.regs) (w : Nat) (x : Fld) : t.d w x = s.d w x := by unfold State.d; rw [h]
theorem State.hd_congr {s t : State} (h : t.regs = s.regs) (x : Fld) : t.hd x = s.hd x := State.d_congr h hdWin x

@[simp] theorem State.hd_bumpHd_self (s : State) (x : Fld) (n : Nat) : (s.bumpHd x n).hd x = satAdd x.width (s.hd x) n := by
  unfold State.bumpHd State.bumpD State.hd
  rw [State.d_setD_self]
  apply Nat.mod_eq_of_lt
  unfold satAdd
  have : 0 < 2 ^ x.width := Nat.two_pow_pos _
  simp only [Nat.min_def]; split <;> omega

theorem State.hd_bumpHd_ne (s : State) {x y : Fld} (h : x.key ≠ y.key) (n : Nat) : (s.bumpHd x n).hd y = s.hd y :=
  State.d_setD_ne s (by unfold dieKey; omega) _

@[simp] theorem State.regs_alert (s : State) (k : Nat) : (s.alert k).regs = s.regs := rfl
@[simp] theorem State.hd_alert (s : State) (k : Nat) (x : Fld) : (s.alert k).hd x = s.hd x := rfl
@[simp] theorem State.hd_notify (s : State) (k : Nat) (a : BitVec 64) (x : Fld) : (s.notify k a).hd x = s.hd x := rfl
@[simp] theorem State.hd_skipFree (s : State) (x : Fld) : s.skipFree.hd x = s.hd x := rfl
@[simp] theorem State.hd_answer (s : State) (h : HostHdr) (a b : Nat) (c : BitVec 64) (p : Bytes) (x : Fld) : (s.answer h a b c p).hd x = s.hd x := rfl
@[simp] theorem State.regs_skipFree (s : State) : s.skipFree.regs = s.regs := rfl

/-- A field that no core counter bank and no overflow bit of a die bank is kept at. -/
def Fld.noCtr (x : Fld) : Prop := x.off < 0xC0_0000 ∧ x.lo < 64

theorem State.d_dctrAdd (k : Nat) (s : State) (w i n u : Nat) (x : Fld) (hx : x.noCtr) (hi : i < 64) :
    (State.dctrAdd k s w i n).d u x = s.d u x := by
  induction k generalizing s i n with
  | zero => rfl
  | succ k ih =>
    have e1 : ∀ (s : State) v, (s.setD w (PMC_DCTR_VALUE i) v).d u x = s.d u x := fun s v =>
      State.d_setD_ne s (by unfold dieKey Fld.key PMC_DCTR_VALUE; simp only; have := hx.1; have := hx.2; omega) v
    have e2 : ∀ (s : State) v, (s.setD w PMC_DOVF_OVF v).d u x = s.d u x := fun s v =>
      State.d_setD_ne s (by unfold dieKey Fld.key PMC_DOVF_OVF; simp only; have := hx.1; have := hx.2; omega) v
    have e3 : ∀ (s : State) o, (s.emit o).d u x = s.d u x := fun _ _ => rfl
    unfold State.dctrAdd
    dsimp only
    split
    · exact e1 _ _
    · split
      · rename_i h
        rw [ih _ _ _ h.1, e1]
      · split
        · rw [e3, e2, e1]
        · rw [e2, e1]

theorem State.d_countD (s : State) (w ev n u : Nat) (x : Fld) (hx : x.noCtr) : (s.countD w ev n).d u x = s.d u x := by
  unfold State.countD
  split
  · rfl
  · rename_i h0
    clear h0
    have hl : ∀ i ∈ List.range 64, i < 64 := fun i hi => List.mem_range.mp hi
    revert hl
    generalize List.range 64 = l
    intro hl
    induction l generalizing s with
    | nil => rfl
    | cons i l ih =>
      simp only [List.foldl_cons]
      rw [ih _ (fun j hj => hl j (List.mem_cons_of_mem _ hj))]
      split
      · exact State.d_dctrAdd _ _ _ _ _ _ _ hx (hl i List.mem_cons_self)
      · rfl

theorem State.hd_countD (s : State) (w ev n : Nat) (x : Fld) (hx : x.noCtr) : (s.countD w ev n).hd x = s.hd x := State.d_countD s w ev n hdWin x hx

/-- The counters change nothing but registers and outputs. -/
theorem State.dctrAdd_eq (k : Nat) (s : State) (w i n : Nat) : ∃ r o, State.dctrAdd k s w i n = { s with regs := r, out := o } := by
  induction k generalizing s i n with
  | zero => exact ⟨s.regs, s.out, rfl⟩
  | succ k ih =>
    unfold State.dctrAdd
    dsimp only
    split
    · exact ⟨_, _, rfl⟩
    · split
      · obtain ⟨r, o, h⟩ := ih (s.setD w (PMC_DCTR_VALUE i) (s.d w (PMC_DCTR_VALUE i) + n)) (i + 1) ((s.d w (PMC_DCTR_VALUE i) + n) / 2 ^ 48)
        exact ⟨r, o, h⟩
      · split <;> exact ⟨_, _, rfl⟩

theorem State.countD_eq (s : State) (w ev n : Nat) : ∃ r o, s.countD w ev n = { s with regs := r, out := o } := by
  unfold State.countD
  split
  · exact ⟨s.regs, s.out, rfl⟩
  · rename_i h0
    clear h0
    generalize List.range 64 = l
    induction l generalizing s with
    | nil => exact ⟨s.regs, s.out, rfl⟩
    | cons i l ih =>
      simp only [List.foldl_cons]
      split
      · obtain ⟨r1, o1, h1⟩ := State.dctrAdd_eq 64 s w i n
        obtain ⟨r, o, h⟩ := ih (State.dctrAdd 64 s w i n)
        refine ⟨r, o, h.trans ?_⟩
        rw [h1]
      · exact ih s

/-! ## The fault log and report -/

/-- A field outside the fault log. -/
def Fld.noLog (x : Fld) : Prop := x.off ≠ 0x34_0108 ∧ x.lo < 64

theorem Fld.noLog_key {x y : Fld} (hx : x.noLog) (hy : y.off = 0x34_0108 ∧ y.lo < 64) : y.key ≠ x.key := by
  obtain ⟨h1, h2⟩ := hx
  obtain ⟨h3, h4⟩ := hy
  unfold Fld.key
  omega

theorem State.hd_showFault (s : State) (r : FaultRec) (x : Fld) (hx : x.noLog) : (s.showFault r).hd x = s.hd x := by
  unfold State.showFault
  rw [State.hd_setHd_ne _ (Fld.noLog_key hx ⟨rfl, by decide⟩), State.hd_setHd_ne _ (Fld.noLog_key hx ⟨rfl, by decide⟩),
    State.hd_setHd_ne _ (Fld.noLog_key hx ⟨rfl, by decide⟩), State.hd_setHd_ne _ (Fld.noLog_key hx ⟨rfl, by decide⟩),
    State.hd_setHd_ne _ (Fld.noLog_key hx ⟨rfl, by decide⟩), State.hd_setHd_ne _ (Fld.noLog_key hx ⟨rfl, by decide⟩)]

theorem State.hd_logFault (s : State) (r : FaultRec) (x : Fld) (hx : x.noLog) : (s.logFault r).hd x = s.hd x := by
  unfold State.logFault
  split
  · exact State.hd_showFault s r x hx
  · split <;> rfl

theorem State.regs_onLive (s : State) (g : Site → Site) : (s.onLive g).regs = s.regs := by
  unfold State.onLive
  generalize s.liveSites = l
  induction l generalizing s with
  | nil => rfl
  | cons n l ih => simp only [List.foldl_cons]; rw [ih, State.onSite_regs]

@[simp] theorem State.hd_onLive (s : State) (g : Site → Site) (x : Fld) : (s.onLive g).hd x = s.hd x := State.hd_congr (State.regs_onLive s g) x
@[simp] theorem State.hd_stopAll (s : State) (k : Nat) (x : Fld) : (s.stopAll k).hd x = s.hd x := State.hd_onLive s _ x

@[simp] theorem State.hd_commitStop (s : State) (x : Fld) : s.commitStop.hd x = s.hd x := by
  unfold State.commitStop
  split
  · rfl
  · exact State.hd_stopAll s 1 x

theorem State.hd_haltJob (s : State) (c : Nat) (x : Fld) (hx : x.key ≠ PEL_CGSTATE_STATE.key) : (s.haltJob c).hd x = s.hd x := by
  unfold State.haltJob
  split
  · rfl
  · dsimp only
    split
    · exact State.hd_onLive s _ x
    · refine Eq.trans (b := ((s.onLive Site.halt).setHd PEL_CGSTATE_STATE gHALT).hd x) rfl ?_
      rw [State.hd_setHd_ne _ (Ne.symm hx), State.hd_onLive]

/-! ## What they leave of the other fields -/

theorem foldl_site_pending (l : List Nat) (s : State) (g : Site → Site) : (l.foldl (fun s n => s.onSite n g) s).pending = s.pending := by
  induction l generalizing s with
  | nil => rfl
  | cons n l ih => simp only [List.foldl_cons]; rw [ih, State.onSite_pending]
theorem foldl_site_time (l : List Nat) (s : State) (g : Site → Site) : (l.foldl (fun s n => s.onSite n g) s).time = s.time := by
  induction l generalizing s with
  | nil => rfl
  | cons n l ih => simp only [List.foldl_cons]; rw [ih, State.onSite_time]
theorem foldl_site_free (l : List Nat) (s : State) (g : Site → Site) : (l.foldl (fun s n => s.onSite n g) s).free = s.free := by
  induction l generalizing s with
  | nil => rfl
  | cons n l ih => simp only [List.foldl_cons]; rw [ih, State.onSite_free]
theorem foldl_site_serial (l : List Nat) (s : State) (g : Site → Site) : (l.foldl (fun s n => s.onSite n g) s).serial = s.serial := by
  induction l generalizing s with
  | nil => rfl
  | cons n l ih => simp only [List.foldl_cons]; rw [ih, State.onSite_serial]
theorem foldl_site_shadow (l : List Nat) (s : State) (g : Site → Site) : (l.foldl (fun s n => s.onSite n g) s).shadow = s.shadow := by
  induction l generalizing s with
  | nil => rfl
  | cons n l ih => simp only [List.foldl_cons]; rw [ih, State.onSite_shadow]
theorem foldl_site_roleSite (l : List Nat) (s : State) (g : Site → Site) : (l.foldl (fun s n => s.onSite n g) s).roleSite = s.roleSite := by
  induction l generalizing s with
  | nil => rfl
  | cons n l ih => simp only [List.foldl_cons]; rw [ih, State.onSite_roleSite]
theorem foldl_site_hbm (l : List Nat) (s : State) (g : Site → Site) : (l.foldl (fun s n => s.onSite n g) s).hbm = s.hbm := by
  induction l generalizing s with
  | nil => rfl
  | cons n l ih => simp only [List.foldl_cons]; rw [ih, State.onSite_hbm]
theorem foldl_site_fab (l : List Nat) (s : State) (g : Site → Site) : (l.foldl (fun s n => s.onSite n g) s).fab = s.fab := by
  induction l generalizing s with
  | nil => rfl
  | cons n l ih => simp only [List.foldl_cons]; rw [ih, State.onSite_fab]
theorem foldl_site_img (l : List Nat) (s : State) (g : Site → Site) : (l.foldl (fun s n => s.onSite n g) s).img = s.img := by
  induction l generalizing s with
  | nil => rfl
  | cons n l ih => simp only [List.foldl_cons]; rw [ih, State.onSite_img]
theorem foldl_site_loader (l : List Nat) (s : State) (g : Site → Site) : (l.foldl (fun s n => s.onSite n g) s).loader = s.loader := by
  induction l generalizing s with
  | nil => rfl
  | cons n l ih => simp only [List.foldl_cons]; rw [ih, State.onSite_loader]
theorem foldl_site_gate (l : List Nat) (s : State) (g : Site → Site) : (l.foldl (fun s n => s.onSite n g) s).gate = s.gate := by
  induction l generalizing s with
  | nil => rfl
  | cons n l ih => simp only [List.foldl_cons]; rw [ih, State.onSite_gate]
theorem foldl_site_rep (l : List Nat) (s : State) (g : Site → Site) : (l.foldl (fun s n => s.onSite n g) s).rep = s.rep := by
  induction l generalizing s with
  | nil => rfl
  | cons n l ih => simp only [List.foldl_cons]; rw [ih, State.onSite_rep]
theorem foldl_site_net (l : List Nat) (s : State) (g : Site → Site) : (l.foldl (fun s n => s.onSite n g) s).net = s.net := by
  induction l generalizing s with
  | nil => rfl
  | cons n l ih => simp only [List.foldl_cons]; rw [ih, State.onSite_net]
theorem foldl_site_col (l : List Nat) (s : State) (g : Site → Site) : (l.foldl (fun s n => s.onSite n g) s).col = s.col := by
  induction l generalizing s with
  | nil => rfl
  | cons n l ih => simp only [List.foldl_cons]; rw [ih, State.onSite_col]
theorem foldl_site_pel (l : List Nat) (s : State) (g : Site → Site) : (l.foldl (fun s n => s.onSite n g) s).pel = s.pel := by
  induction l generalizing s with
  | nil => rfl
  | cons n l ih => simp only [List.foldl_cons]; rw [ih, State.onSite_pel]
theorem foldl_site_ckp (l : List Nat) (s : State) (g : Site → Site) : (l.foldl (fun s n => s.onSite n g) s).ckp = s.ckp := by
  induction l generalizing s with
  | nil => rfl
  | cons n l ih => simp only [List.foldl_cons]; rw [ih, State.onSite_ckp]
theorem foldl_site_test (l : List Nat) (s : State) (g : Site → Site) : (l.foldl (fun s n => s.onSite n g) s).test = s.test := by
  induction l generalizing s with
  | nil => rfl
  | cons n l ih => simp only [List.foldl_cons]; rw [ih, State.onSite_test]
theorem foldl_site_sec (l : List Nat) (s : State) (g : Site → Site) : (l.foldl (fun s n => s.onSite n g) s).sec = s.sec := by
  induction l generalizing s with
  | nil => rfl
  | cons n l ih => simp only [List.foldl_cons]; rw [ih, State.onSite_sec]
theorem foldl_site_mtr (l : List Nat) (s : State) (g : Site → Site) : (l.foldl (fun s n => s.onSite n g) s).mtr = s.mtr := by
  induction l generalizing s with
  | nil => rfl
  | cons n l ih => simp only [List.foldl_cons]; rw [ih, State.onSite_mtr]
theorem foldl_site_fac (l : List Nat) (s : State) (g : Site → Site) : (l.foldl (fun s n => s.onSite n g) s).fac = s.fac := by
  induction l generalizing s with
  | nil => rfl
  | cons n l ih => simp only [List.foldl_cons]; rw [ih, State.onSite_fac]
theorem foldl_site_host (l : List Nat) (s : State) (g : Site → Site) : (l.foldl (fun s n => s.onSite n g) s).host = s.host := by
  induction l generalizing s with
  | nil => rfl
  | cons n l ih => simp only [List.foldl_cons]; rw [ih, State.onSite_host]
theorem foldl_site_mgt (l : List Nat) (s : State) (g : Site → Site) : (l.foldl (fun s n => s.onSite n g) s).mgt = s.mgt := by
  induction l generalizing s with
  | nil => rfl
  | cons n l ih => simp only [List.foldl_cons]; rw [ih, State.onSite_mgt]
theorem foldl_site_pwr (l : List Nat) (s : State) (g : Site → Site) : (l.foldl (fun s n => s.onSite n g) s).pwr = s.pwr := by
  induction l generalizing s with
  | nil => rfl
  | cons n l ih => simp only [List.foldl_cons]; rw [ih, State.onSite_pwr]

@[simp] theorem State.onLive_pending (s : State) (g : Site → Site) : (s.onLive g).pending = s.pending := foldl_site_pending _ _ _
@[simp] theorem State.onLive_time (s : State) (g : Site → Site) : (s.onLive g).time = s.time := foldl_site_time _ _ _
@[simp] theorem State.onLive_free (s : State) (g : Site → Site) : (s.onLive g).free = s.free := foldl_site_free _ _ _
@[simp] theorem State.onLive_serial (s : State) (g : Site → Site) : (s.onLive g).serial = s.serial := foldl_site_serial _ _ _
@[simp] theorem State.onLive_shadow (s : State) (g : Site → Site) : (s.onLive g).shadow = s.shadow := foldl_site_shadow _ _ _
@[simp] theorem State.onLive_roleSite (s : State) (g : Site → Site) : (s.onLive g).roleSite = s.roleSite := foldl_site_roleSite _ _ _
@[simp] theorem State.onLive_hbm (s : State) (g : Site → Site) : (s.onLive g).hbm = s.hbm := foldl_site_hbm _ _ _
@[simp] theorem State.onLive_fab (s : State) (g : Site → Site) : (s.onLive g).fab = s.fab := foldl_site_fab _ _ _
@[simp] theorem State.onLive_img (s : State) (g : Site → Site) : (s.onLive g).img = s.img := foldl_site_img _ _ _
@[simp] theorem State.onLive_loader (s : State) (g : Site → Site) : (s.onLive g).loader = s.loader := foldl_site_loader _ _ _
@[simp] theorem State.onLive_gate (s : State) (g : Site → Site) : (s.onLive g).gate = s.gate := foldl_site_gate _ _ _
@[simp] theorem State.onLive_rep (s : State) (g : Site → Site) : (s.onLive g).rep = s.rep := foldl_site_rep _ _ _
@[simp] theorem State.onLive_net (s : State) (g : Site → Site) : (s.onLive g).net = s.net := foldl_site_net _ _ _
@[simp] theorem State.onLive_col (s : State) (g : Site → Site) : (s.onLive g).col = s.col := foldl_site_col _ _ _
@[simp] theorem State.onLive_pel (s : State) (g : Site → Site) : (s.onLive g).pel = s.pel := foldl_site_pel _ _ _
@[simp] theorem State.onLive_ckp (s : State) (g : Site → Site) : (s.onLive g).ckp = s.ckp := foldl_site_ckp _ _ _
@[simp] theorem State.onLive_test (s : State) (g : Site → Site) : (s.onLive g).test = s.test := foldl_site_test _ _ _
@[simp] theorem State.onLive_sec (s : State) (g : Site → Site) : (s.onLive g).sec = s.sec := foldl_site_sec _ _ _
@[simp] theorem State.onLive_mtr (s : State) (g : Site → Site) : (s.onLive g).mtr = s.mtr := foldl_site_mtr _ _ _
@[simp] theorem State.onLive_fac (s : State) (g : Site → Site) : (s.onLive g).fac = s.fac := foldl_site_fac _ _ _
@[simp] theorem State.onLive_host (s : State) (g : Site → Site) : (s.onLive g).host = s.host := foldl_site_host _ _ _
@[simp] theorem State.onLive_mgt (s : State) (g : Site → Site) : (s.onLive g).mgt = s.mgt := foldl_site_mgt _ _ _
@[simp] theorem State.onLive_pwr (s : State) (g : Site → Site) : (s.onLive g).pwr = s.pwr := foldl_site_pwr _ _ _

@[simp] theorem State.stopAll_pending (s : State) (k : Nat) : (s.stopAll k).pending = s.pending := State.onLive_pending s _
@[simp] theorem State.stopAll_time (s : State) (k : Nat) : (s.stopAll k).time = s.time := State.onLive_time s _
@[simp] theorem State.stopAll_free (s : State) (k : Nat) : (s.stopAll k).free = s.free := State.onLive_free s _
@[simp] theorem State.stopAll_serial (s : State) (k : Nat) : (s.stopAll k).serial = s.serial := State.onLive_serial s _
@[simp] theorem State.stopAll_shadow (s : State) (k : Nat) : (s.stopAll k).shadow = s.shadow := State.onLive_shadow s _
@[simp] theorem State.stopAll_roleSite (s : State) (k : Nat) : (s.stopAll k).roleSite = s.roleSite := State.onLive_roleSite s _
@[simp] theorem State.stopAll_hbm (s : State) (k : Nat) : (s.stopAll k).hbm = s.hbm := State.onLive_hbm s _
@[simp] theorem State.stopAll_fab (s : State) (k : Nat) : (s.stopAll k).fab = s.fab := State.onLive_fab s _
@[simp] theorem State.stopAll_img (s : State) (k : Nat) : (s.stopAll k).img = s.img := State.onLive_img s _
@[simp] theorem State.stopAll_loader (s : State) (k : Nat) : (s.stopAll k).loader = s.loader := State.onLive_loader s _
@[simp] theorem State.stopAll_gate (s : State) (k : Nat) : (s.stopAll k).gate = s.gate := State.onLive_gate s _
@[simp] theorem State.stopAll_rep (s : State) (k : Nat) : (s.stopAll k).rep = s.rep := State.onLive_rep s _
@[simp] theorem State.stopAll_net (s : State) (k : Nat) : (s.stopAll k).net = s.net := State.onLive_net s _
@[simp] theorem State.stopAll_col (s : State) (k : Nat) : (s.stopAll k).col = s.col := State.onLive_col s _
@[simp] theorem State.stopAll_pel (s : State) (k : Nat) : (s.stopAll k).pel = s.pel := State.onLive_pel s _
@[simp] theorem State.stopAll_ckp (s : State) (k : Nat) : (s.stopAll k).ckp = s.ckp := State.onLive_ckp s _
@[simp] theorem State.stopAll_test (s : State) (k : Nat) : (s.stopAll k).test = s.test := State.onLive_test s _
@[simp] theorem State.stopAll_sec (s : State) (k : Nat) : (s.stopAll k).sec = s.sec := State.onLive_sec s _
@[simp] theorem State.stopAll_mtr (s : State) (k : Nat) : (s.stopAll k).mtr = s.mtr := State.onLive_mtr s _
@[simp] theorem State.stopAll_fac (s : State) (k : Nat) : (s.stopAll k).fac = s.fac := State.onLive_fac s _
@[simp] theorem State.stopAll_host (s : State) (k : Nat) : (s.stopAll k).host = s.host := State.onLive_host s _
@[simp] theorem State.stopAll_mgt (s : State) (k : Nat) : (s.stopAll k).mgt = s.mgt := State.onLive_mgt s _
@[simp] theorem State.stopAll_pwr (s : State) (k : Nat) : (s.stopAll k).pwr = s.pwr := State.onLive_pwr s _

@[simp] theorem State.commitStop_pending (s : State) : (s.commitStop).pending = s.pending := by
  unfold State.commitStop; split
  · rfl
  · exact State.stopAll_pending s 1
@[simp] theorem State.commitStop_time (s : State) : (s.commitStop).time = s.time := by
  unfold State.commitStop; split
  · rfl
  · exact State.stopAll_time s 1
@[simp] theorem State.commitStop_free (s : State) : (s.commitStop).free = s.free := by
  unfold State.commitStop; split
  · rfl
  · exact State.stopAll_free s 1
@[simp] theorem State.commitStop_serial (s : State) : (s.commitStop).serial = s.serial := by
  unfold State.commitStop; split
  · rfl
  · exact State.stopAll_serial s 1
@[simp] theorem State.commitStop_shadow (s : State) : (s.commitStop).shadow = s.shadow := by
  unfold State.commitStop; split
  · rfl
  · exact State.stopAll_shadow s 1
@[simp] theorem State.commitStop_roleSite (s : State) : (s.commitStop).roleSite = s.roleSite := by
  unfold State.commitStop; split
  · rfl
  · exact State.stopAll_roleSite s 1
@[simp] theorem State.commitStop_hbm (s : State) : (s.commitStop).hbm = s.hbm := by
  unfold State.commitStop; split
  · rfl
  · exact State.stopAll_hbm s 1
@[simp] theorem State.commitStop_fab (s : State) : (s.commitStop).fab = s.fab := by
  unfold State.commitStop; split
  · rfl
  · exact State.stopAll_fab s 1
@[simp] theorem State.commitStop_img (s : State) : (s.commitStop).img = s.img := by
  unfold State.commitStop; split
  · rfl
  · exact State.stopAll_img s 1
@[simp] theorem State.commitStop_loader (s : State) : (s.commitStop).loader = s.loader := by
  unfold State.commitStop; split
  · rfl
  · exact State.stopAll_loader s 1
@[simp] theorem State.commitStop_rep (s : State) : (s.commitStop).rep = s.rep := by
  unfold State.commitStop; split
  · rfl
  · exact State.stopAll_rep s 1
@[simp] theorem State.commitStop_net (s : State) : (s.commitStop).net = s.net := by
  unfold State.commitStop; split
  · rfl
  · exact State.stopAll_net s 1
@[simp] theorem State.commitStop_col (s : State) : (s.commitStop).col = s.col := by
  unfold State.commitStop; split
  · rfl
  · exact State.stopAll_col s 1
@[simp] theorem State.commitStop_pel (s : State) : (s.commitStop).pel = s.pel := by
  unfold State.commitStop; split
  · rfl
  · exact State.stopAll_pel s 1
@[simp] theorem State.commitStop_ckp (s : State) : (s.commitStop).ckp = s.ckp := by
  unfold State.commitStop; split
  · rfl
  · exact State.stopAll_ckp s 1
@[simp] theorem State.commitStop_test (s : State) : (s.commitStop).test = s.test := by
  unfold State.commitStop; split
  · rfl
  · exact State.stopAll_test s 1
@[simp] theorem State.commitStop_sec (s : State) : (s.commitStop).sec = s.sec := by
  unfold State.commitStop; split
  · rfl
  · exact State.stopAll_sec s 1
@[simp] theorem State.commitStop_mtr (s : State) : (s.commitStop).mtr = s.mtr := by
  unfold State.commitStop; split
  · rfl
  · exact State.stopAll_mtr s 1
@[simp] theorem State.commitStop_fac (s : State) : (s.commitStop).fac = s.fac := by
  unfold State.commitStop; split
  · rfl
  · exact State.stopAll_fac s 1
@[simp] theorem State.commitStop_host (s : State) : (s.commitStop).host = s.host := by
  unfold State.commitStop; split
  · rfl
  · exact State.stopAll_host s 1
@[simp] theorem State.commitStop_mgt (s : State) : (s.commitStop).mgt = s.mgt := by
  unfold State.commitStop; split
  · rfl
  · exact State.stopAll_mgt s 1
@[simp] theorem State.commitStop_pwr (s : State) : (s.commitStop).pwr = s.pwr := by
  unfold State.commitStop; split
  · rfl
  · exact State.stopAll_pwr s 1

@[simp] theorem State.logFault_pending (s : State) (r : FaultRec) : (s.logFault r).pending = s.pending := by
  unfold State.logFault; split
  · rfl
  · split <;> rfl
@[simp] theorem State.logFault_time (s : State) (r : FaultRec) : (s.logFault r).time = s.time := by
  unfold State.logFault; split
  · rfl
  · split <;> rfl
@[simp] theorem State.logFault_free (s : State) (r : FaultRec) : (s.logFault r).free = s.free := by
  unfold State.logFault; split
  · rfl
  · split <;> rfl
@[simp] theorem State.logFault_serial (s : State) (r : FaultRec) : (s.logFault r).serial = s.serial := by
  unfold State.logFault; split
  · rfl
  · split <;> rfl
@[simp] theorem State.logFault_shadow (s : State) (r : FaultRec) : (s.logFault r).shadow = s.shadow := by
  unfold State.logFault; split
  · rfl
  · split <;> rfl
@[simp] theorem State.logFault_roleSite (s : State) (r : FaultRec) : (s.logFault r).roleSite = s.roleSite := by
  unfold State.logFault; split
  · rfl
  · split <;> rfl
@[simp] theorem State.logFault_hbm (s : State) (r : FaultRec) : (s.logFault r).hbm = s.hbm := by
  unfold State.logFault; split
  · rfl
  · split <;> rfl
@[simp] theorem State.logFault_fab (s : State) (r : FaultRec) : (s.logFault r).fab = s.fab := by
  unfold State.logFault; split
  · rfl
  · split <;> rfl
@[simp] theorem State.logFault_img (s : State) (r : FaultRec) : (s.logFault r).img = s.img := by
  unfold State.logFault; split
  · rfl
  · split <;> rfl
@[simp] theorem State.logFault_loader (s : State) (r : FaultRec) : (s.logFault r).loader = s.loader := by
  unfold State.logFault; split
  · rfl
  · split <;> rfl
@[simp] theorem State.logFault_gate (s : State) (r : FaultRec) : (s.logFault r).gate = s.gate := by
  unfold State.logFault; split
  · rfl
  · split <;> rfl
@[simp] theorem State.logFault_rep (s : State) (r : FaultRec) : (s.logFault r).rep = s.rep := by
  unfold State.logFault; split
  · rfl
  · split <;> rfl
@[simp] theorem State.logFault_net (s : State) (r : FaultRec) : (s.logFault r).net = s.net := by
  unfold State.logFault; split
  · rfl
  · split <;> rfl
@[simp] theorem State.logFault_col (s : State) (r : FaultRec) : (s.logFault r).col = s.col := by
  unfold State.logFault; split
  · rfl
  · split <;> rfl
@[simp] theorem State.logFault_ckp (s : State) (r : FaultRec) : (s.logFault r).ckp = s.ckp := by
  unfold State.logFault; split
  · rfl
  · split <;> rfl
@[simp] theorem State.logFault_test (s : State) (r : FaultRec) : (s.logFault r).test = s.test := by
  unfold State.logFault; split
  · rfl
  · split <;> rfl
@[simp] theorem State.logFault_sec (s : State) (r : FaultRec) : (s.logFault r).sec = s.sec := by
  unfold State.logFault; split
  · rfl
  · split <;> rfl
@[simp] theorem State.logFault_mtr (s : State) (r : FaultRec) : (s.logFault r).mtr = s.mtr := by
  unfold State.logFault; split
  · rfl
  · split <;> rfl
@[simp] theorem State.logFault_fac (s : State) (r : FaultRec) : (s.logFault r).fac = s.fac := by
  unfold State.logFault; split
  · rfl
  · split <;> rfl
@[simp] theorem State.logFault_host (s : State) (r : FaultRec) : (s.logFault r).host = s.host := by
  unfold State.logFault; split
  · rfl
  · split <;> rfl
@[simp] theorem State.logFault_mgt (s : State) (r : FaultRec) : (s.logFault r).mgt = s.mgt := by
  unfold State.logFault; split
  · rfl
  · split <;> rfl
@[simp] theorem State.logFault_pwr (s : State) (r : FaultRec) : (s.logFault r).pwr = s.pwr := by
  unfold State.logFault; split
  · rfl
  · split <;> rfl

@[simp] theorem State.alert_pending (s : State) (k : Nat) : (s.alert k).pending = s.pending := rfl
@[simp] theorem State.alert_time (s : State) (k : Nat) : (s.alert k).time = s.time := rfl
@[simp] theorem State.alert_free (s : State) (k : Nat) : (s.alert k).free = s.free := rfl
@[simp] theorem State.alert_serial (s : State) (k : Nat) : (s.alert k).serial = s.serial := rfl
@[simp] theorem State.alert_shadow (s : State) (k : Nat) : (s.alert k).shadow = s.shadow := rfl
@[simp] theorem State.alert_roleSite (s : State) (k : Nat) : (s.alert k).roleSite = s.roleSite := rfl
@[simp] theorem State.alert_hbm (s : State) (k : Nat) : (s.alert k).hbm = s.hbm := rfl
@[simp] theorem State.alert_fab (s : State) (k : Nat) : (s.alert k).fab = s.fab := rfl
@[simp] theorem State.alert_img (s : State) (k : Nat) : (s.alert k).img = s.img := rfl
@[simp] theorem State.alert_loader (s : State) (k : Nat) : (s.alert k).loader = s.loader := rfl
@[simp] theorem State.alert_gate (s : State) (k : Nat) : (s.alert k).gate = s.gate := rfl
@[simp] theorem State.alert_rep (s : State) (k : Nat) : (s.alert k).rep = s.rep := rfl
@[simp] theorem State.alert_net (s : State) (k : Nat) : (s.alert k).net = s.net := rfl
@[simp] theorem State.alert_col (s : State) (k : Nat) : (s.alert k).col = s.col := rfl
@[simp] theorem State.alert_pel (s : State) (k : Nat) : (s.alert k).pel = s.pel := rfl
@[simp] theorem State.alert_ckp (s : State) (k : Nat) : (s.alert k).ckp = s.ckp := rfl
@[simp] theorem State.alert_test (s : State) (k : Nat) : (s.alert k).test = s.test := rfl
@[simp] theorem State.alert_sec (s : State) (k : Nat) : (s.alert k).sec = s.sec := rfl
@[simp] theorem State.alert_mtr (s : State) (k : Nat) : (s.alert k).mtr = s.mtr := rfl
@[simp] theorem State.alert_fac (s : State) (k : Nat) : (s.alert k).fac = s.fac := rfl
@[simp] theorem State.alert_host (s : State) (k : Nat) : (s.alert k).host = s.host := rfl
@[simp] theorem State.alert_pwr (s : State) (k : Nat) : (s.alert k).pwr = s.pwr := rfl

@[simp] theorem State.notify_pending (s : State) (k : Nat) (a : BitVec 64) : (s.notify k a).pending = s.pending := rfl
@[simp] theorem State.notify_time (s : State) (k : Nat) (a : BitVec 64) : (s.notify k a).time = s.time := rfl
@[simp] theorem State.notify_free (s : State) (k : Nat) (a : BitVec 64) : (s.notify k a).free = s.free := rfl
@[simp] theorem State.notify_serial (s : State) (k : Nat) (a : BitVec 64) : (s.notify k a).serial = s.serial := rfl
@[simp] theorem State.notify_shadow (s : State) (k : Nat) (a : BitVec 64) : (s.notify k a).shadow = s.shadow := rfl
@[simp] theorem State.notify_roleSite (s : State) (k : Nat) (a : BitVec 64) : (s.notify k a).roleSite = s.roleSite := rfl
@[simp] theorem State.notify_hbm (s : State) (k : Nat) (a : BitVec 64) : (s.notify k a).hbm = s.hbm := rfl
@[simp] theorem State.notify_fab (s : State) (k : Nat) (a : BitVec 64) : (s.notify k a).fab = s.fab := rfl
@[simp] theorem State.notify_img (s : State) (k : Nat) (a : BitVec 64) : (s.notify k a).img = s.img := rfl
@[simp] theorem State.notify_loader (s : State) (k : Nat) (a : BitVec 64) : (s.notify k a).loader = s.loader := rfl
@[simp] theorem State.notify_gate (s : State) (k : Nat) (a : BitVec 64) : (s.notify k a).gate = s.gate := rfl
@[simp] theorem State.notify_rep (s : State) (k : Nat) (a : BitVec 64) : (s.notify k a).rep = s.rep := rfl
@[simp] theorem State.notify_net (s : State) (k : Nat) (a : BitVec 64) : (s.notify k a).net = s.net := rfl
@[simp] theorem State.notify_col (s : State) (k : Nat) (a : BitVec 64) : (s.notify k a).col = s.col := rfl
@[simp] theorem State.notify_pel (s : State) (k : Nat) (a : BitVec 64) : (s.notify k a).pel = s.pel := rfl
@[simp] theorem State.notify_ckp (s : State) (k : Nat) (a : BitVec 64) : (s.notify k a).ckp = s.ckp := rfl
@[simp] theorem State.notify_test (s : State) (k : Nat) (a : BitVec 64) : (s.notify k a).test = s.test := rfl
@[simp] theorem State.notify_sec (s : State) (k : Nat) (a : BitVec 64) : (s.notify k a).sec = s.sec := rfl
@[simp] theorem State.notify_mtr (s : State) (k : Nat) (a : BitVec 64) : (s.notify k a).mtr = s.mtr := rfl
@[simp] theorem State.notify_fac (s : State) (k : Nat) (a : BitVec 64) : (s.notify k a).fac = s.fac := rfl
@[simp] theorem State.notify_host (s : State) (k : Nat) (a : BitVec 64) : (s.notify k a).host = s.host := rfl
@[simp] theorem State.notify_mgt (s : State) (k : Nat) (a : BitVec 64) : (s.notify k a).mgt = s.mgt := rfl
@[simp] theorem State.notify_pwr (s : State) (k : Nat) (a : BitVec 64) : (s.notify k a).pwr = s.pwr := rfl

@[simp] theorem State.haltJob_pending (s : State) (c : Nat) : (s.haltJob c).pending = s.pending := by
  unfold State.haltJob; split
  · rfl
  · dsimp only; split
    · exact State.onLive_pending s _
    · exact State.onLive_pending s _
@[simp] theorem State.haltJob_time (s : State) (c : Nat) : (s.haltJob c).time = s.time := by
  unfold State.haltJob; split
  · rfl
  · dsimp only; split
    · exact State.onLive_time s _
    · exact State.onLive_time s _
@[simp] theorem State.haltJob_free (s : State) (c : Nat) : (s.haltJob c).free = s.free := by
  unfold State.haltJob; split
  · rfl
  · dsimp only; split
    · exact State.onLive_free s _
    · exact State.onLive_free s _
@[simp] theorem State.haltJob_serial (s : State) (c : Nat) : (s.haltJob c).serial = s.serial := by
  unfold State.haltJob; split
  · rfl
  · dsimp only; split
    · exact State.onLive_serial s _
    · exact State.onLive_serial s _
@[simp] theorem State.haltJob_shadow (s : State) (c : Nat) : (s.haltJob c).shadow = s.shadow := by
  unfold State.haltJob; split
  · rfl
  · dsimp only; split
    · exact State.onLive_shadow s _
    · exact State.onLive_shadow s _
@[simp] theorem State.haltJob_roleSite (s : State) (c : Nat) : (s.haltJob c).roleSite = s.roleSite := by
  unfold State.haltJob; split
  · rfl
  · dsimp only; split
    · exact State.onLive_roleSite s _
    · exact State.onLive_roleSite s _
@[simp] theorem State.haltJob_hbm (s : State) (c : Nat) : (s.haltJob c).hbm = s.hbm := by
  unfold State.haltJob; split
  · rfl
  · dsimp only; split
    · exact State.onLive_hbm s _
    · exact State.onLive_hbm s _
@[simp] theorem State.haltJob_fab (s : State) (c : Nat) : (s.haltJob c).fab = s.fab := by
  unfold State.haltJob; split
  · rfl
  · dsimp only; split
    · exact State.onLive_fab s _
    · exact State.onLive_fab s _
@[simp] theorem State.haltJob_img (s : State) (c : Nat) : (s.haltJob c).img = s.img := by
  unfold State.haltJob; split
  · rfl
  · dsimp only; split
    · exact State.onLive_img s _
    · exact State.onLive_img s _
@[simp] theorem State.haltJob_loader (s : State) (c : Nat) : (s.haltJob c).loader = s.loader := by
  unfold State.haltJob; split
  · rfl
  · dsimp only; split
    · exact State.onLive_loader s _
    · exact State.onLive_loader s _
@[simp] theorem State.haltJob_gate (s : State) (c : Nat) : (s.haltJob c).gate = s.gate := by
  unfold State.haltJob; split
  · rfl
  · dsimp only; split
    · exact State.onLive_gate s _
    · exact State.onLive_gate s _
@[simp] theorem State.haltJob_rep (s : State) (c : Nat) : (s.haltJob c).rep = s.rep := by
  unfold State.haltJob; split
  · rfl
  · dsimp only; split
    · exact State.onLive_rep s _
    · exact State.onLive_rep s _
@[simp] theorem State.haltJob_net (s : State) (c : Nat) : (s.haltJob c).net = s.net := by
  unfold State.haltJob; split
  · rfl
  · dsimp only; split
    · exact State.onLive_net s _
    · exact State.onLive_net s _
@[simp] theorem State.haltJob_col (s : State) (c : Nat) : (s.haltJob c).col = s.col := by
  unfold State.haltJob; split
  · rfl
  · dsimp only; split
    · exact State.onLive_col s _
    · exact State.onLive_col s _
@[simp] theorem State.haltJob_pel (s : State) (c : Nat) : (s.haltJob c).pel = s.pel := by
  unfold State.haltJob; split
  · rfl
  · dsimp only; split
    · exact State.onLive_pel s _
    · exact State.onLive_pel s _
@[simp] theorem State.haltJob_ckp (s : State) (c : Nat) : (s.haltJob c).ckp = s.ckp := by
  unfold State.haltJob; split
  · rfl
  · dsimp only; split
    · exact State.onLive_ckp s _
    · exact State.onLive_ckp s _
@[simp] theorem State.haltJob_test (s : State) (c : Nat) : (s.haltJob c).test = s.test := by
  unfold State.haltJob; split
  · rfl
  · dsimp only; split
    · exact State.onLive_test s _
    · exact State.onLive_test s _
@[simp] theorem State.haltJob_sec (s : State) (c : Nat) : (s.haltJob c).sec = s.sec := by
  unfold State.haltJob; split
  · rfl
  · dsimp only; split
    · exact State.onLive_sec s _
    · exact State.onLive_sec s _
@[simp] theorem State.haltJob_mtr (s : State) (c : Nat) : (s.haltJob c).mtr = s.mtr := by
  unfold State.haltJob; split
  · rfl
  · dsimp only; split
    · exact State.onLive_mtr s _
    · exact State.onLive_mtr s _
@[simp] theorem State.haltJob_fac (s : State) (c : Nat) : (s.haltJob c).fac = s.fac := by
  unfold State.haltJob; split
  · rfl
  · dsimp only; split
    · exact State.onLive_fac s _
    · exact State.onLive_fac s _
@[simp] theorem State.haltJob_mgt (s : State) (c : Nat) : (s.haltJob c).mgt = s.mgt := by
  unfold State.haltJob; split
  · rfl
  · dsimp only; split
    · exact State.onLive_mgt s _
    · exact State.onLive_mgt s _
@[simp] theorem State.haltJob_pwr (s : State) (c : Nat) : (s.haltJob c).pwr = s.pwr := by
  unfold State.haltJob; split
  · rfl
  · dsimp only; split
    · exact State.onLive_pwr s _
    · exact State.onLive_pwr s _

@[simp] theorem State.countD_pending (s : State) (w ev n : Nat) : (s.countD w ev n).pending = s.pending := by
  obtain ⟨r, o, h⟩ := State.countD_eq s w ev n; rw [h]
@[simp] theorem State.countD_time (s : State) (w ev n : Nat) : (s.countD w ev n).time = s.time := by
  obtain ⟨r, o, h⟩ := State.countD_eq s w ev n; rw [h]
@[simp] theorem State.countD_free (s : State) (w ev n : Nat) : (s.countD w ev n).free = s.free := by
  obtain ⟨r, o, h⟩ := State.countD_eq s w ev n; rw [h]
@[simp] theorem State.countD_serial (s : State) (w ev n : Nat) : (s.countD w ev n).serial = s.serial := by
  obtain ⟨r, o, h⟩ := State.countD_eq s w ev n; rw [h]
@[simp] theorem State.countD_shadow (s : State) (w ev n : Nat) : (s.countD w ev n).shadow = s.shadow := by
  obtain ⟨r, o, h⟩ := State.countD_eq s w ev n; rw [h]
@[simp] theorem State.countD_roleSite (s : State) (w ev n : Nat) : (s.countD w ev n).roleSite = s.roleSite := by
  obtain ⟨r, o, h⟩ := State.countD_eq s w ev n; rw [h]
@[simp] theorem State.countD_hbm (s : State) (w ev n : Nat) : (s.countD w ev n).hbm = s.hbm := by
  obtain ⟨r, o, h⟩ := State.countD_eq s w ev n; rw [h]
@[simp] theorem State.countD_fab (s : State) (w ev n : Nat) : (s.countD w ev n).fab = s.fab := by
  obtain ⟨r, o, h⟩ := State.countD_eq s w ev n; rw [h]
@[simp] theorem State.countD_img (s : State) (w ev n : Nat) : (s.countD w ev n).img = s.img := by
  obtain ⟨r, o, h⟩ := State.countD_eq s w ev n; rw [h]
@[simp] theorem State.countD_loader (s : State) (w ev n : Nat) : (s.countD w ev n).loader = s.loader := by
  obtain ⟨r, o, h⟩ := State.countD_eq s w ev n; rw [h]
@[simp] theorem State.countD_gate (s : State) (w ev n : Nat) : (s.countD w ev n).gate = s.gate := by
  obtain ⟨r, o, h⟩ := State.countD_eq s w ev n; rw [h]
@[simp] theorem State.countD_rep (s : State) (w ev n : Nat) : (s.countD w ev n).rep = s.rep := by
  obtain ⟨r, o, h⟩ := State.countD_eq s w ev n; rw [h]
@[simp] theorem State.countD_net (s : State) (w ev n : Nat) : (s.countD w ev n).net = s.net := by
  obtain ⟨r, o, h⟩ := State.countD_eq s w ev n; rw [h]
@[simp] theorem State.countD_col (s : State) (w ev n : Nat) : (s.countD w ev n).col = s.col := by
  obtain ⟨r, o, h⟩ := State.countD_eq s w ev n; rw [h]
@[simp] theorem State.countD_pel (s : State) (w ev n : Nat) : (s.countD w ev n).pel = s.pel := by
  obtain ⟨r, o, h⟩ := State.countD_eq s w ev n; rw [h]
@[simp] theorem State.countD_ckp (s : State) (w ev n : Nat) : (s.countD w ev n).ckp = s.ckp := by
  obtain ⟨r, o, h⟩ := State.countD_eq s w ev n; rw [h]
@[simp] theorem State.countD_test (s : State) (w ev n : Nat) : (s.countD w ev n).test = s.test := by
  obtain ⟨r, o, h⟩ := State.countD_eq s w ev n; rw [h]
@[simp] theorem State.countD_sec (s : State) (w ev n : Nat) : (s.countD w ev n).sec = s.sec := by
  obtain ⟨r, o, h⟩ := State.countD_eq s w ev n; rw [h]
@[simp] theorem State.countD_mtr (s : State) (w ev n : Nat) : (s.countD w ev n).mtr = s.mtr := by
  obtain ⟨r, o, h⟩ := State.countD_eq s w ev n; rw [h]
@[simp] theorem State.countD_fac (s : State) (w ev n : Nat) : (s.countD w ev n).fac = s.fac := by
  obtain ⟨r, o, h⟩ := State.countD_eq s w ev n; rw [h]
@[simp] theorem State.countD_host (s : State) (w ev n : Nat) : (s.countD w ev n).host = s.host := by
  obtain ⟨r, o, h⟩ := State.countD_eq s w ev n; rw [h]
@[simp] theorem State.countD_mgt (s : State) (w ev n : Nat) : (s.countD w ev n).mgt = s.mgt := by
  obtain ⟨r, o, h⟩ := State.countD_eq s w ev n; rw [h]
@[simp] theorem State.countD_pwr (s : State) (w ev n : Nat) : (s.countD w ev n).pwr = s.pwr := by
  obtain ⟨r, o, h⟩ := State.countD_eq s w ev n; rw [h]


end Sys2Proof.Machine
end

