-- ==== Sys2Proof/Laws/Mem.lean ====
section
/-! SUPPORT. Every memory operation keeps the canonical form. -/

set_option autoImplicit false

namespace Sys2Proof.Machine

theorem Mem.wf_iff (m : Mem) : m.wf = true ↔ mcanon 0 m.data = true ∧ mcanon 0 m.syn = true := by simp [Mem.wf]

theorem Mem.empty_wf : Mem.empty.wf = true := by decide

theorem putBytes_canon (bs : Bytes) (a : Nat) (d : List Host.Cell) (h : mcanon (0 : Byte) d = true) :
    mcanon (0 : Byte) (putBytes a bs d) = true := by
  induction bs generalizing a d with
  | nil => exact h
  | cons b t ih => exact ih (a + 1) _ (mcanon_mput h)

theorem Mem.setWord_wf {m : Mem} (a : Nat) (v : Word) (syn : BitVec 16) (h : m.wf = true) : (m.setWord a v syn).wf = true := by
  rw [Mem.wf_iff] at h ⊢
  exact ⟨putBytes_canon _ _ _ h.1, mcanon_mput h.2⟩

theorem Mem.putWord_wf {m : Mem} (a : Nat) (v : Word) (poi : Bool) (h : m.wf = true) : (m.putWord a v poi).wf = true :=
  Mem.setWord_wf a v _ h

theorem Mem.heal_wf {m : Mem} (a : Nat) (h : m.wf = true) : (m.heal a).wf = true := by
  unfold Mem.heal
  dsimp only
  split
  · exact Mem.setWord_wf a _ _ h
  · exact h

theorem Mem.storeWord_wf {m : Mem} (a : Nat) (bs : List (Byte × Bool)) (h : m.wf = true) : (m.storeWord a bs).wf = true :=
  Mem.putWord_wf a _ _ h

theorem Mem.storeGo_wf (n : Nat) (m : Mem) (a : Nat) (bs : List (Byte × Bool)) (h : m.wf = true) : (Mem.storeGo n m a bs).wf = true := by
  induction n generalizing m a bs with
  | zero => exact h
  | succ n ih =>
    cases bs with
    | nil => exact h
    | cons b bs => exact ih _ _ _ (Mem.storeWord_wf a _ h)

theorem Mem.store_wf {m : Mem} (a : Nat) (bs : List (Byte × Bool)) (h : m.wf = true) : (m.store a bs).wf = true :=
  Mem.storeGo_wf _ m a bs h

theorem Mem.write_wf {m : Mem} (a : Nat) (bs : Bytes) (poi : Bool) (h : m.wf = true) : (m.write a bs poi).wf = true :=
  Mem.store_wf a _ h

/-- A fold of steps that each keep the canonical form keeps it. -/
theorem foldl_memWf {β : Type} (f : Mem → β → Mem) (l : List β) (m : Mem) (hf : ∀ m x, m.wf = true → (f m x).wf = true)
    (h : m.wf = true) : (l.foldl f m).wf = true := by
  induction l generalizing m with
  | nil => exact h
  | cons x l ih => exact ih _ (hf m x h)

theorem Mem.healRange_wf {m : Mem} (a n : Nat) (h : m.wf = true) : (m.healRange a n).wf = true :=
  foldl_memWf _ _ m (fun m wa hm => Mem.heal_wf wa hm) h

theorem Mem.clearRange_wf {m : Mem} (a n : Nat) (h : m.wf = true) : (m.clearRange a n).wf = true := by
  rw [Mem.wf_iff] at h ⊢
  exact ⟨mcanon_filter _ h.1, mcanon_filter _ h.2⟩

theorem foldl_dataCanon {β : Type} (f : List Host.Cell → β → List Host.Cell) (l : List β) (d : List Host.Cell)
    (hf : ∀ d x, mcanon (0 : Byte) d = true → mcanon (0 : Byte) (f d x) = true) (h : mcanon (0 : Byte) d = true) :
    mcanon (0 : Byte) (l.foldl f d) = true := by
  induction l generalizing d with
  | nil => exact h
  | cons x l ih => exact ih _ (hf d x h)

theorem Mem.copyRange_wf {m : Mem} (src dst n : Nat) (h : m.wf = true) : (m.copyRange src dst n).wf = true := by
  unfold Mem.copyRange
  dsimp only
  apply foldl_memWf
  · intro m' e hm
    exact Mem.putWord_wf _ _ _ hm
  · have h1 := Mem.clearRange_wf dst n h
    rw [Mem.wf_iff] at h1 ⊢
    exact ⟨foldl_dataCanon _ _ _ (fun d e hd => mcanon_mput hd) h1.1, h1.2⟩

theorem mcanon_between {α : Type} [DecidableEq α] {d : α} {k m : SMap α} (a n : Nat) (hk : mcanon d k = true) (hm : mcanon d m = true) :
    mcanon d (k.filter (fun e => decide (e.1 < a)) ++ m.filter (fun e => decide (a ≤ e.1 ∧ e.1 < a + n)) ++
      k.filter (fun e => decide (a + n ≤ e.1))) = true := by
  rw [mcanon_iff] at hk hm ⊢
  refine ⟨?_, fun e he => ?_⟩
  · simp only [List.pairwise_append, List.mem_append, List.mem_filter, decide_eq_true_eq]
    refine ⟨⟨hk.1.filter _, hm.1.filter _, fun x hx y hy => by omega⟩, hk.1.filter _, fun x hx y hy => ?_⟩
    rcases hx with hx | hx <;> omega
  · simp only [List.mem_append, List.mem_filter] at he
    rcases he with (he | he) | he
    · exact hk.2 e he.1
    · exact hm.2 e he.1
    · exact hk.2 e he.1

theorem Mem.withRange_wf {k m : Mem} (a n : Nat) (hk : k.wf = true) (hm : m.wf = true) : (k.withRange m a n).wf = true := by
  rw [Mem.wf_iff] at hk hm ⊢
  exact ⟨mcanon_between a n hk.1 hm.1, mcanon_between a n hk.2 hm.2⟩

end Sys2Proof.Machine
end

