-- ==== Sys2Proof/Laws/SiteMems.lean ====
section
/-! SUPPORT. What the operations on a core site do to its memories: they stay in canonical form. -/

set_option autoImplicit false

namespace Sys2Proof.Machine

/-! One lemma per operation on a core site: it leaves the site's memories in canonical form. -/

theorem Site.memsWf_mk {regs shadow role sregs vregs pregs flight active branch brShadow stall stallHeld t30seen poisonSig store istore
    recs tables tableShadow tableBuf arrs drainQ outTiles nextTile lastVec portX recent chans dmas lostToks gearOrd tag} :
    (Site.mk regs shadow role sregs vregs pregs flight active branch brShadow stall stallHeld t30seen poisonSig store istore
    recs tables tableShadow tableBuf arrs drainQ outTiles nextTile lastVec portX recent chans dmas lostToks gearOrd tag).memsWf =
    (store.wf && istore.wf && recs.wf) := rfl

theorem Site.store_wf {c : Site} (h : c.memsWf = true) : c.store.wf = true := by
  simp only [Site.memsWf, Bool.and_eq_true] at h; exact h.1.1
theorem Site.istore_wf {c : Site} (h : c.memsWf = true) : c.istore.wf = true := by
  simp only [Site.memsWf, Bool.and_eq_true] at h; exact h.1.2
theorem Site.recs_wf {c : Site} (h : c.memsWf = true) : c.recs.wf = true := by
  simp only [Site.memsWf, Bool.and_eq_true] at h; exact h.2

theorem Site.reset_wf : Site.reset.memsWf = true := by decide

theorem foldl_siteWf {β : Type} (f : Site → β → Site) (l : List β) (c : Site) (hf : ∀ c x, c.memsWf = true → (f c x).memsWf = true)
    (h : c.memsWf = true) : (l.foldl f c).memsWf = true := by
  induction l generalizing c with
  | nil => exact h
  | cons x l ih => exact ih _ (hf c x h)

theorem foldl_fstWf {β γ : Type} (f : Site × γ → β → Site × γ) (l : List β) (c : Site × γ)
    (hf : ∀ c x, c.1.memsWf = true → (f c x).1.memsWf = true) (h : c.1.memsWf = true) : (l.foldl f c).1.memsWf = true := by
  induction l generalizing c with
  | nil => exact h
  | cons x l ih => exact ih _ (hf c x h)

theorem undoStore_wf {m : Mem} (r : Recent) (h : m.wf = true) : (undoStore m r).wf = true := by
  rw [Mem.wf_iff] at h ⊢
  refine ⟨putBytes_canon _ _ _ h.1, ?_⟩
  unfold undoStore
  dsimp only
  generalize r.oldPoi = l
  have h2 := h.2
  generalize m.syn = d at h2
  induction l generalizing d with
  | nil => exact h2
  | cons x l ih => exact ih _ (mcanon_mput h2)

theorem mergeRecords_wf (expt : Nat → Table) (k : Nat) {m : Mem} (a : Nat) (bs : List (Byte × Bool)) (h : m.wf = true) :
    (mergeRecords expt k m a bs).wf = true := by
  induction k generalizing m a bs with
  | zero => exact h
  | succ k ih =>
    unfold mergeRecords
    dsimp only
    exact ih _ _ (Mem.write_wf _ _ _ h)

theorem Mem.poisonHeld_wf {m : Mem} (l : List (Nat × Bytes)) (h : m.wf = true) : (m.poisonHeld l).wf = true := by
  apply foldl_memWf _ _ _ _ h
  intro m w hm
  split
  · exact Mem.putWord_wf _ _ _ hm
  · exact hm

theorem Site.set_wf {c : Site} (x : Fld) (v : Nat) (h : c.memsWf = true) :
    (Site.set c x v).memsWf = true := by
  unfold Site.set
  try dsimp only
  repeat' first
    | with_reducible exact h | with_reducible assumption | (simp only [Site.memsWf_mk, Bool.and_eq_true]; refine ⟨⟨?_, ?_⟩, ?_⟩)
    | with_reducible apply Site.store_wf | with_reducible apply Site.istore_wf | with_reducible apply Site.recs_wf

theorem Site.bump_wf {c : Site} (x : Fld) (n : Nat) (h : c.memsWf = true) :
    (Site.bump c x n).memsWf = true := by
  unfold Site.bump
  try dsimp only
  repeat' first | with_reducible exact h | with_reducible assumption | with_reducible apply Site.set_wf

theorem Site.ctrAdd_wf (k : Nat) {c : Site} (i n : Nat) (h : c.memsWf = true) : (Site.ctrAdd k c i n).1.memsWf = true := by
  induction k generalizing c i n with
  | zero => exact h
  | succ k ih =>
    unfold Site.ctrAdd
    dsimp only
    split
    · exact Site.set_wf _ _ h
    · split
      · exact ih _ _ (Site.set_wf _ _ h)
      · exact Site.set_wf _ _ (Site.set_wf _ _ h)

theorem Site.count_wf {c : Site} (ev : Nat) (n : Nat) (h : c.memsWf = true) :
    (Site.count c ev n).memsWf = true := by
  unfold Site.count
  try dsimp only
  repeat' first
    | with_reducible exact h | with_reducible assumption | with_reducible apply Site.ctrAdd_wf | with_reducible apply foldl_siteWf | split
    | intro _

theorem Site.countWords_wf {c : Site} (cor : Nat) (unc : Nat) (h : c.memsWf = true) :
    (Site.countWords c cor unc).memsWf = true := by
  unfold Site.countWords
  try dsimp only
  repeat' first | with_reducible exact h | with_reducible assumption | with_reducible apply Site.count_wf

theorem Site.abortTags_wf {c : Site} (h : c.memsWf = true) :
    (Site.abortTags c).memsWf = true := by
  unfold Site.abortTags
  try dsimp only
  repeat' first
    | with_reducible exact h | with_reducible assumption | with_reducible apply Site.set_wf
    | (simp only [Site.memsWf_mk, Bool.and_eq_true]; refine ⟨⟨?_, ?_⟩, ?_⟩) | with_reducible apply Site.store_wf
    | with_reducible apply Site.istore_wf | with_reducible apply Site.recs_wf | with_reducible apply foldl_siteWf | intro _

theorem Site.except_wf {c : Site} (cause : Nat) (detail : Nat) (slots : Nat) (bundle : Nat) (rjct : Nat) (h : c.memsWf = true) :
    (Site.except c cause detail slots bundle rjct).memsWf = true := by
  unfold Site.except
  try dsimp only
  repeat' first | with_reducible exact h | with_reducible assumption | with_reducible apply Site.set_wf

theorem Site.stopRewind_wf {c : Site} (detail : Nat) (h : c.memsWf = true) :
    (Site.stopRewind c detail).memsWf = true := by
  unfold Site.stopRewind
  try dsimp only
  repeat' first
    | with_reducible exact h | with_reducible assumption | with_reducible apply Site.abortTags_wf | with_reducible apply Site.except_wf
    | (simp only [Site.memsWf_mk, Bool.and_eq_true]; refine ⟨⟨?_, ?_⟩, ?_⟩) | with_reducible apply Site.store_wf
    | with_reducible apply Site.istore_wf | with_reducible apply Site.recs_wf | split

theorem Site.halt_wf {c : Site} (h : c.memsWf = true) :
    (Site.halt c).memsWf = true := by
  unfold Site.halt
  try dsimp only
  repeat' first
    | with_reducible exact h | with_reducible assumption | with_reducible apply Site.abortTags_wf | with_reducible apply Site.set_wf
    | split

theorem Site.setS_wf {c : Site} (i : Nat) (v : Sys2Proof.Word) (poi : Bool) (h : c.memsWf = true) :
    (Site.setS c i v poi).memsWf = true := by
  unfold Site.setS
  try dsimp only
  repeat' first
    | with_reducible exact h | with_reducible assumption | (simp only [Site.memsWf_mk, Bool.and_eq_true]; refine ⟨⟨?_, ?_⟩, ?_⟩)
    | with_reducible apply Site.store_wf | with_reducible apply Site.istore_wf | with_reducible apply Site.recs_wf | split

theorem Site.setV_wf {c : Site} (i : Nat) (v : BitVec 2048) (poi : Bool) (h : c.memsWf = true) :
    (Site.setV c i v poi).memsWf = true := by
  unfold Site.setV
  try dsimp only
  repeat' first
    | with_reducible exact h | with_reducible assumption | (simp only [Site.memsWf_mk, Bool.and_eq_true]; refine ⟨⟨?_, ?_⟩, ?_⟩)
    | with_reducible apply Site.store_wf | with_reducible apply Site.istore_wf | with_reducible apply Site.recs_wf

theorem Site.setP_wf {c : Site} (i : Nat) (v : BitVec 128) (poi : Bool) (h : c.memsWf = true) :
    (Site.setP c i v poi).memsWf = true := by
  unfold Site.setP
  try dsimp only
  repeat' first
    | with_reducible exact h | with_reducible assumption | (simp only [Site.memsWf_mk, Bool.and_eq_true]; refine ⟨⟨?_, ?_⟩, ?_⟩)
    | with_reducible apply Site.store_wf | with_reducible apply Site.istore_wf | with_reducible apply Site.recs_wf | split

theorem Site.orVfl_wf {c : Site} (fl : Flags) (h : c.memsWf = true) :
    (Site.orVfl c fl).memsWf = true := by
  unfold Site.orVfl
  try dsimp only
  repeat' first | with_reducible exact h | with_reducible assumption | with_reducible apply Site.set_wf

theorem Site.tokEvent_wf {c : Site} (t : Nat) (err : Bool) (lost : Bool) (h : c.memsWf = true) :
    (Site.tokEvent c t err lost).memsWf = true := by
  unfold Site.tokEvent
  try dsimp only
  repeat' first
    | with_reducible exact h | with_reducible assumption | with_reducible apply Site.set_wf
    | (simp only [Site.memsWf_mk, Bool.and_eq_true]; refine ⟨⟨?_, ?_⟩, ?_⟩) | with_reducible apply Site.store_wf
    | with_reducible apply Site.istore_wf | with_reducible apply Site.recs_wf | split

theorem Site.setArr_wf {c : Site} (a : Nat) (x : Arr) (h : c.memsWf = true) :
    (Site.setArr c a x).memsWf = true := by
  unfold Site.setArr
  try dsimp only
  repeat' first
    | with_reducible exact h | with_reducible assumption | (simp only [Site.memsWf_mk, Bool.and_eq_true]; refine ⟨⟨?_, ?_⟩, ?_⟩)
    | with_reducible apply Site.store_wf | with_reducible apply Site.istore_wf | with_reducible apply Site.recs_wf

theorem Site.applyKey_wf {c : Site} (key : Nat) (v : Nat) (h : c.memsWf = true) :
    (Site.applyKey c key v).memsWf = true := by
  unfold Site.applyKey
  try dsimp only
  repeat' first
    | with_reducible exact h | with_reducible assumption | with_reducible apply Site.setArr_wf | with_reducible apply Site.set_wf | split

theorem Site.applyShadow_wf {c : Site} (h : c.memsWf = true) :
    (Site.applyShadow c).memsWf = true := by
  unfold Site.applyShadow
  try dsimp only
  repeat' first
    | with_reducible exact h | with_reducible assumption | with_reducible apply Site.applyKey_wf
    | (simp only [Site.memsWf_mk, Bool.and_eq_true]; refine ⟨⟨?_, ?_⟩, ?_⟩) | with_reducible apply Site.store_wf
    | with_reducible apply Site.istore_wf | with_reducible apply Site.recs_wf | with_reducible apply foldl_siteWf | intro _

theorem Site.clearTiles_wf {c : Site} (h : c.memsWf = true) :
    (Site.clearTiles c).memsWf = true := by
  unfold Site.clearTiles
  try dsimp only
  repeat' first
    | with_reducible exact h | with_reducible assumption | with_reducible apply Site.setArr_wf | with_reducible apply foldl_siteWf
    | intro _

theorem Site.resetChans_wf {c : Site} (h : c.memsWf = true) :
    (Site.resetChans c).memsWf = true := by
  unfold Site.resetChans
  try dsimp only
  repeat' first
    | with_reducible exact h | with_reducible assumption | (simp only [Site.memsWf_mk, Bool.and_eq_true]; refine ⟨⟨?_, ?_⟩, ?_⟩)
    | with_reducible apply Site.store_wf | with_reducible apply Site.istore_wf | with_reducible apply Site.recs_wf

theorem Site.clearPartials_wf {c : Site} (h : c.memsWf = true) :
    (Site.clearPartials c).memsWf = true := by
  unfold Site.clearPartials
  try dsimp only
  repeat' first | with_reducible exact h | with_reducible assumption | with_reducible apply Site.set_wf

theorem Site.enter_wf {c : Site} (step : BitVec 64) (epoch : Nat) (phase : Nat) (replay : Bool) (h : c.memsWf = true) :
    (Site.enter c step epoch phase replay).memsWf = true := by
  unfold Site.enter
  try dsimp only
  repeat' first
    | with_reducible exact h | with_reducible assumption | with_reducible apply Site.set_wf | with_reducible apply Site.clearPartials_wf
    | with_reducible apply Site.resetChans_wf | with_reducible apply Site.clearTiles_wf
    | (simp only [Site.memsWf_mk, Bool.and_eq_true]; refine ⟨⟨?_, ?_⟩, ?_⟩) | with_reducible apply Site.store_wf
    | with_reducible apply Site.istore_wf | with_reducible apply Site.recs_wf | with_reducible apply foldl_siteWf | intro _

theorem Site.writeSpecial_wf {c : Site} (sr : Nat) (v : Sys2Proof.Word) (h : c.memsWf = true) :
    (Site.writeSpecial c sr v).memsWf = true := by
  unfold Site.writeSpecial
  try dsimp only
  repeat' first | with_reducible exact h | with_reducible assumption | with_reducible apply Site.set_wf | split

theorem Site.storeAt_wf {c : Site} (x : Nat) (a : Nat) (bs : List (Sys2Proof.Byte × Bool)) (h : c.memsWf = true) :
    (Site.storeAt c x a bs).memsWf = true := by
  unfold Site.storeAt
  try dsimp only
  repeat' first
    | with_reducible exact h | with_reducible assumption | with_reducible apply Mem.store_wf
    | (simp only [Site.memsWf_mk, Bool.and_eq_true]; refine ⟨⟨?_, ?_⟩, ?_⟩) | with_reducible apply Site.store_wf
    | with_reducible apply Site.istore_wf | with_reducible apply Site.recs_wf

theorem Site.fixedRead_wf {c : Site} (x : Nat) (a : Nat) (n : Nat) (h : c.memsWf = true) :
    (Site.fixedRead c x a n).2.memsWf = true := by
  unfold Site.fixedRead
  try dsimp only
  repeat' first
    | with_reducible exact h | with_reducible assumption | with_reducible apply Site.countWords_wf | with_reducible apply Mem.healRange_wf
    | (simp only [Site.memsWf_mk, Bool.and_eq_true]; refine ⟨⟨?_, ?_⟩, ?_⟩) | with_reducible apply Site.store_wf
    | with_reducible apply Site.istore_wf | with_reducible apply Site.recs_wf

theorem Site.touchStore_wf {c : Site} (a : Nat) (n : Nat) (h : c.memsWf = true) :
    (Site.touchStore c a n).memsWf = true := by
  unfold Site.touchStore
  try dsimp only
  repeat' first
    | with_reducible exact h | with_reducible assumption | with_reducible apply Site.countWords_wf | with_reducible apply Mem.healRange_wf
    | (simp only [Site.memsWf_mk, Bool.and_eq_true]; refine ⟨⟨?_, ?_⟩, ?_⟩) | with_reducible apply Site.store_wf
    | with_reducible apply Site.istore_wf | with_reducible apply Site.recs_wf

theorem Site.book_wf {c : Site} (l : List (Nat × Nat)) (h : c.memsWf = true) :
    (Site.book c l).memsWf = true := by
  unfold Site.book
  try dsimp only
  repeat' first
    | with_reducible exact h | with_reducible assumption | (simp only [Site.memsWf_mk, Bool.and_eq_true]; refine ⟨⟨?_, ?_⟩, ?_⟩)
    | with_reducible apply Site.store_wf | with_reducible apply Site.istore_wf | with_reducible apply Site.recs_wf

theorem Site.setChan_wf {c : Site} (k : Nat) (x : Chan) (h : c.memsWf = true) :
    (Site.setChan c k x).memsWf = true := by
  unfold Site.setChan
  try dsimp only
  repeat' first
    | with_reducible exact h | with_reducible assumption | (simp only [Site.memsWf_mk, Bool.and_eq_true]; refine ⟨⟨?_, ?_⟩, ?_⟩)
    | with_reducible apply Site.store_wf | with_reducible apply Site.istore_wf | with_reducible apply Site.recs_wf

theorem Site.postSlots_wf {c : Site} (k : Nat) (n : Nat) (h : c.memsWf = true) :
    (Site.postSlots c k n).memsWf = true := by
  unfold Site.postSlots
  try dsimp only
  repeat' first | with_reducible exact h | with_reducible assumption | with_reducible apply Site.setChan_wf

theorem Site.releaseSlots_wf {c : Site} (k : Nat) (n : Nat) (h : c.memsWf = true) :
    (Site.releaseSlots c k n).memsWf = true := by
  unfold Site.releaseSlots
  try dsimp only
  repeat' first | with_reducible exact h | with_reducible assumption | with_reducible apply Site.setChan_wf

theorem Site.portStore_wf {c : Site} (k : Nat) (off : Nat) (v : Sys2Proof.Word) (h : c.memsWf = true) :
    (Site.portStore c k off v).memsWf = true := by
  unfold Site.portStore
  try dsimp only
  repeat' first
    | with_reducible exact h | with_reducible assumption | with_reducible apply Site.postSlots_wf
    | with_reducible apply Site.releaseSlots_wf | with_reducible apply Site.setChan_wf | split

theorem Site.loadBytes_wf {c : Site} (n : Nat) (dev : Nat) (a : Nat) (k : Nat) (h : c.memsWf = true) :
    (Site.loadBytes c n dev a k).2.memsWf = true := by
  unfold Site.loadBytes
  try dsimp only
  repeat' first
    | with_reducible exact h | with_reducible assumption | with_reducible apply Site.countWords_wf | with_reducible apply Mem.healRange_wf
    | (simp only [Site.memsWf_mk, Bool.and_eq_true]; refine ⟨⟨?_, ?_⟩, ?_⟩) | with_reducible apply Site.store_wf
    | with_reducible apply Site.istore_wf | with_reducible apply Site.recs_wf | split

theorem Site.storeBytes_wf {c : Site} (x : Nat) (a : Nat) (bs : List (Sys2Proof.Byte × Bool)) (h : c.memsWf = true) :
    (Site.storeBytes c x a bs).memsWf = true := by
  unfold Site.storeBytes
  try dsimp only
  repeat' first
    | with_reducible exact h | with_reducible assumption | with_reducible apply Site.storeAt_wf | with_reducible apply Site.portStore_wf
    | with_reducible apply Mem.store_wf | with_reducible apply mergeRecords_wf
    | (simp only [Site.memsWf_mk, Bool.and_eq_true]; refine ⟨⟨?_, ?_⟩, ?_⟩) | with_reducible apply Site.store_wf
    | with_reducible apply Site.istore_wf | with_reducible apply Site.recs_wf | split

theorem Site.loadFrom_wf (pre : Site) {c : Site} (n : Nat) (dev : Nat) (a : Nat) (k : Nat) (h : c.memsWf = true) :
    (Site.loadFrom pre c n dev a k).2.memsWf = true := by
  unfold Site.loadFrom
  try dsimp only
  repeat' first | with_reducible exact h | with_reducible assumption | with_reducible apply Site.loadBytes_wf | split

theorem Site.spillCol_wf (a : Nat) (row : Nat) (r : RowSt) {cf : Site × Flags} (n : Nat) (h : cf.1.memsWf = true) :
    (Site.spillCol a row r cf n).1.memsWf = true := by
  unfold Site.spillCol
  try dsimp only
  repeat' first
    | with_reducible exact h | with_reducible assumption | with_reducible apply Site.countWords_wf | with_reducible apply Site.setArr_wf
    | with_reducible apply Site.count_wf | with_reducible apply Mem.putWord_wf
    | (simp only [Site.memsWf_mk, Bool.and_eq_true]; refine ⟨⟨?_, ?_⟩, ?_⟩) | with_reducible apply Site.store_wf
    | with_reducible apply Site.istore_wf | with_reducible apply Site.recs_wf | split

theorem Site.spillRow_wf {c : Site} (a : Nat) (row : Nat) (q : Nat) (drn : Bool) (h : c.memsWf = true) :
    (Site.spillRow c a row q drn).memsWf = true := by
  unfold Site.spillRow
  try dsimp only
  repeat' first
    | with_reducible exact h | with_reducible assumption | with_reducible apply Site.spillCol_wf | with_reducible apply Site.setArr_wf
    | with_reducible apply foldl_fstWf | split

theorem addCol_wf (v : VecIn) (t : Tile) (q : Nat) {cf : Site × Arr × Flags} (i : Nat) (h : cf.1.memsWf = true) :
    (addCol v t q cf i).1.memsWf = true := by
  unfold addCol
  try dsimp only
  repeat' first | with_reducible exact h | with_reducible assumption | with_reducible apply Site.countWords_wf | split

theorem Site.addQuarter_wf (a : Nat) (v : VecIn) {c : Site} (qt : Nat × Tile) (h : c.memsWf = true) :
    (Site.addQuarter a v c qt).memsWf = true := by
  unfold Site.addQuarter
  try dsimp only
  repeat' first
    | with_reducible exact h | with_reducible assumption | with_reducible apply Site.setArr_wf | with_reducible apply addCol_wf
    | with_reducible apply Site.spillRow_wf | with_reducible apply foldl_fstWf | split

theorem Site.addVec_wf (a : Nat) {c : Site} (v : VecIn) (h : c.memsWf = true) :
    (Site.addVec a c v).memsWf = true := by
  unfold Site.addVec
  try dsimp only
  repeat' first
    | with_reducible exact h | with_reducible assumption | with_reducible apply Site.addQuarter_wf | with_reducible apply foldl_siteWf

theorem Site.readCol_wf (a : Nat) (row : Nat) {cf : Site × List (Nat × AccWord × Option Sys2Proof.Word) × Flags} (pn : Nat × Nat) (h : cf.1.memsWf = true) :
    (Site.readCol a row cf pn).1.memsWf = true := by
  unfold Site.readCol
  try dsimp only
  repeat' first
    | with_reducible exact h | with_reducible assumption | with_reducible apply Site.countWords_wf | with_reducible apply Site.setArr_wf
    | with_reducible apply Mem.heal_wf | (simp only [Site.memsWf_mk, Bool.and_eq_true]; refine ⟨⟨?_, ?_⟩, ?_⟩)
    | with_reducible apply Site.store_wf | with_reducible apply Site.istore_wf | with_reducible apply Site.recs_wf | split

theorem Site.portRead_wf {c : Site} (d : DrainRow) (h : c.memsWf = true) :
    (Site.portRead c d).1.memsWf = true := by
  unfold Site.portRead
  try dsimp only
  repeat' first
    | with_reducible exact h | with_reducible assumption | with_reducible apply Site.readCol_wf | with_reducible apply Site.count_wf
    | with_reducible apply Site.setArr_wf | with_reducible apply foldl_fstWf

theorem Site.loadRow_wf (mode : Nat) (x : Nat) {cl : Site × LoadJob} (h : cl.1.memsWf = true) :
    (Site.loadRow mode x cl).1.memsWf = true := by
  unfold Site.loadRow
  try dsimp only
  repeat' first
    | with_reducible exact h | with_reducible assumption | with_reducible apply Site.fixedRead_wf | with_reducible apply foldl_fstWf
    | intro _

theorem Site.settleLoads_wf (x : Nat) {c : Site} (a : Nat) (h : c.memsWf = true) :
    (Site.settleLoads x c a).memsWf = true := by
  unfold Site.settleLoads
  try dsimp only
  repeat' first
    | with_reducible exact h | with_reducible assumption | with_reducible apply Site.setArr_wf | with_reducible apply Site.loadRow_wf
    | with_reducible apply foldl_siteWf | split | intro _

theorem Site.applyRepair_wf {c : Site} (a : Nat) (h : c.memsWf = true) :
    (Site.applyRepair c a).memsWf = true := by
  unfold Site.applyRepair
  try dsimp only
  repeat' first
    | with_reducible exact h | with_reducible assumption | with_reducible apply Site.setArr_wf | with_reducible apply Site.set_wf | split

theorem Site.addOldest_wf {c : Site} (a : Nat) (h : c.memsWf = true) :
    (Site.addOldest c a).memsWf = true := by
  unfold Site.addOldest
  try dsimp only
  repeat' first
    | with_reducible exact h | with_reducible assumption | with_reducible apply Site.addVec_wf | with_reducible apply Site.setArr_wf
    | split

theorem Site.settleAdds_wf (x : Nat) {c : Site} (a : Nat) (h : c.memsWf = true) :
    (Site.settleAdds x c a).memsWf = true := by
  unfold Site.settleAdds
  try dsimp only
  repeat' first
    | with_reducible exact h | with_reducible assumption | with_reducible apply Site.addOldest_wf | with_reducible apply foldl_siteWf
    | split | intro _

theorem Site.writeRowStore_wf {c : Site} (r : DrainRow) (pw : Nat) (codes : List (Nat × Nat)) (poi : Bool) (h : c.memsWf = true) :
    (Site.writeRowStore c r pw codes poi).1.memsWf = true := by
  unfold Site.writeRowStore
  try dsimp only
  repeat' first
    | with_reducible exact h | with_reducible assumption | with_reducible apply Mem.write_wf
    | (simp only [Site.memsWf_mk, Bool.and_eq_true]; refine ⟨⟨?_, ?_⟩, ?_⟩) | with_reducible apply Site.store_wf
    | with_reducible apply Site.istore_wf | with_reducible apply Site.recs_wf | with_reducible apply foldl_siteWf
    | with_reducible apply foldl_fstWf | split | intro _ | with_reducible exact Mem.empty_wf

theorem Site.writeRowChan_wf {c : Site} (r : DrainRow) (pw : Nat) (codes : List (Nat × Nat)) (poi : Bool) (h : c.memsWf = true) :
    (Site.writeRowChan c r pw codes poi).1.memsWf = true := by
  unfold Site.writeRowChan
  try dsimp only
  repeat' first
    | with_reducible exact h | with_reducible assumption | with_reducible apply Site.setChan_wf | with_reducible apply Site.postSlots_wf
    | with_reducible apply Mem.write_wf | (simp only [Site.memsWf_mk, Bool.and_eq_true]; refine ⟨⟨?_, ?_⟩, ?_⟩)
    | with_reducible apply Site.store_wf | with_reducible apply Site.istore_wf | with_reducible apply Site.recs_wf
    | with_reducible apply foldl_siteWf | with_reducible apply foldl_fstWf | split | intro _ | with_reducible exact Mem.empty_wf

theorem Site.addCounts_wf {c : Site} (f : Fmt) (codes : List (Nat × Nat)) (poi : Nat) (h : c.memsWf = true) :
    (Site.addCounts c f codes poi).memsWf = true := by
  unfold Site.addCounts
  try dsimp only
  repeat' first | with_reducible exact h | with_reducible assumption | with_reducible apply Site.bump_wf

theorem Site.addNorm_wf {c : Site} (ts : List (BitVec 64)) (h : c.memsWf = true) :
    (Site.addNorm c ts).memsWf = true := by
  unfold Site.addNorm
  try dsimp only
  repeat' first | with_reducible exact h | with_reducible assumption | with_reducible apply Site.set_wf

theorem Site.flushNorm_wf (k : Nat) {c : Site} (h : c.memsWf = true) : (Site.flushNorm k c).memsWf = true := by
  induction k generalizing c with
  | zero => exact h
  | succ k ih =>
    unfold Site.flushNorm
    split
    · exact h
    · have hq : ∀ l, Site.memsWf { c with drainQ := l } = true := fun _ => h
      split
      · exact ih (Site.addNorm_wf _ (hq _))
      · split
        · exact h
        · have hi := ih (hq ‹List DrainRow›)
          exact hi

theorem Site.countFlags_wf {c : Site} (fl : Flags) (h : c.memsWf = true) :
    (Site.countFlags c fl).memsWf = true := by
  unfold Site.countFlags
  try dsimp only
  repeat' first
    | with_reducible exact h | with_reducible assumption | with_reducible apply Site.count_wf | with_reducible apply foldl_siteWf | split
    | intro _

theorem Site.writeRec_wf {c : Site} (r : DrainRow) (n : Option Rec) (h : c.memsWf = true) :
    (Site.writeRec c r n).memsWf = true := by
  unfold Site.writeRec
  try dsimp only
  repeat' first
    | with_reducible exact h | with_reducible assumption | with_reducible apply Mem.write_wf | with_reducible apply Mem.healRange_wf
    | (simp only [Site.memsWf_mk, Bool.and_eq_true]; refine ⟨⟨?_, ?_⟩, ?_⟩) | with_reducible apply Site.store_wf
    | with_reducible apply Site.istore_wf | with_reducible apply Site.recs_wf | split

theorem Site.writeDst_wf {c : Site} (r : DrainRow) (pw : Nat) (codes : List (Nat × Nat)) (poi : Bool) (h : c.memsWf = true) :
    (Site.writeDst c r pw codes poi).1.memsWf = true := by
  unfold Site.writeDst
  try dsimp only
  repeat' first
    | with_reducible exact h | with_reducible assumption | with_reducible apply Site.writeRowStore_wf
    | with_reducible apply Site.writeRowChan_wf | (simp only [Site.memsWf_mk, Bool.and_eq_true]; refine ⟨⟨?_, ?_⟩, ?_⟩)
    | with_reducible apply Site.store_wf | with_reducible apply Site.istore_wf | with_reducible apply Site.recs_wf
    | with_reducible apply foldl_siteWf | with_reducible apply foldl_fstWf | split | intro _ | with_reducible exact Mem.empty_wf

theorem Site.writeRow_wf {c : Site} (r : DrainRow) (h : c.memsWf = true) : (Site.writeRow c r).memsWf = true := by
  unfold Site.writeRow
  extract_lets pw rec0 bad o t tf poi c1 c2 w n c3 c4 c5 c6
  have h1 : c1.memsWf = true := Site.writeRec_wf _ _ h
  have h2 : c2.memsWf = true := by
    simp only [c2]
    split
    · simp only [Site.memsWf_mk, Bool.and_eq_true]
      exact ⟨⟨Mem.poisonHeld_wf _ (Site.store_wf h1), Site.istore_wf h1⟩, Site.recs_wf h1⟩
    · exact h1
  have hw : w.1.memsWf = true := Site.writeDst_wf _ _ _ _ h2
  have h3 : c3.memsWf = true := by
    simp only [c3]
    split
    · exact Site.addCounts_wf _ _ _ hw
    · exact hw
  have h4 : c4.memsWf = true := Site.set_wf _ _ (Site.set_wf _ _ h3)
  have h5 : c5.memsWf = true := by
    simp only [c5]
    apply Site.countFlags_wf
    split
    · exact Site.set_wf _ _ h4
    · exact h4
  split
  · exact h5
  · exact h5

theorem Site.finishRow_wf {c : Site} (r : DrainRow) (h : c.memsWf = true) :
    (Site.finishRow c r).memsWf = true := by
  unfold Site.finishRow
  try dsimp only
  repeat' first
    | with_reducible exact h | with_reducible assumption | with_reducible apply Site.writeRow_wf | with_reducible apply Site.flushNorm_wf
    | (simp only [Site.memsWf_mk, Bool.and_eq_true]; refine ⟨⟨?_, ?_⟩, ?_⟩) | with_reducible apply Site.store_wf
    | with_reducible apply Site.istore_wf | with_reducible apply Site.recs_wf

theorem Site.auxRead_wf {c : Site} (x : Nat) (r : DrainRow) (h : c.memsWf = true) :
    (Site.auxRead c x r).1.memsWf = true := by
  unfold Site.auxRead
  try dsimp only
  repeat' first | with_reducible exact h | with_reducible assumption | with_reducible apply Site.fixedRead_wf | split

theorem Site.putRow_wf {c : Site} (old : DrainRow) (new : DrainRow) (h : c.memsWf = true) :
    (Site.putRow c old new).memsWf = true := by
  unfold Site.putRow
  try dsimp only
  repeat' first
    | with_reducible exact h | with_reducible assumption | (simp only [Site.memsWf_mk, Bool.and_eq_true]; refine ⟨⟨?_, ?_⟩, ?_⟩)
    | with_reducible apply Site.store_wf | with_reducible apply Site.istore_wf | with_reducible apply Site.recs_wf

theorem Site.settleReads_wf (x : Nat) {c : Site} (h : c.memsWf = true) :
    (Site.settleReads x c).memsWf = true := by
  unfold Site.settleReads
  try dsimp only
  repeat' first
    | with_reducible exact h | with_reducible assumption | with_reducible apply Site.portRead_wf | with_reducible apply Site.putRow_wf
    | with_reducible apply foldl_siteWf | split | intro _

theorem Site.settleAux_wf (x : Nat) {c : Site} (h : c.memsWf = true) :
    (Site.settleAux x c).memsWf = true := by
  unfold Site.settleAux
  try dsimp only
  repeat' first
    | with_reducible exact h | with_reducible assumption | with_reducible apply Site.auxRead_wf | with_reducible apply Site.putRow_wf
    | with_reducible apply foldl_siteWf | split | intro _

theorem Site.settleRows_wf (x : Nat) {c : Site} (h : c.memsWf = true) :
    (Site.settleRows x c).memsWf = true := by
  unfold Site.settleRows
  try dsimp only
  repeat' first
    | with_reducible exact h | with_reducible assumption | with_reducible apply Site.finishRow_wf | with_reducible apply foldl_siteWf
    | split | intro _

theorem Site.forceRow_wf {c : Site} (r : DrainRow) (h : c.memsWf = true) :
    (Site.forceRow c r).memsWf = true := by
  unfold Site.forceRow
  try dsimp only
  repeat' first
    | with_reducible exact h | with_reducible assumption | with_reducible apply Site.portRead_wf | with_reducible apply Site.auxRead_wf
    | with_reducible apply Site.finishRow_wf | with_reducible apply Site.putRow_wf | split

theorem Site.settle_wf (x : Nat) {c : Site} (h : c.memsWf = true) :
    (Site.settle x c).memsWf = true := by
  unfold Site.settle
  try dsimp only
  repeat' first
    | with_reducible exact h | with_reducible assumption | with_reducible apply Site.settleReads_wf
    | with_reducible apply Site.settleAdds_wf | with_reducible apply Site.settleRows_wf | with_reducible apply Site.settleAux_wf
    | with_reducible apply Site.settleLoads_wf | with_reducible apply Site.applyRepair_wf | with_reducible apply Site.count_wf
    | (simp only [Site.memsWf_mk, Bool.and_eq_true]; refine ⟨⟨?_, ?_⟩, ?_⟩) | with_reducible apply Site.store_wf
    | with_reducible apply Site.istore_wf | with_reducible apply Site.recs_wf | with_reducible apply foldl_siteWf

theorem Site.dmaTouch_wf {c : Site} (a : Nat) (k : Nat) (h : c.memsWf = true) :
    (Site.dmaTouch c a k).memsWf = true := by
  unfold Site.dmaTouch
  try dsimp only
  repeat' first
    | with_reducible exact h | with_reducible assumption | with_reducible apply Site.touchStore_wf | with_reducible apply Mem.healRange_wf
    | (simp only [Site.memsWf_mk, Bool.and_eq_true]; refine ⟨⟨?_, ?_⟩, ?_⟩) | with_reducible apply Site.store_wf
    | with_reducible apply Site.istore_wf | with_reducible apply Site.recs_wf | split

theorem Site.dmaWrite_wf {c : Site} (a : Nat) (bs : List (Sys2Proof.Byte × Bool)) (h : c.memsWf = true) :
    (Site.dmaWrite c a bs).memsWf = true := by
  unfold Site.dmaWrite
  try dsimp only
  repeat' first
    | with_reducible exact h | with_reducible assumption | with_reducible apply Mem.store_wf
    | (simp only [Site.memsWf_mk, Bool.and_eq_true]; refine ⟨⟨?_, ?_⟩, ?_⟩) | with_reducible apply Site.store_wf
    | with_reducible apply Site.istore_wf | with_reducible apply Site.recs_wf | split

theorem feedData_wf {c : Site} (v : Bool) (f : Sys2Proof.FeedF) (x : Nat) (h : c.memsWf = true) :
    (feedData c v f x).2.2.2.memsWf = true := by
  unfold feedData
  try dsimp only
  repeat' first | with_reducible exact h | with_reducible assumption | with_reducible apply Site.fixedRead_wf | split

theorem Site.capture_wf (x : Nat) (fmt : BitVec 4) (blk : Nat) (codes : List Nat) (scales : List Nat) (poi : Bool) {c : Site} (k : Capture) (h : c.memsWf = true) :
    (Site.capture x fmt blk codes scales poi c k).memsWf = true := by
  unfold Site.capture
  try dsimp only
  repeat' first | with_reducible exact h | with_reducible assumption | with_reducible apply Site.setArr_wf

theorem Site.openPasses_wf (a : Nat) (f : Sys2Proof.PassF) {c : Site} (h : c.memsWf = true) :
    (Site.openPasses a f c).memsWf = true := by
  unfold Site.openPasses
  try dsimp only
  repeat' first
    | with_reducible exact h | with_reducible assumption | with_reducible apply Site.setArr_wf | with_reducible apply Site.count_wf
    | with_reducible apply foldl_siteWf | split | intro _

theorem Site.feedAndPass_wf (x : Nat) (ops : List Op) (pre : Site) {c : Site} (h : c.memsWf = true) :
    (Site.feedAndPass x ops pre c).memsWf = true := by
  unfold Site.feedAndPass
  try dsimp only
  repeat' first
    | with_reducible exact h | with_reducible assumption | with_reducible apply Site.capture_wf | with_reducible apply Site.count_wf
    | with_reducible apply Site.fixedRead_wf | with_reducible apply Site.openPasses_wf
    | (simp only [Site.memsWf_mk, Bool.and_eq_true]; refine ⟨⟨?_, ?_⟩, ?_⟩) | with_reducible apply Site.store_wf
    | with_reducible apply Site.istore_wf | with_reducible apply Site.recs_wf | with_reducible apply foldl_siteWf | split | intro _

theorem Site.scheduleRows_wf (x : Nat) (ops : List Op) (pre : Site) {c : Site} (h : c.memsWf = true) :
    (Site.scheduleRows x ops pre c).memsWf = true := by
  unfold Site.scheduleRows
  try dsimp only
  repeat' first
    | with_reducible exact h | with_reducible assumption | (simp only [Site.memsWf_mk, Bool.and_eq_true]; refine ⟨⟨?_, ?_⟩, ?_⟩)
    | with_reducible apply Site.store_wf | with_reducible apply Site.istore_wf | with_reducible apply Site.recs_wf

theorem Site.startLoad_wf (x : Nat) (a : Nat) (f : Sys2Proof.LdwF) (pre : Site) {c : Site} (h : c.memsWf = true) :
    (Site.startLoad x a f pre c).memsWf = true := by
  unfold Site.startLoad
  try dsimp only
  repeat' first
    | with_reducible exact h | with_reducible assumption | with_reducible apply Site.fixedRead_wf | with_reducible apply Site.loadRow_wf
    | with_reducible apply Site.count_wf | with_reducible apply Site.setArr_wf | split

theorem Site.tagReload_wf {c : Site} (h : c.memsWf = true) :
    (Site.tagReload c).memsWf = true := by
  unfold Site.tagReload
  try dsimp only
  repeat' first
    | with_reducible exact h | with_reducible assumption | (simp only [Site.memsWf_mk, Bool.and_eq_true]; refine ⟨⟨?_, ?_⟩, ?_⟩)
    | with_reducible apply Site.store_wf | with_reducible apply Site.istore_wf | with_reducible apply Site.recs_wf

theorem Site.setTagCount_wf {c : Site} (k : Nat) (h : c.memsWf = true) :
    (Site.setTagCount c k).memsWf = true := by
  unfold Site.setTagCount
  try dsimp only
  repeat' first | with_reducible exact h | with_reducible assumption | with_reducible apply Site.set_wf

theorem Site.putRecord_wf {c : Site} (j : Nat) (v : Nat) (h : c.memsWf = true) :
    (Site.putRecord c j v).memsWf = true := by
  unfold Site.putRecord
  try dsimp only
  repeat' first
    | with_reducible exact h | with_reducible assumption | with_reducible apply Site.set_wf | with_reducible apply foldl_siteWf | intro _

theorem Site.tick_wf {c : Site} (h : c.memsWf = true) :
    (Site.tick c).memsWf = true := by
  unfold Site.tick
  try dsimp only
  repeat' first | with_reducible exact h | with_reducible assumption | with_reducible apply Site.count_wf | with_reducible apply Site.set_wf

theorem Site.stallCycle_wf {c : Site} (held : Bool) (h : c.memsWf = true) :
    (Site.stallCycle c held).memsWf = true := by
  unfold Site.stallCycle
  try dsimp only
  repeat' first
    | with_reducible exact h | with_reducible assumption | with_reducible apply Site.count_wf
    | (simp only [Site.memsWf_mk, Bool.and_eq_true]; refine ⟨⟨?_, ?_⟩, ?_⟩) | with_reducible apply Site.store_wf
    | with_reducible apply Site.istore_wf | with_reducible apply Site.recs_wf

theorem Site.solo_wf {c : Site} (h : c.memsWf = true) :
    (Site.solo c).memsWf = true := by
  unfold Site.solo
  try dsimp only
  repeat' first
    | with_reducible exact h | with_reducible assumption | (simp only [Site.memsWf_mk, Bool.and_eq_true]; refine ⟨⟨?_, ?_⟩, ?_⟩)
    | with_reducible apply Site.store_wf | with_reducible apply Site.istore_wf | with_reducible apply Site.recs_wf

theorem Site.finishLoads_wf (x : Nat) (a : Nat) {c : Site} (h : c.memsWf = true) :
    (Site.finishLoads x a c).memsWf = true := by
  unfold Site.finishLoads
  try dsimp only
  repeat' first
    | with_reducible exact h | with_reducible assumption | with_reducible apply Site.settleLoads_wf | with_reducible apply foldl_siteWf
    | intro _

theorem Site.tagDma_wf {c : Site} (j : Nat) (h : c.memsWf = true) :
    (Site.tagDma c j).memsWf = true := by
  unfold Site.tagDma
  try dsimp only
  repeat' first
    | with_reducible exact h | with_reducible assumption | with_reducible apply Site.set_wf
    | (simp only [Site.memsWf_mk, Bool.and_eq_true]; refine ⟨⟨?_, ?_⟩, ?_⟩) | with_reducible apply Site.store_wf
    | with_reducible apply Site.istore_wf | with_reducible apply Site.recs_wf | split

theorem Site.tagPop_wf {c : Site} (h : c.memsWf = true) :
    (Site.tagPop c).memsWf = true := by
  unfold Site.tagPop
  try dsimp only
  repeat' first
    | with_reducible exact h | with_reducible assumption | with_reducible apply Site.set_wf | with_reducible apply Site.setTagCount_wf
    | (simp only [Site.memsWf_mk, Bool.and_eq_true]; refine ⟨⟨?_, ?_⟩, ?_⟩) | with_reducible apply Site.store_wf
    | with_reducible apply Site.istore_wf | with_reducible apply Site.recs_wf | split

theorem Site.go_wf {c : Site} (h : c.memsWf = true) :
    (Site.go c).memsWf = true := by
  unfold Site.go
  try dsimp only
  repeat' first
    | with_reducible exact h | with_reducible assumption | with_reducible apply Site.set_wf
    | (simp only [Site.memsWf_mk, Bool.and_eq_true]; refine ⟨⟨?_, ?_⟩, ?_⟩) | with_reducible apply Site.store_wf
    | with_reducible apply Site.istore_wf | with_reducible apply Site.recs_wf | split

theorem Site.writePc_wf {c : Site} (v : Nat) (h : c.memsWf = true) :
    (Site.writePc c v).memsWf = true := by
  unfold Site.writePc
  try dsimp only
  repeat' first
    | with_reducible exact h | with_reducible assumption | with_reducible apply Site.set_wf
    | (simp only [Site.memsWf_mk, Bool.and_eq_true]; refine ⟨⟨?_, ?_⟩, ?_⟩) | with_reducible apply Site.store_wf
    | with_reducible apply Site.istore_wf | with_reducible apply Site.recs_wf | split

theorem Site.tagStart_wf {c : Site} (h : c.memsWf = true) :
    (Site.tagStart c).memsWf = true := by
  unfold Site.tagStart
  try dsimp only
  repeat' first
    | with_reducible exact h | with_reducible assumption | with_reducible apply Site.tagReload_wf
    | (simp only [Site.memsWf_mk, Bool.and_eq_true]; refine ⟨⟨?_, ?_⟩, ?_⟩) | with_reducible apply Site.store_wf
    | with_reducible apply Site.istore_wf | with_reducible apply Site.recs_wf

theorem Site.writeField_wf {c : Site} (x : Fld) (v : Nat) (h : c.memsWf = true) :
    (Site.writeField c x v).memsWf = true := by
  unfold Site.writeField
  try dsimp only
  repeat' first
    | with_reducible exact h | with_reducible assumption | with_reducible apply Site.set_wf | with_reducible apply Site.halt_wf
    | with_reducible apply Site.go_wf | with_reducible apply Site.tagPop_wf | with_reducible apply Site.writePc_wf
    | with_reducible apply Site.tagStart_wf | (simp only [Site.memsWf_mk, Bool.and_eq_true]; refine ⟨⟨?_, ?_⟩, ?_⟩)
    | with_reducible apply Site.store_wf | with_reducible apply Site.istore_wf | with_reducible apply Site.recs_wf | split

theorem Site.writeReg_wf {c : Site} (off : Nat) (r : Reg) (v : Nat) (mask : Nat) (h : c.memsWf = true) :
    (Site.writeReg c off r v mask).memsWf = true := by
  unfold Site.writeReg
  try dsimp only
  repeat' first
    | with_reducible exact h | with_reducible assumption | with_reducible apply Site.set_wf | with_reducible apply Site.writeField_wf
    | with_reducible apply foldl_siteWf | split | intro _

theorem Site.runDown_wf {c : Site} (h : c.memsWf = true) :
    (Site.runDown c).memsWf = true := by
  unfold Site.runDown
  try dsimp only
  repeat' first
    | with_reducible exact h | with_reducible assumption | with_reducible apply Site.settle_wf | with_reducible apply foldl_siteWf
    | intro _

theorem Site.leaveBehind_wf {c : Site} (h : c.memsWf = true) :
    (Site.leaveBehind c).memsWf = true := by
  unfold Site.leaveBehind
  try dsimp only
  repeat' first
    | with_reducible exact h | with_reducible assumption | (simp only [Site.memsWf_mk, Bool.and_eq_true]; refine ⟨⟨?_, ?_⟩, ?_⟩)
    | with_reducible apply Site.store_wf | with_reducible apply Site.istore_wf | with_reducible exact Mem.empty_wf

theorem Site.keepSpills_wf {c : Site} {f : Site} (h : c.memsWf = true) (h2 : f.memsWf = true) : (Site.keepSpills c f).memsWf = true := by
  unfold Site.keepSpills
  simp only [Site.memsWf_mk, Bool.and_eq_true]
  refine ⟨⟨?_, Site.istore_wf h⟩, Site.recs_wf h⟩
  apply foldl_memWf
  · intro m a hm
    split
    · exact Mem.withRange_wf _ _ hm (Site.store_wf h2)
    · exact hm
  · exact Site.store_wf h

theorem Site.moved_wf {c : Site} {f : Site} (h : c.memsWf = true) (h2 : f.memsWf = true) :
    (Site.moved c f).memsWf = true := by
  unfold Site.moved
  try dsimp only
  repeat' first
    | with_reducible exact h | with_reducible assumption | with_reducible apply Site.keepSpills_wf
    | with_reducible apply Site.leaveBehind_wf | with_reducible apply Site.runDown_wf | with_reducible apply Site.tagStart_wf | split

theorem Site.vacated_wf {c : Site} (h : c.memsWf = true) :
    (Site.vacated c).memsWf = true := by
  unfold Site.vacated
  try dsimp only
  repeat' first
    | with_reducible exact h | with_reducible assumption | with_reducible apply Site.abortTags_wf | with_reducible apply Site.set_wf
    | (simp only [Site.memsWf_mk, Bool.and_eq_true]; refine ⟨⟨?_, ?_⟩, ?_⟩) | with_reducible apply Site.store_wf
    | with_reducible apply Site.istore_wf | with_reducible apply Site.recs_wf

theorem Site.takeValue_wf {c : Site} (key : Nat) (v : Nat) (h : c.memsWf = true) :
    (Site.takeValue c key v).memsWf = true := by
  unfold Site.takeValue
  try dsimp only
  repeat' first
    | with_reducible exact h | with_reducible assumption | with_reducible apply Site.applyKey_wf
    | (simp only [Site.memsWf_mk, Bool.and_eq_true]; refine ⟨⟨?_, ?_⟩, ?_⟩) | with_reducible apply Site.store_wf
    | with_reducible apply Site.istore_wf | with_reducible apply Site.recs_wf | split

theorem Site.released_wf {c : Site} (h : c.memsWf = true) :
    (Site.released c).memsWf = true := by
  unfold Site.released
  try dsimp only
  repeat' first
    | with_reducible exact h | with_reducible assumption | (simp only [Site.memsWf_mk, Bool.and_eq_true]; refine ⟨⟨?_, ?_⟩, ?_⟩)
    | with_reducible apply Site.store_wf | with_reducible apply Site.istore_wf | with_reducible apply Site.recs_wf

theorem Site.captureRow_wf {c : Site} (r : DrainRow) (h : c.memsWf = true) :
    (Site.captureRow c r).memsWf = true := by
  unfold Site.captureRow
  try dsimp only
  repeat' first
    | with_reducible exact h | with_reducible assumption | with_reducible apply Site.portRead_wf | with_reducible apply Site.putRow_wf

theorem Site.readBefore_wf (a : Nat) (t : Nat) {c : Site} (h : c.memsWf = true) :
    (Site.readBefore a t c).memsWf = true := by
  unfold Site.readBefore
  try dsimp only
  repeat' first
    | with_reducible exact h | with_reducible assumption | with_reducible apply Site.captureRow_wf | with_reducible apply foldl_siteWf

theorem Site.readAfter_wf (a : Nat) (p : Nat) {c : Site} (h : c.memsWf = true) :
    (Site.readAfter a p c).memsWf = true := by
  unfold Site.readAfter
  try dsimp only
  repeat' first | with_reducible exact h | with_reducible assumption | with_reducible apply Site.captureRow_wf | split

theorem Site.addNext_wf {c : Site} (a : Nat) (h : c.memsWf = true) :
    (Site.addNext c a).memsWf = true := by
  unfold Site.addNext
  try dsimp only
  repeat' first
    | with_reducible exact h | with_reducible assumption | with_reducible apply Site.addOldest_wf
    | with_reducible apply Site.readBefore_wf | with_reducible apply Site.readAfter_wf | split

theorem Site.addUntilRead_wf (k a p : Nat) {c : Site} (h : c.memsWf = true) : (Site.addUntilRead k a p c).memsWf = true := by
  induction k generalizing c with
  | zero => exact h
  | succ k ih =>
    unfold Site.addUntilRead
    split
    · split
      · exact h
      · exact ih (Site.addNext_wf _ h)
    · exact h

theorem Site.drainOldest_wf {c : Site} (h : c.memsWf = true) :
    (Site.drainOldest c).memsWf = true := by
  unfold Site.drainOldest
  try dsimp only
  repeat' first
    | with_reducible exact h | with_reducible assumption | with_reducible apply Site.addUntilRead_wf
    | with_reducible apply Site.forceRow_wf | split

end Sys2Proof.Machine
end

