-- ==== Sys2Proof/Laws/Keeps.lean ====
section
/-! SUPPORT. What the shared operations on the module do to the queue and to the memories: the queue stays as it is, and memories stay in
canonical form. One lemma per operation. -/

set_option autoImplicit false

namespace Sys2Proof.Machine

theorem Keeps.refl (s : State) : Keeps s s := ⟨rfl, id⟩

theorem Keeps.trans {a b c : State} (h : Keeps a b) (k : Keeps b c) : Keeps a c := ⟨k.1.trans h.1, fun w => k.2 (h.2 w)⟩

theorem Keeps.pending {a s : State} (h : Keeps a s) : s.pending = a.pending := h.1

theorem Keeps.hbm {a s : State} (h : Keeps a s) (w : a.memsWf = true) : s.hbm.wf = true := by
  have := h.2 w; simp only [State.memsWf, Bool.and_eq_true] at this; exact this.1

theorem Keeps.sites {a s : State} (h : Keeps a s) (w : a.memsWf = true) : s.sites.all (fun e => e.2.memsWf) = true := by
  have := h.2 w; simp only [State.memsWf, Bool.and_eq_true] at this; exact this.2

theorem Keeps.site {a s : State} (h : Keeps a s) (w : a.memsWf = true) (n : Nat) : (s.site n).memsWf = true := by
  have hs := h.sites w
  unfold State.site mget
  cases hf : mfind s.sites n with
  | none => exact Site.reset_wf
  | some c => exact List.all_eq_true.mp hs _ (mem_of_mfind hf)

/-- A state written out keeps what another keeps when its queue and its memories do. -/
theorem keeps_mk {a : State} {pending time free out serial regs shadow sites roleSite hbm fab img loader gate rep net col pel ckp test sec
    mtr fac host mgt pwr} : Keeps a (State.mk pending time free out serial regs shadow sites roleSite hbm fab img loader gate rep net
    col pel ckp test sec mtr fac host mgt pwr) ↔
    pending = a.pending ∧ (a.memsWf = true → hbm.wf = true) ∧ (a.memsWf = true → sites.all (fun e => e.2.memsWf) = true) := by
  simp only [Keeps, State.memsWf, Bool.and_eq_true]
  constructor
  · rintro ⟨h1, h2⟩; exact ⟨h1, fun w => (h2 w).1, fun w => (h2 w).2⟩
  · rintro ⟨h1, h2, h3⟩; exact ⟨h1, fun w => ⟨h2 w, h3 w⟩⟩

theorem foldl_keeps {β : Type} {a : State} (f : State → β → State) (l : List β) (s : State)
    (hf : ∀ s x, Keeps a s → Keeps a (f s x)) (h : Keeps a s) : Keeps a (l.foldl f s) := by
  induction l generalizing s with
  | nil => exact h
  | cons x l ih => exact ih _ (hf s x h)

theorem foldl_fstKeeps {β γ : Type} {a : State} (f : State × γ → β → State × γ) (l : List β) (p : State × γ)
    (hf : ∀ p x, Keeps a p.1 → Keeps a (f p x).1) (h : Keeps a p.1) : Keeps a (l.foldl f p).1 := by
  induction l generalizing p with
  | nil => exact h
  | cons x l ih => exact ih _ (hf p x h)

theorem repeat_keeps {a : State} (f : State → State) (n : Nat) (s : State)
    (hf : ∀ s, Keeps a s → Keeps a (f s)) (h : Keeps a s) : Keeps a (n.repeat f s) := by
  induction n with
  | zero => exact h
  | succ n ih => exact hf _ ih

theorem all_mput {n : Nat} {c : Site} {m : SMap Site} (hc : c.memsWf = true) (h : m.all (fun e => e.2.memsWf) = true) :
    (mput Site.reset n c m).all (fun e => e.2.memsWf) = true := by
  rw [List.all_eq_true] at h ⊢
  intro e he
  rcases mem_mput he with ⟨rfl, _⟩ | he
  · exact hc
  · exact h e he

theorem keeps_ite {a s t : State} {P : Prop} [Decidable P] (hs : Keeps a s) (ht : Keeps a t) : Keeps a (if P then s else t) := by
  split
  · exact hs
  · exact ht

theorem State.setSite_keeps {a s : State} (n : Nat) {c : Site} (hc : a.memsWf = true → c.memsWf = true) (h : Keeps a s) :
    Keeps a (s.setSite n c) := by
  unfold State.setSite
  simp only [keeps_mk]
  exact ⟨h.pending, h.hbm, fun w => all_mput (hc w) (h.sites w)⟩

theorem State.onSite_keeps {a s : State} (n : Nat) (g : Site → Site) (hg : ∀ c, c.memsWf = true → (g c).memsWf = true) (h : Keeps a s) :
    Keeps a (s.onSite n g) := by
  have h1 : Keeps a (s.setSite n (g (s.site n))) := State.setSite_keeps n (fun w => hg _ (h.site w n)) h
  unfold State.onSite
  dsimp only
  split
  · exact h1
  · exact h1

theorem State.setRepairs_wf (s : State) (n : Nat) {c : Site} (h : c.memsWf = true) : (s.setRepairs n c).memsWf = true :=
  foldl_siteWf _ _ _ (fun _ _ hc => Site.set_wf _ _ (Site.set_wf _ _ hc)) h

theorem State.loadedSite_wf {s : State} (ss : Secs) (role n : Nat) (h : (s.site n).memsWf = true) :
    (s.loadedSite ss role n).memsWf = true := by
  have hd := State.setRepairs_wf s n (Site.released_wf h)
  unfold State.loadedSite
  generalize s.setRepairs n (s.site n).released = d at hd ⊢
  extract_lets b ps e c0 c1
  have h0 : c0.memsWf = true := hd
  have h1 : c1.memsWf = true := by
    apply foldl_siteWf _ _ _ _ h0
    intro c p hc
    split
    · simp only [Site.memsWf_mk, Bool.and_eq_true]
      exact ⟨⟨Site.store_wf hc, Mem.write_wf _ _ _ (Site.istore_wf hc)⟩, Site.recs_wf hc⟩
    · simp only [Site.memsWf_mk, Bool.and_eq_true]
      exact ⟨⟨Mem.write_wf _ _ _ (Site.store_wf hc), Site.istore_wf hc⟩, Site.recs_wf hc⟩
  apply foldl_siteWf _ _ _ _ h1
  intro c r hc
  split
  · exact foldl_siteWf _ _ _ (fun _ _ hd => Site.set_wf _ _ hd) hc
  · exact hc

theorem Mem.fillPages_wf {m : Mem} (ps : List (Nat × Nat)) (base : Nat) (b : Bytes) (h : m.wf = true) : (m.fillPages ps base b).wf = true :=
  foldl_memWf _ _ _ (fun _ _ hm => Mem.write_wf _ _ _ hm) h

theorem State.setD_keeps {z : State} {s : State} (w : Nat) (x : Fld) (v : Nat) (hz : Keeps z s) :
    Keeps z (State.setD s w x v) := by
  unfold State.setD
  try dsimp only
  repeat' first
    | with_reducible assumption | (simp only [keeps_mk]; refine ⟨?_, ?_, ?_⟩) | with_reducible apply Keeps.pending
    | with_reducible apply Keeps.hbm | with_reducible apply Keeps.sites

theorem State.bumpD_keeps {z : State} {s : State} (w : Nat) (x : Fld) (n : Nat) (hz : Keeps z s) :
    Keeps z (State.bumpD s w x n) := by
  unfold State.bumpD
  try dsimp only
  repeat' first | with_reducible assumption | with_reducible apply State.setD_keeps

theorem State.setHd_keeps {z : State} {s : State} (x : Fld) (v : Nat) (hz : Keeps z s) :
    Keeps z (State.setHd s x v) := by
  unfold State.setHd
  try dsimp only
  repeat' first | with_reducible assumption | with_reducible apply State.setD_keeps

theorem State.bumpHd_keeps {z : State} {s : State} (x : Fld) (n : Nat) (hz : Keeps z s) :
    Keeps z (State.bumpHd s x n) := by
  unfold State.bumpHd
  try dsimp only
  repeat' first | with_reducible assumption | with_reducible apply State.bumpD_keeps

theorem State.emit_keeps {z : State} {s : State} (o : Out) (hz : Keeps z s) :
    Keeps z (State.emit s o) := by
  unfold State.emit
  try dsimp only
  repeat' first
    | with_reducible assumption | (simp only [keeps_mk]; refine ⟨?_, ?_, ?_⟩) | with_reducible apply Keeps.pending
    | with_reducible apply Keeps.hbm | with_reducible apply Keeps.sites

theorem State.onLive_keeps {z : State} {s : State} (g : Site → Site) (hz : Keeps z s) (hk : ∀ c, c.memsWf = true → (g c).memsWf = true) :
    Keeps z (State.onLive s g) := by
  unfold State.onLive
  try dsimp only
  repeat' first | with_reducible assumption | with_reducible apply State.onSite_keeps | with_reducible apply foldl_keeps | intro _

theorem State.emits_keeps {z : State} {s : State} (os : List Out) (hz : Keeps z s) :
    Keeps z (State.emits s os) := by
  unfold State.emits
  try dsimp only
  repeat' first | with_reducible assumption | with_reducible apply State.emit_keeps | with_reducible apply foldl_keeps

theorem State.skipFree_keeps {z : State} {s : State} (hz : Keeps z s) :
    Keeps z (State.skipFree s) := by
  unfold State.skipFree
  try dsimp only
  repeat' first
    | with_reducible assumption | (simp only [keeps_mk]; refine ⟨?_, ?_, ?_⟩) | with_reducible apply Keeps.pending
    | with_reducible apply Keeps.hbm | with_reducible apply Keeps.sites

theorem State.dctrAdd_keeps {z : State} (k : Nat) {s : State} (w i n : Nat) (hz : Keeps z s) : Keeps z (State.dctrAdd k s w i n) := by
  induction k generalizing s i n with
  | zero => exact hz
  | succ k ih =>
    unfold State.dctrAdd
    dsimp only
    split
    · exact State.setD_keeps _ _ _ hz
    · split
      · exact ih _ _ (State.setD_keeps _ _ _ hz)
      · split
        · exact State.emit_keeps _ (State.setD_keeps _ _ _ (State.setD_keeps _ _ _ hz))
        · exact State.setD_keeps _ _ _ (State.setD_keeps _ _ _ hz)

theorem State.countD_keeps {z : State} {s : State} (w : Nat) (ev : Nat) (n : Nat) (hz : Keeps z s) :
    Keeps z (State.countD s w ev n) := by
  unfold State.countD
  try dsimp only
  repeat' first | with_reducible assumption | with_reducible apply State.dctrAdd_keeps | with_reducible apply foldl_keeps | split | intro _

theorem State.countBursts_keeps {z : State} {s : State} (ev : Nat) (a : Nat) (n : Nat) (hz : Keeps z s) :
    Keeps z (State.countBursts s ev a n) := by
  unfold State.countBursts
  try dsimp only
  repeat' first | with_reducible assumption | with_reducible apply State.countD_keeps | with_reducible apply foldl_keeps | intro _

theorem State.setPort_keeps {z : State} {s : State} (k : Nat) (x : PortSt) (hz : Keeps z s) :
    Keeps z (State.setPort s k x) := by
  unfold State.setPort
  try dsimp only
  repeat' first
    | with_reducible assumption | (simp only [keeps_mk]; refine ⟨?_, ?_, ?_⟩) | with_reducible apply Keeps.pending
    | with_reducible apply Keeps.hbm | with_reducible apply Keeps.sites

theorem State.setPf_keeps {z : State} {s : State} (k : Nat) (f : Nat → Nat → Fld) (v : Nat) (hz : Keeps z s) :
    Keeps z (State.setPf s k f v) := by
  unfold State.setPf
  try dsimp only
  repeat' first | with_reducible assumption | with_reducible apply State.setD_keeps

theorem State.setPortState_keeps {z : State} {s : State} (k : Nat) (v : Nat) (hz : Keeps z s) :
    Keeps z (State.setPortState s k v) := by
  unfold State.setPortState
  try dsimp only
  repeat' first | with_reducible assumption | with_reducible apply State.setPf_keeps

theorem State.bumpPerr_keeps {z : State} {s : State} (k : Nat) (f : Nat → Fld) (n : Nat) (hz : Keeps z s) :
    Keeps z (State.bumpPerr s k f n) := by
  unfold State.bumpPerr
  try dsimp only
  repeat' first | with_reducible assumption | with_reducible apply State.bumpD_keeps

theorem State.setStream_keeps {z : State} {s : State} (key : Nat) (x : Stream) (hz : Keeps z s) :
    Keeps z (State.setStream s key x) := by
  unfold State.setStream
  try dsimp only
  repeat' first
    | with_reducible assumption | (simp only [keeps_mk]; refine ⟨?_, ?_, ?_⟩) | with_reducible apply Keeps.pending
    | with_reducible apply Keeps.hbm | with_reducible apply Keeps.sites

theorem State.sendFrame_keeps {z : State} {s : State} (k : Nat) (f : PortFrame) (hz : Keeps z s) :
    Keeps z (State.sendFrame s k f) := by
  unfold State.sendFrame
  try dsimp only
  repeat' first | with_reducible assumption | with_reducible apply State.emit_keeps | with_reducible apply State.setPort_keeps | split

theorem State.launch_keeps {z : State} {s : State} (k : Nat) (pkt : Sys2Proof.UalPkt) (hz : Keeps z s) :
    Keeps z (State.launch s k pkt) := by
  unfold State.launch
  try dsimp only
  repeat' first | with_reducible assumption | with_reducible apply State.countD_keeps | with_reducible apply State.sendFrame_keeps

theorem State.frameOut_keeps {z : State} {s : State} (k : Nat) (f : PortFrame) (hz : Keeps z s) :
    Keeps z (State.frameOut s k f) := by
  unfold State.frameOut
  try dsimp only
  repeat' first | with_reducible assumption | with_reducible apply State.sendFrame_keeps | with_reducible apply State.setPort_keeps | split

theorem State.sendFrames_keeps {z : State} {s : State} (k : Nat) (hz : Keeps z s) :
    Keeps z (State.sendFrames s k) := by
  unfold State.sendFrames
  try dsimp only
  repeat' first
    | with_reducible assumption | with_reducible apply State.setPort_keeps | with_reducible apply State.frameOut_keeps
    | with_reducible apply foldl_keeps | intro _

theorem State.drainPort_keeps {z : State} (k n : Nat) {s : State} (hz : Keeps z s) : Keeps z (State.drainPort k n s) := by
  induction n generalizing s with
  | zero => exact hz
  | succ n ih =>
    unfold State.drainPort
    dsimp only
    split
    · exact hz
    · split
      · exact hz
      · split
        · exact hz
        · split
          · exact hz
          · exact ih (State.launch_keeps _ _ (State.setPort_keeps _ _ hz))

theorem State.egress_keeps {z : State} {s : State} (k : Nat) (pkt : Sys2Proof.UalPkt) (hz : Keeps z s) :
    Keeps z (State.egress s k pkt) := by
  unfold State.egress
  try dsimp only
  repeat' first | with_reducible assumption | with_reducible apply State.drainPort_keeps | with_reducible apply State.setPort_keeps | split

theorem State.number_keeps {z : State} {s : State} (k : Nat) (cls : Nat) (kind : Nat) (dst : Nat) (strm : BitVec 16) (mb : BitVec 16) (msg : BitVec 32) (woff : BitVec 24) (ws : List Sys2Proof.CodeWord) (hz : Keeps z s) :
    Keeps z (State.number s k cls kind dst strm mb msg woff ws).1 := by
  unfold State.number
  try dsimp only
  repeat' first | with_reducible assumption | with_reducible apply State.setStream_keeps

theorem State.pelData_keeps {z : State} {s : State} (kind : Nat) (dst : Nat) (ws : List (BitVec 64)) (hz : Keeps z s) :
    Keeps z (State.pelData s kind dst ws) := by
  unfold State.pelData
  try dsimp only
  repeat' first | with_reducible assumption | with_reducible apply State.egress_keeps | with_reducible apply State.number_keeps | split

theorem State.notify_keeps {z : State} {s : State} (ev : Nat) (arg1 : BitVec 64) (hz : Keeps z s) :
    Keeps z (State.notify s ev arg1) := by
  unfold State.notify
  try dsimp only
  repeat' first | with_reducible assumption | with_reducible apply State.emit_keeps

theorem State.pelMgt_keeps {z : State} {s : State} (src : Nat) (kind : Nat) (epoch : Nat) (dst : List Nat) (planes : Nat) (ws : List (BitVec 64)) (hz : Keeps z s) :
    Keeps z (State.pelMgt s src kind epoch dst planes ws) := by
  unfold State.pelMgt
  try dsimp only
  repeat' first | with_reducible assumption | with_reducible apply State.emit_keeps

theorem State.pelSendAs_keeps {z : State} {s : State} (src : Nat) (kind : Nat) (dst : List Nat) (data : Bool) (ws : List (BitVec 64)) (hz : Keeps z s) :
    Keeps z (State.pelSendAs s src kind dst data ws) := by
  unfold State.pelSendAs
  try dsimp only
  repeat' first
    | with_reducible assumption | with_reducible apply State.pelData_keeps | with_reducible apply State.pelMgt_keeps
    | with_reducible apply foldl_keeps | split | intro _

theorem State.pelSend_keeps {z : State} {s : State} (kind : Nat) (dst : List Nat) (data : Bool) (ws : List (BitVec 64)) (hz : Keeps z s) :
    Keeps z (State.pelSend s kind dst data ws) := by
  unfold State.pelSend
  try dsimp only
  repeat' first | with_reducible assumption | with_reducible apply State.pelSendAs_keeps

theorem State.mgtSend_keeps {z : State} {s : State} (typ : Nat) (arg0 : BitVec 64) (arg1 : BitVec 64) (dst : List Nat) (payload : Sys2Proof.Bytes) (hz : Keeps z s) :
    Keeps z (State.mgtSend s typ arg0 arg1 dst payload) := by
  unfold State.mgtSend
  try dsimp only
  repeat' first
    | with_reducible assumption | with_reducible apply State.emit_keeps | (simp only [keeps_mk]; refine ⟨?_, ?_, ?_⟩)
    | with_reducible apply Keeps.pending | with_reducible apply Keeps.hbm | with_reducible apply Keeps.sites

theorem State.alertWith_keeps {z : State} {s : State} (code : Nat) (payload : Sys2Proof.Bytes) (hz : Keeps z s) :
    Keeps z (State.alertWith s code payload) := by
  unfold State.alertWith
  try dsimp only
  repeat' first | with_reducible assumption | with_reducible apply State.mgtSend_keeps | with_reducible apply State.notify_keeps

theorem State.alert_keeps {z : State} {s : State} (code : Nat) (hz : Keeps z s) :
    Keeps z (State.alert s code) := by
  unfold State.alert
  try dsimp only
  repeat' first | with_reducible assumption | with_reducible apply State.alertWith_keeps

theorem State.showFault_keeps {z : State} {s : State} (r : FaultRec) (hz : Keeps z s) :
    Keeps z (State.showFault s r) := by
  unfold State.showFault
  try dsimp only
  repeat' first | with_reducible assumption | with_reducible apply State.setHd_keeps

theorem State.logFault_keeps {z : State} {s : State} (r : FaultRec) (hz : Keeps z s) :
    Keeps z (State.logFault s r) := by
  unfold State.logFault
  try dsimp only
  repeat' first
    | with_reducible assumption | with_reducible apply State.showFault_keeps | (simp only [keeps_mk]; refine ⟨?_, ?_, ?_⟩)
    | with_reducible apply Keeps.pending | with_reducible apply Keeps.hbm | with_reducible apply Keeps.sites | split

theorem State.stopAll_keeps {z : State} {s : State} (detail : Nat) (hz : Keeps z s) :
    Keeps z (State.stopAll s detail) := by
  unfold State.stopAll
  try dsimp only
  repeat' first | with_reducible assumption | with_reducible apply State.onLive_keeps | with_reducible apply Site.stopRewind_wf | intro _

theorem State.setGate_keeps {z : State} {s : State} (g : Nat) (hz : Keeps z s) :
    Keeps z (State.setGate s g) := by
  unfold State.setGate
  try dsimp only
  repeat' first | with_reducible assumption | with_reducible apply State.setHd_keeps

theorem State.commitStop_keeps {z : State} {s : State} (hz : Keeps z s) :
    Keeps z (State.commitStop s) := by
  unfold State.commitStop
  try dsimp only
  repeat' first
    | with_reducible assumption | with_reducible apply State.stopAll_keeps | (simp only [keeps_mk]; refine ⟨?_, ?_, ?_⟩)
    | with_reducible apply Keeps.pending | with_reducible apply Keeps.hbm | with_reducible apply Keeps.sites | split

theorem State.faultStop_keeps {z : State} {s : State} (hz : Keeps z s) :
    Keeps z (State.faultStop s) := by
  unfold State.faultStop
  try dsimp only
  repeat' first
    | with_reducible assumption | with_reducible apply State.commitStop_keeps | with_reducible apply State.stopAll_keeps
    | with_reducible apply State.setGate_keeps | split

theorem State.reportFault_keeps {z : State} {s : State} (cause : Nat) (blame : Nat) (want : Nat) (last : Bool) (hz : Keeps z s) :
    Keeps z (State.reportFault s cause blame want last) := by
  unfold State.reportFault
  try dsimp only
  repeat' first
    | with_reducible assumption | with_reducible apply State.pelSend_keeps | with_reducible apply State.logFault_keeps
    | with_reducible apply State.faultStop_keeps | with_reducible apply State.skipFree_keeps | split

theorem State.haltJob_keeps {z : State} {s : State} (cause : Nat) (hz : Keeps z s) :
    Keeps z (State.haltJob s cause) := by
  unfold State.haltJob
  try dsimp only
  repeat' first
    | with_reducible assumption | with_reducible apply State.notify_keeps | with_reducible apply State.setGate_keeps
    | with_reducible apply State.onLive_keeps | with_reducible apply Site.halt_wf | (simp only [keeps_mk]; refine ⟨?_, ?_, ?_⟩)
    | with_reducible apply Keeps.pending | with_reducible apply Keeps.hbm | with_reducible apply Keeps.sites | split

theorem State.rdma_keeps {z : State} {s : State} (at_ : Nat × Nat × Nat) (off : Nat) (f : Rdma → Out) (hz : Keeps z s) :
    Keeps z (State.rdma s at_ off f) := by
  unfold State.rdma
  try dsimp only
  repeat' first
    | with_reducible assumption | with_reducible apply State.emit_keeps | (simp only [keeps_mk]; refine ⟨?_, ?_, ?_⟩)
    | with_reducible apply Keeps.pending | with_reducible apply Keeps.hbm | with_reducible apply Keeps.sites

theorem State.slotWrite_keeps {z : State} {s : State} (slot : Nat) (off : Nat) (d : Sys2Proof.Bytes) (hz : Keeps z s) :
    Keeps z (State.slotWrite s slot off d) := by
  unfold State.slotWrite
  try dsimp only
  repeat' first | with_reducible assumption | with_reducible apply State.rdma_keeps

theorem State.endRound_keeps {z : State} {s : State} (hz : Keeps z s) :
    Keeps z (State.endRound s) := by
  unfold State.endRound
  try dsimp only
  repeat' first
    | with_reducible assumption | with_reducible apply State.setHd_keeps | with_reducible apply State.setD_keeps
    | with_reducible apply foldl_keeps | (simp only [keeps_mk]; refine ⟨?_, ?_, ?_⟩) | with_reducible apply Keeps.pending
    | with_reducible apply Keeps.hbm | with_reducible apply Keeps.sites | intro _

theorem State.abandonRound_keeps {z : State} {s : State} (hz : Keeps z s) :
    Keeps z (State.abandonRound s) := by
  unfold State.abandonRound
  try dsimp only
  repeat' first
    | with_reducible assumption | with_reducible apply State.endRound_keeps | with_reducible apply State.bumpHd_keeps
    | with_reducible apply State.notify_keeps | with_reducible apply State.slotWrite_keeps | split

theorem State.fence_keeps {z : State} {s : State} (why : Nat) (hz : Keeps z s) :
    Keeps z (State.fence s why) := by
  unfold State.fence
  try dsimp only
  repeat' first
    | with_reducible assumption | with_reducible apply State.setHd_keeps | with_reducible apply State.notify_keeps
    | with_reducible apply State.stopAll_keeps | with_reducible apply State.abandonRound_keeps
    | (simp only [keeps_mk]; refine ⟨?_, ?_, ?_⟩) | with_reducible apply Keeps.pending | with_reducible apply Keeps.hbm
    | with_reducible apply Keeps.sites | split

theorem State.firmwareAction_keeps {z : State} {s : State} (n : Nat) (cause : Nat) (detail : Nat) (lost : Bool) (hz : Keeps z s) :
    Keeps z (State.firmwareAction s n cause detail lost) := by
  unfold State.firmwareAction
  try dsimp only
  repeat' first
    | with_reducible assumption | with_reducible apply State.notify_keeps | with_reducible apply State.haltJob_keeps
    | with_reducible apply State.reportFault_keeps | split

theorem State.takeException_keeps {z : State} {s : State} (n : Nat) (cause : Nat) (detail : Nat) (slots : Nat) (rjct : Nat) (hz : Keeps z s) :
    Keeps z (State.takeException s n cause detail slots rjct) := by
  unfold State.takeException
  try dsimp only
  repeat' first
    | with_reducible assumption | with_reducible apply State.emit_keeps | with_reducible apply State.firmwareAction_keeps
    | with_reducible apply State.onSite_keeps | with_reducible apply Site.except_wf | intro _

theorem State.consumePoison_keeps {z : State} {s : State} (n : Nat) (hz : Keeps z s) :
    Keeps z (State.consumePoison s n) := by
  unfold State.consumePoison
  try dsimp only
  repeat' first
    | with_reducible assumption | with_reducible apply State.emit_keeps | with_reducible apply State.reportFault_keeps
    | with_reducible apply State.onSite_keeps | with_reducible apply Site.count_wf
    | (simp only [Site.memsWf_mk, Bool.and_eq_true]; refine ⟨⟨?_, ?_⟩, ?_⟩) | with_reducible apply Site.store_wf
    | with_reducible apply Site.istore_wf | with_reducible apply Site.recs_wf | split | intro _

theorem State.setTable_keeps {z : State} {s : State} (t : List SpareEntry) (hz : Keeps z s) :
    Keeps z (State.setTable s t) := by
  unfold State.setTable
  try dsimp only
  repeat' first
    | with_reducible assumption | (simp only [keeps_mk]; refine ⟨?_, ?_, ?_⟩) | with_reducible apply Keeps.pending
    | with_reducible apply Keeps.hbm | with_reducible apply Keeps.sites

theorem State.makeLasting_keeps {z : State} {s : State} (kind : Nat) (unit : Nat) (hz : Keeps z s) :
    Keeps z (State.makeLasting s kind unit) := by
  unfold State.makeLasting
  try dsimp only
  repeat' first
    | with_reducible assumption | with_reducible apply State.setTable_keeps | (simp only [keeps_mk]; refine ⟨?_, ?_, ?_⟩)
    | with_reducible apply Keeps.pending | with_reducible apply Keeps.hbm | with_reducible apply Keeps.sites | split

theorem State.againLasting_keeps {z : State} {s : State} (kind : Nat) (unit : Nat) (hz : Keeps z s) :
    Keeps z (State.againLasting s kind unit) := by
  unfold State.againLasting
  try dsimp only
  repeat' first | with_reducible assumption | with_reducible apply State.setTable_keeps

theorem State.unitFault_keeps {z : State} {s : State} (kind : Nat) (unit : Nat) (second : Bool) (hz : Keeps z s) :
    Keeps z (State.unitFault s kind unit second).1 := by
  unfold State.unitFault
  try dsimp only
  repeat' first
    | with_reducible assumption | with_reducible apply State.setTable_keeps | with_reducible apply State.makeLasting_keeps
    | with_reducible apply State.againLasting_keeps | split

theorem State.refit_keeps {z : State} (old : State) {s : State} (hz : Keeps z s) :
    Keeps z (State.refit old s) := by
  unfold State.refit
  try dsimp only
  repeat' first | with_reducible assumption | with_reducible apply State.alert_keeps | split

theorem State.fault24_keeps {z : State} {s : State} (kind : Nat) (unit : Nat) (second : Bool) (hz : Keeps z s) :
    Keeps z (State.fault24 s kind unit second).1 := by
  unfold State.fault24
  try dsimp only
  repeat' first | with_reducible assumption | with_reducible apply State.refit_keeps | with_reducible apply State.unitFault_keeps

theorem State.noteBlame_keeps {z : State} {s : State} (dev : Nat) (hz : Keeps z s) :
    Keeps z (State.noteBlame s dev) := by
  unfold State.noteBlame
  try dsimp only
  repeat' first
    | with_reducible assumption | (simp only [keeps_mk]; refine ⟨?_, ?_, ?_⟩) | with_reducible apply Keeps.pending
    | with_reducible apply Keeps.hbm | with_reducible apply Keeps.sites | split

theorem State.selfLasting_keeps {z : State} {s : State} (hz : Keeps z s) :
    Keeps z (State.selfLasting s) := by
  unfold State.selfLasting
  try dsimp only
  repeat' first
    | with_reducible assumption | with_reducible apply State.haltJob_keeps | with_reducible apply State.reportFault_keeps | split

theorem State.trySlice_keeps {z : State} {s : State} (hz : Keeps z s) :
    Keeps z (State.trySlice s) := by
  unfold State.trySlice
  try dsimp only
  repeat' first
    | with_reducible assumption | with_reducible apply State.setHd_keeps | (simp only [keeps_mk]; refine ⟨?_, ?_, ?_⟩)
    | with_reducible apply Keeps.pending | with_reducible apply Keeps.hbm | with_reducible apply Keeps.sites | split

theorem State.closeVisit_keeps {z : State} {s : State} (hz : Keeps z s) :
    Keeps z (State.closeVisit s) := by
  unfold State.closeVisit
  try dsimp only
  repeat' first
    | with_reducible assumption | with_reducible apply State.trySlice_keeps | (simp only [keeps_mk]; refine ⟨?_, ?_, ?_⟩)
    | with_reducible apply Keeps.pending | with_reducible apply Keeps.hbm | with_reducible apply Keeps.sites | split

theorem State.putRing_keeps {z : State} {s : State} (nd : Nat) (bs : Sys2Proof.Bytes) (hz : Keeps z s) :
    Keeps z (State.putRing s nd bs) := by
  unfold State.putRing
  try dsimp only
  repeat' first
    | with_reducible assumption | with_reducible apply State.countBursts_keeps | with_reducible apply Mem.write_wf
    | (simp only [keeps_mk]; refine ⟨?_, ?_, ?_⟩) | with_reducible apply Keeps.pending | with_reducible apply Keeps.hbm
    | with_reducible apply Keeps.sites | intro _

theorem State.showPan_keeps {z : State} {s : State} (nd : Nat) (hz : Keeps z s) :
    Keeps z (State.showPan s nd) := by
  unfold State.showPan
  try dsimp only
  repeat' first | with_reducible assumption | with_reducible apply State.setD_keeps

theorem State.setKept_keeps {z : State} {s : State} (nd : Nat) (l : List Kept) (hz : Keeps z s) :
    Keeps z (State.setKept s nd l) := by
  unfold State.setKept
  try dsimp only
  repeat' first
    | with_reducible assumption | with_reducible apply State.showPan_keeps | (simp only [keeps_mk]; refine ⟨?_, ?_, ?_⟩)
    | with_reducible apply Keeps.pending | with_reducible apply Keeps.hbm | with_reducible apply Keeps.sites

theorem State.panOverflow_keeps {z : State} {s : State} (nd : Nat) (hz : Keeps z s) :
    Keeps z (State.panOverflow s nd) := by
  unfold State.panOverflow
  try dsimp only
  repeat' first
    | with_reducible assumption | with_reducible apply State.setD_keeps | with_reducible apply State.haltJob_keeps
    | with_reducible apply State.reportFault_keeps | (simp only [keeps_mk]; refine ⟨?_, ?_, ?_⟩) | with_reducible apply Keeps.pending
    | with_reducible apply Keeps.hbm | with_reducible apply Keeps.sites

theorem State.keep_keeps {z : State} {s : State} (k : Nat) (pkt : Sys2Proof.UalPkt) (hz : Keeps z s) :
    Keeps z (State.keep s k pkt) := by
  unfold State.keep
  try dsimp only
  repeat' first
    | with_reducible assumption | with_reducible apply State.panOverflow_keeps | with_reducible apply State.setKept_keeps
    | with_reducible apply State.putRing_keeps | split

theorem State.panBack_keeps {z : State} {s : State} (nd : Nat) (old : BitVec 64 → Bool) (hz : Keeps z s) :
    Keeps z (State.panBack s nd old) := by
  unfold State.panBack
  try dsimp only
  repeat' first
    | with_reducible assumption | (simp only [keeps_mk]; refine ⟨?_, ?_, ?_⟩) | with_reducible apply Keeps.pending
    | with_reducible apply Keeps.hbm | with_reducible apply Keeps.sites

theorem State.panDiscard_keeps {z : State} {s : State} (old : BitVec 64 → Bool) (hz : Keeps z s) :
    Keeps z (State.panDiscard s old) := by
  unfold State.panDiscard
  try dsimp only
  repeat' first
    | with_reducible assumption | with_reducible apply State.panBack_keeps | with_reducible apply State.setKept_keeps
    | with_reducible apply State.bumpD_keeps | with_reducible apply foldl_keeps | split | intro _

theorem State.ualSend_keeps {z : State} {s : State} (cls : Nat) (kind : Nat) (dst : Nat) (strm : BitVec 16) (mb : BitVec 16) (msg : BitVec 32) (woff : BitVec 24) (ws : List Sys2Proof.CodeWord) (hz : Keeps z s) :
    Keeps z (State.ualSend s cls kind dst strm mb msg woff ws) := by
  unfold State.ualSend
  try dsimp only
  repeat' first
    | with_reducible assumption | with_reducible apply State.keep_keeps | with_reducible apply State.egress_keeps
    | with_reducible apply State.number_keeps | (simp only [keeps_mk]; refine ⟨?_, ?_, ?_⟩) | with_reducible apply Keeps.pending
    | with_reducible apply Keeps.hbm | with_reducible apply Keeps.sites | split

theorem State.sendWaiting_keeps {z : State} {s : State} (hz : Keeps z s) :
    Keeps z (State.sendWaiting s) := by
  unfold State.sendWaiting
  try dsimp only
  repeat' first
    | with_reducible assumption | with_reducible apply State.ualSend_keeps | with_reducible apply foldl_keeps
    | (simp only [keeps_mk]; refine ⟨?_, ?_, ?_⟩) | with_reducible apply Keeps.pending | with_reducible apply Keeps.hbm
    | with_reducible apply Keeps.sites | intro _

theorem State.sendAck_keeps {z : State} {s : State} (key : Nat) (hz : Keeps z s) :
    Keeps z (State.sendAck s key) := by
  unfold State.sendAck
  try dsimp only
  repeat' first | with_reducible assumption | with_reducible apply State.setStream_keeps | with_reducible apply State.egress_keeps | split

theorem State.ackStream_keeps {z : State} {s : State} (key : Nat) (ack : Nat) (hz : Keeps z s) :
    Keeps z (State.ackStream s key ack) := by
  unfold State.ackStream
  try dsimp only
  repeat' first
    | with_reducible assumption | with_reducible apply State.bumpD_keeps | with_reducible apply State.sendWaiting_keeps
    | with_reducible apply State.setStream_keeps | (simp only [keeps_mk]; refine ⟨?_, ?_, ?_⟩) | with_reducible apply Keeps.pending
    | with_reducible apply Keeps.hbm | with_reducible apply Keeps.sites | split

theorem State.resend_keeps {z : State} {s : State} (pkt : Sys2Proof.UalPkt) (att : Option (BitVec 8)) (hz : Keeps z s) :
    Keeps z (State.resend s pkt att) := by
  unfold State.resend
  try dsimp only
  repeat' first
    | with_reducible assumption | with_reducible apply State.countD_keeps | with_reducible apply State.egress_keeps
    | with_reducible apply State.bumpD_keeps | split

theorem State.setRate_keeps {z : State} {s : State} (dev : Nat) (v : Nat × Nat) (hz : Keeps z s) :
    Keeps z (State.setRate s dev v) := by
  unfold State.setRate
  try dsimp only
  repeat' first
    | with_reducible assumption | (simp only [keeps_mk]; refine ⟨?_, ?_, ?_⟩) | with_reducible apply Keeps.pending
    | with_reducible apply Keeps.hbm | with_reducible apply Keeps.sites

theorem State.halveRate_keeps {z : State} {s : State} (dev : Nat) (hz : Keeps z s) :
    Keeps z (State.halveRate s dev) := by
  unfold State.halveRate
  try dsimp only
  repeat' first | with_reducible assumption | with_reducible apply State.setRate_keeps

theorem State.takeOver_keeps {z : State} {s : State} (k : Nat) (sp : Nat) (hz : Keeps z s) :
    Keeps z (State.takeOver s k sp) := by
  unfold State.takeOver
  try dsimp only
  repeat' first
    | with_reducible assumption | with_reducible apply State.setPf_keeps | with_reducible apply State.refit_keeps
    | (simp only [keeps_mk]; refine ⟨?_, ?_, ?_⟩) | with_reducible apply Keeps.pending | with_reducible apply Keeps.hbm
    | with_reducible apply Keeps.sites

theorem State.linkLost_keeps {z : State} {s : State} (hz : Keeps z s) :
    Keeps z (State.linkLost s) := by
  unfold State.linkLost
  try dsimp only
  repeat' first
    | with_reducible assumption | with_reducible apply State.haltJob_keeps | with_reducible apply State.reportFault_keeps | split

theorem State.moveTraffic_keeps {z : State} {s : State} (k : Nat) (hz : Keeps z s) :
    Keeps z (State.moveTraffic s k) := by
  unfold State.moveTraffic
  try dsimp only
  repeat' first
    | with_reducible assumption | with_reducible apply State.linkLost_keeps | with_reducible apply State.takeOver_keeps
    | with_reducible apply State.setPortState_keeps | (simp only [keeps_mk]; refine ⟨?_, ?_, ?_⟩) | with_reducible apply Keeps.pending
    | with_reducible apply Keeps.hbm | with_reducible apply Keeps.sites | split

theorem State.retirePort_keeps {z : State} {s : State} (k : Nat) (hz : Keeps z s) :
    Keeps z (State.retirePort s k) := by
  unfold State.retirePort
  try dsimp only
  repeat' first
    | with_reducible assumption | with_reducible apply State.moveTraffic_keeps | with_reducible apply State.setPortState_keeps
    | with_reducible apply State.setPort_keeps | (simp only [keeps_mk]; refine ⟨?_, ?_, ?_⟩) | with_reducible apply Keeps.pending
    | with_reducible apply Keeps.hbm | with_reducible apply Keeps.sites | split

theorem State.wakeStalled_keeps {z : State} {s : State} (n : Nat) (t : Nat) (hz : Keeps z s) :
    Keeps z (State.wakeStalled s n t) := by
  unfold State.wakeStalled
  try dsimp only
  repeat' first | with_reducible assumption | with_reducible apply State.takeException_keeps | split

theorem State.tokenEvent_keeps {z : State} {s : State} (n : Nat) (t : Nat) (err : Bool) (lost : Bool) (hz : Keeps z s) :
    Keeps z (State.tokenEvent s n t err lost) := by
  unfold State.tokenEvent
  try dsimp only
  repeat' first
    | with_reducible assumption | with_reducible apply State.onSite_keeps | with_reducible apply State.wakeStalled_keeps
    | with_reducible apply Site.tokEvent_wf | intro _

theorem State.setPhase_keeps {z : State} {s : State} (p : Nat) (hz : Keeps z s) :
    Keeps z (State.setPhase s p) := by
  unfold State.setPhase
  try dsimp only
  repeat' first
    | with_reducible assumption | with_reducible apply State.onLive_keeps | with_reducible apply Site.set_wf
    | (simp only [keeps_mk]; refine ⟨?_, ?_, ?_⟩) | with_reducible apply Keeps.pending | with_reducible apply Keeps.hbm
    | with_reducible apply Keeps.sites | intro _

theorem State.setMarks_keeps {z : State} {s : State} (role : Nat) (m : Marks) (hz : Keeps z s) :
    Keeps z (State.setMarks s role m) := by
  unfold State.setMarks
  try dsimp only
  repeat' first
    | with_reducible assumption | (simp only [keeps_mk]; refine ⟨?_, ?_, ?_⟩) | with_reducible apply Keeps.pending
    | with_reducible apply Keeps.hbm | with_reducible apply Keeps.sites

theorem State.bwdBegin_keeps {z : State} {s : State} (hz : Keeps z s) :
    Keeps z (State.bwdBegin s) := by
  unfold State.bwdBegin
  try dsimp only
  repeat' first | with_reducible assumption | with_reducible apply State.setPhase_keeps | split

theorem State.setPageSt_keeps {z : State} {s : State} (role : Nat) (p : PageSt) (hz : Keeps z s) :
    Keeps z (State.setPageSt s role p) := by
  unfold State.setPageSt
  try dsimp only
  repeat' first
    | with_reducible assumption | (simp only [keeps_mk]; refine ⟨?_, ?_, ?_⟩) | with_reducible apply Keeps.pending
    | with_reducible apply Keeps.hbm | with_reducible apply Keeps.sites

theorem State.closePages_keeps {z : State} {s : State} (role : Nat) (hz : Keeps z s) :
    Keeps z (State.closePages s role) := by
  unfold State.closePages
  try dsimp only
  repeat' first | with_reducible assumption | with_reducible apply State.setPageSt_keeps

theorem State.recordEntry_keeps {z : State} {s : State} (step : BitVec 64) (e : Sys2Proof.StepEntry) (hz : Keeps z s) :
    Keeps z (State.recordEntry s step e) := by
  unfold State.recordEntry
  try dsimp only
  repeat' first
    | with_reducible assumption | with_reducible apply State.emits_keeps | (simp only [keeps_mk]; refine ⟨?_, ?_, ?_⟩)
    | with_reducible apply Keeps.pending | with_reducible apply Keeps.hbm | with_reducible apply Keeps.sites | split

theorem State.putBlock_keeps {z : State} {s : State} (n : Nat) (off : Nat) (bs : Sys2Proof.Bytes) (hz : Keeps z s) :
    Keeps z (State.putBlock s n off bs) := by
  unfold State.putBlock
  try dsimp only
  repeat' first
    | with_reducible assumption | with_reducible apply State.onSite_keeps | with_reducible apply Mem.write_wf
    | (simp only [Site.memsWf_mk, Bool.and_eq_true]; refine ⟨⟨?_, ?_⟩, ?_⟩) | with_reducible apply Site.store_wf
    | with_reducible apply Site.istore_wf | with_reducible apply Site.recs_wf | split | intro _

theorem State.putBlockHead_keeps {z : State} {s : State} (n : Nat) (hz : Keeps z s) :
    Keeps z (State.putBlockHead s n) := by
  unfold State.putBlockHead
  try dsimp only
  repeat' first | with_reducible assumption | with_reducible apply State.putBlock_keeps

theorem State.putBlockFull_keeps {z : State} {s : State} (n : Nat) (hz : Keeps z s) :
    Keeps z (State.putBlockFull s n) := by
  unfold State.putBlockFull
  try dsimp only
  repeat' first | with_reducible assumption | with_reducible apply State.putBlock_keeps

theorem State.armTimer_keeps {z : State} {s : State} (t : Nat) (hz : Keeps z s) :
    Keeps z (State.armTimer s t) := by
  unfold State.armTimer
  try dsimp only
  repeat' first | with_reducible assumption | with_reducible apply State.setD_keeps

theorem State.openCommit_keeps {z : State} {s : State} (hz : Keeps z s) :
    Keeps z (State.openCommit s) := by
  unfold State.openCommit
  try dsimp only
  repeat' first
    | with_reducible assumption | with_reducible apply State.tokenEvent_keeps | with_reducible apply State.putBlockFull_keeps
    | with_reducible apply State.setGate_keeps | with_reducible apply State.setPhase_keeps | with_reducible apply State.armTimer_keeps
    | with_reducible apply foldl_keeps | intro _

theorem State.catchUpCommit_keeps {z : State} {s : State} (hz : Keeps z s) :
    Keeps z (State.catchUpCommit s) := by
  unfold State.catchUpCommit
  try dsimp only
  repeat' first
    | with_reducible assumption | with_reducible apply State.openCommit_keeps | (simp only [keeps_mk]; refine ⟨?_, ?_, ?_⟩)
    | with_reducible apply Keeps.pending | with_reducible apply Keeps.hbm | with_reducible apply Keeps.sites | split

theorem State.setCheck_keeps {z : State} {s : State} (c : CheckSt) (hz : Keeps z s) :
    Keeps z (State.setCheck s c) := by
  unfold State.setCheck
  try dsimp only
  repeat' first
    | with_reducible assumption | (simp only [keeps_mk]; refine ⟨?_, ?_, ?_⟩) | with_reducible apply Keeps.pending
    | with_reducible apply Keeps.hbm | with_reducible apply Keeps.sites

theorem State.sendCheck_keeps {z : State} {s : State} (rank : Nat) (msg : Nat) (p : CheckPart) (hz : Keeps z s) :
    Keeps z (State.sendCheck s rank msg p) := by
  unfold State.sendCheck
  try dsimp only
  repeat' first | with_reducible assumption | with_reducible apply State.ualSend_keeps | with_reducible apply foldl_keeps | intro _

theorem State.checkResult_keeps {z : State} {s : State} (p : CheckPart) (hz : Keeps z s) :
    Keeps z (State.checkResult s p) := by
  unfold State.checkResult
  try dsimp only
  repeat' first
    | with_reducible assumption | with_reducible apply State.setCheck_keeps | with_reducible apply State.sendCheck_keeps
    | with_reducible apply foldl_keeps | intro _

theorem State.checkCombine_keeps {z : State} {s : State} (hz : Keeps z s) :
    Keeps z (State.checkCombine s) := by
  unfold State.checkCombine
  try dsimp only
  repeat' first
    | with_reducible assumption | with_reducible apply State.checkResult_keeps | with_reducible apply State.setCheck_keeps
    | with_reducible apply State.sendCheck_keeps | split

theorem State.checkIn_keeps {z : State} {s : State} (dev : Nat) (msg : Nat) (ws : List Sys2Proof.CodeWord) (hz : Keeps z s) :
    Keeps z (State.checkIn s dev msg ws) := by
  unfold State.checkIn
  try dsimp only
  repeat' first
    | with_reducible assumption | with_reducible apply State.checkResult_keeps | with_reducible apply State.checkCombine_keeps
    | with_reducible apply State.setCheck_keeps | split

theorem State.checkPart_keeps {z : State} {s : State} (hz : Keeps z s) :
    Keeps z (State.checkPart s) := by
  unfold State.checkPart
  try dsimp only
  repeat' first
    | with_reducible assumption | with_reducible apply State.emit_keeps | with_reducible apply State.checkCombine_keeps
    | with_reducible apply State.setCheck_keeps | split

theorem State.checkOpen_keeps {z : State} {s : State} (hz : Keeps z s) :
    Keeps z (State.checkOpen s) := by
  unfold State.checkOpen
  try dsimp only
  repeat' first
    | with_reducible assumption | with_reducible apply State.checkPart_keeps | with_reducible apply State.setCheck_keeps
    | with_reducible apply State.panDiscard_keeps | with_reducible apply State.setPhase_keeps | with_reducible apply State.setGate_keeps
    | with_reducible apply State.armTimer_keeps | (simp only [keeps_mk]; refine ⟨?_, ?_, ?_⟩) | with_reducible apply Keeps.pending
    | with_reducible apply Keeps.hbm | with_reducible apply Keeps.sites | split

theorem State.checkBegin_keeps {z : State} {s : State} (hz : Keeps z s) :
    Keeps z (State.checkBegin s) := by
  unfold State.checkBegin
  try dsimp only
  repeat' first
    | with_reducible assumption | with_reducible apply State.checkOpen_keeps | with_reducible apply State.catchUpCommit_keeps | split

theorem State.reduceBegin_keeps {z : State} {s : State} (hz : Keeps z s) :
    Keeps z (State.reduceBegin s) := by
  unfold State.reduceBegin
  try dsimp only
  repeat' first
    | with_reducible assumption | with_reducible apply State.setPhase_keeps | with_reducible apply State.armTimer_keeps
    | with_reducible apply State.checkBegin_keeps | split

theorem State.markRole_keeps {z : State} {s : State} (role : Nat) (code : Nat) (hz : Keeps z s) :
    Keeps z (State.markRole s role code) := by
  unfold State.markRole
  try dsimp only
  repeat' first
    | with_reducible assumption | with_reducible apply State.closePages_keeps | with_reducible apply State.reduceBegin_keeps
    | with_reducible apply State.setMarks_keeps | with_reducible apply State.bwdBegin_keeps | split

theorem State.applyDieShadow_keeps {z : State} {s : State} (hz : Keeps z s) :
    Keeps z (State.applyDieShadow s) := by
  unfold State.applyDieShadow
  try dsimp only
  repeat' first
    | with_reducible assumption | with_reducible apply State.setD_keeps | with_reducible apply foldl_keeps
    | (simp only [keeps_mk]; refine ⟨?_, ?_, ?_⟩) | with_reducible apply Keeps.pending | with_reducible apply Keeps.hbm
    | with_reducible apply Keeps.sites | split | intro _

theorem scEffect_keeps {z : State} (pre : Site) (o : ScOp) (f : Sys2Proof.ScF) (n : Nat) {s : State} (hz : Keeps z s) :
    Keeps z (scEffect pre o f n s) := by
  unfold scEffect
  try dsimp only
  repeat' first
    | with_reducible assumption | with_reducible apply State.markRole_keeps | with_reducible apply State.onSite_keeps
    | with_reducible apply Site.setP_wf | with_reducible apply Site.setS_wf | with_reducible apply Site.writeSpecial_wf | split | intro _

theorem brEffect_keeps {z : State} (pre : Site) (o : BrOp) (f : Sys2Proof.BrF) (pc : Nat) (n : Nat) {s : State} (hz : Keeps z s) :
    Keeps z (brEffect pre o f pc n s) := by
  unfold brEffect
  try dsimp only
  repeat' first
    | with_reducible assumption | with_reducible apply State.onSite_keeps | with_reducible apply Site.setS_wf
    | (simp only [Site.memsWf_mk, Bool.and_eq_true]; refine ⟨⟨?_, ?_⟩, ?_⟩) | with_reducible apply Site.store_wf
    | with_reducible apply Site.istore_wf | with_reducible apply Site.recs_wf | split | intro _

theorem arriveEffect_keeps {z : State} (pre : Site) (f : Sys2Proof.BrF) {s : State} (hz : Keeps z s) :
    Keeps z (arriveEffect pre f s) := by
  unfold arriveEffect
  try dsimp only
  repeat' first
    | with_reducible assumption | (simp only [keeps_mk]; refine ⟨?_, ?_, ?_⟩) | with_reducible apply Keeps.pending
    | with_reducible apply Keeps.hbm | with_reducible apply Keeps.sites | split

theorem vecEffect_keeps {z : State} (pre : Site) (o : VecOp) (f : Sys2Proof.VecF) (n : Nat) {s : State} (hz : Keeps z s) :
    Keeps z (vecEffect pre o f n s) := by
  unfold vecEffect
  try dsimp only
  repeat' first
    | with_reducible assumption | with_reducible apply State.onSite_keeps | with_reducible apply Site.setV_wf
    | with_reducible apply Site.setP_wf | with_reducible apply Site.setS_wf | with_reducible apply Site.orVfl_wf | split | intro _

theorem State.portStore_keeps {z : State} {s : State} (n : Nat) (k : Nat) (off : Nat) (v : Sys2Proof.Word) (hz : Keeps z s) :
    Keeps z (State.portStore s n k off v) := by
  unfold State.portStore
  try dsimp only
  repeat' first
    | with_reducible assumption | with_reducible apply State.emit_keeps | with_reducible apply State.onSite_keeps
    | with_reducible apply Site.portStore_wf | split | intro _

theorem lsEffect_keeps {z : State} (pre : Site) (o : LsOp) (f : Sys2Proof.LsF) (n : Nat) {s : State} (hz : Keeps z s) :
    Keeps z (lsEffect pre o f n s) := by
  unfold lsEffect
  try dsimp only
  repeat' first
    | with_reducible assumption | with_reducible apply State.onSite_keeps | with_reducible apply State.portStore_keeps
    | with_reducible apply Site.storeBytes_wf | with_reducible apply Site.loadFrom_wf | with_reducible apply Site.setV_wf
    | with_reducible apply Site.setS_wf | split | intro _

theorem State.dmaWrite_keeps {z : State} {s : State} (n : Nat) (local_ : Bool) (a : Nat) (bs : List (Sys2Proof.Byte × Bool)) (hz : Keeps z s) :
    Keeps z (State.dmaWrite s n local_ a bs) := by
  unfold State.dmaWrite
  try dsimp only
  repeat' first
    | with_reducible assumption | with_reducible apply State.onSite_keeps | with_reducible apply Site.dmaWrite_wf
    | with_reducible apply Mem.store_wf | (simp only [keeps_mk]; refine ⟨?_, ?_, ?_⟩) | with_reducible apply Keeps.pending
    | with_reducible apply Keeps.hbm | with_reducible apply Keeps.sites | split | intro _

theorem State.dmaMove_keeps {z : State} {s : State} (n : Nat) (d : Dma) (hz : Keeps z s) :
    Keeps z (State.dmaMove s n d) := by
  unfold State.dmaMove
  try dsimp only
  repeat' first | with_reducible assumption | with_reducible apply State.dmaWrite_keeps | with_reducible apply foldl_keeps | split | intro _

theorem State.dmaLost_keeps {z : State} {s : State} (n : Nat) (d : Dma) (hz : Keeps z s) :
    Keeps z (State.dmaLost s n d) := by
  unfold State.dmaLost
  try dsimp only
  repeat' first
    | with_reducible assumption | with_reducible apply State.skipFree_keeps | with_reducible apply State.dmaWrite_keeps
    | with_reducible apply foldl_keeps | split | intro _

theorem State.showHbmEvent_keeps {z : State} {s : State} (stack : Nat) (e : HbmEvent) (hz : Keeps z s) :
    Keeps z (State.showHbmEvent s stack e) := by
  unfold State.showHbmEvent
  try dsimp only
  repeat' first | with_reducible assumption | with_reducible apply State.setD_keeps

theorem State.logHbm_keeps {z : State} {s : State} (a : Nat) (typ : Nat) (sym : Nat) (last : Bool) (hz : Keeps z s) :
    Keeps z (State.logHbm s a typ sym last) := by
  unfold State.logHbm
  try dsimp only
  repeat' first
    | with_reducible assumption | with_reducible apply State.showHbmEvent_keeps | (simp only [keeps_mk]; refine ⟨?_, ?_, ?_⟩)
    | with_reducible apply Keeps.pending | with_reducible apply Keeps.hbm | with_reducible apply Keeps.sites | split

theorem State.awaitRecheck_keeps {z : State} {s : State} (a : Nat) (typ : Nat) (hz : Keeps z s) :
    Keeps z (State.awaitRecheck s a typ) := by
  unfold State.awaitRecheck
  try dsimp only
  repeat' first
    | with_reducible assumption | (simp only [keeps_mk]; refine ⟨?_, ?_, ?_⟩) | with_reducible apply Keeps.pending
    | with_reducible apply Keeps.hbm | with_reducible apply Keeps.sites | split

theorem State.listPoison_keeps {z : State} {s : State} (a : Nat) (hz : Keeps z s) :
    Keeps z (State.listPoison s a) := by
  unfold State.listPoison
  try dsimp only
  repeat' first
    | with_reducible assumption | (simp only [keeps_mk]; refine ⟨?_, ?_, ?_⟩) | with_reducible apply Keeps.pending
    | with_reducible apply Keeps.hbm | with_reducible apply Keeps.sites | split

theorem State.readEvent_keeps {z : State} {s : State} (a : Nat) (hz : Keeps z s) :
    Keeps z (State.readEvent s a) := by
  unfold State.readEvent
  try dsimp only
  repeat' first
    | with_reducible assumption | with_reducible apply State.logHbm_keeps | with_reducible apply State.listPoison_keeps
    | with_reducible apply State.bumpD_keeps | with_reducible apply State.countD_keeps | with_reducible apply State.awaitRecheck_keeps
    | (simp only [keeps_mk]; refine ⟨?_, ?_, ?_⟩) | with_reducible apply Keeps.pending | with_reducible apply Keeps.hbm
    | with_reducible apply Keeps.sites | split

theorem State.hbmNote_keeps {z : State} {s : State} (a : Nat) (n : Nat) (hz : Keeps z s) :
    Keeps z (State.hbmNote s a n) := by
  unfold State.hbmNote
  try dsimp only
  repeat' first
    | with_reducible assumption | with_reducible apply State.countBursts_keeps | with_reducible apply State.readEvent_keeps
    | with_reducible apply foldl_keeps

theorem State.notePages_keeps {z : State} {s : State} (ps : List Nat) (hz : Keeps z s) :
    Keeps z (State.notePages s ps) := by
  unfold State.notePages
  try dsimp only
  repeat' first | with_reducible assumption | with_reducible apply State.hbmNote_keeps | with_reducible apply foldl_keeps | intro _

theorem State.blockPoison_keeps {z : State} {s : State} (w : Nat) (hz : Keeps z s) :
    Keeps z (State.blockPoison s w) := by
  unfold State.blockPoison
  try dsimp only
  repeat' first | with_reducible assumption | with_reducible apply State.emit_keeps | with_reducible apply State.reportFault_keeps

theorem State.reserveGone_keeps {z : State} {s : State} (a : Nat) (hz : Keeps z s) :
    Keeps z (State.reserveGone s a) := by
  unfold State.reserveGone
  try dsimp only
  repeat' first
    | with_reducible assumption | with_reducible apply State.setHd_keeps | with_reducible apply State.refit_keeps
    | with_reducible apply Mem.putWord_wf | (simp only [keeps_mk]; refine ⟨?_, ?_, ?_⟩) | with_reducible apply Keeps.pending
    | with_reducible apply Keeps.hbm | with_reducible apply Keeps.sites | with_reducible apply foldl_memWf | split | intro _

theorem State.retirePage_keeps {z : State} {s : State} (stack : Nat) (page : Nat) (hz : Keeps z s) :
    Keeps z (State.retirePage s stack page) := by
  unfold State.retirePage
  try dsimp only
  repeat' first
    | with_reducible assumption | (simp only [keeps_mk]; refine ⟨?_, ?_, ?_⟩) | with_reducible apply Keeps.pending
    | with_reducible apply Keeps.hbm | with_reducible apply Keeps.sites | split

theorem State.retireDone_keeps {z : State} {s : State} (stack : Nat) (hz : Keeps z s) :
    Keeps z (State.retireDone s stack) := by
  unfold State.retireDone
  try dsimp only
  repeat' first
    | with_reducible assumption | with_reducible apply State.alert_keeps | with_reducible apply State.setD_keeps
    | with_reducible apply Mem.putWord_wf | with_reducible apply Mem.heal_wf | (simp only [keeps_mk]; refine ⟨?_, ?_, ?_⟩)
    | with_reducible apply Keeps.pending | with_reducible apply Keeps.hbm | with_reducible apply Keeps.sites
    | with_reducible apply foldl_memWf | split | intro _

theorem State.writeBack_keeps {z : State} {s : State} (a : Nat) (hz : Keeps z s) :
    Keeps z (State.writeBack s a) := by
  unfold State.writeBack
  try dsimp only
  repeat' first
    | with_reducible assumption | with_reducible apply Mem.heal_wf | with_reducible apply Mem.putWord_wf
    | (simp only [keeps_mk]; refine ⟨?_, ?_, ?_⟩) | with_reducible apply Keeps.pending | with_reducible apply Keeps.hbm
    | with_reducible apply Keeps.sites | split | intro _

theorem State.sendChunk_keeps {z : State} {s : State} (c : Coll) (dev : Nat) (k : Nat) (ws : List Sys2Proof.CodeWord) (hz : Keeps z s) :
    Keeps z (State.sendChunk s c dev k ws) := by
  unfold State.sendChunk
  try dsimp only
  repeat' first | with_reducible assumption | with_reducible apply State.ualSend_keeps | with_reducible apply foldl_keeps | intro _

theorem State.collRead_keeps {z : State} {s : State} (c : Coll) (folded : Bool) (hz : Keeps z s) :
    Keeps z (State.collRead s c folded) := by
  unfold State.collRead
  try dsimp only
  repeat' first | with_reducible assumption | with_reducible apply State.hbmNote_keeps | split

theorem State.sendChunks_keeps {z : State} {s : State} (c : Coll) (hz : Keeps z s) :
    Keeps z (State.sendChunks s c) := by
  unfold State.sendChunks
  try dsimp only
  repeat' first
    | with_reducible assumption | with_reducible apply State.collRead_keeps | with_reducible apply State.sendChunk_keeps
    | with_reducible apply foldl_keeps | split | intro _

theorem State.setColl_keeps {z : State} {s : State} (c : Coll) (hz : Keeps z s) :
    Keeps z (State.setColl s c) := by
  unfold State.setColl
  try dsimp only
  repeat' first
    | with_reducible assumption | (simp only [keeps_mk]; refine ⟨?_, ?_, ?_⟩) | with_reducible apply Keeps.pending
    | with_reducible apply Keeps.hbm | with_reducible apply Keeps.sites

theorem State.showInflight_keeps {z : State} {s : State} (hz : Keeps z s) :
    Keeps z (State.showInflight s) := by
  unfold State.showInflight
  try dsimp only
  repeat' first | with_reducible assumption | with_reducible apply State.setD_keeps

theorem State.showBrm_keeps {z : State} {s : State} (e : Nat × Nat × Nat × Nat) (hz : Keeps z s) :
    Keeps z (State.showBrm s e) := by
  unfold State.showBrm
  try dsimp only
  repeat' first | with_reducible assumption | with_reducible apply State.setD_keeps

theorem State.brm_keeps {z : State} {s : State} (e : Nat × Nat × Nat × Nat) (hz : Keeps z s) :
    Keeps z (State.brm s e) := by
  unfold State.brm
  try dsimp only
  repeat' first
    | with_reducible assumption | with_reducible apply State.showBrm_keeps | (simp only [keeps_mk]; refine ⟨?_, ?_, ?_⟩)
    | with_reducible apply Keeps.pending | with_reducible apply Keeps.hbm | with_reducible apply Keeps.sites | split

theorem State.writeFold_keeps {z : State} {s : State} (c : Coll) (me : Nat) (hz : Keeps z s) :
    Keeps z (State.writeFold s c me) := by
  unfold State.writeFold
  try dsimp only
  repeat' first
    | with_reducible assumption | with_reducible apply State.collRead_keeps | with_reducible apply Mem.store_wf
    | (simp only [keeps_mk]; refine ⟨?_, ?_, ?_⟩) | with_reducible apply Keeps.pending | with_reducible apply Keeps.hbm
    | with_reducible apply Keeps.sites | split | intro _

theorem State.feedColl_keeps {z : State} {s : State} (c : Coll) (hz : Keeps z s) :
    Keeps z (State.feedColl s c) := by
  unfold State.feedColl
  try dsimp only
  repeat' first | with_reducible assumption | with_reducible apply State.setColl_keeps | with_reducible apply State.sendChunks_keeps | split

theorem State.feedColls_keeps {z : State} {s : State} (hz : Keeps z s) :
    Keeps z (State.feedColls s) := by
  unfold State.feedColls
  try dsimp only
  repeat' first | with_reducible assumption | with_reducible apply State.feedColl_keeps | with_reducible apply foldl_keeps | split | intro _

theorem State.applyDecision_keeps {z : State} {s : State} (c : Coll) (late : List Nat) (fold : Bool) (hz : Keeps z s) :
    Keeps z (State.applyDecision s c late fold) := by
  unfold State.applyDecision
  try dsimp only
  repeat' first
    | with_reducible assumption | with_reducible apply State.feedColl_keeps | with_reducible apply State.setColl_keeps
    | (simp only [keeps_mk]; refine ⟨?_, ?_, ?_⟩) | with_reducible apply Keeps.pending | with_reducible apply Keeps.hbm
    | with_reducible apply Keeps.sites | split

theorem State.takeDecision_keeps {z : State} {s : State} (gid : Nat) (bucket : Nat) (late : List Nat) (fold : Bool) (hz : Keeps z s) :
    Keeps z (State.takeDecision s gid bucket late fold) := by
  unfold State.takeDecision
  try dsimp only
  repeat' first
    | with_reducible assumption | with_reducible apply State.applyDecision_keeps | with_reducible apply State.recordEntry_keeps
    | (simp only [keeps_mk]; refine ⟨?_, ?_, ?_⟩) | with_reducible apply Keeps.pending | with_reducible apply Keeps.hbm
    | with_reducible apply Keeps.sites | split

theorem State.announce_keeps {z : State} {s : State} (gid : Nat) (bucket : Nat) (late : List Nat) (fold : Bool) (hz : Keeps z s) :
    Keeps z (State.announce s gid bucket late fold) := by
  unfold State.announce
  try dsimp only
  repeat' first
    | with_reducible assumption | with_reducible apply State.takeDecision_keeps | with_reducible apply State.ualSend_keeps
    | with_reducible apply State.brm_keeps | with_reducible apply State.setD_keeps | with_reducible apply State.countD_keeps
    | with_reducible apply foldl_keeps | (simp only [keeps_mk]; refine ⟨?_, ?_, ?_⟩) | with_reducible apply Keeps.pending
    | with_reducible apply Keeps.hbm | with_reducible apply Keeps.sites | split | intro _

theorem State.readyIn_keeps {z : State} {s : State} (gid : Nat) (bucket : Nat) (rank : Nat) (hz : Keeps z s) :
    Keeps z (State.readyIn s gid bucket rank) := by
  unfold State.readyIn
  try dsimp only
  repeat' first
    | with_reducible assumption | with_reducible apply State.brm_keeps | with_reducible apply State.announce_keeps
    | (simp only [keeps_mk]; refine ⟨?_, ?_, ?_⟩) | with_reducible apply Keeps.pending | with_reducible apply Keeps.hbm
    | with_reducible apply Keeps.sites | split

theorem State.sendReady_keeps {z : State} {s : State} (c : Coll) (hz : Keeps z s) :
    Keeps z (State.sendReady s c) := by
  unfold State.sendReady
  try dsimp only
  repeat' first
    | with_reducible assumption | with_reducible apply State.ualSend_keeps | with_reducible apply State.readyIn_keeps
    | with_reducible apply State.setColl_keeps | split

theorem State.sendReadies_keeps {z : State} {s : State} (hz : Keeps z s) :
    Keeps z (State.sendReadies s) := by
  unfold State.sendReadies
  try dsimp only
  repeat' first
    | with_reducible assumption | with_reducible apply State.sendReady_keeps | with_reducible apply foldl_keeps | split | intro _

theorem State.collPost_keeps {z : State} {s : State} (n : Nat) (v : Nat) (hz : Keeps z s) :
    Keeps z (State.collPost s n v) := by
  unfold State.collPost
  try dsimp only
  repeat' first
    | with_reducible assumption | with_reducible apply State.sendReadies_keeps | with_reducible apply State.takeDecision_keeps
    | with_reducible apply State.applyDecision_keeps | with_reducible apply State.showInflight_keeps
    | with_reducible apply State.bumpD_keeps | with_reducible apply State.onSite_keeps | with_reducible apply State.tokenEvent_keeps
    | with_reducible apply Site.count_wf | (simp only [keeps_mk]; refine ⟨?_, ?_, ?_⟩) | with_reducible apply Keeps.pending
    | with_reducible apply Keeps.hbm | with_reducible apply Keeps.sites
    | (simp only [Site.memsWf_mk, Bool.and_eq_true]; refine ⟨⟨?_, ?_⟩, ?_⟩) | with_reducible apply Site.store_wf
    | with_reducible apply Site.istore_wf | with_reducible apply Site.recs_wf | split | intro _

theorem State.ackChunk_keeps {z : State} {s : State} (gid : Nat) (bucket : Nat) (rank : Nat) (chunk : Nat) (hz : Keeps z s) :
    Keeps z (State.ackChunk s gid bucket rank chunk) := by
  unfold State.ackChunk
  try dsimp only
  repeat' first | with_reducible assumption | with_reducible apply State.ualSend_keeps

theorem State.chunkIn_keeps {z : State} {s : State} (gid : Nat) (bucket : Nat) (rank : Nat) (chunk : Nat) (ws : List Sys2Proof.CodeWord) (hz : Keeps z s) :
    Keeps z (State.chunkIn s gid bucket rank chunk ws) := by
  unfold State.chunkIn
  try dsimp only
  repeat' first
    | with_reducible assumption | with_reducible apply State.setColl_keeps | with_reducible apply State.countD_keeps
    | with_reducible apply State.ackChunk_keeps | split

theorem State.showParts_keeps {z : State} {s : State} (hz : Keeps z s) :
    Keeps z (State.showParts s) := by
  unfold State.showParts
  try dsimp only
  repeat' first | with_reducible assumption | with_reducible apply State.setD_keeps

theorem State.collComplete_keeps {z : State} {s : State} (c : Coll) (me : Nat) (late : List Nat) (hz : Keeps z s) :
    Keeps z (State.collComplete s c me late) := by
  unfold State.collComplete
  try dsimp only
  repeat' first
    | with_reducible assumption | with_reducible apply State.tokenEvent_keeps | with_reducible apply State.onSite_keeps
    | with_reducible apply State.showParts_keeps | with_reducible apply State.setD_keeps | with_reducible apply State.showInflight_keeps
    | with_reducible apply State.collRead_keeps | with_reducible apply State.writeFold_keeps | with_reducible apply Site.count_wf
    | with_reducible apply Mem.write_wf | with_reducible apply Mem.store_wf | (simp only [keeps_mk]; refine ⟨?_, ?_, ?_⟩)
    | with_reducible apply Keeps.pending | with_reducible apply Keeps.hbm | with_reducible apply Keeps.sites
    | (simp only [Site.memsWf_mk, Bool.and_eq_true]; refine ⟨⟨?_, ?_⟩, ?_⟩) | with_reducible apply Site.store_wf
    | with_reducible apply Site.istore_wf | with_reducible apply Site.recs_wf | split | intro _

theorem State.blameSelf_keeps {z : State} {s : State} (seen : Bool) (hz : Keeps z s) :
    Keeps z (State.blameSelf s seen) := by
  unfold State.blameSelf
  try dsimp only
  repeat' first
    | with_reducible assumption | with_reducible apply State.selfLasting_keeps | with_reducible apply State.fault24_keeps | split

theorem State.noteDeadline_keeps {z : State} {s : State} (detail : Nat) (b : Nat) (hz : Keeps z s) :
    Keeps z (State.noteDeadline s detail b).1 := by
  unfold State.noteDeadline
  try dsimp only
  repeat' first
    | with_reducible assumption | (simp only [keeps_mk]; refine ⟨?_, ?_, ?_⟩) | with_reducible apply Keeps.pending
    | with_reducible apply Keeps.hbm | with_reducible apply Keeps.sites

theorem State.blameOther_keeps {z : State} {s : State} (b : Nat) (seen : Bool) (hz : Keeps z s) :
    Keeps z (State.blameOther s b seen) := by
  unfold State.blameOther
  try dsimp only
  repeat' first | with_reducible assumption | with_reducible apply State.noteBlame_keeps | with_reducible apply State.haltJob_keeps | split

theorem State.missDeadline_keeps {z : State} {s : State} (detail : Nat) (blame : List Nat) (gid : Nat) (rank : Nat) (bucket : Nat) (hz : Keeps z s) :
    Keeps z (State.missDeadline s detail blame gid rank bucket) := by
  unfold State.missDeadline
  try dsimp only
  repeat' first
    | with_reducible assumption | with_reducible apply State.blameOther_keeps | with_reducible apply State.blameSelf_keeps
    | with_reducible apply State.reportFault_keeps | with_reducible apply State.noteDeadline_keeps
    | with_reducible apply State.bumpD_keeps | with_reducible apply State.brm_keeps | with_reducible apply foldl_keeps | split | intro _

theorem startDma_keeps {z : State} (x : Xfer) (tok : Nat) (n : Nat) (tag : Option Nat) {s : State} (hz : Keeps z s) :
    Keeps z (startDma x tok n tag s) := by
  unfold startDma
  try dsimp only
  repeat' first
    | with_reducible assumption | with_reducible apply State.onSite_keeps
    | (simp only [Site.memsWf_mk, Bool.and_eq_true]; refine ⟨⟨?_, ?_⟩, ?_⟩) | with_reducible apply Site.store_wf
    | with_reducible apply Site.istore_wf | with_reducible apply Site.recs_wf | intro _

theorem opEffect_keeps {z : State} (pre : Site) (o : Op) (x : Nat) (pc : Nat) (n : Nat) (tag : Option Nat) {s : State} (hz : Keeps z s) :
    Keeps z (opEffect pre o x pc n tag s) := by
  unfold opEffect
  try dsimp only
  repeat' first
    | with_reducible assumption | with_reducible apply startDma_keeps | with_reducible apply lsEffect_keeps
    | with_reducible apply State.onSite_keeps | with_reducible apply vecEffect_keeps | with_reducible apply brEffect_keeps
    | with_reducible apply arriveEffect_keeps | with_reducible apply scEffect_keeps | with_reducible apply Site.count_wf
    | with_reducible apply Site.startLoad_wf | with_reducible apply Site.fixedRead_wf | split | intro _

theorem State.notePoison_keeps {z : State} (pre : Site) (ops : List Op) (x : Nat) (n : Nat) {s : State} (hz : Keeps z s) :
    Keeps z (State.notePoison pre ops x n s) := by
  unfold State.notePoison
  try dsimp only
  repeat' first | with_reducible assumption | with_reducible apply State.consumePoison_keeps | split

theorem applyOps_keeps {z : State} (pre : Site) (ops : List Op) (x : Nat) (pc : Nat) (n : Nat) (tag : Option Nat) {s : State} (hz : Keeps z s) :
    Keeps z (applyOps pre ops x pc n tag s) := by
  unfold applyOps
  try dsimp only
  repeat' first
    | with_reducible assumption | with_reducible apply opEffect_keeps | with_reducible apply State.notePoison_keeps
    | with_reducible apply State.onSite_keeps | with_reducible apply Site.scheduleRows_wf | with_reducible apply Site.feedAndPass_wf
    | with_reducible apply foldl_keeps | split | intro _

theorem State.raise_keeps {z : State} {s : State} (n : Nat) (vs : List Viol) (hz : Keeps z s) :
    Keeps z (State.raise s n vs) := by
  unfold State.raise
  try dsimp only
  repeat' first
    | with_reducible assumption | with_reducible apply State.takeException_keeps | with_reducible apply State.onSite_keeps
    | with_reducible apply Site.set_wf | with_reducible apply Site.setArr_wf | with_reducible apply foldl_siteWf | split | intro _

theorem State.tagIssue_keeps {z : State} {s : State} (n : Nat) (pre : Site) (b : Nat) (pc : Nat) (next : Nat) (fed : Bool) (dmas : Nat) (hz : Keeps z s) :
    Keeps z (State.tagIssue s n pre b pc next fed dmas) := by
  unfold State.tagIssue
  try dsimp only
  repeat' first
    | with_reducible assumption | with_reducible apply State.emit_keeps | with_reducible apply State.onSite_keeps
    | with_reducible apply Site.tagReload_wf | with_reducible apply Site.count_wf | with_reducible apply Site.bump_wf
    | with_reducible apply Site.setTagCount_wf | with_reducible apply Site.putRecord_wf
    | (simp only [Site.memsWf_mk, Bool.and_eq_true]; refine ⟨⟨?_, ?_⟩, ?_⟩) | with_reducible apply Site.store_wf
    | with_reducible apply Site.istore_wf | with_reducible apply Site.recs_wf | split | intro _

theorem State.waitLimit_keeps {z : State} {s : State} (n : Nat) (hz : Keeps z s) :
    Keeps z (State.waitLimit s n) := by
  unfold State.waitLimit
  try dsimp only
  repeat' first
    | with_reducible assumption | with_reducible apply State.takeException_keeps | with_reducible apply State.blameSelf_keeps
    | with_reducible apply State.noteDeadline_keeps | split

theorem State.issueBundle_keeps {z : State} {s : State} (n : Nat) (b : Nat) (x : Nat) (pc : Nat) (ops : List Op) (hz : Keeps z s) :
    Keeps z (State.issueBundle s n b x pc ops) := by
  unfold State.issueBundle
  try dsimp only
  repeat' first
    | with_reducible assumption | with_reducible apply State.tagIssue_keeps | with_reducible apply applyOps_keeps
    | with_reducible apply State.onSite_keeps | with_reducible apply Site.set_wf | with_reducible apply Site.count_wf
    | with_reducible apply Site.book_wf | (simp only [Site.memsWf_mk, Bool.and_eq_true]; refine ⟨⟨?_, ?_⟩, ?_⟩)
    | with_reducible apply Site.store_wf | with_reducible apply Site.istore_wf | with_reducible apply Site.recs_wf | split | intro _

theorem State.tryIssue_keeps {z : State} {s : State} (n : Nat) (x : Nat) (hz : Keeps z s) :
    Keeps z (State.tryIssue s n x) := by
  unfold State.tryIssue
  try dsimp only
  repeat' first
    | with_reducible assumption | with_reducible apply State.notePoison_keeps | with_reducible apply State.raise_keeps
    | with_reducible apply State.issueBundle_keeps | with_reducible apply State.takeException_keeps
    | with_reducible apply State.onSite_keeps | with_reducible apply Site.count_wf | with_reducible apply Site.stallCycle_wf
    | with_reducible apply Site.set_wf | with_reducible apply Mem.healRange_wf
    | (simp only [Site.memsWf_mk, Bool.and_eq_true]; refine ⟨⟨?_, ?_⟩, ?_⟩) | with_reducible apply Site.store_wf
    | with_reducible apply Site.istore_wf | with_reducible apply Site.recs_wf | split | intro _

theorem State.coreCycle_keeps {z : State} {s : State} (n : Nat) (hz : Keeps z s) :
    Keeps z (State.coreCycle s n) := by
  unfold State.coreCycle
  try dsimp only
  repeat' first
    | with_reducible assumption | with_reducible apply State.tryIssue_keeps | with_reducible apply State.onSite_keeps
    | with_reducible apply State.waitLimit_keeps | with_reducible apply Site.count_wf | with_reducible apply Site.tick_wf
    | with_reducible apply Site.stallCycle_wf | with_reducible apply Site.set_wf | with_reducible apply Site.settle_wf
    | (simp only [Site.memsWf_mk, Bool.and_eq_true]; refine ⟨⟨?_, ?_⟩, ?_⟩) | with_reducible apply Site.store_wf
    | with_reducible apply Site.istore_wf | with_reducible apply Site.recs_wf | split | intro _

theorem soloBase_keeps {z : State} {pre : Site} (n : Nat) (o : Op) {s : State} (hp : z.memsWf = true → pre.memsWf = true) (hz : Keeps z s) :
    Keeps z (soloBase pre n o s) := by
  unfold soloBase
  split
  all_goals first
    | exact State.setSite_keeps n hp hz
    | exact hz

theorem soloOp_keeps {z : State} (n : Nat) (o : Op) {s : State} (hz : Keeps z s) :
    Keeps z (soloOp n o s) := by
  unfold soloOp
  try dsimp only
  repeat' first
    | with_reducible assumption | with_reducible apply State.notePoison_keeps | with_reducible apply State.raise_keeps
    | with_reducible apply State.onSite_keeps | with_reducible apply soloBase_keeps | with_reducible apply applyOps_keeps
    | with_reducible apply Site.solo_wf | with_reducible apply Site.finishLoads_wf | with_reducible apply Keeps.site | split | intro _

theorem State.dmaEnd_keeps {z : State} {s : State} (n : Nat) (k : Nat) (d : Dma) (err : Bool) (lost : Bool) (hz : Keeps z s) :
    Keeps z (State.dmaEnd s n k d err lost) := by
  unfold State.dmaEnd
  try dsimp only
  repeat' first
    | with_reducible assumption | with_reducible apply State.tokenEvent_keeps | with_reducible apply State.closePages_keeps
    | with_reducible apply State.onSite_keeps | with_reducible apply Site.count_wf | with_reducible apply Site.tagDma_wf
    | (simp only [Site.memsWf_mk, Bool.and_eq_true]; refine ⟨⟨?_, ?_⟩, ?_⟩) | with_reducible apply Site.store_wf
    | with_reducible apply Site.istore_wf | with_reducible apply Site.recs_wf | split | intro _

theorem State.dmaSourceRead_keeps {z : State} {s : State} (n : Nat) (d : Dma) (hz : Keeps z s) :
    Keeps z (State.dmaSourceRead s n d) := by
  unfold State.dmaSourceRead
  try dsimp only
  repeat' first
    | with_reducible assumption | with_reducible apply State.onSite_keeps | with_reducible apply State.hbmNote_keeps
    | with_reducible apply Site.dmaTouch_wf | with_reducible apply foldl_keeps | with_reducible apply foldl_siteWf | intro _

theorem State.doorbell_keeps {z : State} {s : State} (n : Nat) (k : Nat) (d : Dma) (hz : Keeps z s) :
    Keeps z (State.doorbell s n k d) := by
  unfold State.doorbell
  try dsimp only
  repeat' first
    | with_reducible assumption | with_reducible apply State.collPost_keeps | with_reducible apply State.blockPoison_keeps
    | with_reducible apply State.dmaSourceRead_keeps | with_reducible apply State.dmaEnd_keeps | split

theorem State.dmaPerform_keeps {z : State} {s : State} (n : Nat) (k : Nat) (d : Dma) (lost : Bool) (hz : Keeps z s) :
    Keeps z (State.dmaPerform s n k d lost) := by
  unfold State.dmaPerform
  try dsimp only
  repeat' first
    | with_reducible assumption | with_reducible apply State.blockPoison_keeps | with_reducible apply State.dmaEnd_keeps
    | with_reducible apply State.dmaMove_keeps | with_reducible apply State.dmaLost_keeps | with_reducible apply State.countBursts_keeps
    | with_reducible apply State.dmaSourceRead_keeps | with_reducible apply foldl_keeps | split | intro _

theorem State.dmaDone_keeps {z : State} {s : State} (n : Nat) (k : Nat) (lost : Bool) (hz : Keeps z s) :
    Keeps z (State.dmaDone s n k lost) := by
  unfold State.dmaDone
  try dsimp only
  repeat' first
    | with_reducible assumption | with_reducible apply State.dmaPerform_keeps | with_reducible apply State.doorbell_keeps
    | with_reducible apply State.dmaEnd_keeps | split

theorem State.sendSlot_keeps {z : State} {s : State} (dev : Nat) (role : Nat) (ch : Nat) (m : Sys2Proof.SlotMsg) (hz : Keeps z s) :
    Keeps z (State.sendSlot s dev role ch m) := by
  unfold State.sendSlot
  try dsimp only
  repeat' first
    | with_reducible assumption | with_reducible apply State.ualSend_keeps | with_reducible apply State.emit_keeps
    | with_reducible apply foldl_keeps | split | intro _

theorem State.slotSent_keeps {z : State} {s : State} (n : Nat) (k : Nat) (hz : Keeps z s) :
    Keeps z (State.slotSent s n k) := by
  unfold State.slotSent
  try dsimp only
  repeat' first
    | with_reducible assumption | with_reducible apply State.tokenEvent_keeps | with_reducible apply State.onSite_keeps
    | with_reducible apply State.sendSlot_keeps | with_reducible apply Site.setChan_wf | with_reducible apply Site.touchStore_wf | split
    | intro _

theorem State.slotIn_keeps {z : State} {s : State} (n : Nat) (k : Nat) (m : Sys2Proof.SlotMsg) (hz : Keeps z s) :
    Keeps z (State.slotIn s n k m) := by
  unfold State.slotIn
  try dsimp only
  repeat' first
    | with_reducible assumption | with_reducible apply State.tokenEvent_keeps | with_reducible apply State.onSite_keeps
    | with_reducible apply State.reportFault_keeps | with_reducible apply Site.setChan_wf | with_reducible apply Mem.store_wf
    | (simp only [Site.memsWf_mk, Bool.and_eq_true]; refine ⟨⟨?_, ?_⟩, ?_⟩) | with_reducible apply Site.store_wf
    | with_reducible apply Site.istore_wf | with_reducible apply Site.recs_wf | split | intro _

theorem State.nextHbmEvent_keeps {z : State} {s : State} (stack : Nat) (hz : Keeps z s) :
    Keeps z (State.nextHbmEvent s stack) := by
  unfold State.nextHbmEvent
  try dsimp only
  repeat' first
    | with_reducible assumption | with_reducible apply State.showHbmEvent_keeps | (simp only [keeps_mk]; refine ⟨?_, ?_, ?_⟩)
    | with_reducible apply Keeps.pending | with_reducible apply Keeps.hbm | with_reducible apply Keeps.sites | split

theorem State.showAlarm_keeps {z : State} {s : State} (e : Nat × Nat × Nat × Nat) (hz : Keeps z s) :
    Keeps z (State.showAlarm s e) := by
  unfold State.showAlarm
  try dsimp only
  repeat' first | with_reducible assumption | with_reducible apply State.setHd_keeps

theorem State.bringForward_keeps {z : State} {s : State} (w : Nat) (x : Fld) (hz : Keeps z s) :
    Keeps z (State.bringForward s w x) := by
  unfold State.bringForward
  try dsimp only
  repeat' first
    | with_reducible assumption | with_reducible apply State.nextHbmEvent_keeps | with_reducible apply State.showBrm_keeps
    | with_reducible apply State.showAlarm_keeps | with_reducible apply State.showFault_keeps
    | (simp only [keeps_mk]; refine ⟨?_, ?_, ?_⟩) | with_reducible apply Keeps.pending | with_reducible apply Keeps.hbm
    | with_reducible apply Keeps.sites | split

theorem State.writeField_keeps {z : State} {s : State} (w : Nat) (x : Fld) (v : Nat) (hz : Keeps z s) :
    Keeps z (State.writeField s w x v) := by
  unfold State.writeField
  try dsimp only
  repeat' first
    | with_reducible assumption | with_reducible apply State.trySlice_keeps | with_reducible apply State.bringForward_keeps
    | with_reducible apply State.setD_keeps | (simp only [keeps_mk]; refine ⟨?_, ?_, ?_⟩) | with_reducible apply Keeps.pending
    | with_reducible apply Keeps.hbm | with_reducible apply Keeps.sites | split

theorem State.writeReg_keeps {z : State} {s : State} (p : RegPlace) (r : Reg) (v : Nat) (mask : Nat) (hz : Keeps z s) :
    Keeps z (State.writeReg s p r v mask) := by
  unfold State.writeReg
  try dsimp only
  repeat' first
    | with_reducible assumption | with_reducible apply State.writeField_keeps | with_reducible apply State.onSite_keeps
    | with_reducible apply Site.writeReg_wf | with_reducible apply foldl_keeps | (simp only [keeps_mk]; refine ⟨?_, ?_, ?_⟩)
    | with_reducible apply Keeps.pending | with_reducible apply Keeps.hbm | with_reducible apply Keeps.sites | split | intro _

theorem State.recordRejection_keeps {z : State} {s : State} (who : Nat) (code : Nat) (addr : Nat) (hz : Keeps z s) :
    Keeps z (State.recordRejection s who code addr) := by
  unfold State.recordRejection
  try dsimp only
  repeat' first | with_reducible assumption | with_reducible apply State.setHd_keeps

theorem State.writeTable_keeps {z : State} {s : State} (who : Sys2Proof.Writer) (n : Nat) (t : Nat) (w : Nat) (v : Nat) (hz : Keeps z s) :
    Keeps z (State.writeTable s who n t w v).1 := by
  unfold State.writeTable
  try dsimp only
  repeat' first
    | with_reducible assumption | with_reducible apply State.onSite_keeps
    | (simp only [Site.memsWf_mk, Bool.and_eq_true]; refine ⟨⟨?_, ?_⟩, ?_⟩) | with_reducible apply Site.store_wf
    | with_reducible apply Site.istore_wf | with_reducible apply Site.recs_wf | split | intro _

theorem State.regWrite_keeps {z : State} {s : State} (who : Sys2Proof.Writer) (addr : Nat) (v : Nat) (mask : Nat) (hz : Keeps z s) :
    Keeps z (State.regWrite s who addr v mask).1 := by
  unfold State.regWrite
  try dsimp only
  repeat' first
    | with_reducible assumption | with_reducible apply State.writeTable_keeps | with_reducible apply State.recordRejection_keeps
    | with_reducible apply State.writeReg_keeps | split

theorem State.programWrite_keeps {z : State} {s : State} (addr : Nat) (mask : Nat) (hz : Keeps z s) :
    Keeps z (State.programWrite s addr mask) := by
  unfold State.programWrite
  try dsimp only
  repeat' first | with_reducible assumption | with_reducible apply State.takeException_keeps | split

theorem State.ckOrderAll_keeps {z : State} {s : State} (typ : Nat) (status : Nat) (slot : Nat) (step : Nat) (ckseq : Nat) (hz : Keeps z s) :
    Keeps z (State.ckOrderAll s typ status slot step ckseq) := by
  unfold State.ckOrderAll
  try dsimp only
  repeat' first | with_reducible assumption | with_reducible apply State.mgtSend_keeps | with_reducible apply foldl_keeps | intro _

theorem State.ckAnswer_keeps {z : State} {s : State} (typ : Nat) (status : Nat) (slot : Nat) (step : Nat) (ckseq : Nat) (step0 : Nat) (step1 : Nat) (hz : Keeps z s) :
    Keeps z (State.ckAnswer s typ status slot step ckseq step0 step1) := by
  unfold State.ckAnswer
  try dsimp only
  repeat' first | with_reducible assumption | with_reducible apply State.mgtSend_keeps

theorem State.orderRound_keeps {z : State} {s : State} (b : Nat) (hz : Keeps z s) :
    Keeps z (State.orderRound s b) := by
  unfold State.orderRound
  try dsimp only
  repeat' first
    | with_reducible assumption | with_reducible apply State.ckOrderAll_keeps | (simp only [keeps_mk]; refine ⟨?_, ?_, ?_⟩)
    | with_reducible apply Keeps.pending | with_reducible apply Keeps.hbm | with_reducible apply Keeps.sites

theorem State.ckTrigger_keeps {z : State} {s : State} (hz : Keeps z s) :
    Keeps z (State.ckTrigger s) := by
  unfold State.ckTrigger
  try dsimp only
  repeat' first | with_reducible assumption | with_reducible apply State.orderRound_keeps | split

theorem State.leadAbandon_keeps {z : State} {s : State} (hz : Keeps z s) :
    Keeps z (State.leadAbandon s) := by
  unfold State.leadAbandon
  try dsimp only
  repeat' first
    | with_reducible assumption | with_reducible apply State.ckOrderAll_keeps | (simp only [keeps_mk]; refine ⟨?_, ?_, ?_⟩)
    | with_reducible apply Keeps.pending | with_reducible apply Keeps.hbm | with_reducible apply Keeps.sites | split

theorem State.setRound_keeps {z : State} {s : State} (r : Round) (hz : Keeps z s) :
    Keeps z (State.setRound s r) := by
  unfold State.setRound
  try dsimp only
  repeat' first
    | with_reducible assumption | (simp only [keeps_mk]; refine ⟨?_, ?_, ?_⟩) | with_reducible apply Keeps.pending
    | with_reducible apply Keeps.hbm | with_reducible apply Keeps.sites

theorem State.showRound_keeps {z : State} {s : State} (r : Round) (hz : Keeps z s) :
    Keeps z (State.showRound s r) := by
  unfold State.showRound
  try dsimp only
  repeat' first | with_reducible assumption | with_reducible apply State.setD_keeps | with_reducible apply foldl_keeps | intro _

theorem State.ckArm_keeps {z : State} {s : State} (hz : Keeps z s) :
    Keeps z (State.ckArm s) := by
  unfold State.ckArm
  try dsimp only
  repeat' first
    | with_reducible assumption | with_reducible apply State.showRound_keeps | with_reducible apply State.slotWrite_keeps
    | with_reducible apply State.setD_keeps | with_reducible apply State.setRound_keeps | with_reducible apply State.setHd_keeps
    | with_reducible apply foldl_keeps | split | intro _

theorem State.ckFail_keeps {z : State} {s : State} (hz : Keeps z s) :
    Keeps z (State.ckFail s) := by
  unfold State.ckFail
  try dsimp only
  repeat' first
    | with_reducible assumption | with_reducible apply State.ckAnswer_keeps | with_reducible apply State.abandonRound_keeps | split

theorem State.pageSpoiled_keeps {z : State} {s : State} (p : Nat) (hz : Keeps z s) :
    Keeps z (State.pageSpoiled s p) := by
  unfold State.pageSpoiled
  try dsimp only
  repeat' first
    | with_reducible assumption | (simp only [keeps_mk]; refine ⟨?_, ?_, ?_⟩) | with_reducible apply Keeps.pending
    | with_reducible apply Keeps.hbm | with_reducible apply Keeps.sites

theorem State.ckWritten_keeps {z : State} {s : State} (r : Round) (p : Nat) (hz : Keeps z s) :
    Keeps z (State.ckWritten s r p) := by
  unfold State.ckWritten
  try dsimp only
  repeat' first
    | with_reducible assumption | with_reducible apply State.ckAnswer_keeps | with_reducible apply State.bumpHd_keeps
    | with_reducible apply State.setHd_keeps | with_reducible apply State.setRound_keeps | with_reducible apply State.showRound_keeps
    | with_reducible apply State.slotWrite_keeps | with_reducible apply State.hbmNote_keeps | with_reducible apply State.pageSpoiled_keeps
    | with_reducible apply State.ckFail_keeps | split

theorem State.unaccept_keeps {z : State} {s : State} (k : Nat) (hz : Keeps z s) :
    Keeps z (State.unaccept s k) := by
  unfold State.unaccept
  try dsimp only
  repeat' first | with_reducible assumption | with_reducible apply State.setPort_keeps

theorem State.badNeighbour_keeps {z : State} {s : State} (k : Nat) (st : Nat) (fr : BitVec 512) (hz : Keeps z s) :
    Keeps z (State.badNeighbour s k st fr) := by
  unfold State.badNeighbour
  try dsimp only
  repeat' first
    | with_reducible assumption | with_reducible apply State.unaccept_keeps | with_reducible apply State.setPortState_keeps
    | with_reducible apply State.alertWith_keeps | split

theorem State.acceptNeighbour_keeps {z : State} {s : State} (k : Nat) (fr : BitVec 512) (hz : Keeps z s) :
    Keeps z (State.acceptNeighbour s k fr) := by
  unfold State.acceptNeighbour
  try dsimp only
  repeat' first
    | with_reducible assumption | with_reducible apply State.setPortState_keeps | with_reducible apply State.setPort_keeps
    | with_reducible apply State.setPf_keeps

theorem State.identityIn_keeps {z : State} {s : State} (k : Nat) (fr : BitVec 512) (hz : Keeps z s) :
    Keeps z (State.identityIn s k fr) := by
  unfold State.identityIn
  try dsimp only
  repeat' first
    | with_reducible assumption | with_reducible apply State.frameOut_keeps | with_reducible apply State.acceptNeighbour_keeps
    | with_reducible apply State.badNeighbour_keeps | with_reducible apply State.unaccept_keeps
    | with_reducible apply State.setPortState_keeps | with_reducible apply State.setPort_keeps | with_reducible apply State.bumpPerr_keeps
    | split

theorem State.askSync_keeps {z : State} {s : State} (hz : Keeps z s) :
    Keeps z (State.askSync s) := by
  unfold State.askSync
  try dsimp only
  repeat' first | with_reducible assumption | with_reducible apply State.pelSend_keeps

theorem State.checkMsg_keeps {z : State} {s : State} (pkt : Sys2Proof.UalPkt) (hz : Keeps z s) :
    Keeps z (State.checkMsg s pkt) := by
  unfold State.checkMsg
  try dsimp only
  repeat' first | with_reducible assumption | with_reducible apply State.checkIn_keeps | split

theorem State.inStream_keeps {z : State} {s : State} (k : Nat) (pkt : Sys2Proof.UalPkt) (hz : Keeps z s) :
    Keeps z (State.inStream s k pkt) := by
  unfold State.inStream
  try dsimp only
  repeat' first
    | with_reducible assumption | with_reducible apply State.checkMsg_keeps | with_reducible apply State.bumpD_keeps
    | with_reducible apply State.sendAck_keeps | with_reducible apply State.setStream_keeps | with_reducible apply State.halveRate_keeps
    | with_reducible apply State.ackStream_keeps | with_reducible apply foldl_keeps | split

theorem State.pfcSend_keeps {z : State} {s : State} (k : Nat) (cls : Nat) (used : Nat) (hz : Keeps z s) :
    Keeps z (State.pfcSend s k cls used) := by
  unfold State.pfcSend
  try dsimp only
  repeat' first
    | with_reducible assumption | with_reducible apply State.frameOut_keeps | (simp only [keeps_mk]; refine ⟨?_, ?_, ?_⟩)
    | with_reducible apply Keeps.pending | with_reducible apply Keeps.hbm | with_reducible apply Keeps.sites | split

theorem State.pfcResume_keeps {z : State} {s : State} (hz : Keeps z s) :
    Keeps z (State.pfcResume s) := by
  unfold State.pfcResume
  try dsimp only
  repeat' first
    | with_reducible assumption | with_reducible apply State.frameOut_keeps | with_reducible apply foldl_keeps
    | (simp only [keeps_mk]; refine ⟨?_, ?_, ?_⟩) | with_reducible apply Keeps.pending | with_reducible apply Keeps.hbm
    | with_reducible apply Keeps.sites | intro _

theorem State.packetIn_keeps {z : State} {s : State} (k : Nat) (pkt : Sys2Proof.UalPkt) (hz : Keeps z s) :
    Keeps z (State.packetIn s k pkt) := by
  have hb : ∀ w x n, Keeps z (s.bumpD w x n) := fun _ _ _ => State.bumpD_keeps _ _ _ hz
  have hr : ∀ o : Option Nat, Keeps z (match o with | some q => s.egress q { pkt with frame := { pkt.frame with tags := 0 } } | none => s.bumpD (ndWin (keyDie k)) UAL_DROP_FOREIGN 1) :=
    fun o => match o with | some _ => State.egress_keeps _ _ hz | none => hb _ _ _
  have hh : ∀ l u, Keeps z (({ s with net := { s.net with hold := l } } : State).pfcSend k pkt.h.cls.toNat u) := fun _ _ =>
    State.pfcSend_keeps _ _ _ (by simp only [keeps_mk]; exact ⟨hz.pending, hz.hbm, hz.sites⟩)
  unfold State.packetIn
  extract_lets h w cur step pel used
  repeat' with_reducible apply keeps_ite
  all_goals first
    | with_reducible exact hz
    | with_reducible exact hb _ _ _
    | with_reducible exact State.askSync_keeps (hb _ _ _)
    | exact hr _
    | exact hh _ _
    | with_reducible exact State.inStream_keeps _ _ hz

theorem State.streamsAtEntry_keeps {z : State} {s : State} (hz : Keeps z s) :
    Keeps z (State.streamsAtEntry s) := by
  unfold State.streamsAtEntry
  try dsimp only
  repeat' first
    | with_reducible assumption | with_reducible apply State.packetIn_keeps | with_reducible apply State.pfcResume_keeps
    | with_reducible apply foldl_keeps | (simp only [keeps_mk]; refine ⟨?_, ?_, ?_⟩) | with_reducible apply Keeps.pending
    | with_reducible apply Keeps.hbm | with_reducible apply Keeps.sites | intro _

theorem State.rtoExpiry_keeps {z : State} {s : State} (key : Nat) (hz : Keeps z s) :
    Keeps z (State.rtoExpiry s key) := by
  unfold State.rtoExpiry
  try dsimp only
  repeat' first
    | with_reducible assumption | with_reducible apply State.resend_keeps | with_reducible apply State.setStream_keeps
    | with_reducible apply State.linkLost_keeps | with_reducible apply foldl_keeps | split | intro _

theorem State.llrTake_keeps {z : State} {s : State} (p : Sys2Proof.PortId) (x : PortSt) (hz : Keeps z s) :
    Keeps z (State.llrTake s p x) := by
  unfold State.llrTake
  try dsimp only
  repeat' first | with_reducible assumption | with_reducible apply State.emit_keeps | with_reducible apply State.setPort_keeps | split

theorem State.replayFrames_keeps {z : State} {s : State} (k : Nat) (hz : Keeps z s) :
    Keeps z (State.replayFrames s k) := by
  unfold State.replayFrames
  try dsimp only
  repeat' first | with_reducible assumption | with_reducible apply State.emits_keeps

theorem State.noteFail_keeps {z : State} {s : State} (unit : Nat) (hz : Keeps z s) :
    Keeps z (State.noteFail s unit) := by
  unfold State.noteFail
  try dsimp only
  repeat' first
    | with_reducible assumption | (simp only [keeps_mk]; refine ⟨?_, ?_, ?_⟩) | with_reducible apply Keeps.pending
    | with_reducible apply Keeps.hbm | with_reducible apply Keeps.sites

theorem State.portFails_keeps {z : State} {s : State} (k : Nat) (unit : Nat) (cause : Nat) (hz : Keeps z s) :
    Keeps z (State.portFails s k unit cause) := by
  unfold State.portFails
  try dsimp only
  repeat' first
    | with_reducible assumption | with_reducible apply State.setPort_keeps | with_reducible apply State.setPortState_keeps
    | with_reducible apply State.bumpPerr_keeps | with_reducible apply State.retirePort_keeps | with_reducible apply State.setPf_keeps
    | with_reducible apply State.noteFail_keeps | with_reducible apply State.fault24_keeps | split

theorem State.moveRole_keeps {z : State} {s : State} (n : Nat) (f : Nat) (hz : Keeps z s) :
    Keeps z (State.moveRole s n f) := by
  unfold State.moveRole
  try dsimp only
  repeat' first
    | with_reducible assumption | with_reducible apply State.setSite_keeps | with_reducible apply State.setRepairs_wf
    | with_reducible apply Site.moved_wf | with_reducible apply Site.vacated_wf | (simp only [keeps_mk]; refine ⟨?_, ?_, ?_⟩)
    | with_reducible apply Keeps.pending | with_reducible apply Keeps.hbm | with_reducible apply Keeps.sites
    | with_reducible apply Keeps.site | split | intro _

theorem State.tryMove_keeps {z : State} {s : State} (n : Nat) (hz : Keeps z s) :
    Keeps z (State.tryMove s n).1 := by
  unfold State.tryMove
  try dsimp only
  repeat' first | with_reducible assumption | with_reducible apply State.bumpHd_keeps | with_reducible apply State.moveRole_keeps | split

theorem State.gearValues_keeps {z : State} {s : State} (n : Nat) (role : Nat) (o : Nat) (hz : Keeps z s) :
    Keeps z (State.gearValues s n role o) := by
  unfold State.gearValues
  try dsimp only
  repeat' first
    | with_reducible assumption | with_reducible apply State.recordEntry_keeps | with_reducible apply State.onSite_keeps
    | with_reducible apply Site.takeValue_wf | with_reducible apply foldl_keeps | (simp only [keeps_mk]; refine ⟨?_, ?_, ?_⟩)
    | with_reducible apply Keeps.pending | with_reducible apply Keeps.hbm | with_reducible apply Keeps.sites
    | (simp only [Site.memsWf_mk, Bool.and_eq_true]; refine ⟨⟨?_, ?_⟩, ?_⟩) | with_reducible apply Site.store_wf
    | with_reducible apply Site.istore_wf | with_reducible apply Site.recs_wf | with_reducible apply foldl_siteWf | split | intro _

theorem State.ungear_keeps {z : State} {s : State} (hz : Keeps z s) :
    Keeps z (State.ungear s) := by
  unfold State.ungear
  try dsimp only
  repeat' first
    | with_reducible assumption | with_reducible apply State.onSite_keeps | with_reducible apply Site.takeValue_wf
    | with_reducible apply foldl_keeps | (simp only [keeps_mk]; refine ⟨?_, ?_, ?_⟩) | with_reducible apply Keeps.pending
    | with_reducible apply Keeps.hbm | with_reducible apply Keeps.sites | split | intro _

theorem State.powerSelect_keeps {z : State} {s : State} (hz : Keeps z s) :
    Keeps z (State.powerSelect s) := by
  unfold State.powerSelect
  try dsimp only
  repeat' first | with_reducible assumption | with_reducible apply State.setHd_keeps | split

theorem State.ctlMove_keeps {z : State} {s : State} (hz : Keeps z s) :
    Keeps z (State.ctlMove s) := by
  unfold State.ctlMove
  try dsimp only
  repeat' first
    | with_reducible assumption | (simp only [keeps_mk]; refine ⟨?_, ?_, ?_⟩) | with_reducible apply Keeps.pending
    | with_reducible apply Keeps.hbm | with_reducible apply Keeps.sites | split

theorem State.moduleGear_keeps {z : State} {s : State} (hz : Keeps z s) :
    Keeps z (State.moduleGear s) := by
  unfold State.moduleGear
  try dsimp only
  repeat' first
    | with_reducible assumption | with_reducible apply State.powerSelect_keeps | with_reducible apply State.ckArm_keeps
    | with_reducible apply State.ctlMove_keeps | with_reducible apply State.setHd_keeps | with_reducible apply State.onLive_keeps
    | with_reducible apply State.applyDieShadow_keeps | with_reducible apply Site.applyShadow_wf

theorem State.boundaryMoves_keeps {z : State} {s : State} (hz : Keeps z s) :
    Keeps z (State.boundaryMoves s) := by
  unfold State.boundaryMoves
  try dsimp only
  repeat' first
    | with_reducible assumption | with_reducible apply State.bumpHd_keeps | with_reducible apply State.tryMove_keeps
    | with_reducible apply State.closeVisit_keeps | with_reducible apply foldl_keeps | (simp only [keeps_mk]; refine ⟨?_, ?_, ?_⟩)
    | with_reducible apply Keeps.pending | with_reducible apply Keeps.hbm | with_reducible apply Keeps.sites | split | intro _

theorem State.sendHalt_keeps {z : State} {s : State} (cause : Nat) (hz : Keeps z s) :
    Keeps z (State.sendHalt s cause) := by
  unfold State.sendHalt
  try dsimp only
  repeat' first | with_reducible assumption | with_reducible apply State.pelSend_keeps

theorem State.sendPropose_keeps {z : State} {s : State} (p : Proposal) (hz : Keeps z s) :
    Keeps z (State.sendPropose s p) := by
  unfold State.sendPropose
  try dsimp only
  repeat' first
    | with_reducible assumption | with_reducible apply State.pelSend_keeps | (simp only [keeps_mk]; refine ⟨?_, ?_, ?_⟩)
    | with_reducible apply Keeps.pending | with_reducible apply Keeps.hbm | with_reducible apply Keeps.sites

theorem State.propose_keeps {z : State} {s : State} (subj : Nat) (cause : Nat) (hz : Keeps z s) :
    Keeps z (State.propose s subj cause) := by
  unfold State.propose
  try dsimp only
  repeat' first
    | with_reducible assumption | with_reducible apply State.sendPropose_keeps | with_reducible apply State.reportFault_keeps
    | with_reducible apply State.sendHalt_keeps | (simp only [keeps_mk]; refine ⟨?_, ?_, ?_⟩) | with_reducible apply Keeps.pending
    | with_reducible apply Keeps.hbm | with_reducible apply Keeps.sites | split

theorem State.dropFolds_keeps {z : State} {s : State} (hz : Keeps z s) :
    Keeps z (State.dropFolds s) := by
  unfold State.dropFolds
  try dsimp only
  repeat' first
    | with_reducible assumption | with_reducible apply State.brm_keeps | with_reducible apply foldl_keeps
    | (simp only [keeps_mk]; refine ⟨?_, ?_, ?_⟩) | with_reducible apply Keeps.pending | with_reducible apply Keeps.hbm
    | with_reducible apply Keeps.sites | intro _

theorem State.freshEngines_keeps {z : State} {s : State} (hz : Keeps z s) :
    Keeps z (State.freshEngines s) := by
  unfold State.freshEngines
  try dsimp only
  repeat' first
    | with_reducible assumption | with_reducible apply State.showParts_keeps | with_reducible apply State.showInflight_keeps
    | with_reducible apply State.setD_keeps | with_reducible apply State.streamsAtEntry_keeps | with_reducible apply State.onLive_keeps
    | (simp only [keeps_mk]; refine ⟨?_, ?_, ?_⟩) | with_reducible apply Keeps.pending | with_reducible apply Keeps.hbm
    | with_reducible apply Keeps.sites | (simp only [Site.memsWf_mk, Bool.and_eq_true]; refine ⟨⟨?_, ?_⟩, ?_⟩)
    | with_reducible apply Site.store_wf | with_reducible apply Site.istore_wf | with_reducible apply Site.recs_wf | intro _

theorem State.dueAll_keeps {z : State} {s : State} (step : BitVec 64) (replay : Bool) (hz : Keeps z s) :
    Keeps z (State.dueAll s step replay) := by
  unfold State.dueAll
  try dsimp only
  repeat' first
    | with_reducible assumption | (simp only [keeps_mk]; refine ⟨?_, ?_, ?_⟩) | with_reducible apply Keeps.pending
    | with_reducible apply Keeps.hbm | with_reducible apply Keeps.sites

theorem State.enterRun_keeps {z : State} {s : State} (hz : Keeps z s) :
    Keeps z (State.enterRun s) := by
  unfold State.enterRun
  try dsimp only
  repeat' first
    | with_reducible assumption | with_reducible apply State.setGate_keeps | with_reducible apply State.setPhase_keeps
    | with_reducible apply State.armTimer_keeps | with_reducible apply State.trySlice_keeps

theorem State.haltOverrun_keeps {z : State} {s : State} (n : Nat) (hz : Keeps z s) :
    Keeps z (State.haltOverrun s n) := by
  unfold State.haltOverrun
  try dsimp only
  repeat' first
    | with_reducible assumption | with_reducible apply State.notify_keeps | with_reducible apply State.haltJob_keeps
    | with_reducible apply State.reportFault_keeps

theorem State.openStepNow_keeps {z : State} {s : State} (step : BitVec 64) (hz : Keeps z s) :
    Keeps z (State.openStepNow s step) := by
  unfold State.openStepNow
  try dsimp only
  repeat' first
    | with_reducible assumption | with_reducible apply State.boundaryMoves_keeps | with_reducible apply State.moduleGear_keeps
    | with_reducible apply State.enterRun_keeps | with_reducible apply State.setHd_keeps | with_reducible apply State.freshEngines_keeps
    | with_reducible apply State.dropFolds_keeps | with_reducible apply State.dueAll_keeps | (simp only [keeps_mk]; refine ⟨?_, ?_, ?_⟩)
    | with_reducible apply Keeps.pending | with_reducible apply Keeps.hbm | with_reducible apply Keeps.sites

theorem State.openStep_keeps {z : State} {s : State} (step : BitVec 64) (hz : Keeps z s) :
    Keeps z (State.openStep s step) := by
  unfold State.openStep
  try dsimp only
  repeat' first
    | with_reducible assumption | with_reducible apply State.openStepNow_keeps | with_reducible apply State.haltOverrun_keeps | split

theorem State.dropUnacked_keeps {z : State} {s : State} (hz : Keeps z s) :
    Keeps z (State.dropUnacked s) := by
  unfold State.dropUnacked
  try dsimp only
  repeat' first
    | with_reducible assumption | (simp only [keeps_mk]; refine ⟨?_, ?_, ?_⟩) | with_reducible apply Keeps.pending
    | with_reducible apply Keeps.hbm | with_reducible apply Keeps.sites

theorem State.rewind_keeps {z : State} {s : State} (hz : Keeps z s) :
    Keeps z (State.rewind s) := by
  unfold State.rewind
  try dsimp only
  repeat' first
    | with_reducible assumption | with_reducible apply State.dueAll_keeps | with_reducible apply State.freshEngines_keeps
    | with_reducible apply State.setGate_keeps | with_reducible apply State.stopAll_keeps | with_reducible apply State.dropUnacked_keeps
    | with_reducible apply State.ungear_keeps | with_reducible apply State.panDiscard_keeps | with_reducible apply State.commitStop_keeps
    | (simp only [keeps_mk]; refine ⟨?_, ?_, ?_⟩) | with_reducible apply Keeps.pending | with_reducible apply Keeps.hbm
    | with_reducible apply Keeps.sites | split

theorem State.answer_keeps {z : State} {s : State} (h : Sys2Proof.HostHdr) (status : Nat) (code : Nat) (arg0 : BitVec 64) (payload : Sys2Proof.Bytes) (hz : Keeps z s) :
    Keeps z (State.answer s h status code arg0 payload) := by
  unfold State.answer
  try dsimp only
  repeat' first | with_reducible assumption | with_reducible apply State.emit_keeps

theorem State.answerFree_keeps {z : State} {s : State} (h : Sys2Proof.HostHdr) (hz : Keeps z s) :
    Keeps z (State.answerFree s h) := by
  unfold State.answerFree
  try dsimp only
  repeat' first | with_reducible assumption | with_reducible apply State.answer_keeps | with_reducible apply State.skipFree_keeps

theorem State.mgtDiscard_keeps {z : State} {s : State} (v : Sys2Proof.Via) (hz : Keeps z s) :
    Keeps z (State.mgtDiscard s v) := by
  unfold State.mgtDiscard
  try dsimp only
  repeat' first | with_reducible assumption | with_reducible apply State.bumpHd_keeps | split

theorem State.request_keeps {z : State} {s : State} (h : Sys2Proof.HostHdr) (typ : Nat) (mgt : Bool) (recov : Bool) (f : State → State) (hz : Keeps z s) (hk : ∀ s, Keeps z s → Keeps z (f s)) :
    Keeps z (State.request s h typ mgt recov f) := by
  unfold State.request
  try dsimp only
  repeat' first
    | with_reducible assumption | with_reducible apply State.bumpHd_keeps | with_reducible apply State.answer_keeps
    | with_reducible apply State.mgtDiscard_keeps | with_reducible apply hk | split

theorem State.holdRequest_keeps {z : State} {s : State} (hz : Keeps z s) :
    Keeps z (State.holdRequest s) := by
  unfold State.holdRequest
  try dsimp only
  repeat' first
    | with_reducible assumption | (simp only [keeps_mk]; refine ⟨?_, ?_, ?_⟩) | with_reducible apply Keeps.pending
    | with_reducible apply Keeps.hbm | with_reducible apply Keeps.sites

theorem State.answerHeld_keeps {z : State} {s : State} (via : Sys2Proof.Via) (typ : BitVec 8) (tag : BitVec 16) (status : Nat) (code : Nat) (payload : Sys2Proof.Bytes) (hz : Keeps z s) :
    Keeps z (State.answerHeld s via typ tag status code payload) := by
  unfold State.answerHeld
  try dsimp only
  repeat' first
    | with_reducible assumption | with_reducible apply State.emit_keeps | (simp only [keeps_mk]; refine ⟨?_, ?_, ?_⟩)
    | with_reducible apply Keeps.pending | with_reducible apply Keeps.hbm | with_reducible apply Keeps.sites

theorem State.replayFlits_keeps {z : State} {s : State} (hz : Keeps z s) :
    Keeps z (State.replayFlits s) := by
  unfold State.replayFlits
  try dsimp only
  repeat' first | with_reducible assumption | with_reducible apply State.emits_keeps | split

theorem State.sendFlits_keeps {z : State} {s : State} (hz : Keeps z s) :
    Keeps z (State.sendFlits s) := by
  unfold State.sendFlits
  try dsimp only
  repeat' first
    | with_reducible assumption | with_reducible apply State.emits_keeps | (simp only [keeps_mk]; refine ⟨?_, ?_, ?_⟩)
    | with_reducible apply Keeps.pending | with_reducible apply Keeps.hbm | with_reducible apply Keeps.sites | split

theorem State.meterClose_keeps {z : State} {s : State} (step1 : BitVec 64) (e1 : Nat) (t1 : Nat) (interrupted : Bool) (late : Bool) (hz : Keeps z s) :
    Keeps z (State.meterClose s step1 e1 t1 interrupted late) := by
  unfold State.meterClose
  try dsimp only
  repeat' first
    | with_reducible assumption | with_reducible apply State.skipFree_keeps | (simp only [keeps_mk]; refine ⟨?_, ?_, ?_⟩)
    | with_reducible apply Keeps.pending | with_reducible apply Keeps.hbm | with_reducible apply Keeps.sites | split

theorem State.sendJobStop_keeps {z : State} {s : State} (step1 : BitVec 64) (late : Bool) (hz : Keeps z s) :
    Keeps z (State.sendJobStop s step1 late) := by
  unfold State.sendJobStop
  try dsimp only
  repeat' first
    | with_reducible assumption | with_reducible apply State.emit_keeps | (simp only [keeps_mk]; refine ⟨?_, ?_, ?_⟩)
    | with_reducible apply Keeps.pending | with_reducible apply Keeps.hbm | with_reducible apply Keeps.sites | split

theorem State.refuseAdmission_keeps {z : State} {s : State} (code : Nat) (reason : Nat) (hz : Keeps z s) :
    Keeps z (State.refuseAdmission s code reason) := by
  unfold State.refuseAdmission
  try dsimp only
  repeat' first
    | with_reducible assumption | with_reducible apply State.answerHeld_keeps | (simp only [keeps_mk]; refine ⟨?_, ?_, ?_⟩)
    | with_reducible apply Keeps.pending | with_reducible apply Keeps.hbm | with_reducible apply Keeps.sites | split

theorem State.queryAll_keeps {z : State} {s : State} (hz : Keeps z s) :
    Keeps z (State.queryAll s) := by
  unfold State.queryAll
  try dsimp only
  repeat' first
    | with_reducible assumption | with_reducible apply State.ckOrderAll_keeps | (simp only [keeps_mk]; refine ⟨?_, ?_, ?_⟩)
    | with_reducible apply Keeps.pending | with_reducible apply Keeps.hbm | with_reducible apply Keeps.sites

theorem State.admitNow_keeps {z : State} {s : State} (step0 : BitVec 64) (restored : Bool) (hz : Keeps z s) :
    Keeps z (State.admitNow s step0 restored) := by
  unfold State.admitNow
  try dsimp only
  repeat' first
    | with_reducible assumption | with_reducible apply State.answerHeld_keeps | with_reducible apply State.openStep_keeps
    | with_reducible apply State.setHd_keeps | with_reducible apply State.emit_keeps | (simp only [keeps_mk]; refine ⟨?_, ?_, ?_⟩)
    | with_reducible apply Keeps.pending | with_reducible apply Keeps.hbm | with_reducible apply Keeps.sites | split

theorem State.mirrorsAt_keeps {z : State} {s : State} (v : Nat) (hz : Keeps z s) :
    Keeps z (State.mirrorsAt s v) := by
  unfold State.mirrorsAt
  try dsimp only
  repeat' first | with_reducible assumption | with_reducible apply State.setHd_keeps | with_reducible apply foldl_keeps | split | intro _

theorem State.mirrorsCurrent_keeps {z : State} {s : State} (hz : Keeps z s) :
    Keeps z (State.mirrorsCurrent s) := by
  unfold State.mirrorsCurrent
  try dsimp only
  repeat' first | with_reducible assumption | with_reducible apply State.mirrorsAt_keeps

theorem State.reportReady_keeps {z : State} {s : State} (step : BitVec 64) (restored : Bool) (hz : Keeps z s) :
    Keeps z (State.reportReady s step restored) := by
  unfold State.reportReady
  try dsimp only
  repeat' first | with_reducible assumption | with_reducible apply State.admitNow_keeps | with_reducible apply State.mgtSend_keeps | split

theorem State.portsDown_keeps {z : State} {s : State} (hz : Keeps z s) :
    Keeps z (State.portsDown s) := by
  unfold State.portsDown
  try dsimp only
  repeat' first
    | with_reducible assumption | with_reducible apply State.setPf_keeps | with_reducible apply State.setPortState_keeps
    | with_reducible apply State.setPort_keeps | with_reducible apply foldl_keeps | split | intro _

theorem State.jobRelease_keeps {z : State} {s : State} (hz : Keeps z s) :
    Keeps z (State.jobRelease s) := by
  unfold State.jobRelease
  try dsimp only
  repeat' first
    | with_reducible assumption | with_reducible apply State.setHd_keeps | with_reducible apply State.setD_keeps
    | with_reducible apply State.showPan_keeps | with_reducible apply State.setGate_keeps | (simp only [keeps_mk]; refine ⟨?_, ?_, ?_⟩)
    | with_reducible apply Keeps.pending | with_reducible apply Keeps.hbm | with_reducible exact List.all_nil | intro _

theorem State.release_keeps {z : State} {s : State} (hz : Keeps z s) :
    Keeps z (State.release s) := by
  unfold State.release
  try dsimp only
  repeat' first
    | with_reducible assumption | with_reducible apply State.portsDown_keeps | with_reducible apply State.jobRelease_keeps
    | with_reducible apply State.sendJobStop_keeps | with_reducible apply State.onLive_keeps
    | with_reducible apply State.abandonRound_keeps | with_reducible apply Site.halt_wf | (simp only [keeps_mk]; refine ⟨?_, ?_, ?_⟩)
    | with_reducible apply Keeps.pending | with_reducible apply Keeps.hbm | with_reducible apply Keeps.sites | split

theorem State.loaderRead_keeps {z : State} {s : State} (hz : Keeps z s) :
    Keeps z (State.loaderRead s) := by
  unfold State.loaderRead
  try dsimp only
  repeat' first | with_reducible assumption | with_reducible apply State.hbmNote_keeps | split

theorem State.setLanes_keeps {z : State} {s : State} (w : Nat) (link : Nat) (g : Nat) (hz : Keeps z s) :
    Keeps z (State.setLanes s w link g) := by
  unfold State.setLanes
  try dsimp only
  repeat' first | with_reducible assumption | with_reducible apply State.setD_keeps

theorem State.setAllLanes_keeps {z : State} {s : State} (hz : Keeps z s) :
    Keeps z (State.setAllLanes s) := by
  unfold State.setAllLanes
  try dsimp only
  repeat' first | with_reducible assumption | with_reducible apply State.setLanes_keeps | with_reducible apply foldl_keeps | split | intro _

theorem State.setRoutes_keeps {z : State} {s : State} (places : List (Nat × Nat)) (hz : Keeps z s) :
    Keeps z (State.setRoutes s places) := by
  unfold State.setRoutes
  try dsimp only
  repeat' first
    | with_reducible assumption | (simp only [keeps_mk]; refine ⟨?_, ?_, ?_⟩) | with_reducible apply Keeps.pending
    | with_reducible apply Keeps.hbm | with_reducible apply Keeps.sites

theorem State.setImageRegs_keeps {z : State} {s : State} (ss : Secs) (im : Image) (hz : Keeps z s) :
    Keeps z (State.setImageRegs s ss im) := by
  unfold State.setImageRegs
  try dsimp only
  repeat' first
    | with_reducible assumption | with_reducible apply State.setHd_keeps | with_reducible apply State.setD_keeps
    | with_reducible apply foldl_keeps | split | intro _

theorem State.clearSinceLoad_keeps {z : State} {s : State} (hz : Keeps z s) :
    Keeps z (State.clearSinceLoad s) := by
  unfold State.clearSinceLoad
  try dsimp only
  repeat' first | with_reducible assumption | with_reducible apply State.setHd_keeps | with_reducible apply State.setD_keeps

theorem State.portsOn_keeps {z : State} {s : State} (im : Image) (hz : Keeps z s) :
    Keeps z (State.portsOn s im) := by
  unfold State.portsOn
  try dsimp only
  repeat' first
    | with_reducible assumption | with_reducible apply State.setPortState_keeps | with_reducible apply foldl_keeps | split | intro _

theorem State.extend_keeps {z : State} {s : State} (k : Nat) (d : Sys2Proof.Bytes) (hz : Keeps z s) :
    Keeps z (State.extend s k d) := by
  unfold State.extend
  try dsimp only
  repeat' first
    | with_reducible assumption | (simp only [keeps_mk]; refine ⟨?_, ?_, ?_⟩) | with_reducible apply Keeps.pending
    | with_reducible apply Keeps.hbm | with_reducible apply Keeps.sites

theorem State.applyImage_keeps {z : State} {s : State} (l : Loader) (im : Image) (hz : Keeps z s) :
    Keeps z (State.applyImage s l im) := by
  have h0 : Keeps z (({ s with regs := s.regs.filter (fun e => !jobKey e.1) } : State).setAllLanes) :=
    State.setAllLanes_keeps (by simp only [keeps_mk]; exact ⟨hz.pending, hz.hbm, hz.sites⟩)
  unfold State.applyImage
  extract_lets s0 s1 e s2 s3
  have h1 : Keeps z s1 := foldl_keeps _ _ _
    (fun s p hs => State.setSite_keeps _ (fun w => State.loadedSite_wf _ _ _ (hs.site w _)) hs) h0
  have h2 : Keeps z s2 := ⟨h1.1, h1.2⟩
  exact State.setHd_keeps _ _ (State.setHd_keeps _ _ (State.setHd_keeps _ _ (State.extend_keeps _ _ (State.portsOn_keeps _
    (State.clearSinceLoad_keeps (State.mirrorsCurrent_keeps (State.setRoutes_keeps _ (State.setImageRegs_keeps _ _ h2))))))))

theorem State.rejectLoad_keeps {z : State} {s : State} (code : Nat) (sec : Nat) (hz : Keeps z s) :
    Keeps z (State.rejectLoad s code sec) := by
  unfold State.rejectLoad
  try dsimp only
  repeat' first | with_reducible assumption | with_reducible apply State.setHd_keeps

theorem State.faultLoad_keeps {z : State} {s : State} (l : Loader) (im : Image) (hz : Keeps z s) :
    Keeps z (State.faultLoad s l im) := by
  unfold State.faultLoad
  try dsimp only
  repeat' first
    | with_reducible assumption | with_reducible apply State.rejectLoad_keeps | with_reducible apply State.setSite_keeps
    | with_reducible apply foldl_keeps | (simp only [keeps_mk]; refine ⟨?_, ?_, ?_⟩) | with_reducible apply Keeps.pending
    | with_reducible apply Keeps.hbm | with_reducible apply Keeps.sites | with_reducible exact Site.reset_wf | intro _

theorem State.startLoad_keeps {z : State} {s : State} (h : Sys2Proof.HostHdr) (hz : Keeps z s) :
    Keeps z (State.startLoad s h) := by
  unfold State.startLoad
  try dsimp only
  repeat' first
    | with_reducible assumption | with_reducible apply State.holdRequest_keeps | with_reducible apply State.setHd_keeps
    | with_reducible apply State.loaderRead_keeps | with_reducible apply State.answer_keeps | (simp only [keeps_mk]; refine ⟨?_, ?_, ?_⟩)
    | with_reducible apply Keeps.pending | with_reducible apply Keeps.hbm | with_reducible apply Keeps.sites | split

theorem State.endLoad_keeps {z : State} {s : State} (l : Loader) (hwFault : Bool) (hz : Keeps z s) :
    Keeps z (State.endLoad s l hwFault) := by
  unfold State.endLoad
  try dsimp only
  repeat' first
    | with_reducible assumption | with_reducible apply State.answerHeld_keeps | with_reducible apply State.applyImage_keeps
    | with_reducible apply State.faultLoad_keeps | with_reducible apply State.rejectLoad_keeps
    | (simp only [keeps_mk]; refine ⟨?_, ?_, ?_⟩) | with_reducible apply Keeps.pending | with_reducible apply Keeps.hbm
    | with_reducible apply Keeps.sites | split

theorem State.logAlarm_keeps {z : State} {s : State} (code : Nat) (act : Nat) (die : Nat) (hz : Keeps z s) :
    Keeps z (State.logAlarm s code act die) := by
  unfold State.logAlarm
  try dsimp only
  repeat' first
    | with_reducible assumption | with_reducible apply State.showAlarm_keeps | with_reducible apply State.setHd_keeps
    | with_reducible apply State.countD_keeps | (simp only [keeps_mk]; refine ⟨?_, ?_, ?_⟩) | with_reducible apply Keeps.pending
    | with_reducible apply Keeps.hbm | with_reducible apply Keeps.sites | split

theorem State.eraseKeys_keeps {z : State} {s : State} (hz : Keeps z s) :
    Keeps z (State.eraseKeys s) := by
  unfold State.eraseKeys
  try dsimp only
  repeat' first
    | with_reducible assumption | with_reducible apply State.setHd_keeps | (simp only [keeps_mk]; refine ⟨?_, ?_, ?_⟩)
    | with_reducible apply Keeps.pending | with_reducible apply Keeps.hbm | with_reducible apply Keeps.sites

theorem State.alarmLoad_keeps {z : State} {s : State} (hz : Keeps z s) :
    Keeps z (State.alarmLoad s) := by
  unfold State.alarmLoad
  try dsimp only
  repeat' first
    | with_reducible assumption | (simp only [keeps_mk]; refine ⟨?_, ?_, ?_⟩) | with_reducible apply Keeps.pending
    | with_reducible apply Keeps.hbm | with_reducible apply Keeps.sites | split

theorem State.alarmActs_keeps {z : State} {s : State} (act : Nat) (why : Nat) (hz : Keeps z s) :
    Keeps z (State.alarmActs s act why) := by
  unfold State.alarmActs
  try dsimp only
  repeat' first
    | with_reducible assumption | with_reducible apply State.alarmLoad_keeps | with_reducible apply State.fence_keeps
    | with_reducible apply State.eraseKeys_keeps | split

theorem State.raiseAlarm_keeps {z : State} {s : State} (code : Nat) (die : Nat) (hz : Keeps z s) :
    Keeps z (State.raiseAlarm s code die) := by
  unfold State.raiseAlarm
  try dsimp only
  repeat' first
    | with_reducible assumption | with_reducible apply State.logAlarm_keeps | with_reducible apply State.alert_keeps
    | with_reducible apply State.alarmActs_keeps

theorem State.clockStatus_keeps {z : State} {s : State} (d : Nat) (unlock : Bool) (hz : Keeps z s) :
    Keeps z (State.clockStatus s d unlock) := by
  unfold State.clockStatus
  try dsimp only
  repeat' first | with_reducible assumption | with_reducible apply State.bumpD_keeps | with_reducible apply State.setD_keeps | split

theorem State.standbyFence_keeps {z : State} {s : State} (hz : Keeps z s) :
    Keeps z (State.standbyFence s) := by
  unfold State.standbyFence
  try dsimp only
  repeat' first
    | with_reducible assumption | with_reducible apply State.eraseKeys_keeps | with_reducible apply State.logAlarm_keeps
    | (simp only [keeps_mk]; refine ⟨?_, ?_, ?_⟩) | with_reducible apply Keeps.pending | with_reducible apply Keeps.hbm
    | with_reducible apply Keeps.sites | split

theorem State.clockFault_keeps {z : State} {s : State} (d : Nat) (unlock : Bool) (hz : Keeps z s) :
    Keeps z (State.clockFault s d unlock) := by
  unfold State.clockFault
  try dsimp only
  repeat' first
    | with_reducible assumption | with_reducible apply State.alarmLoad_keeps | with_reducible apply State.fence_keeps
    | with_reducible apply State.raiseAlarm_keeps | with_reducible apply State.alert_keeps | with_reducible apply State.standbyFence_keeps
    | with_reducible apply State.clockStatus_keeps | (simp only [keeps_mk]; refine ⟨?_, ?_, ?_⟩) | with_reducible apply Keeps.pending
    | with_reducible apply Keeps.hbm | with_reducible apply Keeps.sites | split

theorem State.sendFenced_keeps {z : State} {s : State} (why : Nat) (hz : Keeps z s) :
    Keeps z (State.sendFenced s why) := by
  unfold State.sendFenced
  try dsimp only
  repeat' first | with_reducible assumption | with_reducible apply State.pelMgt_keeps | split

theorem State.coreGear_keeps {z : State} {s : State} (n : Nat) (hz : Keeps z s) :
    Keeps z (State.coreGear s n) := by
  unfold State.coreGear
  try dsimp only
  repeat' first
    | with_reducible assumption | with_reducible apply State.tokenEvent_keeps | with_reducible apply State.onSite_keeps
    | with_reducible apply State.gearValues_keeps | with_reducible apply State.tryMove_keeps
    | with_reducible apply State.haltOverrun_keeps | (simp only [Site.memsWf_mk, Bool.and_eq_true]; refine ⟨⟨?_, ?_⟩, ?_⟩)
    | with_reducible apply Site.store_wf | with_reducible apply Site.istore_wf | with_reducible apply Site.recs_wf | split | intro _

theorem State.entryGate_keeps {z : State} {s : State} (hz : Keeps z s) :
    Keeps z (State.entryGate s) := by
  unfold State.entryGate
  try dsimp only
  repeat' first | with_reducible assumption | with_reducible apply State.openStep_keeps | with_reducible apply State.enterRun_keeps | split

theorem State.enterRole_keeps {z : State} {s : State} (n : Nat) (role : Nat) (hz : Keeps z s) :
    Keeps z (State.enterRole s n role) := by
  unfold State.enterRole
  try dsimp only
  repeat' first
    | with_reducible assumption | with_reducible apply State.onSite_keeps | with_reducible apply State.putBlockHead_keeps
    | with_reducible apply State.putBlockFull_keeps | with_reducible apply Site.enter_wf | with_reducible apply Site.setChan_wf
    | (simp only [keeps_mk]; refine ⟨?_, ?_, ?_⟩) | with_reducible apply Keeps.pending | with_reducible apply Keeps.hbm
    | with_reducible apply Keeps.sites | (simp only [Site.memsWf_mk, Bool.and_eq_true]; refine ⟨⟨?_, ?_⟩, ?_⟩)
    | with_reducible apply Site.store_wf | with_reducible apply Site.istore_wf | with_reducible apply Site.recs_wf
    | with_reducible apply foldl_siteWf | split | intro _

theorem State.resumed_keeps {z : State} {s : State} (hz : Keeps z s) :
    Keeps z (State.resumed s) := by
  unfold State.resumed
  try dsimp only
  repeat' first
    | with_reducible assumption | with_reducible apply State.tokenEvent_keeps | with_reducible apply foldl_keeps
    | (simp only [keeps_mk]; refine ⟨?_, ?_, ?_⟩) | with_reducible apply Keeps.pending | with_reducible apply Keeps.hbm
    | with_reducible apply Keeps.sites | split | intro _

theorem State.ocsStart_keeps {z : State} {s : State} (r : OcsReq) (hz : Keeps z s) :
    Keeps z (State.ocsStart s r) := by
  unfold State.ocsStart
  try dsimp only
  repeat' first
    | with_reducible assumption | with_reducible apply State.setHd_keeps | with_reducible apply State.emit_keeps
    | (simp only [keeps_mk]; refine ⟨?_, ?_, ?_⟩) | with_reducible apply Keeps.pending | with_reducible apply Keeps.hbm
    | with_reducible apply Keeps.sites

theorem State.ocsSend_keeps {z : State} {s : State} (ps : List Sys2Proof.OcsPair) (spare : Bool) (subj : Option Nat) (hz : Keeps z s) :
    Keeps z (State.ocsSend s ps spare subj) := by
  unfold State.ocsSend
  try dsimp only
  repeat' first | with_reducible assumption | with_reducible apply State.ocsStart_keeps

theorem State.copyLoss_keeps {z : State} {s : State} (i : Nat) (win : Option (BitVec 256)) (hz : Keeps z s) :
    Keeps z (State.copyLoss s i win) := by
  unfold State.copyLoss
  try dsimp only
  repeat' first
    | with_reducible assumption | with_reducible apply State.selfLasting_keeps | with_reducible apply State.fault24_keeps
    | (simp only [keeps_mk]; refine ⟨?_, ?_, ?_⟩) | with_reducible apply Keeps.pending | with_reducible apply Keeps.hbm
    | with_reducible apply Keeps.sites | split

theorem State.sendLogs_keeps {z : State} {s : State} (mine : List (Sys2Proof.DigestRec × Nat)) (hz : Keeps z s) :
    Keeps z (State.sendLogs s mine) := by
  unfold State.sendLogs
  try dsimp only
  repeat' first | with_reducible assumption | with_reducible apply State.notePages_keeps | with_reducible apply State.emits_keeps

theorem State.placeReferee_keeps {z : State} {s : State} (owner : Nat) (hz : Keeps z s) :
    Keeps z (State.placeReferee s owner) := by
  unfold State.placeReferee
  try dsimp only
  repeat' first | with_reducible assumption | with_reducible apply State.ocsSend_keeps | with_reducible apply State.emit_keeps | split

theorem State.takeVerdict_keeps {z : State} {s0 : State} (rs : List Sys2Proof.DigestRec) (shard : Nat) (hz : Keeps z s0) :
    Keeps z (State.takeVerdict s0 rs shard) := by
  unfold State.takeVerdict
  try dsimp only
  repeat' first
    | with_reducible assumption | with_reducible apply State.sendLogs_keeps | with_reducible apply State.copyLoss_keeps
    | with_reducible apply State.setHd_keeps | with_reducible apply State.placeReferee_keeps | with_reducible apply foldl_keeps
    | (simp only [keeps_mk]; refine ⟨?_, ?_, ?_⟩) | with_reducible apply Keeps.pending | with_reducible apply Keeps.hbm
    | with_reducible apply Keeps.sites | split | intro _

theorem State.digestVote_keeps {z : State} {s : State} (rs : List Sys2Proof.DigestRec) (hz : Keeps z s) :
    Keeps z (State.digestVote s rs) := by
  unfold State.digestVote
  try dsimp only
  repeat' first
    | with_reducible assumption | with_reducible apply State.takeVerdict_keeps | with_reducible apply State.setHd_keeps
    | with_reducible apply foldl_keeps | (simp only [keeps_mk]; refine ⟨?_, ?_, ?_⟩) | with_reducible apply Keeps.pending
    | with_reducible apply Keeps.hbm | with_reducible apply Keeps.sites | intro _

theorem State.checkFails_keeps {z : State} {s : State} (cause : Nat) (hz : Keeps z s) :
    Keeps z (State.checkFails s cause) := by
  unfold State.checkFails
  try dsimp only
  repeat' first
    | with_reducible assumption | with_reducible apply State.stopAll_keeps | with_reducible apply State.setGate_keeps
    | with_reducible apply State.reportFault_keeps

theorem State.nanHalve_keeps {z : State} {s : State} (p : Nat) (hz : Keeps z s) :
    Keeps z (State.nanHalve s p) := by
  unfold State.nanHalve
  try dsimp only
  repeat' first | with_reducible assumption | with_reducible apply State.recordEntry_keeps | with_reducible apply State.setHd_keeps

theorem State.nanVerdict_keeps {z : State} {s : State} (hz : Keeps z s) :
    Keeps z (State.nanVerdict s) := by
  unfold State.nanVerdict
  try dsimp only
  repeat' first
    | with_reducible assumption | with_reducible apply State.recordEntry_keeps | with_reducible apply State.haltJob_keeps
    | with_reducible apply State.setHd_keeps | with_reducible apply State.checkFails_keeps | with_reducible apply State.nanHalve_keeps
    | with_reducible apply State.stopAll_keeps | with_reducible apply State.setGate_keeps | (simp only [keeps_mk]; refine ⟨?_, ?_, ?_⟩)
    | with_reducible apply Keeps.pending | with_reducible apply Keeps.hbm | with_reducible apply Keeps.sites | split

theorem State.checkPasses_keeps {z : State} {s : State} (g : FV) (v : Sys2Proof.SliceTotals) (hz : Keeps z s) :
    Keeps z (State.checkPasses s g v) := by
  unfold State.checkPasses
  try dsimp only
  repeat' first
    | with_reducible assumption | with_reducible apply State.openCommit_keeps | with_reducible apply State.ckTrigger_keeps
    | with_reducible apply State.recordEntry_keeps | (simp only [keeps_mk]; refine ⟨?_, ?_, ?_⟩) | with_reducible apply Keeps.pending
    | with_reducible apply Keeps.hbm | with_reducible apply Keeps.sites

theorem State.verdict_keeps {z : State} {s : State} (v : Sys2Proof.SliceTotals) (hz : Keeps z s) :
    Keeps z (State.verdict s v) := by
  unfold State.verdict
  try dsimp only
  repeat' first
    | with_reducible assumption | with_reducible apply State.checkPasses_keeps | with_reducible apply State.digestVote_keeps
    | with_reducible apply State.nanVerdict_keeps | with_reducible apply State.checkFails_keeps | with_reducible apply State.setHd_keeps
    | split

theorem State.pageWrite_keeps {z : State} {s : State} (n : Nat) (k : Nat) (hz : Keeps z s) :
    Keeps z (State.pageWrite s n k) := by
  unfold State.pageWrite
  try dsimp only
  repeat' first
    | with_reducible assumption | with_reducible apply State.onSite_keeps | with_reducible apply State.setPageSt_keeps
    | (simp only [Site.memsWf_mk, Bool.and_eq_true]; refine ⟨⟨?_, ?_⟩, ?_⟩) | with_reducible apply Site.store_wf
    | with_reducible apply Site.istore_wf | with_reducible apply Site.recs_wf | split | intro _

theorem State.openPage_keeps {z : State} {s : State} (role : Nat) (hz : Keeps z s) :
    Keeps z (State.openPage s role) := by
  unfold State.openPage
  try dsimp only
  repeat' first
    | with_reducible assumption | with_reducible apply State.setPageSt_keeps | with_reducible apply State.closePages_keeps
    | with_reducible apply Mem.copyRange_wf | (simp only [keeps_mk]; refine ⟨?_, ?_, ?_⟩) | with_reducible apply Keeps.pending
    | with_reducible apply Keeps.hbm | with_reducible apply Keeps.sites | split | intro _

theorem State.preimageDone_keeps {z : State} {s : State} (role : Nat) (hz : Keeps z s) :
    Keeps z (State.preimageDone s role) := by
  unfold State.preimageDone
  try dsimp only
  repeat' first
    | with_reducible assumption | with_reducible apply State.hbmNote_keeps | with_reducible apply State.openPage_keeps
    | with_reducible apply State.setPageSt_keeps | split

theorem State.growLoss_keeps {z : State} {s : State} (hz : Keeps z s) :
    Keeps z (State.growLoss s) := by
  unfold State.growLoss
  try dsimp only
  repeat' first | with_reducible assumption | with_reducible apply State.setHd_keeps | split

theorem State.mirrorsDone_keeps {z : State} {s : State} (hz : Keeps z s) :
    Keeps z (State.mirrorsDone s) := by
  unfold State.mirrorsDone
  try dsimp only
  repeat' first
    | with_reducible assumption | (simp only [keeps_mk]; refine ⟨?_, ?_, ?_⟩) | with_reducible apply Keeps.pending
    | with_reducible apply Keeps.hbm | with_reducible apply Keeps.sites

theorem State.refereeDone_keeps {z : State} {s : State} (hz : Keeps z s) :
    Keeps z (State.refereeDone s) := by
  unfold State.refereeDone
  try dsimp only
  repeat' first
    | with_reducible assumption | with_reducible apply State.setGate_keeps | with_reducible apply State.emit_keeps
    | with_reducible apply State.notePages_keeps | (simp only [keeps_mk]; refine ⟨?_, ?_, ?_⟩) | with_reducible apply Keeps.pending
    | with_reducible apply Keeps.hbm | with_reducible apply Keeps.sites

theorem State.boundary_keeps {z : State} {s : State} (hz : Keeps z s) :
    Keeps z (State.boundary s) := by
  unfold State.boundary
  try dsimp only
  repeat' first
    | with_reducible assumption | with_reducible apply State.mirrorsCurrent_keeps | with_reducible apply State.mgtSend_keeps
    | with_reducible apply State.selfLasting_keeps | with_reducible apply State.propose_keeps | with_reducible apply State.openStep_keeps
    | with_reducible apply foldl_keeps | with_reducible apply repeat_keeps | (simp only [keeps_mk]; refine ⟨?_, ?_, ?_⟩)
    | with_reducible apply Keeps.pending | with_reducible apply Keeps.hbm | with_reducible apply Keeps.sites | split | intro _

theorem State.restorePages_keeps {z : State} {s : State} (role : Nat) (hz : Keeps z s) :
    Keeps z (State.restorePages s role) := by
  unfold State.restorePages
  try dsimp only
  repeat' first
    | with_reducible assumption | with_reducible apply State.setMarks_keeps | with_reducible apply State.setPageSt_keeps
    | with_reducible apply State.hbmNote_keeps | with_reducible apply Mem.copyRange_wf | with_reducible apply foldl_keeps
    | (simp only [keeps_mk]; refine ⟨?_, ?_, ?_⟩) | with_reducible apply Keeps.pending | with_reducible apply Keeps.hbm
    | with_reducible apply Keeps.sites | split | intro _

theorem State.partnerEntry_keeps {z : State} {s : State} (p : Nat) (step : BitVec 64) (no : Nat) (e : Sys2Proof.StepEntry) (hz : Keeps z s) :
    Keeps z (State.partnerEntry s p step no e) := by
  unfold State.partnerEntry
  try dsimp only
  repeat' first
    | with_reducible assumption | with_reducible apply State.emit_keeps | (simp only [keeps_mk]; refine ⟨?_, ?_, ?_⟩)
    | with_reducible apply Keeps.pending | with_reducible apply Keeps.hbm | with_reducible apply Keeps.sites | split

theorem State.takeOrder_keeps {z : State} {s : State} (m : Sys2Proof.CkMsg) (hz : Keeps z s) :
    Keeps z (State.takeOrder s m) := by
  unfold State.takeOrder
  try dsimp only
  repeat' first
    | with_reducible assumption | with_reducible apply State.abandonRound_keeps | with_reducible apply State.setRound_keeps
    | with_reducible apply State.setHd_keeps | with_reducible apply State.ckAnswer_keeps | (simp only [keeps_mk]; refine ⟨?_, ?_, ?_⟩)
    | with_reducible apply Keeps.pending | with_reducible apply Keeps.hbm | with_reducible apply Keeps.sites | split

theorem State.roundOk_keeps {z : State} {s : State} (r : Round) (hz : Keeps z s) :
    Keeps z (State.roundOk s r) := by
  unfold State.roundOk
  try dsimp only
  repeat' first
    | with_reducible assumption | with_reducible apply State.endRound_keeps | with_reducible apply State.setHd_keeps
    | with_reducible apply State.notify_keeps | (simp only [keeps_mk]; refine ⟨?_, ?_, ?_⟩) | with_reducible apply Keeps.pending
    | with_reducible apply Keeps.hbm | with_reducible apply Keeps.sites

theorem State.openRead_keeps {z : State} {s : State} (page : Nat) (hz : Keeps z s) :
    Keeps z (State.openRead s page) := by
  unfold State.openRead
  try dsimp only
  repeat' first | with_reducible assumption | with_reducible apply State.openPage_keeps | with_reducible apply foldl_keeps

theorem State.priorityCopy_keeps {z : State} {s : State} (r : Round) (page : Nat) (ns : Nat) (hz : Keeps z s) :
    Keeps z (State.priorityCopy s r page ns) := by
  unfold State.priorityCopy
  try dsimp only
  repeat' first
    | with_reducible assumption | with_reducible apply State.setD_keeps | with_reducible apply State.showRound_keeps
    | with_reducible apply State.openRead_keeps | with_reducible apply State.setRound_keeps | with_reducible apply State.bumpD_keeps
    | with_reducible apply State.hbmNote_keeps | with_reducible apply State.pageSpoiled_keeps | with_reducible apply State.ckFail_keeps
    | with_reducible apply Mem.copyRange_wf | (simp only [keeps_mk]; refine ⟨?_, ?_, ?_⟩) | with_reducible apply Keeps.pending
    | with_reducible apply Keeps.hbm | with_reducible apply Keeps.sites | split | intro _

theorem State.answerSlots_keeps {z : State} {s : State} (x : Nat × Nat) (hz : Keeps z s) :
    Keeps z (State.answerSlots s x) := by
  unfold State.answerSlots
  try dsimp only
  repeat' first
    | with_reducible assumption | with_reducible apply State.ckAnswer_keeps | (simp only [keeps_mk]; refine ⟨?_, ?_, ?_⟩)
    | with_reducible apply Keeps.pending | with_reducible apply Keeps.hbm | with_reducible apply Keeps.sites

theorem State.orderRestore_keeps {z : State} {s : State} (hz : Keeps z s) :
    Keeps z (State.orderRestore s) := by
  unfold State.orderRestore
  try dsimp only
  repeat' first
    | with_reducible assumption | with_reducible apply State.pelSend_keeps | with_reducible apply State.haltJob_keeps
    | with_reducible apply State.mgtSend_keeps | with_reducible apply foldl_keeps | split | intro _

theorem State.restoreFails_keeps {z : State} {s : State} (slot : Nat) (hz : Keeps z s) :
    Keeps z (State.restoreFails s slot) := by
  unfold State.restoreFails
  try dsimp only
  repeat' first
    | with_reducible assumption | with_reducible apply State.answerSlots_keeps | with_reducible apply State.setHd_keeps
    | (simp only [keeps_mk]; refine ⟨?_, ?_, ?_⟩) | with_reducible apply Keeps.pending | with_reducible apply Keeps.hbm
    | with_reducible apply Keeps.sites

theorem State.readObj_keeps {z : State} {s : State} (r : Restore) (hz : Keeps z s) :
    Keeps z (State.readObj s r) := by
  unfold State.readObj
  try dsimp only
  repeat' first | with_reducible assumption | with_reducible apply State.rdma_keeps

theorem State.restoreStart_keeps {z : State} {s : State} (b : BitVec 64) (mfs : List Sys2Proof.Manifest) (hz : Keeps z s) :
    Keeps z (State.restoreStart s b mfs) := by
  unfold State.restoreStart
  try dsimp only
  repeat' first
    | with_reducible assumption | with_reducible apply State.setGate_keeps | with_reducible apply State.setHd_keeps
    | with_reducible apply State.readObj_keeps | with_reducible apply State.stopAll_keeps | with_reducible apply State.abandonRound_keeps
    | with_reducible apply State.panDiscard_keeps | (simp only [keeps_mk]; refine ⟨?_, ?_, ?_⟩) | with_reducible apply Keeps.pending
    | with_reducible apply Keeps.hbm | with_reducible apply Keeps.sites | split

theorem State.restoreDone_keeps {z : State} {s : State} (r : Restore) (hz : Keeps z s) :
    Keeps z (State.restoreDone s r) := by
  unfold State.restoreDone
  try dsimp only
  repeat' first
    | with_reducible assumption | with_reducible apply State.reportReady_keeps | with_reducible apply State.mirrorsCurrent_keeps
    | with_reducible apply State.setHd_keeps | (simp only [keeps_mk]; refine ⟨?_, ?_, ?_⟩) | with_reducible apply Keeps.pending
    | with_reducible apply Keeps.hbm | with_reducible apply Keeps.sites

theorem State.restoreObject_keeps {z : State} {s : State} (r : Restore) (stored : Sys2Proof.Bytes) (hz : Keeps z s) :
    Keeps z (State.restoreObject s r stored) := by
  unfold State.restoreObject
  try dsimp only
  repeat' first
    | with_reducible assumption | with_reducible apply State.readObj_keeps | with_reducible apply State.restoreDone_keeps
    | with_reducible apply Mem.write_wf | with_reducible apply Mem.fillPages_wf | (simp only [keeps_mk]; refine ⟨?_, ?_, ?_⟩)
    | with_reducible apply Keeps.pending | with_reducible apply Keeps.hbm | with_reducible apply Keeps.sites | split | intro _

theorem State.cutoff_keeps {z : State} {s : State} (gid : Nat) (bucket : Nat) (hz : Keeps z s) :
    Keeps z (State.cutoff s gid bucket) := by
  unfold State.cutoff
  try dsimp only
  repeat' first
    | with_reducible assumption | with_reducible apply State.announce_keeps | (simp only [keeps_mk]; refine ⟨?_, ?_, ?_⟩)
    | with_reducible apply Keeps.pending | with_reducible apply Keeps.hbm | with_reducible apply Keeps.sites | split

theorem State.resumeColl_keeps {z : State} {s : State} (c : Coll) (me : Nat) (hz : Keeps z s) :
    Keeps z (State.resumeColl s c me) := by
  unfold State.resumeColl
  try dsimp only
  repeat' first
    | with_reducible assumption | with_reducible apply State.bumpD_keeps | with_reducible apply State.resend_keeps
    | with_reducible apply foldl_keeps | intro _

theorem portCmd_keeps {z : State} (n : Nat) (ch : Nat) (off : Nat) (send : Bool) (v : Sys2Proof.Word) {s : State} (hz : Keeps z s) :
    Keeps z (portCmd n ch off send v s) := by
  unfold portCmd
  try dsimp only
  repeat' first | with_reducible assumption | with_reducible apply State.portStore_keeps | with_reducible apply State.raise_keeps | split

theorem mergeStore_keeps {z : State} (n : Nat) (k : Nat) (r : Nat) (vr : Nat) {s : State} (hz : Keeps z s) :
    Keeps z (mergeStore n k r vr s) := by
  unfold mergeStore
  try dsimp only
  repeat' first
    | with_reducible assumption | with_reducible apply State.onSite_keeps | with_reducible apply State.raise_keeps
    | with_reducible apply Site.storeBytes_wf | split | intro _

theorem State.cross_keeps {z : State} {s : State} (outward : Bool) (code : Nat) (node : Nat) (d : Sys2Proof.Bytes) (hz : Keeps z s) :
    Keeps z (State.cross s outward code node d).1 := by
  unfold State.cross
  try dsimp only
  repeat' first
    | with_reducible assumption | with_reducible apply State.bumpHd_keeps | (simp only [keeps_mk]; refine ⟨?_, ?_, ?_⟩)
    | with_reducible apply Keeps.pending | with_reducible apply Keeps.hbm | with_reducible apply Keeps.sites | split

theorem State.sendCan_keeps {z : State} {s : State} (code : Nat) (d : Sys2Proof.Bytes) (hz : Keeps z s) :
    Keeps z (State.sendCan s code d) := by
  unfold State.sendCan
  try dsimp only
  repeat' first | with_reducible assumption | with_reducible apply State.emit_keeps | with_reducible apply State.cross_keeps | split

theorem State.sendAlarm_keeps {z : State} {s : State} (code : Nat) (action : Nat) (value : Nat) (hz : Keeps z s) :
    Keeps z (State.sendAlarm s code action value) := by
  unfold State.sendAlarm
  try dsimp only
  repeat' first | with_reducible assumption | with_reducible apply State.sendCan_keeps

theorem State.powerFault_keeps {z : State} {s : State} (hz : Keeps z s) :
    Keeps z (State.powerFault s) := by
  unfold State.powerFault
  try dsimp only
  repeat' first
    | with_reducible assumption | with_reducible apply State.selfLasting_keeps | (simp only [keeps_mk]; refine ⟨?_, ?_, ?_⟩)
    | with_reducible apply Keeps.pending | with_reducible apply Keeps.hbm | with_reducible apply Keeps.sites

theorem State.takeInputs_keeps {z : State} {s : State} (hz : Keeps z s) :
    Keeps z (State.takeInputs s) := by
  unfold State.takeInputs
  try dsimp only
  repeat' first | with_reducible assumption | with_reducible apply State.powerFault_keeps | with_reducible apply State.setHd_keeps | split

theorem State.answerFmtrq_keeps {z : State} {s : State} (rseq : Nat) (hz : Keeps z s) :
    Keeps z (State.answerFmtrq s rseq) := by
  unfold State.answerFmtrq
  try dsimp only
  repeat' first | with_reducible assumption | with_reducible apply State.sendCan_keeps | with_reducible apply foldl_keeps | split | intro _

theorem State.canIn_keeps {z : State} {s : State} (code : Nat) (d : Sys2Proof.Bytes) (hz : Keeps z s) :
    Keeps z (State.canIn s code d) := by
  unfold State.canIn
  try dsimp only
  repeat' first
    | with_reducible assumption | with_reducible apply State.answerFmtrq_keeps | with_reducible apply State.takeInputs_keeps
    | (simp only [keeps_mk]; refine ⟨?_, ?_, ?_⟩) | with_reducible apply Keeps.pending | with_reducible apply Keeps.hbm
    | with_reducible apply Keeps.sites | split

theorem State.receiveCan_keeps {z : State} {s : State} (code : Nat) (node : Nat) (d : Sys2Proof.Bytes) (hz : Keeps z s) :
    Keeps z (State.receiveCan s code node d) := by
  unfold State.receiveCan
  try dsimp only
  repeat' first | with_reducible assumption | with_reducible apply State.canIn_keeps | with_reducible apply State.cross_keeps | split

theorem State.showMeter_keeps {z : State} {s : State} (dw : Nat) (hz : Keeps z s) :
    Keeps z (State.showMeter s dw) := by
  unfold State.showMeter
  try dsimp only
  repeat' first | with_reducible assumption | with_reducible apply State.setHd_keeps

theorem State.meterLoss_keeps {z : State} {s : State} (hz : Keeps z s) :
    Keeps z (State.meterLoss s) := by
  unfold State.meterLoss
  try dsimp only
  repeat' first
    | with_reducible assumption | (simp only [keeps_mk]; refine ⟨?_, ?_, ?_⟩) | with_reducible apply Keeps.pending
    | with_reducible apply Keeps.hbm | with_reducible apply Keeps.sites | split

theorem State.countFlits_keeps {z : State} {s : State} (d : Nat) (ws : List Sys2Proof.CodeWord) (hz : Keeps z s) :
    Keeps z (State.countFlits s d ws) := by
  unfold State.countFlits
  try dsimp only
  repeat' first | with_reducible assumption | with_reducible apply State.bumpD_keeps

theorem State.nocReply_keeps {z : State} {s : State} (d : Nat) (h : Nat) (typ : Nat) (lenb : Nat) (data : List (Sys2Proof.Byte × Bool)) (hz : Keeps z s) :
    Keeps z (State.nocReply s d h typ lenb data) := by
  unfold State.nocReply
  try dsimp only
  repeat' first | with_reducible assumption | with_reducible apply State.emit_keeps

theorem State.nocError_keeps {z : State} {s : State} (d : Nat) (h : Nat) (hz : Keeps z s) :
    Keeps z (State.nocError s d h) := by
  unfold State.nocError
  try dsimp only
  repeat' first | with_reducible assumption | with_reducible apply State.nocReply_keeps | with_reducible apply State.skipFree_keeps

theorem State.nocDiscard_keeps {z : State} {s : State} (d : Nat) (h : Nat) (hz : Keeps z s) :
    Keeps z (State.nocDiscard s d h) := by
  unfold State.nocDiscard
  try dsimp only
  repeat' first | with_reducible assumption | with_reducible apply State.bumpD_keeps | with_reducible apply State.nocError_keeps

theorem State.drainOut_keeps {z : State} {s : State} (die : Nat) (out : Nat) (cls : Nat) (hz : Keeps z s) :
    Keeps z (State.drainOut s die out cls).1 := by
  unfold State.drainOut
  try dsimp only
  repeat' first
    | with_reducible assumption | (simp only [keeps_mk]; refine ⟨?_, ?_, ?_⟩) | with_reducible apply Keeps.pending
    | with_reducible apply Keeps.hbm | with_reducible apply Keeps.sites | split

theorem State.drainClass_keeps {z : State} {s : State} (die : Nat) (link : Nat) (cls : Nat) (hz : Keeps z s) :
    Keeps z (State.drainClass s die link cls) := by
  unfold State.drainClass
  try dsimp only
  repeat' first | with_reducible assumption | with_reducible apply State.emits_keeps | with_reducible apply State.drainOut_keeps

theorem State.arbPut_keeps {z : State} {s : State} (k : Nat) (h : Nat) (data : List (Sys2Proof.Byte × Bool)) (hz : Keeps z s) :
    Keeps z (State.arbPut s k h data) := by
  unfold State.arbPut
  try dsimp only
  repeat' first
    | with_reducible assumption | (simp only [keeps_mk]; refine ⟨?_, ?_, ?_⟩) | with_reducible apply Keeps.pending
    | with_reducible apply Keeps.hbm | with_reducible apply Keeps.sites

theorem State.drainRouter_keeps {z : State} {s : State} (die : Nat) (r : Nat) (cls : Nat) (hz : Keeps z s) :
    Keeps z (State.drainRouter s die r cls) := by
  unfold State.drainRouter
  try dsimp only
  repeat' first
    | with_reducible assumption | with_reducible apply State.arbPut_keeps | with_reducible apply State.drainOut_keeps
    | with_reducible apply foldl_keeps | intro _

theorem State.drainRouters_keeps {z : State} {s : State} (hz : Keeps z s) :
    Keeps z (State.drainRouters s) := by
  unfold State.drainRouters
  try dsimp only
  repeat' first | with_reducible assumption | with_reducible apply State.drainRouter_keeps | with_reducible apply foldl_keeps | intro _

theorem State.drainLinks_keeps {z : State} {s : State} (hz : Keeps z s) :
    Keeps z (State.drainLinks s) := by
  unfold State.drainLinks
  try dsimp only
  repeat' first
    | with_reducible assumption | with_reducible apply State.drainClass_keeps | with_reducible apply foldl_keeps | split | intro _

theorem State.nocForward_keeps {z : State} {s : State} (d : Nat) (h : Nat) (flits : Nat) (data : List (Sys2Proof.Byte × Bool)) (hz : Keeps z s) :
    Keeps z (State.nocForward s d h flits data) := by
  unfold State.nocForward
  try dsimp only
  repeat' first | with_reducible assumption | with_reducible apply State.countD_keeps | with_reducible apply State.arbPut_keeps

theorem State.hxLoad_keeps {z : State} {s : State} (h : Nat) (data : List (Sys2Proof.Byte × Bool)) (hz : Keeps z s) :
    Keeps z (State.hxLoad s h data) := by
  unfold State.hxLoad
  try dsimp only
  repeat' first | with_reducible assumption | with_reducible apply State.emit_keeps | with_reducible apply State.blockPoison_keeps | split

theorem State.nocRead_keeps {z : State} {s : State} (d : Nat) (h : Nat) (hz : Keeps z s) :
    Keeps z (State.nocRead s d h) := by
  unfold State.nocRead
  try dsimp only
  repeat' first
    | with_reducible assumption | with_reducible apply State.hbmNote_keeps | with_reducible apply State.nocReply_keeps
    | with_reducible apply State.hxLoad_keeps | with_reducible apply State.skipFree_keeps

theorem State.nocWrite_keeps {z : State} {s : State} (d : Nat) (h : Nat) (data : List (Sys2Proof.Byte × Bool)) (hz : Keeps z s) :
    Keeps z (State.nocWrite s d h data) := by
  unfold State.nocWrite
  try dsimp only
  repeat' first
    | with_reducible assumption | with_reducible apply State.nocReply_keeps | with_reducible apply State.blockPoison_keeps
    | with_reducible apply State.countBursts_keeps | with_reducible apply Mem.store_wf | (simp only [keeps_mk]; refine ⟨?_, ?_, ?_⟩)
    | with_reducible apply Keeps.pending | with_reducible apply Keeps.hbm | with_reducible apply Keeps.sites | split | intro _

theorem State.hbmRequest_keeps {z : State} {s : State} (d : Nat) (h : Nat) (data : List (Sys2Proof.Byte × Bool)) (hz : Keeps z s) :
    Keeps z (State.hbmRequest s d h data) := by
  unfold State.hbmRequest
  try dsimp only
  repeat' first
    | with_reducible assumption | with_reducible apply State.nocWrite_keeps | with_reducible apply State.nocRead_keeps
    | (simp only [keeps_mk]; refine ⟨?_, ?_, ?_⟩) | with_reducible apply Keeps.pending | with_reducible apply Keeps.hbm
    | with_reducible apply Keeps.sites | split

theorem State.serveHeld_keeps {z : State} {s : State} (hz : Keeps z s) :
    Keeps z (State.serveHeld s) := by
  unfold State.serveHeld
  try dsimp only
  repeat' first
    | with_reducible assumption | with_reducible apply State.hbmRequest_keeps | with_reducible apply foldl_keeps
    | (simp only [keeps_mk]; refine ⟨?_, ?_, ?_⟩) | with_reducible apply Keeps.pending | with_reducible apply Keeps.hbm
    | with_reducible apply Keeps.sites | intro _

theorem State.fabricTick_keeps {z : State} {s : State} (hz : Keeps z s) :
    Keeps z (State.fabricTick s) := by
  unfold State.fabricTick
  try dsimp only
  repeat' first
    | with_reducible assumption | with_reducible apply State.serveHeld_keeps | with_reducible apply State.feedColls_keeps
    | with_reducible apply State.drainRouters_keeps | with_reducible apply State.drainLinks_keeps

theorem State.cfgRead_keeps {z : State} {s : State} (d : Nat) (h : Nat) (hz : Keeps z s) :
    Keeps z (State.cfgRead s d h) := by
  unfold State.cfgRead
  try dsimp only
  repeat' first | with_reducible assumption | with_reducible apply State.nocReply_keeps | with_reducible apply State.nocError_keeps | split

theorem State.cfgAnswer_keeps {z : State} {s : State} (d : Nat) (h : Nat) (hz : Keeps z s) :
    Keeps z (State.cfgAnswer s d h) := by
  unfold State.cfgAnswer
  try dsimp only
  repeat' first | with_reducible assumption | with_reducible apply State.skipFree_keeps | with_reducible apply State.nocReply_keeps | split

theorem State.cfgWrite_keeps {z : State} {s : State} (d : Nat) (h : Nat) (data : List (Sys2Proof.Byte × Bool)) (hz : Keeps z s) :
    Keeps z (State.cfgWrite s d h data) := by
  unfold State.cfgWrite
  try dsimp only
  repeat' first
    | with_reducible assumption | with_reducible apply State.regWrite_keeps | with_reducible apply State.programWrite_keeps
    | with_reducible apply State.nocError_keeps | with_reducible apply State.blockPoison_keeps
    | with_reducible apply State.cfgAnswer_keeps | split

theorem State.nocServe_keeps {z : State} {s : State} (d : Nat) (h : Nat) (data : List (Sys2Proof.Byte × Bool)) (hz : Keeps z s) :
    Keeps z (State.nocServe s d h data) := by
  unfold State.nocServe
  try dsimp only
  repeat' first
    | with_reducible assumption | with_reducible apply State.cfgWrite_keeps | with_reducible apply State.nocError_keeps
    | with_reducible apply State.cfgRead_keeps | with_reducible apply State.hbmRequest_keeps | split

theorem State.removeGroup_keeps {z : State} {s : State} (g : Sys2Proof.GroupId) (hz : Keeps z s) :
    Keeps z (State.removeGroup s g) := by
  unfold State.removeGroup
  try dsimp only
  repeat' first
    | with_reducible assumption | with_reducible apply State.refit_keeps | with_reducible apply State.makeLasting_keeps
    | (simp only [keeps_mk]; refine ⟨?_, ?_, ?_⟩) | with_reducible apply Keeps.pending | with_reducible apply Keeps.hbm
    | with_reducible apply Keeps.sites | split

theorem State.laneLasting_keeps {z : State} {s : State} (g : Sys2Proof.GroupId) (hz : Keeps z s) :
    Keeps z (State.laneLasting s g) := by
  unfold State.laneLasting
  try dsimp only
  repeat' first
    | with_reducible assumption | with_reducible apply State.setLanes_keeps | with_reducible apply State.removeGroup_keeps
    | (simp only [keeps_mk]; refine ⟨?_, ?_, ?_⟩) | with_reducible apply Keeps.pending | with_reducible apply Keeps.hbm
    | with_reducible apply Keeps.sites | split

theorem State.laneFault_keeps {z : State} {s : State} (g : Sys2Proof.GroupId) (lane : Nat) (hz : Keeps z s) :
    Keeps z (State.laneFault s g lane) := by
  unfold State.laneFault
  try dsimp only
  repeat' first
    | with_reducible assumption | with_reducible apply State.laneLasting_keeps | with_reducible apply State.fault24_keeps | split

theorem State.blockErrors_keeps {z : State} {s : State} (g : Sys2Proof.GroupId) (b : List Sys2Proof.CodeWord) (hz : Keeps z s) :
    Keeps z (State.blockErrors s g b) := by
  unfold State.blockErrors
  try dsimp only
  repeat' first
    | with_reducible assumption | with_reducible apply State.laneFault_keeps | with_reducible apply State.bumpD_keeps
    | with_reducible apply State.setD_keeps | with_reducible apply foldl_keeps | split | intro _

theorem State.keepBlock_keeps {z : State} {s : State} (g : Sys2Proof.GroupId) (b : Option (List Sys2Proof.CodeWord)) (hz : Keeps z s) :
    Keeps z (State.keepBlock s g b) := by
  unfold State.keepBlock
  try dsimp only
  repeat' first
    | with_reducible assumption | (simp only [keeps_mk]; refine ⟨?_, ?_, ?_⟩) | with_reducible apply Keeps.pending
    | with_reducible apply Keeps.hbm | with_reducible apply Keeps.sites

theorem State.learnBlock_keeps {z : State} {s : State} (g : Sys2Proof.GroupId) (b : List Sys2Proof.CodeWord) (hz : Keeps z s) :
    Keeps z (State.learnBlock s g b) := by
  unfold State.learnBlock
  try dsimp only
  repeat' first
    | with_reducible assumption | (simp only [keeps_mk]; refine ⟨?_, ?_, ?_⟩) | with_reducible apply Keeps.pending
    | with_reducible apply Keeps.hbm | with_reducible apply Keeps.sites

theorem State.deliverBlock_keeps {z : State} {s : State} (g : Sys2Proof.GroupId) (b : List Sys2Proof.CodeWord) (hz : Keeps z s) :
    Keeps z (State.deliverBlock s g b) := by
  unfold State.deliverBlock
  try dsimp only
  repeat' first | with_reducible assumption | with_reducible apply State.emit_keeps

theorem State.askBlock_keeps {z : State} {s : State} (g : Sys2Proof.GroupId) (why : Nat) (hz : Keeps z s) :
    Keeps z (State.askBlock s g why) := by
  unfold State.askBlock
  try dsimp only
  repeat' first
    | with_reducible assumption | with_reducible apply State.emit_keeps | (simp only [keeps_mk]; refine ⟨?_, ?_, ?_⟩)
    | with_reducible apply Keeps.pending | with_reducible apply Keeps.hbm | with_reducible apply Keeps.sites

theorem State.moveOver_keeps {z : State} {s : State} (g : Sys2Proof.GroupId) (hz : Keeps z s) :
    Keeps z (State.moveOver s g) := by
  unfold State.moveOver
  try dsimp only
  repeat' first | with_reducible assumption | with_reducible apply State.keepBlock_keeps | with_reducible apply State.askBlock_keeps | split

theorem State.moveBlock_keeps {z : State} {s : State} (g : Sys2Proof.GroupId) (hz : Keeps z s) :
    Keeps z (State.moveBlock s g) := by
  unfold State.moveBlock
  try dsimp only
  repeat' first | with_reducible assumption | with_reducible apply State.removeGroup_keeps | with_reducible apply State.moveOver_keeps

theorem State.retryBlock_keeps {z : State} {s : State} (g : Sys2Proof.GroupId) (hz : Keeps z s) :
    Keeps z (State.retryBlock s g) := by
  unfold State.retryBlock
  try dsimp only
  repeat' first | with_reducible assumption | with_reducible apply State.askBlock_keeps | with_reducible apply State.moveOver_keeps | split

theorem State.dropPhase_keeps {z : State} {s : State} (r : Nat) (p : Nat) (hz : Keeps z s) :
    Keeps z (State.dropPhase s r p) := by
  unfold State.dropPhase
  try dsimp only
  repeat' first
    | with_reducible assumption | (simp only [keeps_mk]; refine ⟨?_, ?_, ?_⟩) | with_reducible apply Keeps.pending
    | with_reducible apply Keeps.hbm | with_reducible apply Keeps.sites

theorem State.lineLasting_keeps {z : State} {s : State} (kind : Nat) (unit : Nat) (hz : Keeps z s) :
    Keeps z (State.lineLasting s kind unit) := by
  unfold State.lineLasting
  try dsimp only
  repeat' first
    | with_reducible assumption | with_reducible apply State.onSite_keeps | with_reducible apply State.makeLasting_keeps
    | with_reducible apply State.refit_keeps | with_reducible apply State.setRepairs_wf
    | (simp only [Site.memsWf_mk, Bool.and_eq_true]; refine ⟨⟨?_, ?_⟩, ?_⟩) | with_reducible apply Site.store_wf
    | with_reducible apply Site.istore_wf | with_reducible apply Site.recs_wf | split | intro _

theorem State.takeLasting_keeps {z : State} {s : State} (kind : Nat) (u : Nat) (hz : Keeps z s) :
    Keeps z (State.takeLasting s kind u) := by
  unfold State.takeLasting
  try dsimp only
  repeat' first
    | with_reducible assumption | with_reducible apply State.selfLasting_keeps | with_reducible apply State.dropPhase_keeps
    | with_reducible apply State.retirePort_keeps | with_reducible apply State.logHbm_keeps | with_reducible apply State.reserveGone_keeps
    | with_reducible apply State.removeGroup_keeps | with_reducible apply State.laneLasting_keeps
    | with_reducible apply State.lineLasting_keeps | split

theorem State.applyFault_keeps {z : State} {s : State} (kind : Nat) (unit : Nat) (second : Bool) (hz : Keeps z s) :
    Keeps z (State.applyFault s kind unit second).1 := by
  unfold State.applyFault
  try dsimp only
  repeat' first
    | with_reducible assumption | with_reducible apply State.takeLasting_keeps | with_reducible apply State.fault24_keeps | split

theorem State.showFailure_keeps {z : State} {s : State} (e : Sys2Proof.EntryRun) (hz : Keeps z s) :
    Keeps z (State.showFailure s e) := by
  unfold State.showFailure
  try dsimp only
  repeat' first | with_reducible assumption | with_reducible apply State.setHd_keeps

theorem State.runEntry_keeps {z : State} {s : State} (e : Sys2Proof.EntryRun) (hz : Keeps z s) :
    Keeps z (State.runEntry s e).1 := by
  unfold State.runEntry
  try dsimp only
  repeat' first
    | with_reducible assumption | with_reducible apply State.applyFault_keeps | with_reducible apply State.showFailure_keeps | split

theorem State.runMargin_keeps {z : State} (es : List Sys2Proof.EntryRun) {s : State} (e : Sys2Proof.EntryRun) (hz : Keeps z s) :
    Keeps z (State.runMargin es s e) := by
  unfold State.runMargin
  try dsimp only
  repeat' first
    | with_reducible assumption | with_reducible apply State.setTable_keeps | with_reducible apply State.alert_keeps
    | with_reducible apply State.showFailure_keeps | split

theorem State.hardRepair_keeps {z : State} {s : State} (u : Nat) (hz : Keeps z s) :
    Keeps z (State.hardRepair s u) := by
  unfold State.hardRepair
  try dsimp only
  repeat' first
    | with_reducible assumption | with_reducible apply State.setD_keeps | with_reducible apply State.setTable_keeps
    | (simp only [keeps_mk]; refine ⟨?_, ?_, ?_⟩) | with_reducible apply Keeps.pending | with_reducible apply Keeps.hbm
    | with_reducible apply Keeps.sites | split

theorem State.runAll_keeps {z : State} {s : State} (es : List Sys2Proof.EntryRun) (hz : Keeps z s) :
    Keeps z (State.runAll s es).1 := by
  unfold State.runAll
  try dsimp only
  repeat' first
    | with_reducible assumption | with_reducible apply State.runEntry_keeps | with_reducible apply State.runMargin_keeps
    | with_reducible apply foldl_fstKeeps | split | intro _

theorem State.testRuns_keeps {z : State} {s : State} (k : Nat) (hz : Keeps z s) :
    Keeps z (State.testRuns s k) := by
  unfold State.testRuns
  try dsimp only
  repeat' first
    | with_reducible assumption | (simp only [keeps_mk]; refine ⟨?_, ?_, ?_⟩) | with_reducible apply Keeps.pending
    | with_reducible apply Keeps.hbm | with_reducible apply Keeps.sites

theorem State.testTick_keeps {z : State} {s : State} (hz : Keeps z s) :
    Keeps z (State.testTick s) := by
  unfold State.testTick
  try dsimp only
  repeat' first | with_reducible assumption | with_reducible apply State.testRuns_keeps

theorem State.fullTest_keeps {z : State} {s : State} (wher : Nat) (res : Sys2Proof.FullResult) (hz : Keeps z s) :
    Keeps z (State.fullTest s wher res) := by
  unfold State.fullTest
  try dsimp only
  repeat' first
    | with_reducible assumption | with_reducible apply State.skipFree_keeps | with_reducible apply State.runAll_keeps
    | with_reducible apply State.testRuns_keeps | with_reducible apply State.hardRepair_keeps | with_reducible apply foldl_keeps
    | (simp only [keeps_mk]; refine ⟨?_, ?_, ?_⟩) | with_reducible apply Keeps.pending | with_reducible apply Keeps.hbm
    | with_reducible apply Keeps.sites | split | intro _

theorem State.quickTest_keeps {z : State} {s : State} (res : Sys2Proof.QuickResult) (hz : Keeps z s) :
    Keeps z (State.quickTest s res).1 := by
  unfold State.quickTest
  try dsimp only
  repeat' first | with_reducible assumption | with_reducible apply State.testRuns_keeps | with_reducible apply State.runAll_keeps

theorem State.siteTested_keeps {z : State} {s : State} (n : Nat) (ok : Bool) (hz : Keeps z s) :
    Keeps z (State.siteTested s n ok) := by
  unfold State.siteTested
  try dsimp only
  repeat' first
    | with_reducible assumption | with_reducible apply State.closeVisit_keeps | (simp only [keeps_mk]; refine ⟨?_, ?_, ?_⟩)
    | with_reducible apply Keeps.pending | with_reducible apply Keeps.hbm | with_reducible apply Keeps.sites | split

theorem State.ctlTested_keeps {z : State} {s : State} (v : Visit) (rs : List Sys2Proof.EntryRun) (hz : Keeps z s) :
    Keeps z (State.ctlTested s v rs) := by
  unfold State.ctlTested
  try dsimp only
  repeat' first
    | with_reducible assumption | with_reducible apply State.closeVisit_keeps | with_reducible apply State.runAll_keeps
    | (simp only [keeps_mk]; refine ⟨?_, ?_, ?_⟩) | with_reducible apply Keeps.pending | with_reducible apply Keeps.hbm
    | with_reducible apply Keeps.sites | split

theorem State.installPkg_keeps {z : State} {s : State} (b : Sys2Proof.Bytes) (hz : Keeps z s) :
    Keeps z (State.installPkg s b) := by
  unfold State.installPkg
  try dsimp only
  repeat' first
    | with_reducible assumption | with_reducible apply State.extend_keeps | (simp only [keeps_mk]; refine ⟨?_, ?_, ?_⟩)
    | with_reducible apply Keeps.pending | with_reducible apply Keeps.hbm | with_reducible apply Keeps.sites

theorem State.setKey_keeps {z : State} {s : State} (k : Nat) (x : KeySlot) (hz : Keeps z s) :
    Keeps z (State.setKey s k x) := by
  unfold State.setKey
  try dsimp only
  repeat' first
    | with_reducible assumption | (simp only [keeps_mk]; refine ⟨?_, ?_, ?_⟩) | with_reducible apply Keeps.pending
    | with_reducible apply Keeps.hbm | with_reducible apply Keeps.sites

theorem State.reprovision_keeps {z : State} {s : State} (hz : Keeps z s) :
    Keeps z (State.reprovision s) := by
  unfold State.reprovision
  try dsimp only
  repeat' first
    | with_reducible assumption | with_reducible apply State.skipFree_keeps | (simp only [keeps_mk]; refine ⟨?_, ?_, ?_⟩)
    | with_reducible apply Keeps.pending | with_reducible apply Keeps.hbm | with_reducible apply Keeps.sites

theorem State.scanUnlock_keeps {z : State} {s : State} (hz : Keeps z s) :
    Keeps z (State.scanUnlock s) := by
  unfold State.scanUnlock
  try dsimp only
  repeat' first
    | with_reducible assumption | with_reducible apply State.setHd_keeps | with_reducible apply State.raiseAlarm_keeps
    | with_reducible apply State.eraseKeys_keeps | with_reducible apply State.skipFree_keeps | split

theorem State.reqEffect_keeps {z : State} {s : State} (b : Sys2Proof.Bytes) (hz : Keeps z s) :
    Keeps z (State.reqEffect s b) := by
  unfold State.reqEffect
  try dsimp only
  repeat' first
    | with_reducible assumption | with_reducible apply State.setHd_keeps | with_reducible apply State.setKey_keeps
    | with_reducible apply State.reprovision_keeps | with_reducible apply State.setTable_keeps
    | with_reducible apply State.scanUnlock_keeps | with_reducible apply foldl_keeps | (simp only [keeps_mk]; refine ⟨?_, ?_, ?_⟩)
    | with_reducible apply Keeps.pending | with_reducible apply Keeps.hbm | with_reducible apply Keeps.sites | split | intro _

theorem State.reqRefuse_keeps {z : State} {s : State} (h : Sys2Proof.HostHdr) (code : Nat) (hz : Keeps z s) :
    Keeps z (State.reqRefuse s h code) := by
  unfold State.reqRefuse
  try dsimp only
  repeat' first | with_reducible assumption | with_reducible apply State.countD_keeps | with_reducible apply State.answer_keeps

theorem State.throttle_keeps {z : State} {s : State} (hz : Keeps z s) :
    Keeps z (State.throttle s) := by
  unfold State.throttle
  try dsimp only
  repeat' first
    | with_reducible assumption | with_reducible apply State.setHd_keeps | with_reducible apply State.bumpHd_keeps
    | with_reducible apply State.sendAlarm_keeps

theorem State.cleared_keeps {z : State} {s : State} (keep : List Nat) (hz : Keeps z s) : Keeps z (State.cleared s keep) :=
  ⟨hz.pending, fun _ => rfl⟩

theorem State.loseInput_keeps {z : State} {s : State} (hz : Keeps z s) :
    Keeps z (State.loseInput s) := by
  unfold State.loseInput
  try dsimp only
  repeat' first
    | with_reducible assumption | with_reducible apply State.meterLoss_keeps | with_reducible apply State.cleared_keeps
    | (simp only [keeps_mk]; refine ⟨?_, ?_, ?_⟩) | with_reducible apply Keeps.pending | with_reducible apply Keeps.hbm
    | with_reducible apply Keeps.sites | split

theorem State.showThermal_keeps {z : State} {s : State} (t : Sys2Proof.Thermal) (hz : Keeps z s) :
    Keeps z (State.showThermal s t) := by
  unfold State.showThermal
  try dsimp only
  repeat' first | with_reducible assumption | with_reducible apply State.setHd_keeps | split

theorem State.overTemp_keeps {z : State} {s : State} (hz : Keeps z s) :
    Keeps z (State.overTemp s) := by
  unfold State.overTemp
  try dsimp only
  repeat' first | with_reducible assumption | with_reducible apply State.sendAlarm_keeps | with_reducible apply State.raiseAlarm_keeps

theorem State.regulate_keeps {z : State} {s : State} (t : Sys2Proof.Thermal) (hz : Keeps z s) :
    Keeps z (State.regulate s t) := by
  unfold State.regulate
  try dsimp only
  repeat' first
    | with_reducible assumption | with_reducible apply State.sendAlarm_keeps | (simp only [keeps_mk]; refine ⟨?_, ?_, ?_⟩)
    | with_reducible apply Keeps.pending | with_reducible apply Keeps.hbm | with_reducible apply Keeps.sites | split

theorem State.railUp_keeps {z : State} {s : State} (r : Nat) (hz : Keeps z s) :
    Keeps z (State.railUp s r) := by
  unfold State.railUp
  try dsimp only
  repeat' first
    | with_reducible assumption | with_reducible apply State.skipFree_keeps | with_reducible apply State.dropPhase_keeps
    | with_reducible apply foldl_keeps | (simp only [keeps_mk]; refine ⟨?_, ?_, ?_⟩) | with_reducible apply Keeps.pending
    | with_reducible apply Keeps.hbm | with_reducible apply Keeps.sites | split | intro _

theorem State.railsUp_keeps {z : State} {s : State} (hz : Keeps z s) :
    Keeps z (State.railsUp s) := by
  unfold State.railsUp
  try dsimp only
  repeat' first | with_reducible assumption | with_reducible apply State.railUp_keeps | with_reducible apply foldl_keeps

theorem State.digestsDone_keeps {z : State} {s : State} (hz : Keeps z s) :
    Keeps z (State.digestsDone s) := by
  unfold State.digestsDone
  try dsimp only
  repeat' first
    | with_reducible assumption | with_reducible apply State.checkPart_keeps | with_reducible apply State.setHd_keeps
    | with_reducible apply State.notePages_keeps | with_reducible apply foldl_keeps | (simp only [keeps_mk]; refine ⟨?_, ?_, ?_⟩)
    | with_reducible apply Keeps.pending | with_reducible apply Keeps.hbm | with_reducible apply Keeps.sites | split | intro _

theorem State.writePage_keeps {z : State} {s : State} (p : Sys2Proof.PageData) (hz : Keeps z s) :
    Keeps z (State.writePage s p) := by
  unfold State.writePage
  try dsimp only
  repeat' first
    | with_reducible assumption | with_reducible apply Mem.store_wf | (simp only [keeps_mk]; refine ⟨?_, ?_, ?_⟩)
    | with_reducible apply Keeps.pending | with_reducible apply Keeps.hbm | with_reducible apply Keeps.sites | intro _

theorem State.sendRepair_keeps {z : State} {s : State} (own : Bool) (pages : List Sys2Proof.PageData) (hz : Keeps z s) :
    Keeps z (State.sendRepair s own pages) := by
  unfold State.sendRepair
  try dsimp only
  repeat' first | with_reducible assumption | with_reducible apply State.notePages_keeps | with_reducible apply State.emits_keeps | split

theorem State.needTier3_keeps {z : State} {s : State} (hz : Keeps z s) :
    Keeps z (State.needTier3 s) := by
  unfold State.needTier3
  try dsimp only
  repeat' first
    | with_reducible assumption | with_reducible apply State.reportFault_keeps | (simp only [keeps_mk]; refine ⟨?_, ?_, ?_⟩)
    | with_reducible apply Keeps.pending | with_reducible apply Keeps.hbm | with_reducible apply Keeps.sites

theorem State.refereed_keeps {z : State} {s : State} (shard : Nat) (result : BitVec 256) (copies : List Sys2Proof.DigestRec) (hz : Keeps z s) :
    Keeps z (State.refereed s shard result copies) := by
  unfold State.refereed
  try dsimp only
  repeat' first
    | with_reducible assumption | with_reducible apply State.setHd_keeps | with_reducible apply State.copyLoss_keeps
    | with_reducible apply foldl_keeps | (simp only [keeps_mk]; refine ⟨?_, ?_, ?_⟩) | with_reducible apply Keeps.pending
    | with_reducible apply Keeps.hbm | with_reducible apply Keeps.sites | split | intro _

theorem State.sendReferee_keeps {z : State} {s : State} (referee : BitVec 64) (shard : Nat) (hz : Keeps z s) :
    Keeps z (State.sendReferee s referee shard) := by
  unfold State.sendReferee
  try dsimp only
  repeat' first | with_reducible assumption | with_reducible apply State.notePages_keeps | with_reducible apply State.emit_keeps | split

theorem State.refereeRun_keeps {z : State} {s : State} (step : BitVec 64) (block : Sys2Proof.Bytes) (pages : List Sys2Proof.PageData) (hz : Keeps z s) :
    Keeps z (State.refereeRun s step block pages) := by
  unfold State.refereeRun
  try dsimp only
  repeat' first
    | with_reducible assumption | with_reducible apply State.setPhase_keeps | with_reducible apply State.writePage_keeps
    | with_reducible apply State.dueAll_keeps | with_reducible apply State.setGate_keeps | with_reducible apply foldl_keeps
    | (simp only [keeps_mk]; refine ⟨?_, ?_, ?_⟩) | with_reducible apply Keeps.pending | with_reducible apply Keeps.hbm
    | with_reducible apply Keeps.sites

theorem State.sendPage_keeps {z : State} {s : State} (page : Nat) (hz : Keeps z s) :
    Keeps z (State.sendPage s page) := by
  unfold State.sendPage
  try dsimp only
  repeat' first | with_reducible assumption | with_reducible apply State.notePages_keeps | with_reducible apply State.emits_keeps | split

theorem State.noCopyVerdict_keeps {z : State} {s : State} (c : Nat) (hz : Keeps z s) :
    Keeps z (State.noCopyVerdict s c) := by
  unfold State.noCopyVerdict
  try dsimp only
  repeat' first
    | with_reducible assumption | with_reducible apply State.needTier3_keeps | with_reducible apply State.setHd_keeps
    | (simp only [keeps_mk]; refine ⟨?_, ?_, ?_⟩) | with_reducible apply Keeps.pending | with_reducible apply Keeps.hbm
    | with_reducible apply Keeps.sites | split

theorem State.badSource_keeps {z : State} {s : State} (page : Nat) (holder : Nat) (hz : Keeps z s) :
    Keeps z (State.badSource s page holder) := by
  unfold State.badSource
  try dsimp only
  repeat' first
    | with_reducible assumption | with_reducible apply State.noCopyVerdict_keeps | (simp only [keeps_mk]; refine ⟨?_, ?_, ?_⟩)
    | with_reducible apply Keeps.pending | with_reducible apply Keeps.hbm | with_reducible apply Keeps.sites | split

theorem State.noteRewind_keeps {z : State} {s : State} (tier : Nat) (b : Nat) (att : Nat) (hz : Keeps z s) :
    Keeps z (State.noteRewind s tier b att) := by
  unfold State.noteRewind
  try dsimp only
  repeat' first
    | with_reducible assumption | with_reducible apply State.notify_keeps | (simp only [keeps_mk]; refine ⟨?_, ?_, ?_⟩)
    | with_reducible apply Keeps.pending | with_reducible apply Keeps.hbm | with_reducible apply Keeps.sites

theorem State.rejoin_keeps {z : State} {s : State} (hz : Keeps z s) :
    Keeps z (State.rejoin s) := by
  unfold State.rejoin
  try dsimp only
  repeat' first
    | with_reducible assumption | with_reducible apply State.mirrorsCurrent_keeps | with_reducible apply State.setHd_keeps
    | with_reducible apply foldl_keeps | (simp only [keeps_mk]; refine ⟨?_, ?_, ?_⟩) | with_reducible apply Keeps.pending
    | with_reducible apply Keeps.hbm | with_reducible apply Keeps.sites | split | intro _

theorem State.releaseHeld_keeps {z : State} {s : State} (hz : Keeps z s) :
    Keeps z (State.releaseHeld s) := by
  unfold State.releaseHeld
  try dsimp only
  repeat' first
    | with_reducible assumption | with_reducible apply State.dueAll_keeps | with_reducible apply State.freshEngines_keeps
    | with_reducible apply State.setGate_keeps | with_reducible apply State.setHd_keeps | with_reducible apply State.rejoin_keeps
    | (simp only [keeps_mk]; refine ⟨?_, ?_, ?_⟩) | with_reducible apply Keeps.pending | with_reducible apply Keeps.hbm
    | with_reducible apply Keeps.sites | split

theorem State.tier1_keeps {z : State} {s : State} (hz : Keeps z s) :
    Keeps z (State.tier1 s) := by
  unfold State.tier1
  try dsimp only
  repeat' first
    | with_reducible assumption | with_reducible apply State.rewind_keeps | with_reducible apply State.noteRewind_keeps
    | with_reducible apply State.setHd_keeps | with_reducible apply State.commitStop_keeps | split

theorem State.ownRewind_keeps {z : State} {s : State} (hz : Keeps z s) :
    Keeps z (State.ownRewind s) := by
  unfold State.ownRewind
  try dsimp only
  repeat' first | with_reducible assumption | with_reducible apply State.tier1_keeps | split

theorem State.setTier2_keeps {z : State} {s : State} (t : Tier2) (hz : Keeps z s) :
    Keeps z (State.setTier2 s t) := by
  unfold State.setTier2
  try dsimp only
  repeat' first
    | with_reducible assumption | (simp only [keeps_mk]; refine ⟨?_, ?_, ?_⟩) | with_reducible apply Keeps.pending
    | with_reducible apply Keeps.hbm | with_reducible apply Keeps.sites

theorem State.placeDom_keeps {z : State} {s : State} (subj : Nat) (dom : BitVec 64) (hz : Keeps z s) :
    Keeps z (State.placeDom s subj dom) := by
  unfold State.placeDom
  try dsimp only
  repeat' first
    | with_reducible assumption | with_reducible apply State.ocsSend_keeps | with_reducible apply State.setTier2_keeps
    | with_reducible apply State.emit_keeps | split

theorem State.nextDom_keeps {z : State} {s : State} (subj : Nat) (hz : Keeps z s) :
    Keeps z (State.nextDom s subj) := by
  unfold State.nextDom
  try dsimp only
  repeat' first | with_reducible assumption | with_reducible apply State.placeDom_keeps | split

theorem State.sendTransfers_keeps {z : State} {s : State} (subj : Nat) (hz : Keeps z s) :
    Keeps z (State.sendTransfers s subj) := by
  unfold State.sendTransfers
  try dsimp only
  repeat' first | with_reducible assumption | with_reducible apply State.notePages_keeps | with_reducible apply State.emit_keeps | split

theorem State.transferIn_keeps {z : State} {s : State} (t : Tier2) (c : Nat) (x : Sys2Proof.Transfer) (hz : Keeps z s) :
    Keeps z (State.transferIn s t c x) := by
  unfold State.transferIn
  try dsimp only
  repeat' first
    | with_reducible assumption | with_reducible apply State.mgtSend_keeps | with_reducible apply State.setTier2_keeps
    | with_reducible apply State.writePage_keeps | with_reducible apply foldl_keeps | (simp only [keeps_mk]; refine ⟨?_, ?_, ?_⟩)
    | with_reducible apply Keeps.pending | with_reducible apply Keeps.hbm | with_reducible apply Keeps.sites | split

theorem State.transferFails_keeps {z : State} {s : State} (t : Tier2) (c : Nat) (holder : Nat) (hz : Keeps z s) :
    Keeps z (State.transferFails s t c holder) := by
  unfold State.transferFails
  try dsimp only
  repeat' first
    | with_reducible assumption | with_reducible apply State.needTier3_keeps | with_reducible apply State.setTier2_keeps
    | with_reducible apply State.reportFault_keeps | split

theorem State.enterStage_keeps {z : State} {s : State} (t : Tier2) (n : Nat) (hz : Keeps z s) :
    Keeps z (State.enterStage s t n) := by
  unfold State.enterStage
  try dsimp only
  repeat' first | with_reducible assumption | with_reducible apply State.setTier2_keeps

theorem State.lateStage_keeps {z : State} {s : State} (t : Tier2) (bound : Nat) (blame : List Nat) (hz : Keeps z s) :
    Keeps z (State.lateStage s t bound blame) := by
  unfold State.lateStage
  try dsimp only
  repeat' first
    | with_reducible assumption | with_reducible apply State.enterStage_keeps | with_reducible apply State.missDeadline_keeps | split

theorem State.stageTick_keeps {z : State} {s : State} (hz : Keeps z s) :
    Keeps z (State.stageTick s) := by
  unfold State.stageTick
  try dsimp only
  repeat' first
    | with_reducible assumption | with_reducible apply State.lateStage_keeps | with_reducible apply State.enterStage_keeps | split

theorem State.catchUpRun_keeps {z : State} {s : State} (x : Sys2Proof.CatchUp) (hz : Keeps z s) :
    Keeps z (State.catchUpRun s x) := by
  unfold State.catchUpRun
  try dsimp only
  repeat' first
    | with_reducible assumption | with_reducible apply State.setHd_keeps | with_reducible apply State.mirrorsAt_keeps
    | with_reducible apply State.enterRun_keeps | with_reducible apply State.dueAll_keeps | with_reducible apply State.freshEngines_keeps
    | (simp only [keeps_mk]; refine ⟨?_, ?_, ?_⟩) | with_reducible apply Keeps.pending | with_reducible apply Keeps.hbm
    | with_reducible apply Keeps.sites

theorem State.holderCatchUp_keeps {z : State} {s : State} (idx : Nat) (hz : Keeps z s) :
    Keeps z (State.holderCatchUp s idx) := by
  unfold State.holderCatchUp
  try dsimp only
  repeat' first
    | with_reducible assumption | with_reducible apply State.restorePages_keeps | with_reducible apply State.setPageSt_keeps
    | with_reducible apply foldl_keeps | (simp only [keeps_mk]; refine ⟨?_, ?_, ?_⟩) | with_reducible apply Keeps.pending
    | with_reducible apply Keeps.hbm | with_reducible apply Keeps.sites | intro _

theorem State.bootFirmware_keeps {z : State} {s : State} (hz : Keeps z s) :
    Keeps z (State.bootFirmware s) := by
  unfold State.bootFirmware
  try dsimp only
  repeat' first
    | with_reducible assumption | with_reducible apply State.setHd_keeps | with_reducible apply State.extend_keeps
    | (simp only [keeps_mk]; refine ⟨?_, ?_, ?_⟩) | with_reducible apply Keeps.pending | with_reducible apply Keeps.hbm
    | with_reducible apply Keeps.sites | split

theorem State.contentSlots_keeps {z : State} {s : State} (hz : Keeps z s) :
    Keeps z (State.contentSlots s) := by
  unfold State.contentSlots
  try dsimp only
  repeat' first | with_reducible assumption | with_reducible apply State.setKey_keeps | with_reducible apply foldl_keeps | split | intro _

theorem State.bootStage1_keeps {z : State} {s : State} (hz : Keeps z s) :
    Keeps z (State.bootStage1 s) := by
  unfold State.bootStage1
  try dsimp only
  repeat' first
    | with_reducible assumption | with_reducible apply State.setHd_keeps | with_reducible apply State.setD_keeps
    | with_reducible apply State.contentSlots_keeps | with_reducible apply State.extend_keeps | with_reducible apply foldl_keeps | split
    | intro _

theorem State.stackUp_keeps {z : State} {s : State} (stack : Nat) (hz : Keeps z s) :
    Keeps z (State.stackUp s stack) := by
  unfold State.stackUp
  try dsimp only
  repeat' first
    | with_reducible assumption | with_reducible apply State.setD_keeps | (simp only [keeps_mk]; refine ⟨?_, ?_, ?_⟩)
    | with_reducible apply Keeps.pending | with_reducible apply Keeps.hbm | with_reducible apply Keeps.sites

theorem State.portsTrain_keeps {z : State} {s : State} (hz : Keeps z s) :
    Keeps z (State.portsTrain s) := by
  unfold State.portsTrain
  try dsimp only
  repeat' first
    | with_reducible assumption | with_reducible apply State.setPort_keeps | with_reducible apply State.setPortState_keeps
    | with_reducible apply foldl_keeps | split | intro _

theorem State.bootLast_keeps {z : State} {s : State} (hz : Keeps z s) :
    Keeps z (State.bootLast s) := by
  unfold State.bootLast
  try dsimp only
  repeat' first
    | with_reducible assumption | with_reducible apply State.notify_keeps | with_reducible apply State.portsTrain_keeps
    | (simp only [keeps_mk]; refine ⟨?_, ?_, ?_⟩) | with_reducible apply Keeps.pending | with_reducible apply Keeps.hbm
    | with_reducible apply Keeps.sites

theorem State.bootRest_keeps {z : State} {s : State} (b : Sys2Proof.BootInput) (hz : Keeps z s) :
    Keeps z (State.bootRest s b) := by
  unfold State.bootRest
  try dsimp only
  repeat' first
    | with_reducible assumption | with_reducible apply State.bootLast_keeps | with_reducible apply State.fullTest_keeps
    | with_reducible apply State.quickTest_keeps | with_reducible apply State.bootStage1_keeps | with_reducible apply State.stackUp_keeps
    | with_reducible apply State.railsUp_keeps | with_reducible apply State.setD_keeps | with_reducible apply foldl_keeps | split
    | intro _

theorem State.boot_keeps {z : State} {s : State} (b : Sys2Proof.BootInput) (hz : Keeps z s) :
    Keeps z (State.boot s b) := by
  unfold State.boot
  try dsimp only
  repeat' first
    | with_reducible assumption | with_reducible apply State.bootRest_keeps | with_reducible apply State.raiseAlarm_keeps
    | with_reducible apply State.bootFirmware_keeps | (simp only [keeps_mk]; refine ⟨?_, ?_, ?_⟩) | with_reducible apply Keeps.pending
    | with_reducible apply Keeps.hbm | with_reducible apply Keeps.sites | split

theorem State.meterUpAgain_keeps {z : State} {s : State} (b : Sys2Proof.BootInput) (hz : Keeps z s) :
    Keeps z (State.meterUpAgain s b) := by
  unfold State.meterUpAgain
  try dsimp only
  repeat' first
    | with_reducible assumption | with_reducible apply State.alert_keeps | with_reducible apply State.skipFree_keeps
    | with_reducible apply State.setHd_keeps | with_reducible apply State.meterClose_keeps | (simp only [keeps_mk]; refine ⟨?_, ?_, ?_⟩)
    | with_reducible apply Keeps.pending | with_reducible apply Keeps.hbm | with_reducible apply Keeps.sites | split

theorem State.admitJob_keeps {z : State} {s : State} (h : Sys2Proof.HostHdr) (step0 : BitVec 64) (restore : Bool) (hz : Keeps z s) :
    Keeps z (State.admitJob s h step0 restore) := by
  unfold State.admitJob
  try dsimp only
  repeat' first
    | with_reducible assumption | with_reducible apply State.queryAll_keeps | with_reducible apply State.reportReady_keeps
    | with_reducible apply State.holdRequest_keeps | (simp only [keeps_mk]; refine ⟨?_, ?_, ?_⟩) | with_reducible apply Keeps.pending
    | with_reducible apply Keeps.hbm | with_reducible apply Keeps.sites | split

theorem State.refuseFree_keeps {z : State} {s : State} (h : Sys2Proof.HostHdr) (code : Nat) (step0 : BitVec 64) (hz : Keeps z s) :
    Keeps z (State.refuseFree s h code step0) := by
  unfold State.refuseFree
  try dsimp only
  repeat' first | with_reducible assumption | with_reducible apply State.answer_keeps | with_reducible apply State.skipFree_keeps

theorem State.mgtRespond_keeps {z : State} {s : State} (typ : Nat) (status : Nat) (code : Nat) (dev : Nat) (hz : Keeps z s) :
    Keeps z (State.mgtRespond s typ status code dev) := by
  unfold State.mgtRespond
  try dsimp only
  repeat' first | with_reducible assumption | with_reducible apply State.emit_keeps

theorem State.mgtAnswer_keeps {z : State} {s : State} (typ : Nat) (ok : Bool) (dev : Nat) (hz : Keeps z s) :
    Keeps z (State.mgtAnswer s typ ok dev) := by
  unfold State.mgtAnswer
  try dsimp only
  repeat' first | with_reducible assumption | with_reducible apply State.bumpHd_keeps | with_reducible apply State.mgtRespond_keeps | split

theorem State.sendStart_keeps {z : State} {s : State} (hz : Keeps z s) :
    Keeps z (State.sendStart s) := by
  unfold State.sendStart
  try dsimp only
  repeat' first
    | with_reducible assumption | with_reducible apply State.mgtSend_keeps | (simp only [keeps_mk]; refine ⟨?_, ?_, ?_⟩)
    | with_reducible apply Keeps.pending | with_reducible apply Keeps.hbm | with_reducible apply Keeps.sites

theorem State.readyFrom_keeps {z : State} {s : State} (dev : Nat) (step0 : BitVec 64) (jobLo : BitVec 32) (hz : Keeps z s) :
    Keeps z (State.readyFrom s dev step0 jobLo) := by
  unfold State.readyFrom
  try dsimp only
  repeat' first
    | with_reducible assumption | with_reducible apply State.sendStart_keeps | (simp only [keeps_mk]; refine ⟨?_, ?_, ?_⟩)
    | with_reducible apply Keeps.pending | with_reducible apply Keeps.hbm | with_reducible apply Keeps.sites | split

theorem State.joinSlice_keeps {z : State} {s : State} (hz : Keeps z s) :
    Keeps z (State.joinSlice s) := by
  unfold State.joinSlice
  try dsimp only
  repeat' first
    | with_reducible assumption | with_reducible apply State.dueAll_keeps | with_reducible apply State.freshEngines_keeps
    | with_reducible apply State.setGate_keeps | with_reducible apply State.setHd_keeps | with_reducible apply State.emit_keeps
    | (simp only [keeps_mk]; refine ⟨?_, ?_, ?_⟩) | with_reducible apply Keeps.pending | with_reducible apply Keeps.hbm
    | with_reducible apply Keeps.sites

theorem State.startSlice_keeps {z : State} {s : State} (hz : Keeps z s) :
    Keeps z (State.startSlice s) := by
  unfold State.startSlice
  try dsimp only
  repeat' first
    | with_reducible assumption | with_reducible apply State.releaseHeld_keeps | with_reducible apply State.joinSlice_keeps
    | with_reducible apply State.admitNow_keeps | split

theorem State.mgtAnswered_keeps {z : State} {s : State} (typ : Nat) (dev : Nat) (hz : Keeps z s) :
    Keeps z (State.mgtAnswered s typ dev) := by
  unfold State.mgtAnswered
  try dsimp only
  repeat' first
    | with_reducible assumption | (simp only [keeps_mk]; refine ⟨?_, ?_, ?_⟩) | with_reducible apply Keeps.pending
    | with_reducible apply Keeps.hbm | with_reducible apply Keeps.sites

theorem State.resendMgt_keeps {z : State} {s : State} (hz : Keeps z s) :
    Keeps z (State.resendMgt s) := by
  unfold State.resendMgt
  try dsimp only
  repeat' first
    | with_reducible assumption | with_reducible apply State.bumpHd_keeps | with_reducible apply State.emit_keeps
    | with_reducible apply foldl_keeps | (simp only [keeps_mk]; refine ⟨?_, ?_, ?_⟩) | with_reducible apply Keeps.pending
    | with_reducible apply Keeps.hbm | with_reducible apply Keeps.sites | intro _

theorem State.setLink_keeps {z : State} {s : State} (m : Nat) (st : Nat) (hz : Keeps z s) :
    Keeps z (State.setLink s m st) := by
  unfold State.setLink
  try dsimp only
  repeat' first
    | with_reducible assumption | with_reducible apply State.selfLasting_keeps | (simp only [keeps_mk]; refine ⟨?_, ?_, ?_⟩)
    | with_reducible apply Keeps.pending | with_reducible apply Keeps.hbm | with_reducible apply Keeps.sites | split

theorem State.linkFails_keeps {z : State} {s : State} (m : Nat) (hz : Keeps z s) :
    Keeps z (State.linkFails s m) := by
  unfold State.linkFails
  try dsimp only
  repeat' first
    | with_reducible assumption | with_reducible apply State.setLink_keeps | (simp only [keeps_mk]; refine ⟨?_, ?_, ?_⟩)
    | with_reducible apply Keeps.pending | with_reducible apply Keeps.hbm | with_reducible apply Keeps.sites | split

theorem State.takeFlit_keeps {z : State} {s : State} (m : Nat) (fl : Sys2Proof.HostFlit) (hz : Keeps z s) :
    Keeps z (State.takeFlit s m fl) := by
  unfold State.takeFlit
  try dsimp only
  repeat' first
    | with_reducible assumption | with_reducible apply State.replayFlits_keeps | with_reducible apply State.sendFlits_keeps
    | with_reducible apply State.bumpHd_keeps | with_reducible apply State.countD_keeps | (simp only [keeps_mk]; refine ⟨?_, ?_, ?_⟩)
    | with_reducible apply Keeps.pending | with_reducible apply Keeps.hbm | with_reducible apply Keeps.sites | split

theorem State.idleTick_keeps {z : State} {s : State} (hz : Keeps z s) :
    Keeps z (State.idleTick s) := by
  unfold State.idleTick
  try dsimp only
  repeat' first
    | with_reducible assumption | with_reducible apply State.fabricTick_keeps | with_reducible apply State.stageTick_keeps
    | with_reducible apply State.ownRewind_keeps | with_reducible apply State.sendFlits_keeps | with_reducible apply State.testTick_keeps

theorem State.pelDrop_keeps {z : State} {s : State} (h : Sys2Proof.PelHdr) (hz : Keeps z s) :
    Keeps z (State.pelDrop s h) := by
  unfold State.pelDrop
  try dsimp only
  repeat' first | with_reducible assumption | with_reducible apply State.bumpD_keeps | with_reducible apply State.bumpHd_keeps | split

theorem State.pelIn_keeps {z : State} {s : State} (h : Sys2Proof.PelHdr) (old : Bool) (bad : Bool) (f : State → State) (hz : Keeps z s) (hk : ∀ s, Keeps z s → Keeps z (f s)) :
    Keeps z (State.pelIn s h old bad f) := by
  unfold State.pelIn
  try dsimp only
  repeat' first
    | with_reducible assumption | with_reducible apply State.askSync_keeps | with_reducible apply State.pelDrop_keeps
    | with_reducible apply hk | split

theorem State.quorumCheck_keeps {z : State} {s : State} (hz : Keeps z s) :
    Keeps z (State.quorumCheck s) := by
  unfold State.quorumCheck
  try dsimp only
  repeat' first
    | with_reducible assumption | (simp only [keeps_mk]; refine ⟨?_, ?_, ?_⟩) | with_reducible apply Keeps.pending
    | with_reducible apply Keeps.hbm | with_reducible apply Keeps.sites

theorem State.sendHeartbeat_keeps {z : State} {s : State} (hz : Keeps z s) :
    Keeps z (State.sendHeartbeat s) := by
  unfold State.sendHeartbeat
  try dsimp only
  repeat' first
    | with_reducible assumption | with_reducible apply State.quorumCheck_keeps | with_reducible apply State.pelData_keeps
    | with_reducible apply State.pelMgt_keeps | with_reducible apply foldl_keeps | (simp only [keeps_mk]; refine ⟨?_, ?_, ?_⟩)
    | with_reducible apply Keeps.pending | with_reducible apply Keeps.hbm | with_reducible apply Keeps.sites | split | intro _

theorem State.hearSubject_keeps {z : State} {s : State} (src : Nat) (seq : Nat) (hz : Keeps z s) :
    Keeps z (State.hearSubject s src seq) := by
  unfold State.hearSubject
  try dsimp only
  repeat' first
    | with_reducible assumption | with_reducible apply State.pelSend_keeps | with_reducible apply State.setHd_keeps
    | with_reducible apply foldl_keeps | split | intro _

theorem State.heartbeatIn_keeps {z : State} {s : State} (src : Nat) (seq : Nat) (plane : Nat) (hz : Keeps z s) :
    Keeps z (State.heartbeatIn s src seq plane) := by
  unfold State.heartbeatIn
  try dsimp only
  repeat' first
    | with_reducible assumption | with_reducible apply State.hearSubject_keeps | with_reducible apply State.quorumCheck_keeps
    | (simp only [keeps_mk]; refine ⟨?_, ?_, ?_⟩) | with_reducible apply Keeps.pending | with_reducible apply Keeps.hbm
    | with_reducible apply Keeps.sites | split

theorem State.missOne_keeps {z : State} {s : State} (subj : Nat) (i : Nat) (hz : Keeps z s) :
    Keeps z (State.missOne s subj i) := by
  unfold State.missOne
  try dsimp only
  repeat' first
    | with_reducible assumption | with_reducible apply State.pelSend_keeps | with_reducible apply State.setHd_keeps
    | with_reducible apply State.countD_keeps | split

theorem State.noteMajority_keeps {z : State} {s : State} (subj : Nat) (hz : Keeps z s) :
    Keeps z (State.noteMajority s subj) := by
  unfold State.noteMajority
  try dsimp only
  repeat' first
    | with_reducible assumption | (simp only [keeps_mk]; refine ⟨?_, ?_, ?_⟩) | with_reducible apply Keeps.pending
    | with_reducible apply Keeps.hbm | with_reducible apply Keeps.sites | split

theorem State.proposeIn_keeps {z : State} {s0 : State} (src : Nat) (newEp : Nat) (subj : Nat) (hz : Keeps z s0) :
    Keeps z (State.proposeIn s0 src newEp subj) := by
  unfold State.proposeIn
  try dsimp only
  repeat' first
    | with_reducible assumption | with_reducible apply State.skipFree_keeps | with_reducible apply State.pelSend_keeps
    | (simp only [keeps_mk]; refine ⟨?_, ?_, ?_⟩) | with_reducible apply Keeps.pending | with_reducible apply Keeps.hbm
    | with_reducible apply Keeps.sites | split

theorem State.giveAtt_keeps {z : State} {s : State} (b : Nat) (att : Nat) (hz : Keeps z s) :
    Keeps z (State.giveAtt s b att) := by
  unfold State.giveAtt
  try dsimp only
  repeat' first
    | with_reducible assumption | (simp only [keeps_mk]; refine ⟨?_, ?_, ?_⟩) | with_reducible apply Keeps.pending
    | with_reducible apply Keeps.hbm | with_reducible apply Keeps.sites

theorem State.sendDeclare_keeps {z : State} {s : State} (p : Proposal) (hz : Keeps z s) :
    Keeps z (State.sendDeclare s p) := by
  unfold State.sendDeclare
  try dsimp only
  repeat' first | with_reducible assumption | with_reducible apply State.giveAtt_keeps | with_reducible apply State.pelSend_keeps

theorem State.acceptIn_keeps {z : State} {s : State} (src : Nat) (m : Sys2Proof.AcceptMsg) (hz : Keeps z s) :
    Keeps z (State.acceptIn s src m) := by
  unfold State.acceptIn
  try dsimp only
  repeat' first
    | with_reducible assumption | with_reducible apply State.sendDeclare_keeps | (simp only [keeps_mk]; refine ⟨?_, ?_, ?_⟩)
    | with_reducible apply Keeps.pending | with_reducible apply Keeps.hbm | with_reducible apply Keeps.sites | split

theorem State.nextWish_keeps {z : State} {s : State} (hz : Keeps z s) :
    Keeps z (State.nextWish s) := by
  unfold State.nextWish
  try dsimp only
  repeat' first
    | with_reducible assumption | with_reducible apply State.propose_keeps | (simp only [keeps_mk]; refine ⟨?_, ?_, ?_⟩)
    | with_reducible apply Keeps.pending | with_reducible apply Keeps.hbm | with_reducible apply Keeps.sites | split

theorem State.unwatch_keeps {z : State} {s : State} (d : Nat) (hz : Keeps z s) :
    Keeps z (State.unwatch s d) := by
  unfold State.unwatch
  try dsimp only
  repeat' first | with_reducible assumption | with_reducible apply State.setHd_keeps | with_reducible apply foldl_keeps | intro _

theorem State.loseMirrors_keeps {z : State} {s : State} (d : Nat) (b : Nat) (hz : Keeps z s) :
    Keeps z (State.loseMirrors s d b) := by
  unfold State.loseMirrors
  try dsimp only
  repeat' first
    | with_reducible assumption | with_reducible apply State.setHd_keeps | with_reducible apply foldl_keeps
    | (simp only [keeps_mk]; refine ⟨?_, ?_, ?_⟩) | with_reducible apply Keeps.pending | with_reducible apply Keeps.hbm
    | with_reducible apply Keeps.sites | split | intro _

theorem State.cdRailsDown_keeps {z : State} {s : State} (hz : Keeps z s) :
    Keeps z (State.cdRailsDown s) := by
  unfold State.cdRailsDown
  try dsimp only
  repeat' first
    | with_reducible assumption | (simp only [keeps_mk]; refine ⟨?_, ?_, ?_⟩) | with_reducible apply Keeps.pending
    | with_reducible apply Keeps.hbm | with_reducible apply Keeps.sites | split

theorem State.sendAckTo_keeps {z : State} {s : State} (dst : List Nat) (kind : Nat) (n : Nat) (hz : Keeps z s) :
    Keeps z (State.sendAckTo s dst kind n) := by
  unfold State.sendAckTo
  try dsimp only
  repeat' first | with_reducible assumption | with_reducible apply State.pelSend_keeps

theorem State.haltWithoutSpare_keeps {z : State} {s : State} (hz : Keeps z s) :
    Keeps z (State.haltWithoutSpare s) := by
  unfold State.haltWithoutSpare
  try dsimp only
  repeat' first | with_reducible assumption | with_reducible apply State.sendHalt_keeps | split

theorem State.adopt_keeps {z : State} {s : State} (ep : Nat) (subj : Nat) (cause : Nat) (tier : Nat) (b : Nat) (ack : List Nat) (hz : Keeps z s) :
    Keeps z (State.adopt s ep subj cause tier b ack) := by
  unfold State.adopt
  try dsimp only
  repeat' first
    | with_reducible assumption | with_reducible apply State.nextWish_keeps | with_reducible apply State.haltWithoutSpare_keeps
    | with_reducible apply State.fence_keeps | with_reducible apply State.cdRailsDown_keeps | with_reducible apply State.unwatch_keeps
    | with_reducible apply State.loseMirrors_keeps | with_reducible apply State.abandonRound_keeps
    | with_reducible apply State.sendAckTo_keeps | with_reducible apply State.setHd_keeps | (simp only [keeps_mk]; refine ⟨?_, ?_, ?_⟩)
    | with_reducible apply Keeps.pending | with_reducible apply Keeps.hbm | with_reducible apply Keeps.sites | split

theorem State.rewindTo_keeps {z : State} {s : State} (tier : Nat) (b : Nat) (att : Nat) (hz : Keeps z s) :
    Keeps z (State.rewindTo s tier b att) := by
  unfold State.rewindTo
  try dsimp only
  repeat' first
    | with_reducible assumption | with_reducible apply State.rewind_keeps | with_reducible apply State.setHd_keeps
    | with_reducible apply State.commitStop_keeps | with_reducible apply State.stopAll_keeps | with_reducible apply State.noteRewind_keeps
    | (simp only [keeps_mk]; refine ⟨?_, ?_, ?_⟩) | with_reducible apply Keeps.pending | with_reducible apply Keeps.hbm
    | with_reducible apply Keeps.sites | split

theorem State.relay_keeps {z : State} {s : State} (src : Nat) (kind : Nat) (ws : List (BitVec 64)) (hz : Keeps z s) :
    Keeps z (State.relay s src kind ws) := by
  unfold State.relay
  try dsimp only
  repeat' first | with_reducible assumption | with_reducible apply State.pelSendAs_keeps | split

theorem State.takeDeclare_keeps {z : State} {s : State} (src : Nat) (m : Sys2Proof.DeclareMsg) (hz : Keeps z s) :
    Keeps z (State.takeDeclare s src m) := by
  unfold State.takeDeclare
  try dsimp only
  repeat' first
    | with_reducible assumption | with_reducible apply State.rewindTo_keeps | with_reducible apply State.adopt_keeps
    | with_reducible apply State.relay_keeps | split

theorem State.takeHeld_keeps {z : State} (k : Nat) {s : State} (hz : Keeps z s) : Keeps z (State.takeHeld k s) := by
  induction k generalizing s with
  | zero => exact hz
  | succ k ih =>
    unfold State.takeHeld
    split
    · split
      · exact hz
      · exact ih (State.takeDeclare_keeps _ _ (by simp only [keeps_mk]; exact ⟨hz.pending, hz.hbm, hz.sites⟩))
    · exact hz

theorem State.declareIn_keeps {z : State} {s : State} (src : Nat) (m : Sys2Proof.DeclareMsg) (hz : Keeps z s) :
    Keeps z (State.declareIn s src m) := by
  unfold State.declareIn
  try dsimp only
  repeat' first
    | with_reducible assumption | with_reducible apply State.askSync_keeps | with_reducible apply State.takeHeld_keeps
    | with_reducible apply State.takeDeclare_keeps | (simp only [keeps_mk]; refine ⟨?_, ?_, ?_⟩) | with_reducible apply Keeps.pending
    | with_reducible apply Keeps.hbm | with_reducible apply Keeps.sites | split

theorem State.syncRepIn_keeps {z : State} {s : State} (ws : List (BitVec 64)) (hz : Keeps z s) :
    Keeps z (State.syncRepIn s ws) := by
  unfold State.syncRepIn
  try dsimp only
  repeat' first
    | with_reducible assumption | with_reducible apply State.takeHeld_keeps | with_reducible apply State.skipFree_keeps
    | with_reducible apply State.adopt_keeps | with_reducible apply foldl_keeps | split | intro _

theorem State.sendRewind_keeps {z : State} {s : State} (cause : Nat) (hz : Keeps z s) :
    Keeps z (State.sendRewind s cause) := by
  unfold State.sendRewind
  try dsimp only
  repeat' first | with_reducible assumption | with_reducible apply State.giveAtt_keeps | with_reducible apply State.pelSend_keeps | split

theorem State.leadDeadline_keeps {z : State} {s : State} (blame : Nat) (detail : Nat) (hz : Keeps z s) :
    Keeps z (State.leadDeadline s blame detail) := by
  unfold State.leadDeadline
  try dsimp only
  repeat' first
    | with_reducible assumption | with_reducible apply State.propose_keeps | with_reducible apply State.sendHalt_keeps
    | with_reducible apply State.sendRewind_keeps | (simp only [keeps_mk]; refine ⟨?_, ?_, ?_⟩) | with_reducible apply Keeps.pending
    | with_reducible apply Keeps.hbm | with_reducible apply Keeps.sites | split

theorem State.leadFault_keeps {z : State} {s : State} (cause : Nat) (blame : Nat) (detail : Nat) (hz : Keeps z s) :
    Keeps z (State.leadFault s cause blame detail) := by
  unfold State.leadFault
  try dsimp only
  repeat' first
    | with_reducible assumption | with_reducible apply State.sendRewind_keeps | with_reducible apply State.leadDeadline_keeps
    | with_reducible apply State.sendHalt_keeps | (simp only [keeps_mk]; refine ⟨?_, ?_, ?_⟩) | with_reducible apply Keeps.pending
    | with_reducible apply Keeps.hbm | with_reducible apply Keeps.sites | split

theorem State.lateDomestique_keeps {z : State} {s : State} (subj : Nat) (hz : Keeps z s) :
    Keeps z (State.lateDomestique s subj) := by
  unfold State.lateDomestique
  try dsimp only
  repeat' first | with_reducible assumption | with_reducible apply State.emit_keeps | with_reducible apply State.nextDom_keeps | split

theorem State.forwardFault_keeps {z : State} {s : State} (h : Sys2Proof.PelHdr) (m : Sys2Proof.FaultMsg) (hz : Keeps z s) :
    Keeps z (State.forwardFault s h m) := by
  unfold State.forwardFault
  try dsimp only
  repeat' first | with_reducible assumption | with_reducible apply State.emit_keeps | split

theorem State.faultOnce_keeps {z : State} {s : State} (m : Sys2Proof.FaultMsg) (hz : Keeps z s) :
    Keeps z (State.faultOnce s m) := by
  unfold State.faultOnce
  try dsimp only
  repeat' first
    | with_reducible assumption | with_reducible apply State.noteBlame_keeps | with_reducible apply State.leadFault_keeps
    | with_reducible apply State.lateDomestique_keeps | (simp only [keeps_mk]; refine ⟨?_, ?_, ?_⟩) | with_reducible apply Keeps.pending
    | with_reducible apply Keeps.hbm | with_reducible apply Keeps.sites | split

theorem State.faultIn_keeps {z : State} {s : State} (h : Sys2Proof.PelHdr) (m : Sys2Proof.FaultMsg) (hz : Keeps z s) :
    Keeps z (State.faultIn s h m) := by
  unfold State.faultIn
  try dsimp only
  repeat' first
    | with_reducible assumption | with_reducible apply State.forwardFault_keeps | with_reducible apply State.faultOnce_keeps
    | (simp only [keeps_mk]; refine ⟨?_, ?_, ?_⟩) | with_reducible apply Keeps.pending | with_reducible apply Keeps.hbm
    | with_reducible apply Keeps.sites | split

theorem State.rewindIn_keeps {z : State} {s : State} (src : Nat) (m : Sys2Proof.RewindMsg) (hz : Keeps z s) :
    Keeps z (State.rewindIn s src m) := by
  unfold State.rewindIn
  try dsimp only
  repeat' first
    | with_reducible assumption | with_reducible apply State.relay_keeps | with_reducible apply State.rewindTo_keeps
    | with_reducible apply State.sendAckTo_keeps | split

theorem State.ackIn_keeps {z : State} {s : State} (src : Nat) (kind : Nat) (n : Nat) (hz : Keeps z s) :
    Keeps z (State.ackIn s src kind n) := by
  unfold State.ackIn
  try dsimp only
  repeat' first
    | with_reducible assumption | with_reducible apply State.mgtSend_keeps | (simp only [keeps_mk]; refine ⟨?_, ?_, ?_⟩)
    | with_reducible apply Keeps.pending | with_reducible apply Keeps.hbm | with_reducible apply Keeps.sites | split

theorem State.ocsDrop_keeps {z : State} {s : State} (id : Nat) (hz : Keeps z s) :
    Keeps z (State.ocsDrop s id) := by
  unfold State.ocsDrop
  try dsimp only
  repeat' first
    | with_reducible assumption | (simp only [keeps_mk]; refine ⟨?_, ?_, ?_⟩) | with_reducible apply Keeps.pending
    | with_reducible apply Keeps.hbm | with_reducible apply Keeps.sites

theorem State.ocsLast_keeps {z : State} {s : State} (r : OcsReq) (hz : Keeps z s) :
    Keeps z (State.ocsLast s r) := by
  unfold State.ocsLast
  try dsimp only
  repeat' first
    | with_reducible assumption | with_reducible apply State.ocsDrop_keeps | (simp only [keeps_mk]; refine ⟨?_, ?_, ?_⟩)
    | with_reducible apply Keeps.pending | with_reducible apply Keeps.hbm | with_reducible apply Keeps.sites

theorem State.ocsAgain_keeps {z : State} {s : State} (r : OcsReq) (hz : Keeps z s) :
    Keeps z (State.ocsAgain s r) := by
  unfold State.ocsAgain
  try dsimp only
  repeat' first | with_reducible assumption | with_reducible apply State.ocsLast_keeps | with_reducible apply State.emits_keeps

theorem State.spareRefused_keeps {z : State} {s : State} (r : OcsReq) (hz : Keeps z s) :
    Keeps z (State.spareRefused s r) := by
  unfold State.spareRefused
  try dsimp only
  repeat' first
    | with_reducible assumption | (simp only [keeps_mk]; refine ⟨?_, ?_, ?_⟩) | with_reducible apply Keeps.pending
    | with_reducible apply Keeps.hbm | with_reducible apply Keeps.sites

theorem State.domRefused_keeps {z : State} {s : State} (r : OcsReq) (hz : Keeps z s) :
    Keeps z (State.domRefused s r) := by
  unfold State.domRefused
  try dsimp only
  repeat' first | with_reducible assumption | with_reducible apply State.ocsSend_keeps | with_reducible apply State.nextDom_keeps | split

theorem State.ocsPlaced_keeps {z : State} {s : State} (r : OcsReq) (hz : Keeps z s) :
    Keeps z (State.ocsPlaced s r) := by
  unfold State.ocsPlaced
  try dsimp only
  repeat' first | with_reducible assumption | with_reducible apply State.setTier2_keeps | split

theorem State.showOcs_keeps {z : State} {s : State} (m : Sys2Proof.OcsRsp) (hz : Keeps z s) :
    Keeps z (State.showOcs s m) := by
  unfold State.showOcs
  try dsimp only
  repeat' first | with_reducible assumption | with_reducible apply State.setHd_keeps | split

theorem State.ocsAnswer_keeps {z : State} {s : State} (r : OcsReq) (m : Sys2Proof.OcsRsp) (hz : Keeps z s) :
    Keeps z (State.ocsAnswer s r m) := by
  unfold State.ocsAnswer
  try dsimp only
  repeat' first
    | with_reducible assumption | with_reducible apply State.domRefused_keeps | with_reducible apply State.spareRefused_keeps
    | with_reducible apply State.ocsLast_keeps | with_reducible apply State.ocsStart_keeps | with_reducible apply State.ocsPlaced_keeps
    | with_reducible apply State.ocsDrop_keeps | with_reducible apply State.showOcs_keeps | (simp only [keeps_mk]; refine ⟨?_, ?_, ?_⟩)
    | with_reducible apply Keeps.pending | with_reducible apply Keeps.hbm | with_reducible apply Keeps.sites | split

theorem State.ocsLate_keeps {z : State} {s : State} (m : Sys2Proof.OcsRsp) (hz : Keeps z s) :
    Keeps z (State.ocsLate s m) := by
  unfold State.ocsLate
  try dsimp only
  repeat' first
    | with_reducible assumption | with_reducible apply State.ocsSend_keeps | (simp only [keeps_mk]; refine ⟨?_, ?_, ?_⟩)
    | with_reducible apply Keeps.pending | with_reducible apply Keeps.hbm | with_reducible apply Keeps.sites | split

end Sys2Proof.Machine
end

