-- ==== Sys2Proof/Laws/KeepsCommands.lean ====
section
/-! SUPPORT. Every command ends in a next state, leaves the queue as it is and memories in canonical form. One lemma per meaning. -/

set_option autoImplicit false

namespace Sys2Proof.Machine

theorem execHbmPatrol_keeps {z : State} (stack : Fin 24) (burst : Nat) {s : State} (hz : Keeps z s) :
    ∃ t', execHbmPatrol stack burst s = .next t' ∧ Keeps z t' := by
  unfold execHbmPatrol
  try dsimp only
  repeat' first
    | with_reducible assumption | (with_reducible refine ⟨_, rfl, ?_⟩) | with_reducible apply State.setD_keeps
    | with_reducible apply State.hbmNote_keeps | with_reducible apply Mem.healRange_wf | (simp only [keeps_mk]; refine ⟨?_, ?_, ?_⟩)
    | with_reducible apply Keeps.pending | with_reducible apply Keeps.hbm | with_reducible apply Keeps.sites | split | intro _

theorem execHbmCorrectionRewrite_keeps {z : State} (word : Nat) {s : State} (hz : Keeps z s) :
    ∃ t', execHbmCorrectionRewrite word s = .next t' ∧ Keeps z t' := by
  unfold execHbmCorrectionRewrite
  try dsimp only
  repeat' first
    | with_reducible assumption | (with_reducible refine ⟨_, rfl, ?_⟩) | with_reducible apply Mem.heal_wf
    | (simp only [keeps_mk]; refine ⟨?_, ?_, ?_⟩) | with_reducible apply Keeps.pending | with_reducible apply Keeps.hbm
    | with_reducible apply Keeps.sites | split | intro _

theorem execHbmErrorRecheck_keeps {z : State} (word : Nat) (rereadFails : Bool) {s : State} (hz : Keeps z s) :
    ∃ t', execHbmErrorRecheck word rereadFails s = .next t' ∧ Keeps z t' := by
  unfold execHbmErrorRecheck
  try dsimp only
  repeat' first
    | with_reducible assumption | (with_reducible refine ⟨_, rfl, ?_⟩) | with_reducible apply State.reserveGone_keeps
    | with_reducible apply State.logHbm_keeps | with_reducible apply State.writeBack_keeps | with_reducible apply State.fault24_keeps
    | (simp only [keeps_mk]; refine ⟨?_, ?_, ?_⟩) | with_reducible apply Keeps.pending | with_reducible apply Keeps.hbm
    | with_reducible apply Keeps.sites | split

theorem execPageRetire_keeps {z : State} (stack : Fin 24) (page : Nat) {s : State} (hz : Keeps z s) :
    ∃ t', execPageRetire stack page s = .next t' ∧ Keeps z t' := by
  unfold execPageRetire
  try dsimp only
  repeat' first | with_reducible assumption | (with_reducible refine ⟨_, rfl, ?_⟩) | with_reducible apply State.retirePage_keeps | split

theorem execTagRecordDone_keeps {z : State} (c : Sys2Proof.SiteNo) (j : Fin 16) {s : State} (hz : Keeps z s) :
    ∃ t', execTagRecordDone c j s = .next t' ∧ Keeps z t' := by
  unfold execTagRecordDone
  try dsimp only
  repeat' first
    | with_reducible assumption | (with_reducible refine ⟨_, rfl, ?_⟩) | with_reducible apply State.onSite_keeps
    | with_reducible apply Site.set_wf | (simp only [Site.memsWf_mk, Bool.and_eq_true]; refine ⟨⟨?_, ?_⟩, ?_⟩)
    | with_reducible apply Site.store_wf | with_reducible apply Site.istore_wf | with_reducible apply Site.recs_wf | split | intro _

theorem execTagPop_keeps {z : State} (c : Sys2Proof.SiteNo) {s : State} (hz : Keeps z s) :
    ∃ t', execTagPop c s = .next t' ∧ Keeps z t' := by
  unfold execTagPop
  try dsimp only
  repeat' first
    | with_reducible assumption | (with_reducible refine ⟨_, rfl, ?_⟩) | with_reducible apply State.onSite_keeps
    | with_reducible apply Site.tagPop_wf | split

theorem execDmaComplete_keeps {z : State} (c : Sys2Proof.SiteNo) (k : Nat) (lost : Bool) {s : State} (hz : Keeps z s) :
    ∃ t', execDmaComplete c k lost s = .next t' ∧ Keeps z t' := by
  unfold execDmaComplete
  try dsimp only
  repeat' first
    | with_reducible assumption | (with_reducible refine ⟨_, rfl, ?_⟩) | with_reducible apply State.dmaDone_keeps
    | with_reducible apply State.sendReadies_keeps | split

theorem execBarrierRelease_keeps {z : State} (g : Nat) {s : State} (hz : Keeps z s) :
    ∃ t', execBarrierRelease g s = .next t' ∧ Keeps z t' := by
  unfold execBarrierRelease
  try dsimp only
  repeat' first
    | with_reducible assumption | (with_reducible refine ⟨_, rfl, ?_⟩) | with_reducible apply State.onSite_keeps
    | with_reducible apply State.tokenEvent_keeps | with_reducible apply Site.count_wf | with_reducible apply foldl_keeps
    | (simp only [keeps_mk]; refine ⟨?_, ?_, ?_⟩) | with_reducible apply Keeps.pending | with_reducible apply Keeps.hbm
    | with_reducible apply Keeps.sites | split | intro _

theorem execChannelSlotSent_keeps {z : State} (c : Sys2Proof.SiteNo) (ch : Fin 6) {s : State} (hz : Keeps z s) :
    ∃ t', execChannelSlotSent c ch s = .next t' ∧ Keeps z t' := by
  unfold execChannelSlotSent
  try dsimp only
  repeat' first | with_reducible assumption | (with_reducible refine ⟨_, rfl, ?_⟩) | with_reducible apply State.slotSent_keeps | split

theorem execChannelSlotArrive_keeps {z : State} (c : Sys2Proof.SiteNo) (ch : Fin 6) (m : Sys2Proof.SlotMsg) {s : State} (hz : Keeps z s) :
    ∃ t', execChannelSlotArrive c ch m s = .next t' ∧ Keeps z t' := by
  unfold execChannelSlotArrive
  try dsimp only
  repeat' first | with_reducible assumption | (with_reducible refine ⟨_, rfl, ?_⟩) | with_reducible apply State.slotIn_keeps | split

theorem execChannelCreditReturn_keeps {z : State} (c : Sys2Proof.SiteNo) (ch : Fin 6) (n : BitVec 9) {s : State} (hz : Keeps z s) :
    ∃ t', execChannelCreditReturn c ch n s = .next t' ∧ Keeps z t' := by
  unfold execChannelCreditReturn
  try dsimp only
  repeat' first
    | with_reducible assumption | (with_reducible refine ⟨_, rfl, ?_⟩) | with_reducible apply State.onSite_keeps
    | with_reducible apply Site.setChan_wf | split | intro _

theorem execWaitTimeout_keeps {z : State} (c : Sys2Proof.SiteNo) {s : State} (hz : Keeps z s) :
    ∃ t', execWaitTimeout c s = .next t' ∧ Keeps z t' := by
  unfold execWaitTimeout
  try dsimp only
  repeat' first | with_reducible assumption | (with_reducible refine ⟨_, rfl, ?_⟩) | with_reducible apply State.waitLimit_keeps | split

theorem execCoreHalt_keeps {z : State} (c : Sys2Proof.SiteNo) {s : State} (hz : Keeps z s) :
    ∃ t', execCoreHalt c s = .next t' ∧ Keeps z t' := by
  unfold execCoreHalt
  try dsimp only
  repeat' first
    | with_reducible assumption | (with_reducible refine ⟨_, rfl, ?_⟩) | with_reducible apply State.onSite_keeps
    | with_reducible apply Site.halt_wf | split

theorem execCoreGo_keeps {z : State} (c : Sys2Proof.SiteNo) {s : State} (hz : Keeps z s) :
    ∃ t', execCoreGo c s = .next t' ∧ Keeps z t' := by
  unfold execCoreGo
  try dsimp only
  repeat' first
    | with_reducible assumption | (with_reducible refine ⟨_, rfl, ?_⟩) | with_reducible apply State.onSite_keeps
    | with_reducible apply Site.go_wf | split

theorem execCorePcWrite_keeps {z : State} (c : Sys2Proof.SiteNo) (v : BitVec 32) {s : State} (hz : Keeps z s) :
    ∃ t', execCorePcWrite c v s = .next t' ∧ Keeps z t' := by
  unfold execCorePcWrite
  try dsimp only
  repeat' first
    | with_reducible assumption | (with_reducible refine ⟨_, rfl, ?_⟩) | with_reducible apply State.onSite_keeps
    | with_reducible apply Site.writePc_wf | split | intro _

theorem execCounterWrap_keeps {z : State} (b : Sys2Proof.BankId) (i : Fin 64) {s : State} (hz : Keeps z s) :
    ∃ t', execCounterWrap b i s = .next t' ∧ Keeps z t' := by
  unfold execCounterWrap
  try dsimp only
  repeat' first
    | with_reducible assumption | (with_reducible refine ⟨_, rfl, ?_⟩) | with_reducible apply State.dctrAdd_keeps
    | with_reducible apply State.onSite_keeps | with_reducible apply Site.ctrAdd_wf | split | intro _

theorem execPmcRead_keeps {z : State} (b : Sys2Proof.BankId) (i : Fin 64) (who : Sys2Proof.Writer) {s : State} (hz : Keeps z s) :
    ∃ t', execPmcRead b i who s = .next t' ∧ Keeps z t' := by
  unfold execPmcRead
  try dsimp only
  repeat' first | with_reducible assumption | (with_reducible refine ⟨_, rfl, ?_⟩) | with_reducible apply State.emit_keeps | split

theorem execPmcFreeze_keeps {z : State} (b : Sys2Proof.BankId) (on : Bool) {s : State} (hz : Keeps z s) :
    ∃ t', execPmcFreeze b on s = .next t' ∧ Keeps z t' := by
  unfold execPmcFreeze
  try dsimp only
  repeat' first
    | with_reducible assumption | (with_reducible refine ⟨_, rfl, ?_⟩) | with_reducible apply State.setD_keeps
    | with_reducible apply State.onSite_keeps | with_reducible apply Site.set_wf | split | intro _

theorem execRegWrite_keeps {z : State} (w : Sys2Proof.Writer) (addr : BitVec 44) (v : BitVec 64) (mask : BitVec 64) {s : State} (hz : Keeps z s) :
    ∃ t', execRegWrite w addr v mask s = .next t' ∧ Keeps z t' := by
  unfold execRegWrite
  try dsimp only
  repeat' first
    | with_reducible assumption | (with_reducible refine ⟨_, rfl, ?_⟩) | with_reducible apply State.regWrite_keeps
    | with_reducible apply State.programWrite_keeps | split

theorem execIdentityFrameSend_keeps {z : State} (p : Sys2Proof.PortId) {s : State} (hz : Keeps z s) :
    ∃ t', execIdentityFrameSend p s = .next t' ∧ Keeps z t' := by
  unfold execIdentityFrameSend
  try dsimp only
  repeat' first | with_reducible assumption | (with_reducible refine ⟨_, rfl, ?_⟩) | with_reducible apply State.emit_keeps | split

theorem execIdentityFrameReceive_keeps {z : State} (p : Sys2Proof.PortId) (fr : BitVec 512) {s : State} (hz : Keeps z s) :
    ∃ t', execIdentityFrameReceive p fr s = .next t' ∧ Keeps z t' := by
  unfold execIdentityFrameReceive
  try dsimp only
  repeat' first | with_reducible assumption | (with_reducible refine ⟨_, rfl, ?_⟩) | with_reducible apply State.identityIn_keeps | split

theorem execPortLightReturn_keeps {z : State} (p : Sys2Proof.PortId) {s : State} (hz : Keeps z s) :
    ∃ t', execPortLightReturn p s = .next t' ∧ Keeps z t' := by
  unfold execPortLightReturn
  try dsimp only
  repeat' first | with_reducible assumption | (with_reducible refine ⟨_, rfl, ?_⟩) | with_reducible apply State.setPortState_keeps | split

theorem execPortTrained_keeps {z : State} (p : Sys2Proof.PortId) {s : State} (hz : Keeps z s) :
    ∃ t', execPortTrained p s = .next t' ∧ Keeps z t' := by
  unfold execPortTrained
  try dsimp only
  repeat' first
    | with_reducible assumption | (with_reducible refine ⟨_, rfl, ?_⟩) | with_reducible apply State.setPortState_keeps
    | with_reducible apply State.setPort_keeps | split

theorem execUalarPacketReceive_keeps {z : State} (p : Sys2Proof.PortId) (k : Sys2Proof.UalPkt) {s : State} (hz : Keeps z s) :
    ∃ t', execUalarPacketReceive p k s = .next t' ∧ Keeps z t' := by
  unfold execUalarPacketReceive
  try dsimp only
  repeat' first | with_reducible assumption | (with_reducible refine ⟨_, rfl, ?_⟩) | with_reducible apply State.packetIn_keeps | split

theorem execUalAck_keeps {z : State} (st : Sys2Proof.StreamId) (ack : BitVec 32) {s : State} (hz : Keeps z s) :
    ∃ t', execUalAck st ack s = .next t' ∧ Keeps z t' := by
  unfold execUalAck
  try dsimp only
  repeat' first | with_reducible assumption | (with_reducible refine ⟨_, rfl, ?_⟩) | with_reducible apply State.ackStream_keeps | split

theorem execUalAckTimer_keeps {z : State} (st : Sys2Proof.StreamId) {s : State} (hz : Keeps z s) :
    ∃ t', execUalAckTimer st s = .next t' ∧ Keeps z t' := by
  unfold execUalAckTimer
  try dsimp only
  repeat' first | with_reducible assumption | (with_reducible refine ⟨_, rfl, ?_⟩) | with_reducible apply State.sendAck_keeps | split

theorem execUalRtoExpiry_keeps {z : State} (st : Sys2Proof.StreamId) {s : State} (hz : Keeps z s) :
    ∃ t', execUalRtoExpiry st s = .next t' ∧ Keeps z t' := by
  unfold execUalRtoExpiry
  try dsimp only
  repeat' first | with_reducible assumption | (with_reducible refine ⟨_, rfl, ?_⟩) | with_reducible apply State.rtoExpiry_keeps | split

theorem execEcnEcho_keeps {z : State} (dev : BitVec 16) {s : State} (hz : Keeps z s) :
    ∃ t', execEcnEcho dev s = .next t' ∧ Keeps z t' := by
  unfold execEcnEcho
  try dsimp only
  repeat' first | with_reducible assumption | (with_reducible refine ⟨_, rfl, ?_⟩) | with_reducible apply State.halveRate_keeps

theorem execEcnRateRaise_keeps {z : State} {s : State} (hz : Keeps z s) :
    ∃ t', execEcnRateRaise s = .next t' ∧ Keeps z t' := by
  unfold execEcnRateRaise
  try dsimp only
  repeat' first
    | with_reducible assumption | (with_reducible refine ⟨_, rfl, ?_⟩) | with_reducible apply State.setRate_keeps
    | with_reducible apply foldl_keeps | intro _

theorem execRoceCnp_keeps {z : State} (nd : Fin 2) (qp : Fin 256) {s : State} (hz : Keeps z s) :
    ∃ t', execRoceCnp nd qp s = .next t' ∧ Keeps z t' := by
  unfold execRoceCnp
  try dsimp only
  repeat' first
    | with_reducible assumption | (with_reducible refine ⟨_, rfl, ?_⟩) | (simp only [keeps_mk]; refine ⟨?_, ?_, ?_⟩)
    | with_reducible apply Keeps.pending | with_reducible apply Keeps.hbm | with_reducible apply Keeps.sites

theorem execPfcPause_keeps {z : State} (p : Sys2Proof.PortId) (prio : Fin 8) (pause : Bool) {s : State} (hz : Keeps z s) :
    ∃ t', execPfcPause p prio pause s = .next t' ∧ Keeps z t' := by
  unfold execPfcPause
  try dsimp only
  repeat' first
    | with_reducible assumption | (with_reducible refine ⟨_, rfl, ?_⟩) | with_reducible apply State.setPort_keeps
    | with_reducible apply State.drainPort_keeps | split

theorem execNeighbourSolicitation_keeps {z : State} (p : Sys2Proof.PortId) (target : BitVec 128) {s : State} (hz : Keeps z s) :
    ∃ t', execNeighbourSolicitation p target s = .next t' ∧ Keeps z t' := by
  unfold execNeighbourSolicitation
  try dsimp only
  repeat' first | with_reducible assumption | (with_reducible refine ⟨_, rfl, ?_⟩) | with_reducible apply State.frameOut_keeps | split

theorem execLlrFrameReceive_keeps {z : State} (p : Sys2Proof.PortId) (fr : Sys2Proof.LlrFrame) {s : State} (hz : Keeps z s) :
    ∃ t', execLlrFrameReceive p fr s = .next t' ∧ Keeps z t' := by
  unfold execLlrFrameReceive
  try dsimp only
  repeat' first
    | with_reducible assumption | (with_reducible refine ⟨_, rfl, ?_⟩) | with_reducible apply State.setPort_keeps
    | with_reducible apply State.emit_keeps | with_reducible apply State.llrTake_keeps | with_reducible apply State.bumpPerr_keeps | split

theorem execLlrAckTimer_keeps {z : State} (p : Sys2Proof.PortId) {s : State} (hz : Keeps z s) :
    ∃ t', execLlrAckTimer p s = .next t' ∧ Keeps z t' := by
  unfold execLlrAckTimer
  try dsimp only
  repeat' first
    | with_reducible assumption | (with_reducible refine ⟨_, rfl, ?_⟩) | with_reducible apply State.setPort_keeps
    | with_reducible apply State.emit_keeps | split

theorem execLlrAck_keeps {z : State} (p : Sys2Proof.PortId) (nextSeq : BitVec 24) (replay : Bool) {s : State} (hz : Keeps z s) :
    ∃ t', execLlrAck p nextSeq replay s = .next t' ∧ Keeps z t' := by
  unfold execLlrAck
  try dsimp only
  repeat' first
    | with_reducible assumption | (with_reducible refine ⟨_, rfl, ?_⟩) | with_reducible apply State.replayFrames_keeps
    | with_reducible apply State.sendFrames_keeps | with_reducible apply State.drainPort_keeps | with_reducible apply State.setPort_keeps
    | split

theorem execLlrReplay_keeps {z : State} (p : Sys2Proof.PortId) (fr : Sys2Proof.LlrFrame) {s : State} (hz : Keeps z s) :
    ∃ t', execLlrReplay p fr s = .next t' ∧ Keeps z t' := by
  unfold execLlrReplay
  try dsimp only
  repeat' first
    | with_reducible assumption | (with_reducible refine ⟨_, rfl, ?_⟩) | with_reducible apply State.portFails_keeps
    | with_reducible apply State.llrTake_keeps | with_reducible apply State.bumpPerr_keeps | (simp only [keeps_mk]; refine ⟨?_, ?_, ?_⟩)
    | with_reducible apply Keeps.pending | with_reducible apply Keeps.hbm | with_reducible apply Keeps.sites | split

theorem execPortFailure_keeps {z : State} (p : Sys2Proof.PortId) (cause : BitVec 4) {s : State} (hz : Keeps z s) :
    ∃ t', execPortFailure p cause s = .next t' ∧ Keeps z t' := by
  unfold execPortFailure
  try dsimp only
  repeat' first | with_reducible assumption | (with_reducible refine ⟨_, rfl, ?_⟩) | with_reducible apply State.portFails_keeps | split

theorem execPortRetrainDone_keeps {z : State} (p : Sys2Proof.PortId) (up : Bool) {s : State} (hz : Keeps z s) :
    ∃ t', execPortRetrainDone p up s = .next t' ∧ Keeps z t' := by
  unfold execPortRetrainDone
  try dsimp only
  repeat' first
    | with_reducible assumption | (with_reducible refine ⟨_, rfl, ?_⟩) | with_reducible apply State.fault24_keeps
    | with_reducible apply State.retirePort_keeps | with_reducible apply State.setPortState_keeps
    | with_reducible apply State.setPort_keeps | split

theorem execReplacementRoutes_keeps {z : State} (rs : List Sys2Proof.RouteEntry) {s : State} (hz : Keeps z s) :
    ∃ t', execReplacementRoutes rs s = .next t' ∧ Keeps z t' := by
  unfold execReplacementRoutes
  try dsimp only
  repeat' first
    | with_reducible assumption | (with_reducible refine ⟨_, rfl, ?_⟩) | with_reducible apply State.linkLost_keeps
    | with_reducible apply foldl_keeps | (simp only [keeps_mk]; refine ⟨?_, ?_, ?_⟩) | with_reducible apply Keeps.pending
    | with_reducible apply Keeps.hbm | with_reducible apply Keeps.sites | split | intro _

theorem execFrmload_keeps {z : State} (h : Sys2Proof.HostHdr) {s : State} (hz : Keeps z s) :
    ∃ t', execFrmload h s = .next t' ∧ Keeps z t' := by
  unfold execFrmload
  try dsimp only
  repeat' first
    | with_reducible assumption | (with_reducible refine ⟨_, rfl, ?_⟩) | with_reducible apply State.startLoad_keeps
    | with_reducible apply State.request_keeps | intro _

theorem execFrameLoadComplete_keeps {z : State} (hwFault : Bool) {s : State} (hz : Keeps z s) :
    ∃ t', execFrameLoadComplete hwFault s = .next t' ∧ Keeps z t' := by
  unfold execFrameLoadComplete
  try dsimp only
  repeat' first | with_reducible assumption | (with_reducible refine ⟨_, rfl, ?_⟩) | with_reducible apply State.endLoad_keeps | split

theorem execSecurityAlarm_keeps {z : State} (code : Fin 16) (die : BitVec 4) {s : State} (hz : Keeps z s) :
    ∃ t', execSecurityAlarm code die s = .next t' ∧ Keeps z t' := by
  unfold execSecurityAlarm
  try dsimp only
  repeat' first | with_reducible assumption | (with_reducible refine ⟨_, rfl, ?_⟩) | with_reducible apply State.raiseAlarm_keeps | split

theorem execPllUnlock_keeps {z : State} (d : Fin 12) {s : State} (hz : Keeps z s) :
    ∃ t', execPllUnlock d s = .next t' ∧ Keeps z t' := by
  unfold execPllUnlock
  try dsimp only
  repeat' first | with_reducible assumption | (with_reducible refine ⟨_, rfl, ?_⟩) | with_reducible apply State.clockFault_keeps

theorem execClockGlitch_keeps {z : State} (d : Fin 12) {s : State} (hz : Keeps z s) :
    ∃ t', execClockGlitch d s = .next t' ∧ Keeps z t' := by
  unfold execClockGlitch
  try dsimp only
  repeat' first | with_reducible assumption | (with_reducible refine ⟨_, rfl, ?_⟩) | with_reducible apply State.clockFault_keeps

theorem execFencedStandbyTimer_keeps {z : State} {s : State} (hz : Keeps z s) :
    ∃ t', execFencedStandbyTimer s = .next t' ∧ Keeps z t' := by
  unfold execFencedStandbyTimer
  try dsimp only
  repeat' first | with_reducible assumption | (with_reducible refine ⟨_, rfl, ?_⟩) | with_reducible apply State.sendFenced_keeps | split

theorem execFencedTimer_keeps {z : State} {s : State} (hz : Keeps z s) :
    ∃ t', execFencedTimer s = .next t' ∧ Keeps z t' := by
  unfold execFencedTimer
  try dsimp only
  repeat' first | with_reducible assumption | (with_reducible refine ⟨_, rfl, ?_⟩) | with_reducible apply State.sendFenced_keeps | split

theorem execFence_keeps {z : State} (why : Sys2Proof.FenceWhy) {s : State} (hz : Keeps z s) :
    ∃ t', execFence why s = .next t' ∧ Keeps z t' := by
  unfold execFence
  try dsimp only
  repeat' first | with_reducible assumption | (with_reducible refine ⟨_, rfl, ?_⟩) | with_reducible apply State.fence_keeps | split

theorem execNetworkLinkLoss_keeps {z : State} (nd : Fin 2) {s : State} (hz : Keeps z s) :
    ∃ t', execNetworkLinkLoss nd s = .next t' ∧ Keeps z t' := by
  unfold execNetworkLinkLoss
  try dsimp only
  repeat' first
    | with_reducible assumption | (with_reducible refine ⟨_, rfl, ?_⟩) | (simp only [keeps_mk]; refine ⟨?_, ?_, ?_⟩)
    | with_reducible apply Keeps.pending | with_reducible apply Keeps.hbm | with_reducible apply Keeps.sites | split

theorem execHubLinkStop_keeps {z : State} (cd : Fin 8) {s : State} (hz : Keeps z s) :
    ∃ t', execHubLinkStop cd s = .next t' ∧ Keeps z t' := by
  unfold execHubLinkStop
  try dsimp only
  repeat' first
    | with_reducible assumption | (with_reducible refine ⟨_, rfl, ?_⟩) | with_reducible apply State.onSite_keeps
    | with_reducible apply Site.halt_wf | with_reducible apply foldl_keeps | split | intro _

theorem execCoreGearChange_keeps {z : State} (c : Sys2Proof.SiteNo) {s : State} (hz : Keeps z s) :
    ∃ t', execCoreGearChange c s = .next t' ∧ Keeps z t' := by
  unfold execCoreGearChange
  try dsimp only
  repeat' first | with_reducible assumption | (with_reducible refine ⟨_, rfl, ?_⟩) | with_reducible apply State.coreGear_keeps | split

theorem execStepEntry_keeps {z : State} (c : Sys2Proof.SiteNo) {s : State} (hz : Keeps z s) :
    ∃ t', execStepEntry c s = .next t' ∧ Keeps z t' := by
  unfold execStepEntry
  try dsimp only
  repeat' first
    | with_reducible assumption | (with_reducible refine ⟨_, rfl, ?_⟩) | with_reducible apply State.enterRole_keeps
    | with_reducible apply State.resumed_keeps | with_reducible apply State.entryGate_keeps | split

theorem execCheckVerdict_keeps {z : State} (v : Sys2Proof.SliceTotals) {s : State} (hz : Keeps z s) :
    ∃ t', execCheckVerdict v s = .next t' ∧ Keeps z t' := by
  unfold execCheckVerdict
  try dsimp only
  repeat' first | with_reducible assumption | (with_reducible refine ⟨_, rfl, ?_⟩) | with_reducible apply State.verdict_keeps | split

theorem execCommitPageWrite_keeps {z : State} (c : Sys2Proof.SiteNo) (k : Nat) {s : State} (hz : Keeps z s) :
    ∃ t', execCommitPageWrite c k s = .next t' ∧ Keeps z t' := by
  unfold execCommitPageWrite
  try dsimp only
  repeat' first | with_reducible assumption | (with_reducible refine ⟨_, rfl, ?_⟩) | with_reducible apply State.pageWrite_keeps | split

theorem execPreimageCopyDone_keeps {z : State} (role : Fin 800) {s : State} (hz : Keeps z s) :
    ∃ t', execPreimageCopyDone role s = .next t' ∧ Keeps z t' := by
  unfold execPreimageCopyDone
  try dsimp only
  repeat' first | with_reducible assumption | (with_reducible refine ⟨_, rfl, ?_⟩) | with_reducible apply State.preimageDone_keeps

theorem execGateDone_keeps {z : State} {s : State} (hz : Keeps z s) :
    ∃ t', execGateDone s = .next t' ∧ Keeps z t' := by
  unfold execGateDone
  try dsimp only
  repeat' first
    | with_reducible assumption | (with_reducible refine ⟨_, rfl, ?_⟩) | with_reducible apply State.growLoss_keeps
    | with_reducible apply State.setGate_keeps | with_reducible apply State.mirrorsDone_keeps
    | with_reducible apply State.refereeDone_keeps | split

theorem execStepBoundary_keeps {z : State} {s : State} (hz : Keeps z s) :
    ∃ t', execStepBoundary s = .next t' ∧ Keeps z t' := by
  unfold execStepBoundary
  try dsimp only
  repeat' first | with_reducible assumption | (with_reducible refine ⟨_, rfl, ?_⟩) | with_reducible apply State.boundary_keeps | split

theorem execCommitResume_keeps {z : State} {s : State} (hz : Keeps z s) :
    ∃ t', execCommitResume s = .next t' ∧ Keeps z t' := by
  unfold execCommitResume
  try dsimp only
  repeat' first
    | with_reducible assumption | (with_reducible refine ⟨_, rfl, ?_⟩) | with_reducible apply State.setPhase_keeps
    | with_reducible apply State.restorePages_keeps | with_reducible apply foldl_keeps | (simp only [keeps_mk]; refine ⟨?_, ?_, ?_⟩)
    | with_reducible apply Keeps.pending | with_reducible apply Keeps.hbm | with_reducible apply Keeps.sites | split

theorem execStepRecordEntry_keeps {z : State} (r : Sys2Proof.RecordIn) {s : State} (hz : Keeps z s) :
    ∃ t', execStepRecordEntry r s = .next t' ∧ Keeps z t' := by
  unfold execStepRecordEntry
  try dsimp only
  repeat' first
    | with_reducible assumption | (with_reducible refine ⟨_, rfl, ?_⟩) | with_reducible apply State.partnerEntry_keeps
    | with_reducible apply State.recordEntry_keeps | split

theorem execStepRecordAck_keeps {z : State} (partner : Fin 2) (n : Nat) {s : State} (hz : Keeps z s) :
    ∃ t', execStepRecordAck partner n s = .next t' ∧ Keeps z t' := by
  unfold execStepRecordAck
  try dsimp only
  repeat' first
    | with_reducible assumption | (with_reducible refine ⟨_, rfl, ?_⟩) | (simp only [keeps_mk]; refine ⟨?_, ?_, ?_⟩)
    | with_reducible apply Keeps.pending | with_reducible apply Keeps.hbm | with_reducible apply Keeps.sites | split

theorem execCkOrder_keeps {z : State} (m : Sys2Proof.CkMsg) {s : State} (hz : Keeps z s) :
    ∃ t', execCkOrder m s = .next t' ∧ Keeps z t' := by
  unfold execCkOrder
  try dsimp only
  repeat' first | with_reducible assumption | (with_reducible refine ⟨_, rfl, ?_⟩) | with_reducible apply State.takeOrder_keeps | split

theorem execCkSeal_keeps {z : State} (m : Sys2Proof.CkMsg) {s : State} (hz : Keeps z s) :
    ∃ t', execCkSeal m s = .next t' ∧ Keeps z t' := by
  unfold execCkSeal
  try dsimp only
  repeat' first
    | with_reducible assumption | (with_reducible refine ⟨_, rfl, ?_⟩) | with_reducible apply State.setRound_keeps
    | with_reducible apply State.setHd_keeps | with_reducible apply State.slotWrite_keeps | with_reducible apply State.skipFree_keeps
    | with_reducible apply State.ckAnswer_keeps | with_reducible apply State.ckFail_keeps | split

theorem execCkOk_keeps {z : State} (m : Sys2Proof.CkMsg) {s : State} (hz : Keeps z s) :
    ∃ t', execCkOk m s = .next t' ∧ Keeps z t' := by
  unfold execCkOk
  try dsimp only
  repeat' first
    | with_reducible assumption | (with_reducible refine ⟨_, rfl, ?_⟩) | with_reducible apply State.roundOk_keeps
    | with_reducible apply State.abandonRound_keeps | split

theorem execCheckpointRoundFail_keeps {z : State} (why : Sys2Proof.RoundFail) {s : State} (hz : Keeps z s) :
    ∃ t', execCheckpointRoundFail why s = .next t' ∧ Keeps z t' := by
  unfold execCheckpointRoundFail
  try dsimp only
  repeat' first
    | with_reducible assumption | (with_reducible refine ⟨_, rfl, ?_⟩) | with_reducible apply State.pageSpoiled_keeps
    | with_reducible apply State.ckFail_keeps | split

theorem execCkData_keeps {z : State} (m : Sys2Proof.CkMsg) {s : State} (hz : Keeps z s) :
    ∃ t', execCkData m s = .next t' ∧ Keeps z t' := by
  unfold execCkData
  try dsimp only
  repeat' first
    | with_reducible assumption | (with_reducible refine ⟨_, rfl, ?_⟩) | with_reducible apply State.ckOrderAll_keeps
    | with_reducible apply State.leadAbandon_keeps | (simp only [keeps_mk]; refine ⟨?_, ?_, ?_⟩) | with_reducible apply Keeps.pending
    | with_reducible apply Keeps.hbm | with_reducible apply Keeps.sites | split

theorem execCkSealed_keeps {z : State} (m : Sys2Proof.CkMsg) {s : State} (hz : Keeps z s) :
    ∃ t', execCkSealed m s = .next t' ∧ Keeps z t' := by
  unfold execCkSealed
  try dsimp only
  repeat' first
    | with_reducible assumption | (with_reducible refine ⟨_, rfl, ?_⟩) | with_reducible apply State.ckOrderAll_keeps
    | (simp only [keeps_mk]; refine ⟨?_, ?_, ?_⟩) | with_reducible apply Keeps.pending | with_reducible apply Keeps.hbm
    | with_reducible apply Keeps.sites | split

theorem execCktoExpiry_keeps {z : State} {s : State} (hz : Keeps z s) :
    ∃ t', execCktoExpiry s = .next t' ∧ Keeps z t' := by
  unfold execCktoExpiry
  try dsimp only
  repeat' first | with_reducible assumption | (with_reducible refine ⟨_, rfl, ?_⟩) | with_reducible apply State.leadAbandon_keeps | split

theorem execSnapshotHeldWrite_keeps {z : State} (page : Nat) (who : Sys2Proof.PageWriter) {s : State} (hz : Keeps z s) :
    ∃ t', execSnapshotHeldWrite page who s = .next t' ∧ Keeps z t' := by
  unfold execSnapshotHeldWrite
  try dsimp only
  repeat' first
    | with_reducible assumption | (with_reducible refine ⟨_, rfl, ?_⟩) | with_reducible apply State.bumpD_keeps
    | with_reducible apply State.setRound_keeps | split

theorem execPriorityCopyDone_keeps {z : State} (page : Nat) (ns : Nat) {s : State} (hz : Keeps z s) :
    ∃ t', execPriorityCopyDone page ns s = .next t' ∧ Keeps z t' := by
  unfold execPriorityCopyDone
  try dsimp only
  repeat' first | with_reducible assumption | (with_reducible refine ⟨_, rfl, ?_⟩) | with_reducible apply State.priorityCopy_keeps | split

theorem execStagePageFreed_keeps {z : State} (page : Nat) {s : State} (hz : Keeps z s) :
    ∃ t', execStagePageFreed page s = .next t' ∧ Keeps z t' := by
  unfold execStagePageFreed
  try dsimp only
  repeat' first
    | with_reducible assumption | (with_reducible refine ⟨_, rfl, ?_⟩) | with_reducible apply State.setRound_keeps
    | with_reducible apply State.showRound_keeps | split

theorem execCheckpointPageWriteAck_keeps {z : State} (page : Nat) {s : State} (hz : Keeps z s) :
    ∃ t', execCheckpointPageWriteAck page s = .next t' ∧ Keeps z t' := by
  unfold execCheckpointPageWriteAck
  try dsimp only
  repeat' first | with_reducible assumption | (with_reducible refine ⟨_, rfl, ?_⟩) | with_reducible apply State.ckWritten_keeps | split

theorem execCkQuery_keeps {z : State} (m : Sys2Proof.CkMsg) (slots : List Sys2Proof.Manifest) {s : State} (hz : Keeps z s) :
    ∃ t', execCkQuery m slots s = .next t' ∧ Keeps z t' := by
  unfold execCkQuery
  try dsimp only
  repeat' first | with_reducible assumption | (with_reducible refine ⟨_, rfl, ?_⟩) | with_reducible apply State.answerSlots_keeps | split

theorem execCkSlots_keeps {z : State} (m : Sys2Proof.CkMsg) {s : State} (hz : Keeps z s) :
    ∃ t', execCkSlots m s = .next t' ∧ Keeps z t' := by
  unfold execCkSlots
  try dsimp only
  repeat' first
    | with_reducible assumption | (with_reducible refine ⟨_, rfl, ?_⟩) | with_reducible apply State.orderRestore_keeps
    | (simp only [keeps_mk]; refine ⟨?_, ?_, ?_⟩) | with_reducible apply Keeps.pending | with_reducible apply Keeps.hbm
    | with_reducible apply Keeps.sites | split

theorem execCkRestore_keeps {z : State} (m : Sys2Proof.CkMsg) (mf : Sys2Proof.Manifest) (owners : List Sys2Proof.Manifest) {s : State} (hz : Keeps z s) :
    ∃ t', execCkRestore m mf owners s = .next t' ∧ Keeps z t' := by
  unfold execCkRestore
  try dsimp only
  repeat' first
    | with_reducible assumption | (with_reducible refine ⟨_, rfl, ?_⟩) | with_reducible apply State.restoreFails_keeps
    | with_reducible apply State.restoreStart_keeps | split

theorem execRestoreObjectRead_keeps {z : State} (x : Sys2Proof.ObjectRead) {s : State} (hz : Keeps z s) :
    ∃ t', execRestoreObjectRead x s = .next t' ∧ Keeps z t' := by
  unfold execRestoreObjectRead
  try dsimp only
  repeat' first
    | with_reducible assumption | (with_reducible refine ⟨_, rfl, ?_⟩) | with_reducible apply State.readObj_keeps
    | with_reducible apply State.restoreFails_keeps | with_reducible apply State.restoreObject_keeps
    | (simp only [keeps_mk]; refine ⟨?_, ?_, ?_⟩) | with_reducible apply Keeps.pending | with_reducible apply Keeps.hbm
    | with_reducible apply Keeps.sites | split

theorem execCollectivePost_keeps {z : State} (c : Sys2Proof.SiteNo) (door : Fin 800) (bytes : Nat) (desc : BitVec 512) (tok : Fin 16) {s : State} (hz : Keeps z s) :
    ∃ t', execCollectivePost c door bytes desc tok s = .next t' ∧ Keeps z t' := by
  unfold execCollectivePost
  try dsimp only
  repeat' first
    | with_reducible assumption | (with_reducible refine ⟨_, rfl, ?_⟩) | with_reducible apply State.collPost_keeps
    | with_reducible apply State.tokenEvent_keeps | with_reducible apply State.onSite_keeps | with_reducible apply Site.count_wf | split
    | intro _

theorem execUalReady_keeps {z : State} (gid : BitVec 16) (bucket : BitVec 16) (rank : Nat) {s : State} (hz : Keeps z s) :
    ∃ t', execUalReady gid bucket rank s = .next t' ∧ Keeps z t' := by
  unfold execUalReady
  try dsimp only
  repeat' first | with_reducible assumption | (with_reducible refine ⟨_, rfl, ?_⟩) | with_reducible apply State.readyIn_keeps | split

theorem execCutoffExpiry_keeps {z : State} (gid : BitVec 16) (bucket : BitVec 16) {s : State} (hz : Keeps z s) :
    ∃ t', execCutoffExpiry gid bucket s = .next t' ∧ Keeps z t' := by
  unfold execCutoffExpiry
  try dsimp only
  repeat' first | with_reducible assumption | (with_reducible refine ⟨_, rfl, ?_⟩) | with_reducible apply State.cutoff_keeps | split

theorem execDecideMsg_keeps {z : State} (gid : BitVec 16) (bucket : BitVec 16) (late : List Nat) (fold : Bool) {s : State} (hz : Keeps z s) :
    ∃ t', execDecideMsg gid bucket late fold s = .next t' ∧ Keeps z t' := by
  unfold execDecideMsg
  try dsimp only
  repeat' first | with_reducible assumption | (with_reducible refine ⟨_, rfl, ?_⟩) | with_reducible apply State.takeDecision_keeps | split

theorem execChunkReceive_keeps {z : State} (gid : BitVec 16) (bucket : BitVec 16) (rank : Nat) (chunk : Nat) (ws : List (BitVec 80)) {s : State} (hz : Keeps z s) :
    ∃ t', execChunkReceive gid bucket rank chunk ws s = .next t' ∧ Keeps z t' := by
  unfold execChunkReceive
  try dsimp only
  repeat' first | with_reducible assumption | (with_reducible refine ⟨_, rfl, ?_⟩) | with_reducible apply State.chunkIn_keeps | split

theorem execChunkAck_keeps {z : State} (gid : BitVec 16) (bucket : BitVec 16) (rank : Nat) (chunk : Nat) {s : State} (hz : Keeps z s) :
    ∃ t', execChunkAck gid bucket rank chunk s = .next t' ∧ Keeps z t' := by
  unfold execChunkAck
  try dsimp only
  repeat' first | with_reducible assumption | (with_reducible refine ⟨_, rfl, ?_⟩) | with_reducible apply State.setColl_keeps | split

theorem execCollectiveResume_keeps {z : State} (gid : BitVec 16) (bucket : BitVec 16) {s : State} (hz : Keeps z s) :
    ∃ t', execCollectiveResume gid bucket s = .next t' ∧ Keeps z t' := by
  unfold execCollectiveResume
  try dsimp only
  repeat' first | with_reducible assumption | (with_reducible refine ⟨_, rfl, ?_⟩) | with_reducible apply State.resumeColl_keeps | split

theorem execCollectiveComplete_keeps {z : State} (gid : BitVec 16) (bucket : BitVec 16) {s : State} (hz : Keeps z s) :
    ∃ t', execCollectiveComplete gid bucket s = .next t' ∧ Keeps z t' := by
  unfold execCollectiveComplete
  try dsimp only
  repeat' first
    | with_reducible assumption | (with_reducible refine ⟨_, rfl, ?_⟩) | with_reducible apply State.collComplete_keeps
    | with_reducible apply State.sendReadies_keeps | with_reducible apply State.checkBegin_keeps | split

theorem execCollectiveDeadline_keeps {z : State} (gid : BitVec 16) (bucket : BitVec 16) {s : State} (hz : Keeps z s) :
    ∃ t', execCollectiveDeadline gid bucket s = .next t' ∧ Keeps z t' := by
  unfold execCollectiveDeadline
  try dsimp only
  repeat' first | with_reducible assumption | (with_reducible refine ⟨_, rfl, ?_⟩) | with_reducible apply State.missDeadline_keeps | split

theorem execPhaseTimerExpiry_keeps {z : State} {s : State} (hz : Keeps z s) :
    ∃ t', execPhaseTimerExpiry s = .next t' ∧ Keeps z t' := by
  unfold execPhaseTimerExpiry
  try dsimp only
  repeat' first
    | with_reducible assumption | (with_reducible refine ⟨_, rfl, ?_⟩) | with_reducible apply State.setD_keeps
    | with_reducible apply State.missDeadline_keeps | split

theorem execBundleIssue_keeps {z : State} (c : Sys2Proof.SiteNo) {s : State} (hz : Keeps z s) :
    ∃ t', execBundleIssue c s = .next t' ∧ Keeps z t' := by
  unfold execBundleIssue
  try dsimp only
  repeat' first | with_reducible assumption | (with_reducible refine ⟨_, rfl, ?_⟩) | with_reducible apply State.coreCycle_keeps

theorem execNop_keeps {z : State} (c : Sys2Proof.SiteNo) (slot : Fin 12) {s : State} (hz : Keeps z s) :
    ∃ t', execNop c slot s = .next t' ∧ Keeps z t' := by
  unfold execNop
  try dsimp only
  repeat' first | with_reducible assumption | (with_reducible refine ⟨_, rfl, ?_⟩) | with_reducible apply soloOp_keeps

theorem execAdd_keeps {z : State} (c : Sys2Proof.SiteNo) (f : Sys2Proof.ScF) {s : State} (hz : Keeps z s) :
    ∃ t', execAdd c f s = .next t' ∧ Keeps z t' := by
  unfold execAdd
  try dsimp only
  repeat' first | with_reducible assumption | (with_reducible refine ⟨_, rfl, ?_⟩) | with_reducible apply soloOp_keeps

theorem execSub_keeps {z : State} (c : Sys2Proof.SiteNo) (f : Sys2Proof.ScF) {s : State} (hz : Keeps z s) :
    ∃ t', execSub c f s = .next t' ∧ Keeps z t' := by
  unfold execSub
  try dsimp only
  repeat' first | with_reducible assumption | (with_reducible refine ⟨_, rfl, ?_⟩) | with_reducible apply soloOp_keeps

theorem execAnd_keeps {z : State} (c : Sys2Proof.SiteNo) (f : Sys2Proof.ScF) {s : State} (hz : Keeps z s) :
    ∃ t', execAnd c f s = .next t' ∧ Keeps z t' := by
  unfold execAnd
  try dsimp only
  repeat' first | with_reducible assumption | (with_reducible refine ⟨_, rfl, ?_⟩) | with_reducible apply soloOp_keeps

theorem execOr_keeps {z : State} (c : Sys2Proof.SiteNo) (f : Sys2Proof.ScF) {s : State} (hz : Keeps z s) :
    ∃ t', execOr c f s = .next t' ∧ Keeps z t' := by
  unfold execOr
  try dsimp only
  repeat' first | with_reducible assumption | (with_reducible refine ⟨_, rfl, ?_⟩) | with_reducible apply soloOp_keeps

theorem execXor_keeps {z : State} (c : Sys2Proof.SiteNo) (f : Sys2Proof.ScF) {s : State} (hz : Keeps z s) :
    ∃ t', execXor c f s = .next t' ∧ Keeps z t' := by
  unfold execXor
  try dsimp only
  repeat' first | with_reducible assumption | (with_reducible refine ⟨_, rfl, ?_⟩) | with_reducible apply soloOp_keeps

theorem execShl_keeps {z : State} (c : Sys2Proof.SiteNo) (f : Sys2Proof.ScF) {s : State} (hz : Keeps z s) :
    ∃ t', execShl c f s = .next t' ∧ Keeps z t' := by
  unfold execShl
  try dsimp only
  repeat' first | with_reducible assumption | (with_reducible refine ⟨_, rfl, ?_⟩) | with_reducible apply soloOp_keeps

theorem execShr_keeps {z : State} (c : Sys2Proof.SiteNo) (f : Sys2Proof.ScF) {s : State} (hz : Keeps z s) :
    ∃ t', execShr c f s = .next t' ∧ Keeps z t' := by
  unfold execShr
  try dsimp only
  repeat' first | with_reducible assumption | (with_reducible refine ⟨_, rfl, ?_⟩) | with_reducible apply soloOp_keeps

theorem execSra_keeps {z : State} (c : Sys2Proof.SiteNo) (f : Sys2Proof.ScF) {s : State} (hz : Keeps z s) :
    ∃ t', execSra c f s = .next t' ∧ Keeps z t' := by
  unfold execSra
  try dsimp only
  repeat' first | with_reducible assumption | (with_reducible refine ⟨_, rfl, ?_⟩) | with_reducible apply soloOp_keeps

theorem execMin_keeps {z : State} (c : Sys2Proof.SiteNo) (f : Sys2Proof.ScF) {s : State} (hz : Keeps z s) :
    ∃ t', execMin c f s = .next t' ∧ Keeps z t' := by
  unfold execMin
  try dsimp only
  repeat' first | with_reducible assumption | (with_reducible refine ⟨_, rfl, ?_⟩) | with_reducible apply soloOp_keeps

theorem execMax_keeps {z : State} (c : Sys2Proof.SiteNo) (f : Sys2Proof.ScF) {s : State} (hz : Keeps z s) :
    ∃ t', execMax c f s = .next t' ∧ Keeps z t' := by
  unfold execMax
  try dsimp only
  repeat' first | with_reducible assumption | (with_reducible refine ⟨_, rfl, ?_⟩) | with_reducible apply soloOp_keeps

theorem execMinu_keeps {z : State} (c : Sys2Proof.SiteNo) (f : Sys2Proof.ScF) {s : State} (hz : Keeps z s) :
    ∃ t', execMinu c f s = .next t' ∧ Keeps z t' := by
  unfold execMinu
  try dsimp only
  repeat' first | with_reducible assumption | (with_reducible refine ⟨_, rfl, ?_⟩) | with_reducible apply soloOp_keeps

theorem execMaxu_keeps {z : State} (c : Sys2Proof.SiteNo) (f : Sys2Proof.ScF) {s : State} (hz : Keeps z s) :
    ∃ t', execMaxu c f s = .next t' ∧ Keeps z t' := by
  unfold execMaxu
  try dsimp only
  repeat' first | with_reducible assumption | (with_reducible refine ⟨_, rfl, ?_⟩) | with_reducible apply soloOp_keeps

theorem execAddi_keeps {z : State} (c : Sys2Proof.SiteNo) (f : Sys2Proof.ScF) {s : State} (hz : Keeps z s) :
    ∃ t', execAddi c f s = .next t' ∧ Keeps z t' := by
  unfold execAddi
  try dsimp only
  repeat' first | with_reducible assumption | (with_reducible refine ⟨_, rfl, ?_⟩) | with_reducible apply soloOp_keeps

theorem execAndi_keeps {z : State} (c : Sys2Proof.SiteNo) (f : Sys2Proof.ScF) {s : State} (hz : Keeps z s) :
    ∃ t', execAndi c f s = .next t' ∧ Keeps z t' := by
  unfold execAndi
  try dsimp only
  repeat' first | with_reducible assumption | (with_reducible refine ⟨_, rfl, ?_⟩) | with_reducible apply soloOp_keeps

theorem execOri_keeps {z : State} (c : Sys2Proof.SiteNo) (f : Sys2Proof.ScF) {s : State} (hz : Keeps z s) :
    ∃ t', execOri c f s = .next t' ∧ Keeps z t' := by
  unfold execOri
  try dsimp only
  repeat' first | with_reducible assumption | (with_reducible refine ⟨_, rfl, ?_⟩) | with_reducible apply soloOp_keeps

theorem execXori_keeps {z : State} (c : Sys2Proof.SiteNo) (f : Sys2Proof.ScF) {s : State} (hz : Keeps z s) :
    ∃ t', execXori c f s = .next t' ∧ Keeps z t' := by
  unfold execXori
  try dsimp only
  repeat' first | with_reducible assumption | (with_reducible refine ⟨_, rfl, ?_⟩) | with_reducible apply soloOp_keeps

theorem execShli_keeps {z : State} (c : Sys2Proof.SiteNo) (f : Sys2Proof.ScF) {s : State} (hz : Keeps z s) :
    ∃ t', execShli c f s = .next t' ∧ Keeps z t' := by
  unfold execShli
  try dsimp only
  repeat' first | with_reducible assumption | (with_reducible refine ⟨_, rfl, ?_⟩) | with_reducible apply soloOp_keeps

theorem execShri_keeps {z : State} (c : Sys2Proof.SiteNo) (f : Sys2Proof.ScF) {s : State} (hz : Keeps z s) :
    ∃ t', execShri c f s = .next t' ∧ Keeps z t' := by
  unfold execShri
  try dsimp only
  repeat' first | with_reducible assumption | (with_reducible refine ⟨_, rfl, ?_⟩) | with_reducible apply soloOp_keeps

theorem execSrai_keeps {z : State} (c : Sys2Proof.SiteNo) (f : Sys2Proof.ScF) {s : State} (hz : Keeps z s) :
    ∃ t', execSrai c f s = .next t' ∧ Keeps z t' := by
  unfold execSrai
  try dsimp only
  repeat' first | with_reducible assumption | (with_reducible refine ⟨_, rfl, ?_⟩) | with_reducible apply soloOp_keeps

theorem execMovi_keeps {z : State} (c : Sys2Proof.SiteNo) (f : Sys2Proof.ScF) {s : State} (hz : Keeps z s) :
    ∃ t', execMovi c f s = .next t' ∧ Keeps z t' := by
  unfold execMovi
  try dsimp only
  repeat' first | with_reducible assumption | (with_reducible refine ⟨_, rfl, ?_⟩) | with_reducible apply soloOp_keeps

theorem execMovh_keeps {z : State} (c : Sys2Proof.SiteNo) (f : Sys2Proof.ScF) {s : State} (hz : Keeps z s) :
    ∃ t', execMovh c f s = .next t' ∧ Keeps z t' := by
  unfold execMovh
  try dsimp only
  repeat' first | with_reducible assumption | (with_reducible refine ⟨_, rfl, ?_⟩) | with_reducible apply soloOp_keeps

theorem execMul_keeps {z : State} (c : Sys2Proof.SiteNo) (f : Sys2Proof.ScF) {s : State} (hz : Keeps z s) :
    ∃ t', execMul c f s = .next t' ∧ Keeps z t' := by
  unfold execMul
  try dsimp only
  repeat' first | with_reducible assumption | (with_reducible refine ⟨_, rfl, ?_⟩) | with_reducible apply soloOp_keeps

theorem execMulh_keeps {z : State} (c : Sys2Proof.SiteNo) (f : Sys2Proof.ScF) {s : State} (hz : Keeps z s) :
    ∃ t', execMulh c f s = .next t' ∧ Keeps z t' := by
  unfold execMulh
  try dsimp only
  repeat' first | with_reducible assumption | (with_reducible refine ⟨_, rfl, ?_⟩) | with_reducible apply soloOp_keeps

theorem execMulhu_keeps {z : State} (c : Sys2Proof.SiteNo) (f : Sys2Proof.ScF) {s : State} (hz : Keeps z s) :
    ∃ t', execMulhu c f s = .next t' ∧ Keeps z t' := by
  unfold execMulhu
  try dsimp only
  repeat' first | with_reducible assumption | (with_reducible refine ⟨_, rfl, ?_⟩) | with_reducible apply soloOp_keeps

theorem execCeq_keeps {z : State} (c : Sys2Proof.SiteNo) (f : Sys2Proof.ScF) {s : State} (hz : Keeps z s) :
    ∃ t', execCeq c f s = .next t' ∧ Keeps z t' := by
  unfold execCeq
  try dsimp only
  repeat' first | with_reducible assumption | (with_reducible refine ⟨_, rfl, ?_⟩) | with_reducible apply soloOp_keeps

theorem execCne_keeps {z : State} (c : Sys2Proof.SiteNo) (f : Sys2Proof.ScF) {s : State} (hz : Keeps z s) :
    ∃ t', execCne c f s = .next t' ∧ Keeps z t' := by
  unfold execCne
  try dsimp only
  repeat' first | with_reducible assumption | (with_reducible refine ⟨_, rfl, ?_⟩) | with_reducible apply soloOp_keeps

theorem execClt_keeps {z : State} (c : Sys2Proof.SiteNo) (f : Sys2Proof.ScF) {s : State} (hz : Keeps z s) :
    ∃ t', execClt c f s = .next t' ∧ Keeps z t' := by
  unfold execClt
  try dsimp only
  repeat' first | with_reducible assumption | (with_reducible refine ⟨_, rfl, ?_⟩) | with_reducible apply soloOp_keeps

theorem execCltu_keeps {z : State} (c : Sys2Proof.SiteNo) (f : Sys2Proof.ScF) {s : State} (hz : Keeps z s) :
    ∃ t', execCltu c f s = .next t' ∧ Keeps z t' := by
  unfold execCltu
  try dsimp only
  repeat' first | with_reducible assumption | (with_reducible refine ⟨_, rfl, ?_⟩) | with_reducible apply soloOp_keeps

theorem execCge_keeps {z : State} (c : Sys2Proof.SiteNo) (f : Sys2Proof.ScF) {s : State} (hz : Keeps z s) :
    ∃ t', execCge c f s = .next t' ∧ Keeps z t' := by
  unfold execCge
  try dsimp only
  repeat' first | with_reducible assumption | (with_reducible refine ⟨_, rfl, ?_⟩) | with_reducible apply soloOp_keeps

theorem execCgeu_keeps {z : State} (c : Sys2Proof.SiteNo) (f : Sys2Proof.ScF) {s : State} (hz : Keeps z s) :
    ∃ t', execCgeu c f s = .next t' ∧ Keeps z t' := by
  unfold execCgeu
  try dsimp only
  repeat' first | with_reducible assumption | (with_reducible refine ⟨_, rfl, ?_⟩) | with_reducible apply soloOp_keeps

theorem execPand_keeps {z : State} (c : Sys2Proof.SiteNo) (f : Sys2Proof.ScF) {s : State} (hz : Keeps z s) :
    ∃ t', execPand c f s = .next t' ∧ Keeps z t' := by
  unfold execPand
  try dsimp only
  repeat' first | with_reducible assumption | (with_reducible refine ⟨_, rfl, ?_⟩) | with_reducible apply soloOp_keeps

theorem execPor_keeps {z : State} (c : Sys2Proof.SiteNo) (f : Sys2Proof.ScF) {s : State} (hz : Keeps z s) :
    ∃ t', execPor c f s = .next t' ∧ Keeps z t' := by
  unfold execPor
  try dsimp only
  repeat' first | with_reducible assumption | (with_reducible refine ⟨_, rfl, ?_⟩) | with_reducible apply soloOp_keeps

theorem execPxor_keeps {z : State} (c : Sys2Proof.SiteNo) (f : Sys2Proof.ScF) {s : State} (hz : Keeps z s) :
    ∃ t', execPxor c f s = .next t' ∧ Keeps z t' := by
  unfold execPxor
  try dsimp only
  repeat' first | with_reducible assumption | (with_reducible refine ⟨_, rfl, ?_⟩) | with_reducible apply soloOp_keeps

theorem execPandn_keeps {z : State} (c : Sys2Proof.SiteNo) (f : Sys2Proof.ScF) {s : State} (hz : Keeps z s) :
    ∃ t', execPandn c f s = .next t' ∧ Keeps z t' := by
  unfold execPandn
  try dsimp only
  repeat' first | with_reducible assumption | (with_reducible refine ⟨_, rfl, ?_⟩) | with_reducible apply soloOp_keeps

theorem execMfsr_keeps {z : State} (c : Sys2Proof.SiteNo) (f : Sys2Proof.ScF) {s : State} (hz : Keeps z s) :
    ∃ t', execMfsr c f s = .next t' ∧ Keeps z t' := by
  unfold execMfsr
  try dsimp only
  repeat' first | with_reducible assumption | (with_reducible refine ⟨_, rfl, ?_⟩) | with_reducible apply soloOp_keeps

theorem execMtsr_keeps {z : State} (c : Sys2Proof.SiteNo) (f : Sys2Proof.ScF) {s : State} (hz : Keeps z s) :
    ∃ t', execMtsr c f s = .next t' ∧ Keeps z t' := by
  unfold execMtsr
  try dsimp only
  repeat' first | with_reducible assumption | (with_reducible refine ⟨_, rfl, ?_⟩) | with_reducible apply soloOp_keeps

theorem execBranch_keeps {z : State} (c : Sys2Proof.SiteNo) (f : Sys2Proof.BrF) {s : State} (hz : Keeps z s) :
    ∃ t', execBranch c f s = .next t' ∧ Keeps z t' := by
  unfold execBranch
  try dsimp only
  repeat' first | with_reducible assumption | (with_reducible refine ⟨_, rfl, ?_⟩) | with_reducible apply soloOp_keeps

theorem execBranchLink_keeps {z : State} (c : Sys2Proof.SiteNo) (f : Sys2Proof.BrF) {s : State} (hz : Keeps z s) :
    ∃ t', execBranchLink c f s = .next t' ∧ Keeps z t' := by
  unfold execBranchLink
  try dsimp only
  repeat' first | with_reducible assumption | (with_reducible refine ⟨_, rfl, ?_⟩) | with_reducible apply soloOp_keeps

theorem execJumpReg_keeps {z : State} (c : Sys2Proof.SiteNo) (f : Sys2Proof.BrF) {s : State} (hz : Keeps z s) :
    ∃ t', execJumpReg c f s = .next t' ∧ Keeps z t' := by
  unfold execJumpReg
  try dsimp only
  repeat' first | with_reducible assumption | (with_reducible refine ⟨_, rfl, ?_⟩) | with_reducible apply soloOp_keeps

theorem execArrive_keeps {z : State} (c : Sys2Proof.SiteNo) (f : Sys2Proof.BrF) {s : State} (hz : Keeps z s) :
    ∃ t', execArrive c f s = .next t' ∧ Keeps z t' := by
  unfold execArrive
  try dsimp only
  repeat' first | with_reducible assumption | (with_reducible refine ⟨_, rfl, ?_⟩) | with_reducible apply soloOp_keeps

theorem execVadd_keeps {z : State} (c : Sys2Proof.SiteNo) (f : Sys2Proof.VecF) {s : State} (hz : Keeps z s) :
    ∃ t', execVadd c f s = .next t' ∧ Keeps z t' := by
  unfold execVadd
  try dsimp only
  repeat' first | with_reducible assumption | (with_reducible refine ⟨_, rfl, ?_⟩) | with_reducible apply soloOp_keeps

theorem execVsub_keeps {z : State} (c : Sys2Proof.SiteNo) (f : Sys2Proof.VecF) {s : State} (hz : Keeps z s) :
    ∃ t', execVsub c f s = .next t' ∧ Keeps z t' := by
  unfold execVsub
  try dsimp only
  repeat' first | with_reducible assumption | (with_reducible refine ⟨_, rfl, ?_⟩) | with_reducible apply soloOp_keeps

theorem execVmul_keeps {z : State} (c : Sys2Proof.SiteNo) (f : Sys2Proof.VecF) {s : State} (hz : Keeps z s) :
    ∃ t', execVmul c f s = .next t' ∧ Keeps z t' := by
  unfold execVmul
  try dsimp only
  repeat' first | with_reducible assumption | (with_reducible refine ⟨_, rfl, ?_⟩) | with_reducible apply soloOp_keeps

theorem execVfma_keeps {z : State} (c : Sys2Proof.SiteNo) (f : Sys2Proof.VecF) {s : State} (hz : Keeps z s) :
    ∃ t', execVfma c f s = .next t' ∧ Keeps z t' := by
  unfold execVfma
  try dsimp only
  repeat' first | with_reducible assumption | (with_reducible refine ⟨_, rfl, ?_⟩) | with_reducible apply soloOp_keeps

theorem execVfms_keeps {z : State} (c : Sys2Proof.SiteNo) (f : Sys2Proof.VecF) {s : State} (hz : Keeps z s) :
    ∃ t', execVfms c f s = .next t' ∧ Keeps z t' := by
  unfold execVfms
  try dsimp only
  repeat' first | with_reducible assumption | (with_reducible refine ⟨_, rfl, ?_⟩) | with_reducible apply soloOp_keeps

theorem execVmin_keeps {z : State} (c : Sys2Proof.SiteNo) (f : Sys2Proof.VecF) {s : State} (hz : Keeps z s) :
    ∃ t', execVmin c f s = .next t' ∧ Keeps z t' := by
  unfold execVmin
  try dsimp only
  repeat' first | with_reducible assumption | (with_reducible refine ⟨_, rfl, ?_⟩) | with_reducible apply soloOp_keeps

theorem execVmax_keeps {z : State} (c : Sys2Proof.SiteNo) (f : Sys2Proof.VecF) {s : State} (hz : Keeps z s) :
    ∃ t', execVmax c f s = .next t' ∧ Keeps z t' := by
  unfold execVmax
  try dsimp only
  repeat' first | with_reducible assumption | (with_reducible refine ⟨_, rfl, ?_⟩) | with_reducible apply soloOp_keeps

theorem execVabs_keeps {z : State} (c : Sys2Proof.SiteNo) (f : Sys2Proof.VecF) {s : State} (hz : Keeps z s) :
    ∃ t', execVabs c f s = .next t' ∧ Keeps z t' := by
  unfold execVabs
  try dsimp only
  repeat' first | with_reducible assumption | (with_reducible refine ⟨_, rfl, ?_⟩) | with_reducible apply soloOp_keeps

theorem execVneg_keeps {z : State} (c : Sys2Proof.SiteNo) (f : Sys2Proof.VecF) {s : State} (hz : Keeps z s) :
    ∃ t', execVneg c f s = .next t' ∧ Keeps z t' := by
  unfold execVneg
  try dsimp only
  repeat' first | with_reducible assumption | (with_reducible refine ⟨_, rfl, ?_⟩) | with_reducible apply soloOp_keeps

theorem execVfcmp_keeps {z : State} (c : Sys2Proof.SiteNo) (f : Sys2Proof.VecF) {s : State} (hz : Keeps z s) :
    ∃ t', execVfcmp c f s = .next t' ∧ Keeps z t' := by
  unfold execVfcmp
  try dsimp only
  repeat' first | with_reducible assumption | (with_reducible refine ⟨_, rfl, ?_⟩) | with_reducible apply soloOp_keeps

theorem execVicmp_keeps {z : State} (c : Sys2Proof.SiteNo) (f : Sys2Proof.VecF) {s : State} (hz : Keeps z s) :
    ∃ t', execVicmp c f s = .next t' ∧ Keeps z t' := by
  unfold execVicmp
  try dsimp only
  repeat' first | with_reducible assumption | (with_reducible refine ⟨_, rfl, ?_⟩) | with_reducible apply soloOp_keeps

theorem execViadd_keeps {z : State} (c : Sys2Proof.SiteNo) (f : Sys2Proof.VecF) {s : State} (hz : Keeps z s) :
    ∃ t', execViadd c f s = .next t' ∧ Keeps z t' := by
  unfold execViadd
  try dsimp only
  repeat' first | with_reducible assumption | (with_reducible refine ⟨_, rfl, ?_⟩) | with_reducible apply soloOp_keeps

theorem execVisub_keeps {z : State} (c : Sys2Proof.SiteNo) (f : Sys2Proof.VecF) {s : State} (hz : Keeps z s) :
    ∃ t', execVisub c f s = .next t' ∧ Keeps z t' := by
  unfold execVisub
  try dsimp only
  repeat' first | with_reducible assumption | (with_reducible refine ⟨_, rfl, ?_⟩) | with_reducible apply soloOp_keeps

theorem execVand_keeps {z : State} (c : Sys2Proof.SiteNo) (f : Sys2Proof.VecF) {s : State} (hz : Keeps z s) :
    ∃ t', execVand c f s = .next t' ∧ Keeps z t' := by
  unfold execVand
  try dsimp only
  repeat' first | with_reducible assumption | (with_reducible refine ⟨_, rfl, ?_⟩) | with_reducible apply soloOp_keeps

theorem execVor_keeps {z : State} (c : Sys2Proof.SiteNo) (f : Sys2Proof.VecF) {s : State} (hz : Keeps z s) :
    ∃ t', execVor c f s = .next t' ∧ Keeps z t' := by
  unfold execVor
  try dsimp only
  repeat' first | with_reducible assumption | (with_reducible refine ⟨_, rfl, ?_⟩) | with_reducible apply soloOp_keeps

theorem execVxor_keeps {z : State} (c : Sys2Proof.SiteNo) (f : Sys2Proof.VecF) {s : State} (hz : Keeps z s) :
    ∃ t', execVxor c f s = .next t' ∧ Keeps z t' := by
  unfold execVxor
  try dsimp only
  repeat' first | with_reducible assumption | (with_reducible refine ⟨_, rfl, ?_⟩) | with_reducible apply soloOp_keeps

theorem execVshl_keeps {z : State} (c : Sys2Proof.SiteNo) (f : Sys2Proof.VecF) {s : State} (hz : Keeps z s) :
    ∃ t', execVshl c f s = .next t' ∧ Keeps z t' := by
  unfold execVshl
  try dsimp only
  repeat' first | with_reducible assumption | (with_reducible refine ⟨_, rfl, ?_⟩) | with_reducible apply soloOp_keeps

theorem execVshr_keeps {z : State} (c : Sys2Proof.SiteNo) (f : Sys2Proof.VecF) {s : State} (hz : Keeps z s) :
    ∃ t', execVshr c f s = .next t' ∧ Keeps z t' := by
  unfold execVshr
  try dsimp only
  repeat' first | with_reducible assumption | (with_reducible refine ⟨_, rfl, ?_⟩) | with_reducible apply soloOp_keeps

theorem execVsra_keeps {z : State} (c : Sys2Proof.SiteNo) (f : Sys2Proof.VecF) {s : State} (hz : Keeps z s) :
    ∃ t', execVsra c f s = .next t' ∧ Keeps z t' := by
  unfold execVsra
  try dsimp only
  repeat' first | with_reducible assumption | (with_reducible refine ⟨_, rfl, ?_⟩) | with_reducible apply soloOp_keeps

theorem execVimin_keeps {z : State} (c : Sys2Proof.SiteNo) (f : Sys2Proof.VecF) {s : State} (hz : Keeps z s) :
    ∃ t', execVimin c f s = .next t' ∧ Keeps z t' := by
  unfold execVimin
  try dsimp only
  repeat' first | with_reducible assumption | (with_reducible refine ⟨_, rfl, ?_⟩) | with_reducible apply soloOp_keeps

theorem execVimax_keeps {z : State} (c : Sys2Proof.SiteNo) (f : Sys2Proof.VecF) {s : State} (hz : Keeps z s) :
    ∃ t', execVimax c f s = .next t' ∧ Keeps z t' := by
  unfold execVimax
  try dsimp only
  repeat' first | with_reducible assumption | (with_reducible refine ⟨_, rfl, ?_⟩) | with_reducible apply soloOp_keeps

theorem execVsel_keeps {z : State} (c : Sys2Proof.SiteNo) (f : Sys2Proof.VecF) {s : State} (hz : Keeps z s) :
    ∃ t', execVsel c f s = .next t' ∧ Keeps z t' := by
  unfold execVsel
  try dsimp only
  repeat' first | with_reducible assumption | (with_reducible refine ⟨_, rfl, ?_⟩) | with_reducible apply soloOp_keeps

theorem execVrot_keeps {z : State} (c : Sys2Proof.SiteNo) (f : Sys2Proof.VecF) {s : State} (hz : Keeps z s) :
    ∃ t', execVrot c f s = .next t' ∧ Keeps z t' := by
  unfold execVrot
  try dsimp only
  repeat' first | with_reducible assumption | (with_reducible refine ⟨_, rfl, ?_⟩) | with_reducible apply soloOp_keeps

theorem execVbcast_keeps {z : State} (c : Sys2Proof.SiteNo) (f : Sys2Proof.VecF) {s : State} (hz : Keeps z s) :
    ∃ t', execVbcast c f s = .next t' ∧ Keeps z t' := by
  unfold execVbcast
  try dsimp only
  repeat' first | with_reducible assumption | (with_reducible refine ⟨_, rfl, ?_⟩) | with_reducible apply soloOp_keeps

theorem execVext_keeps {z : State} (c : Sys2Proof.SiteNo) (f : Sys2Proof.VecF) {s : State} (hz : Keeps z s) :
    ∃ t', execVext c f s = .next t' ∧ Keeps z t' := by
  unfold execVext
  try dsimp only
  repeat' first | with_reducible assumption | (with_reducible refine ⟨_, rfl, ?_⟩) | with_reducible apply soloOp_keeps

theorem execVcvt_keeps {z : State} (c : Sys2Proof.SiteNo) (f : Sys2Proof.VecF) {s : State} (hz : Keeps z s) :
    ∃ t', execVcvt c f s = .next t' ∧ Keeps z t' := by
  unfold execVcvt
  try dsimp only
  repeat' first | with_reducible assumption | (with_reducible refine ⟨_, rfl, ?_⟩) | with_reducible apply soloOp_keeps

theorem execVqblk_keeps {z : State} (c : Sys2Proof.SiteNo) (f : Sys2Proof.VecF) {s : State} (hz : Keeps z s) :
    ∃ t', execVqblk c f s = .next t' ∧ Keeps z t' := by
  unfold execVqblk
  try dsimp only
  repeat' first | with_reducible assumption | (with_reducible refine ⟨_, rfl, ?_⟩) | with_reducible apply soloOp_keeps

theorem execVtlu_keeps {z : State} (c : Sys2Proof.SiteNo) (f : Sys2Proof.VecF) {s : State} (hz : Keeps z s) :
    ∃ t', execVtlu c f s = .next t' ∧ Keeps z t' := by
  unfold execVtlu
  try dsimp only
  repeat' first | with_reducible assumption | (with_reducible refine ⟨_, rfl, ?_⟩) | with_reducible apply soloOp_keeps

theorem execLd1u_keeps {z : State} (c : Sys2Proof.SiteNo) (f : Sys2Proof.LsF) {s : State} (hz : Keeps z s) :
    ∃ t', execLd1u c f s = .next t' ∧ Keeps z t' := by
  unfold execLd1u
  try dsimp only
  repeat' first | with_reducible assumption | (with_reducible refine ⟨_, rfl, ?_⟩) | with_reducible apply soloOp_keeps

theorem execLd1s_keeps {z : State} (c : Sys2Proof.SiteNo) (f : Sys2Proof.LsF) {s : State} (hz : Keeps z s) :
    ∃ t', execLd1s c f s = .next t' ∧ Keeps z t' := by
  unfold execLd1s
  try dsimp only
  repeat' first | with_reducible assumption | (with_reducible refine ⟨_, rfl, ?_⟩) | with_reducible apply soloOp_keeps

theorem execLd2u_keeps {z : State} (c : Sys2Proof.SiteNo) (f : Sys2Proof.LsF) {s : State} (hz : Keeps z s) :
    ∃ t', execLd2u c f s = .next t' ∧ Keeps z t' := by
  unfold execLd2u
  try dsimp only
  repeat' first | with_reducible assumption | (with_reducible refine ⟨_, rfl, ?_⟩) | with_reducible apply soloOp_keeps

theorem execLd2s_keeps {z : State} (c : Sys2Proof.SiteNo) (f : Sys2Proof.LsF) {s : State} (hz : Keeps z s) :
    ∃ t', execLd2s c f s = .next t' ∧ Keeps z t' := by
  unfold execLd2s
  try dsimp only
  repeat' first | with_reducible assumption | (with_reducible refine ⟨_, rfl, ?_⟩) | with_reducible apply soloOp_keeps

theorem execLd4u_keeps {z : State} (c : Sys2Proof.SiteNo) (f : Sys2Proof.LsF) {s : State} (hz : Keeps z s) :
    ∃ t', execLd4u c f s = .next t' ∧ Keeps z t' := by
  unfold execLd4u
  try dsimp only
  repeat' first | with_reducible assumption | (with_reducible refine ⟨_, rfl, ?_⟩) | with_reducible apply soloOp_keeps

theorem execLd4s_keeps {z : State} (c : Sys2Proof.SiteNo) (f : Sys2Proof.LsF) {s : State} (hz : Keeps z s) :
    ∃ t', execLd4s c f s = .next t' ∧ Keeps z t' := by
  unfold execLd4s
  try dsimp only
  repeat' first | with_reducible assumption | (with_reducible refine ⟨_, rfl, ?_⟩) | with_reducible apply soloOp_keeps

theorem execLd8_keeps {z : State} (c : Sys2Proof.SiteNo) (f : Sys2Proof.LsF) {s : State} (hz : Keeps z s) :
    ∃ t', execLd8 c f s = .next t' ∧ Keeps z t' := by
  unfold execLd8
  try dsimp only
  repeat' first | with_reducible assumption | (with_reducible refine ⟨_, rfl, ?_⟩) | with_reducible apply soloOp_keeps

theorem execSt1_keeps {z : State} (c : Sys2Proof.SiteNo) (f : Sys2Proof.LsF) {s : State} (hz : Keeps z s) :
    ∃ t', execSt1 c f s = .next t' ∧ Keeps z t' := by
  unfold execSt1
  try dsimp only
  repeat' first | with_reducible assumption | (with_reducible refine ⟨_, rfl, ?_⟩) | with_reducible apply soloOp_keeps

theorem execSt2_keeps {z : State} (c : Sys2Proof.SiteNo) (f : Sys2Proof.LsF) {s : State} (hz : Keeps z s) :
    ∃ t', execSt2 c f s = .next t' ∧ Keeps z t' := by
  unfold execSt2
  try dsimp only
  repeat' first | with_reducible assumption | (with_reducible refine ⟨_, rfl, ?_⟩) | with_reducible apply soloOp_keeps

theorem execSt4_keeps {z : State} (c : Sys2Proof.SiteNo) (f : Sys2Proof.LsF) {s : State} (hz : Keeps z s) :
    ∃ t', execSt4 c f s = .next t' ∧ Keeps z t' := by
  unfold execSt4
  try dsimp only
  repeat' first | with_reducible assumption | (with_reducible refine ⟨_, rfl, ?_⟩) | with_reducible apply soloOp_keeps

theorem execSt8_keeps {z : State} (c : Sys2Proof.SiteNo) (f : Sys2Proof.LsF) {s : State} (hz : Keeps z s) :
    ∃ t', execSt8 c f s = .next t' ∧ Keeps z t' := by
  unfold execSt8
  try dsimp only
  repeat' first | with_reducible assumption | (with_reducible refine ⟨_, rfl, ?_⟩) | with_reducible apply soloOp_keeps

theorem execVld128_keeps {z : State} (c : Sys2Proof.SiteNo) (f : Sys2Proof.LsF) {s : State} (hz : Keeps z s) :
    ∃ t', execVld128 c f s = .next t' ∧ Keeps z t' := by
  unfold execVld128
  try dsimp only
  repeat' first | with_reducible assumption | (with_reducible refine ⟨_, rfl, ?_⟩) | with_reducible apply soloOp_keeps

theorem execVld256_keeps {z : State} (c : Sys2Proof.SiteNo) (f : Sys2Proof.LsF) {s : State} (hz : Keeps z s) :
    ∃ t', execVld256 c f s = .next t' ∧ Keeps z t' := by
  unfold execVld256
  try dsimp only
  repeat' first | with_reducible assumption | (with_reducible refine ⟨_, rfl, ?_⟩) | with_reducible apply soloOp_keeps

theorem execVst128_keeps {z : State} (c : Sys2Proof.SiteNo) (f : Sys2Proof.LsF) {s : State} (hz : Keeps z s) :
    ∃ t', execVst128 c f s = .next t' ∧ Keeps z t' := by
  unfold execVst128
  try dsimp only
  repeat' first | with_reducible assumption | (with_reducible refine ⟨_, rfl, ?_⟩) | with_reducible apply soloOp_keeps

theorem execVst256_keeps {z : State} (c : Sys2Proof.SiteNo) (f : Sys2Proof.LsF) {s : State} (hz : Keeps z s) :
    ∃ t', execVst256 c f s = .next t' ∧ Keeps z t' := by
  unfold execVst256
  try dsimp only
  repeat' first | with_reducible assumption | (with_reducible refine ⟨_, rfl, ?_⟩) | with_reducible apply soloOp_keeps

theorem execChPost_keeps {z : State} (c : Sys2Proof.SiteNo) (ch : Fin 6) (v : BitVec 64) {s : State} (hz : Keeps z s) :
    ∃ t', execChPost c ch v s = .next t' ∧ Keeps z t' := by
  unfold execChPost
  try dsimp only
  repeat' first | with_reducible assumption | (with_reducible refine ⟨_, rfl, ?_⟩) | with_reducible apply portCmd_keeps

theorem execChRelease_keeps {z : State} (c : Sys2Proof.SiteNo) (ch : Fin 6) (v : BitVec 64) {s : State} (hz : Keeps z s) :
    ∃ t', execChRelease c ch v s = .next t' ∧ Keeps z t' := by
  unfold execChRelease
  try dsimp only
  repeat' first | with_reducible assumption | (with_reducible refine ⟨_, rfl, ?_⟩) | with_reducible apply portCmd_keeps

theorem execChMb_keeps {z : State} (c : Sys2Proof.SiteNo) (ch : Fin 6) (v : BitVec 64) {s : State} (hz : Keeps z s) :
    ∃ t', execChMb c ch v s = .next t' ∧ Keeps z t' := by
  unfold execChMb
  try dsimp only
  repeat' first | with_reducible assumption | (with_reducible refine ⟨_, rfl, ?_⟩) | with_reducible apply portCmd_keeps

theorem execRecordMergeStore_keeps {z : State} (c : Sys2Proof.SiteNo) (wide : Bool) (r : Fin 512) (vr : BitVec 5) {s : State} (hz : Keeps z s) :
    ∃ t', execRecordMergeStore c wide r vr s = .next t' ∧ Keeps z t' := by
  unfold execRecordMergeStore
  try dsimp only
  repeat' first | with_reducible assumption | (with_reducible refine ⟨_, rfl, ?_⟩) | with_reducible apply mergeStore_keeps

theorem execFeed_keeps {z : State} (c : Sys2Proof.SiteNo) (f : Sys2Proof.FeedF) {s : State} (hz : Keeps z s) :
    ∃ t', execFeed c f s = .next t' ∧ Keeps z t' := by
  unfold execFeed
  try dsimp only
  repeat' first | with_reducible assumption | (with_reducible refine ⟨_, rfl, ?_⟩) | with_reducible apply soloOp_keeps

theorem execFeedv_keeps {z : State} (c : Sys2Proof.SiteNo) (f : Sys2Proof.FeedF) {s : State} (hz : Keeps z s) :
    ∃ t', execFeedv c f s = .next t' ∧ Keeps z t' := by
  unfold execFeedv
  try dsimp only
  repeat' first | with_reducible assumption | (with_reducible refine ⟨_, rfl, ?_⟩) | with_reducible apply soloOp_keeps

theorem execLdw_keeps {z : State} (c : Sys2Proof.SiteNo) (a : Fin 4) (f : Sys2Proof.LdwF) {s : State} (hz : Keeps z s) :
    ∃ t', execLdw c a f s = .next t' ∧ Keeps z t' := by
  unfold execLdw
  try dsimp only
  repeat' first | with_reducible assumption | (with_reducible refine ⟨_, rfl, ?_⟩) | with_reducible apply soloOp_keeps

theorem execPass_keeps {z : State} (c : Sys2Proof.SiteNo) (a : Fin 4) (f : Sys2Proof.PassF) {s : State} (hz : Keeps z s) :
    ∃ t', execPass c a f s = .next t' ∧ Keeps z t' := by
  unfold execPass
  try dsimp only
  repeat' first | with_reducible assumption | (with_reducible refine ⟨_, rfl, ?_⟩) | with_reducible apply soloOp_keeps

theorem execDrain_keeps {z : State} (c : Sys2Proof.SiteNo) (a : Fin 4) (f : Sys2Proof.DrainF) {s : State} (hz : Keeps z s) :
    ∃ t', execDrain c a f s = .next t' ∧ Keeps z t' := by
  unfold execDrain
  try dsimp only
  repeat' first | with_reducible assumption | (with_reducible refine ⟨_, rfl, ?_⟩) | with_reducible apply soloOp_keeps

theorem execDmac_keeps {z : State} (c : Sys2Proof.SiteNo) (f : Sys2Proof.DmacF) {s : State} (hz : Keeps z s) :
    ∃ t', execDmac c f s = .next t' ∧ Keeps z t' := by
  unfold execDmac
  try dsimp only
  repeat' first | with_reducible assumption | (with_reducible refine ⟨_, rfl, ?_⟩) | with_reducible apply soloOp_keeps

theorem execDmad_keeps {z : State} (c : Sys2Proof.SiteNo) (f : Sys2Proof.DmadF) {s : State} (hz : Keeps z s) :
    ∃ t', execDmad c f s = .next t' ∧ Keeps z t' := by
  unfold execDmad
  try dsimp only
  repeat' first | with_reducible assumption | (with_reducible refine ⟨_, rfl, ?_⟩) | with_reducible apply soloOp_keeps

theorem execAccAdd_keeps {z : State} (c : Sys2Proof.SiteNo) (a : Fin 4) {s : State} (hz : Keeps z s) :
    ∃ t', execAccAdd c a s = .next t' ∧ Keeps z t' := by
  unfold execAccAdd
  try dsimp only
  repeat' first
    | with_reducible assumption | (with_reducible refine ⟨_, rfl, ?_⟩) | with_reducible apply State.onSite_keeps
    | with_reducible apply Site.addNext_wf | split | intro _

theorem execDrainRow_keeps {z : State} (c : Sys2Proof.SiteNo) {s : State} (hz : Keeps z s) :
    ∃ t', execDrainRow c s = .next t' ∧ Keeps z t' := by
  unfold execDrainRow
  try dsimp only
  repeat' first
    | with_reducible assumption | (with_reducible refine ⟨_, rfl, ?_⟩) | with_reducible apply State.onSite_keeps
    | with_reducible apply Site.drainOldest_wf | split

theorem execArrRepairApply_keeps {z : State} (c : Sys2Proof.SiteNo) (a : Fin 4) {s : State} (hz : Keeps z s) :
    ∃ t', execArrRepairApply c a s = .next t' ∧ Keeps z t' := by
  unfold execArrRepairApply
  try dsimp only
  repeat' first
    | with_reducible assumption | (with_reducible refine ⟨_, rfl, ?_⟩) | with_reducible apply State.onSite_keeps
    | with_reducible apply Site.applyRepair_wf | split | intro _

theorem execFcool_keeps {z : State} (d : BitVec 64) {s : State} (hz : Keeps z s) :
    ∃ t', execFcool d s = .next t' ∧ Keeps z t' := by
  unfold execFcool
  try dsimp only
  repeat' first | with_reducible assumption | (with_reducible refine ⟨_, rfl, ?_⟩) | with_reducible apply State.receiveCan_keeps

theorem execFpwr_keeps {z : State} (d : BitVec 64) {s : State} (hz : Keeps z s) :
    ∃ t', execFpwr d s = .next t' ∧ Keeps z t' := by
  unfold execFpwr
  try dsimp only
  repeat' first | with_reducible assumption | (with_reducible refine ⟨_, rfl, ?_⟩) | with_reducible apply State.receiveCan_keeps

theorem execFmtrq_keeps {z : State} (d : BitVec 64) {s : State} (hz : Keeps z s) :
    ∃ t', execFmtrq d s = .next t' ∧ Keeps z t' := by
  unfold execFmtrq
  try dsimp only
  repeat' first | with_reducible assumption | (with_reducible refine ⟨_, rfl, ?_⟩) | with_reducible apply State.receiveCan_keeps

theorem execFacilityFrameFilter_keeps {z : State} (outward : Bool) (code : BitVec 4) (node : BitVec 7) (d : Sys2Proof.Bytes) {s : State} (hz : Keeps z s) :
    ∃ t', execFacilityFrameFilter outward code node d s = .next t' ∧ Keeps z t' := by
  unfold execFacilityFrameFilter
  try dsimp only
  repeat' first
    | with_reducible assumption | (with_reducible refine ⟨_, rfl, ?_⟩) | with_reducible apply State.receiveCan_keeps
    | with_reducible apply State.emit_keeps | with_reducible apply State.cross_keeps | split

theorem execFstat_keeps {z : State} {s : State} (hz : Keeps z s) :
    ∃ t', execFstat s = .next t' ∧ Keeps z t' := by
  unfold execFstat
  try dsimp only
  repeat' first | with_reducible assumption | (with_reducible refine ⟨_, rfl, ?_⟩) | with_reducible apply State.sendCan_keeps | split

theorem execFalarm_keeps {z : State} (code : BitVec 8) (action : BitVec 8) (value : BitVec 16) {s : State} (hz : Keeps z s) :
    ∃ t', execFalarm code action value s = .next t' ∧ Keeps z t' := by
  unfold execFalarm
  try dsimp only
  repeat' first | with_reducible assumption | (with_reducible refine ⟨_, rfl, ?_⟩) | with_reducible apply State.sendAlarm_keeps | split

theorem execFid_keeps {z : State} {s : State} (hz : Keeps z s) :
    ∃ t', execFid s = .next t' ∧ Keeps z t' := by
  unfold execFid
  try dsimp only
  repeat' first | with_reducible assumption | (with_reducible refine ⟨_, rfl, ?_⟩) | with_reducible apply State.sendCan_keeps | split

theorem execFacSupplyLoss_keeps {z : State} {s : State} (hz : Keeps z s) :
    ∃ t', execFacSupplyLoss s = .next t' ∧ Keeps z t' := by
  unfold execFacSupplyLoss
  try dsimp only
  repeat' first
    | with_reducible assumption | (with_reducible refine ⟨_, rfl, ?_⟩) | (simp only [keeps_mk]; refine ⟨?_, ?_, ?_⟩)
    | with_reducible apply Keeps.pending | with_reducible apply Keeps.hbm | with_reducible apply Keeps.sites

theorem execFacSupplyReturn_keeps {z : State} (sa : BitVec 7) {s : State} (hz : Keeps z s) :
    ∃ t', execFacSupplyReturn sa s = .next t' ∧ Keeps z t' := by
  unfold execFacSupplyReturn
  try dsimp only
  repeat' first
    | with_reducible assumption | (with_reducible refine ⟨_, rfl, ?_⟩) | (simp only [keeps_mk]; refine ⟨?_, ?_, ?_⟩)
    | with_reducible apply Keeps.pending | with_reducible apply Keeps.hbm | with_reducible apply Keeps.sites | split

theorem execMeterRead_keeps {z : State} (power : BitVec 32) (inRange : Bool) {s : State} (hz : Keeps z s) :
    ∃ t', execMeterRead power inRange s = .next t' ∧ Keeps z t' := by
  unfold execMeterRead
  try dsimp only
  repeat' first
    | with_reducible assumption | (with_reducible refine ⟨_, rfl, ?_⟩) | with_reducible apply State.countD_keeps
    | with_reducible apply State.showMeter_keeps | (simp only [keeps_mk]; refine ⟨?_, ?_, ?_⟩) | with_reducible apply Keeps.pending
    | with_reducible apply Keeps.hbm | with_reducible apply Keeps.sites | split

theorem execJobStart_keeps {z : State} (jobid : BitVec 64) (step0 : BitVec 64) {s : State} (hz : Keeps z s) :
    ∃ t', execJobStart jobid step0 s = .next t' ∧ Keeps z t' := by
  unfold execJobStart
  try dsimp only
  repeat' first
    | with_reducible assumption | (with_reducible refine ⟨_, rfl, ?_⟩) | with_reducible apply State.emit_keeps
    | (simp only [keeps_mk]; refine ⟨?_, ?_, ?_⟩) | with_reducible apply Keeps.pending | with_reducible apply Keeps.hbm
    | with_reducible apply Keeps.sites | split

theorem execJobStop_keeps {z : State} (step1 : BitVec 64) (late : Bool) {s : State} (hz : Keeps z s) :
    ∃ t', execJobStop step1 late s = .next t' ∧ Keeps z t' := by
  unfold execJobStop
  try dsimp only
  repeat' first
    | with_reducible assumption | (with_reducible refine ⟨_, rfl, ?_⟩) | with_reducible apply State.meterClose_keeps
    | with_reducible apply State.emit_keeps | split

theorem execFetchRecord_keeps {z : State} (rseq : BitVec 32) {s : State} (hz : Keeps z s) :
    ∃ t', execFetchRecord rseq s = .next t' ∧ Keeps z t' := by
  unfold execFetchRecord
  try dsimp only
  repeat' first | with_reducible assumption | (with_reducible refine ⟨_, rfl, ?_⟩) | with_reducible apply State.emit_keeps | split

theorem execMeterInputLoss_keeps {z : State} {s : State} (hz : Keeps z s) :
    ∃ t', execMeterInputLoss s = .next t' ∧ Keeps z t' := by
  unfold execMeterInputLoss
  try dsimp only
  repeat' first | with_reducible assumption | (with_reducible refine ⟨_, rfl, ?_⟩) | with_reducible apply State.meterLoss_keeps

theorem execMeterLinkLoss_keeps {z : State} {s : State} (hz : Keeps z s) :
    ∃ t', execMeterLinkLoss s = .next t' ∧ Keeps z t' := by
  unfold execMeterLinkLoss
  try dsimp only
  repeat' first
    | with_reducible assumption | (with_reducible refine ⟨_, rfl, ?_⟩) | with_reducible apply State.setHd_keeps
    | with_reducible apply State.countD_keeps | split

theorem execMeterLinkReturn_keeps {z : State} {s : State} (hz : Keeps z s) :
    ∃ t', execMeterLinkReturn s = .next t' ∧ Keeps z t' := by
  unfold execMeterLinkReturn
  try dsimp only
  repeat' first
    | with_reducible assumption | (with_reducible refine ⟨_, rfl, ?_⟩) | with_reducible apply State.sendJobStop_keeps
    | with_reducible apply State.setHd_keeps | (simp only [keeps_mk]; refine ⟨?_, ?_, ?_⟩) | with_reducible apply Keeps.pending
    | with_reducible apply Keeps.hbm | with_reducible apply Keeps.sites | split

theorem execNocPacketReceive_keeps {z : State} (d : Fin 12) (p : Sys2Proof.NocPkt) {s : State} (hz : Keeps z s) :
    ∃ t', execNocPacketReceive d p s = .next t' ∧ Keeps z t' := by
  unfold execNocPacketReceive
  try dsimp only
  repeat' first
    | with_reducible assumption | (with_reducible refine ⟨_, rfl, ?_⟩) | with_reducible apply State.nocServe_keeps
    | with_reducible apply State.nocForward_keeps | with_reducible apply State.nocDiscard_keeps | with_reducible apply State.bumpD_keeps
    | with_reducible apply State.countFlits_keeps | split

theorem execPageRetireDone_keeps {z : State} (stack : Fin 24) {s : State} (hz : Keeps z s) :
    ∃ t', execPageRetireDone stack s = .next t' ∧ Keeps z t' := by
  unfold execPageRetireDone
  try dsimp only
  repeat' first
    | with_reducible assumption | (with_reducible refine ⟨_, rfl, ?_⟩) | with_reducible apply State.retireDone_keeps
    | with_reducible apply State.serveHeld_keeps | with_reducible apply State.feedColls_keeps | split

theorem execD2dBlockReceive_keeps {z : State} (g : Sys2Proof.GroupId) (b : List (BitVec 80)) {s : State} (hz : Keeps z s) :
    ∃ t', execD2dBlockReceive g b s = .next t' ∧ Keeps z t' := by
  unfold execD2dBlockReceive
  try dsimp only
  repeat' first
    | with_reducible assumption | (with_reducible refine ⟨_, rfl, ?_⟩) | with_reducible apply State.retryBlock_keeps
    | with_reducible apply State.keepBlock_keeps | with_reducible apply State.deliverBlock_keeps | with_reducible apply State.countD_keeps
    | with_reducible apply State.blockErrors_keeps | split

theorem execD2dBlockReplay_keeps {z : State} (g : Sys2Proof.GroupId) (b : List (BitVec 80)) {s : State} (hz : Keeps z s) :
    ∃ t', execD2dBlockReplay g b s = .next t' ∧ Keeps z t' := by
  unfold execD2dBlockReplay
  try dsimp only
  repeat' first
    | with_reducible assumption | (with_reducible refine ⟨_, rfl, ?_⟩) | with_reducible apply State.removeGroup_keeps
    | with_reducible apply State.fault24_keeps | with_reducible apply State.learnBlock_keeps
    | with_reducible apply State.deliverBlock_keeps | with_reducible apply State.moveBlock_keeps
    | with_reducible apply State.moveOver_keeps | with_reducible apply State.retryBlock_keeps | with_reducible apply State.countD_keeps
    | with_reducible apply State.blockErrors_keeps | (simp only [keeps_mk]; refine ⟨?_, ?_, ?_⟩) | with_reducible apply Keeps.pending
    | with_reducible apply Keeps.hbm | with_reducible apply Keeps.sites | split

theorem execD2dRetrainDone_keeps {z : State} (g : Sys2Proof.GroupId) {s : State} (hz : Keeps z s) :
    ∃ t', execD2dRetrainDone g s = .next t' ∧ Keeps z t' := by
  unfold execD2dRetrainDone
  try dsimp only
  repeat' first
    | with_reducible assumption | (with_reducible refine ⟨_, rfl, ?_⟩) | (simp only [keeps_mk]; refine ⟨?_, ?_, ?_⟩)
    | with_reducible apply Keeps.pending | with_reducible apply Keeps.hbm | with_reducible apply Keeps.sites | split

theorem execSpareTableFault_keeps {z : State} (kind : BitVec 8) (unit : BitVec 48) (secondFailed : Bool) {s : State} (hz : Keeps z s) :
    ∃ t', execSpareTableFault kind unit secondFailed s = .next t' ∧ Keeps z t' := by
  unfold execSpareTableFault
  try dsimp only
  repeat' first | with_reducible assumption | (with_reducible refine ⟨_, rfl, ?_⟩) | with_reducible apply State.applyFault_keeps | split

theorem execSelfTestFull_keeps {z : State} (res : Sys2Proof.FullResult) {s : State} (hz : Keeps z s) :
    ∃ t', execSelfTestFull res s = .next t' ∧ Keeps z t' := by
  unfold execSelfTestFull
  try dsimp only
  repeat' first | with_reducible assumption | (with_reducible refine ⟨_, rfl, ?_⟩) | with_reducible apply State.fullTest_keeps | split

theorem execSelfTestQuick_keeps {z : State} (res : Sys2Proof.QuickResult) {s : State} (hz : Keeps z s) :
    ∃ t', execSelfTestQuick res s = .next t' ∧ Keeps z t' := by
  unfold execSelfTestQuick
  try dsimp only
  repeat' first | with_reducible assumption | (with_reducible refine ⟨_, rfl, ?_⟩) | with_reducible apply State.quickTest_keeps | split

theorem execSliceDue_keeps {z : State} {s : State} (hz : Keeps z s) :
    ∃ t', execSliceDue s = .next t' ∧ Keeps z t' := by
  unfold execSliceDue
  try dsimp only
  repeat' first
    | with_reducible assumption | (with_reducible refine ⟨_, rfl, ?_⟩) | with_reducible apply State.trySlice_keeps
    | with_reducible apply State.alert_keeps | (simp only [keeps_mk]; refine ⟨?_, ?_, ?_⟩) | with_reducible apply Keeps.pending
    | with_reducible apply Keeps.hbm | with_reducible apply Keeps.sites | split

theorem execSiteTest_keeps {z : State} (c : Sys2Proof.SiteNo) {s : State} (hz : Keeps z s) :
    ∃ t', execSiteTest c s = .next t' ∧ Keeps z t' := by
  unfold execSiteTest
  try dsimp only
  repeat' first
    | with_reducible assumption | (with_reducible refine ⟨_, rfl, ?_⟩) | (simp only [keeps_mk]; refine ⟨?_, ?_, ?_⟩)
    | with_reducible apply Keeps.pending | with_reducible apply Keeps.hbm | with_reducible apply Keeps.sites | split

theorem execSiteTestDone_keeps {z : State} (c : Sys2Proof.SiteNo) (r : List Sys2Proof.EntryRun) {s : State} (hz : Keeps z s) :
    ∃ t', execSiteTestDone c r s = .next t' ∧ Keeps z t' := by
  unfold execSiteTestDone
  try dsimp only
  repeat' first
    | with_reducible assumption | (with_reducible refine ⟨_, rfl, ?_⟩) | with_reducible apply State.runAll_keeps
    | with_reducible apply State.siteTested_keeps | split

theorem execPortTest_keeps {z : State} (r : List Sys2Proof.PortRun) {s : State} (hz : Keeps z s) :
    ∃ t', execPortTest r s = .next t' ∧ Keeps z t' := by
  unfold execPortTest
  try dsimp only
  repeat' first
    | with_reducible assumption | (with_reducible refine ⟨_, rfl, ?_⟩) | with_reducible apply State.ctlTested_keeps
    | with_reducible apply State.runEntry_keeps | with_reducible apply foldl_keeps | split | intro _

theorem execPhaseCheck_keeps {z : State} (rail : Fin 32) (phase : Fin 16) (ok : Bool) (retryOk : Bool) {s : State} (hz : Keeps z s) :
    ∃ t', execPhaseCheck rail phase ok retryOk s = .next t' ∧ Keeps z t' := by
  unfold execPhaseCheck
  try dsimp only
  repeat' first | with_reducible assumption | (with_reducible refine ⟨_, rfl, ?_⟩) | with_reducible apply State.applyFault_keeps | split

theorem execTcInstall_keeps {z : State} (h : Sys2Proof.HostHdr) (off : BitVec 64) (len : BitVec 64) (chunk : Sys2Proof.Bytes) {s : State} (hz : Keeps z s) :
    ∃ t', execTcInstall h off len chunk s = .next t' ∧ Keeps z t' := by
  unfold execTcInstall
  try dsimp only
  repeat' first
    | with_reducible assumption | (with_reducible refine ⟨_, rfl, ?_⟩) | with_reducible apply State.installPkg_keeps
    | with_reducible apply State.setHd_keeps | with_reducible apply State.answer_keeps | with_reducible apply State.request_keeps
    | (simp only [keeps_mk]; refine ⟨?_, ?_, ?_⟩) | with_reducible apply Keeps.pending | with_reducible apply Keeps.hbm
    | with_reducible apply Keeps.sites | split | intro _

theorem execDeviceCertInstall_keeps {z : State} (cert : Sys2Proof.Bytes) {s : State} (hz : Keeps z s) :
    ∃ t', execDeviceCertInstall cert s = .next t' ∧ Keeps z t' := by
  unfold execDeviceCertInstall
  try dsimp only
  repeat' first
    | with_reducible assumption | (with_reducible refine ⟨_, rfl, ?_⟩) | with_reducible apply State.setHd_keeps
    | (simp only [keeps_mk]; refine ⟨?_, ?_, ?_⟩) | with_reducible apply Keeps.pending | with_reducible apply Keeps.hbm
    | with_reducible apply Keeps.sites | split

theorem execChal_keeps {z : State} (h : Sys2Proof.HostHdr) {s : State} (hz : Keeps z s) :
    ∃ t', execChal h s = .next t' ∧ Keeps z t' := by
  unfold execChal
  try dsimp only
  repeat' first
    | with_reducible assumption | (with_reducible refine ⟨_, rfl, ?_⟩) | with_reducible apply State.skipFree_keeps
    | with_reducible apply State.answer_keeps | with_reducible apply State.request_keeps | (simp only [keeps_mk]; refine ⟨?_, ?_, ?_⟩)
    | with_reducible apply Keeps.pending | with_reducible apply Keeps.hbm | with_reducible apply Keeps.sites | intro _

theorem execChallengeExpiry_keeps {z : State} {s : State} (hz : Keeps z s) :
    ∃ t', execChallengeExpiry s = .next t' ∧ Keeps z t' := by
  unfold execChallengeExpiry
  try dsimp only
  repeat' first
    | with_reducible assumption | (with_reducible refine ⟨_, rfl, ?_⟩) | (simp only [keeps_mk]; refine ⟨?_, ?_, ?_⟩)
    | with_reducible apply Keeps.pending | with_reducible apply Keeps.hbm | with_reducible apply Keeps.sites

theorem execSignreq_keeps {z : State} (h : Sys2Proof.HostHdr) (req : Sys2Proof.Bytes) {s : State} (hz : Keeps z s) :
    ∃ t', execSignreq h req s = .next t' ∧ Keeps z t' := by
  unfold execSignreq
  try dsimp only
  repeat' first
    | with_reducible assumption | (with_reducible refine ⟨_, rfl, ?_⟩) | with_reducible apply State.answer_keeps
    | with_reducible apply State.reqEffect_keeps | with_reducible apply State.skipFree_keeps | with_reducible apply State.reqRefuse_keeps
    | with_reducible apply State.request_keeps | (simp only [keeps_mk]; refine ⟨?_, ?_, ?_⟩) | with_reducible apply Keeps.pending
    | with_reducible apply Keeps.hbm | with_reducible apply Keeps.sites | split | intro _

theorem execAttest_keeps {z : State} (h : Sys2Proof.HostHdr) (nonce : BitVec 256) {s : State} (hz : Keeps z s) :
    ∃ t', execAttest h nonce s = .next t' ∧ Keeps z t' := by
  unfold execAttest
  try dsimp only
  repeat' first
    | with_reducible assumption | (with_reducible refine ⟨_, rfl, ?_⟩) | with_reducible apply State.answer_keeps
    | with_reducible apply State.skipFree_keeps | with_reducible apply State.request_keeps | split | intro _

theorem execFwInstall_keeps {z : State} (h : Sys2Proof.HostHdr) (off : BitVec 64) (len : BitVec 64) (chunk : Sys2Proof.Bytes) {s : State} (hz : Keeps z s) :
    ∃ t', execFwInstall h off len chunk s = .next t' ∧ Keeps z t' := by
  unfold execFwInstall
  try dsimp only
  repeat' first
    | with_reducible assumption | (with_reducible refine ⟨_, rfl, ?_⟩) | with_reducible apply State.setHd_keeps
    | with_reducible apply State.answer_keeps | with_reducible apply State.request_keeps | (simp only [keeps_mk]; refine ⟨?_, ?_, ?_⟩)
    | with_reducible apply Keeps.pending | with_reducible apply Keeps.hbm | with_reducible apply Keeps.sites | split | intro _

theorem execPowerSample_keeps {z : State} (pin : BitVec 16) (vin : BitVec 16) (over62 : Bool) (over55 : Bool) {s : State} (hz : Keeps z s) :
    ∃ t', execPowerSample pin vin over62 over55 s = .next t' ∧ Keeps z t' := by
  unfold execPowerSample
  try dsimp only
  repeat' first
    | with_reducible assumption | (with_reducible refine ⟨_, rfl, ?_⟩) | with_reducible apply State.throttle_keeps
    | with_reducible apply State.setHd_keeps | split

theorem execThrottleOverrun_keeps {z : State} {s : State} (hz : Keeps z s) :
    ∃ t', execThrottleOverrun s = .next t' ∧ Keeps z t' := by
  unfold execThrottleOverrun
  try dsimp only
  repeat' first | with_reducible assumption | (with_reducible refine ⟨_, rfl, ?_⟩) | with_reducible apply State.powerFault_keeps | split

theorem execInputLoss_keeps {z : State} {s : State} (hz : Keeps z s) :
    ∃ t', execInputLoss s = .next t' ∧ Keeps z t' := by
  unfold execInputLoss
  try dsimp only
  repeat' first | with_reducible assumption | (with_reducible refine ⟨_, rfl, ?_⟩) | with_reducible apply State.loseInput_keeps

theorem execInputVoltageFault_keeps {z : State} (vin : BitVec 16) {s : State} (hz : Keeps z s) :
    ∃ t', execInputVoltageFault vin s = .next t' ∧ Keeps z t' := by
  unfold execInputVoltageFault
  try dsimp only
  repeat' first
    | with_reducible assumption | (with_reducible refine ⟨_, rfl, ?_⟩) | with_reducible apply State.loseInput_keeps
    | with_reducible apply State.setHd_keeps | with_reducible apply State.sendAlarm_keeps | split

theorem execPresentBreak_keeps {z : State} {s : State} (hz : Keeps z s) :
    ∃ t', execPresentBreak s = .next t' ∧ Keeps z t' := by
  unfold execPresentBreak
  try dsimp only
  repeat' first
    | with_reducible assumption | (with_reducible refine ⟨_, rfl, ?_⟩) | with_reducible apply State.loseInput_keeps
    | (simp only [keeps_mk]; refine ⟨?_, ?_, ?_⟩) | with_reducible apply Keeps.pending | with_reducible apply Keeps.hbm
    | with_reducible apply Keeps.sites

theorem execPresentMate_keeps {z : State} {s : State} (hz : Keeps z s) :
    ∃ t', execPresentMate s = .next t' ∧ Keeps z t' := by
  unfold execPresentMate
  try dsimp only
  repeat' first
    | with_reducible assumption | (with_reducible refine ⟨_, rfl, ?_⟩) | (simp only [keeps_mk]; refine ⟨?_, ?_, ?_⟩)
    | with_reducible apply Keeps.pending | with_reducible apply Keeps.hbm | with_reducible apply Keeps.sites

theorem execThermalSample_keeps {z : State} (t : Sys2Proof.Thermal) {s : State} (hz : Keeps z s) :
    ∃ t', execThermalSample t s = .next t' ∧ Keeps z t' := by
  unfold execThermalSample
  try dsimp only
  repeat' first
    | with_reducible assumption | (with_reducible refine ⟨_, rfl, ?_⟩) | with_reducible apply State.overTemp_keeps
    | with_reducible apply State.takeInputs_keeps | with_reducible apply State.showThermal_keeps
    | with_reducible apply State.regulate_keeps | (simp only [keeps_mk]; refine ⟨?_, ?_, ?_⟩) | with_reducible apply Keeps.pending
    | with_reducible apply Keeps.hbm | with_reducible apply Keeps.sites | split

theorem execLeakSensed_keeps {z : State} {s : State} (hz : Keeps z s) :
    ∃ t', execLeakSensed s = .next t' ∧ Keeps z t' := by
  unfold execLeakSensed
  try dsimp only
  repeat' first
    | with_reducible assumption | (with_reducible refine ⟨_, rfl, ?_⟩) | with_reducible apply State.setHd_keeps
    | with_reducible apply State.sendAlarm_keeps | with_reducible apply State.skipFree_keeps | with_reducible apply State.takeInputs_keeps
    | split

theorem execPannierOverflow_keeps {z : State} (nd : Fin 2) (k : Sys2Proof.UalPkt) {s : State} (hz : Keeps z s) :
    ∃ t', execPannierOverflow nd k s = .next t' ∧ Keeps z t' := by
  unfold execPannierOverflow
  try dsimp only
  repeat' first | with_reducible assumption | (with_reducible refine ⟨_, rfl, ?_⟩) | with_reducible apply State.panOverflow_keeps | split

theorem execPannierResend_keeps {z : State} (nd : Fin 2) (n : Nat) (why : Sys2Proof.ResendWhy) {s : State} (hz : Keeps z s) :
    ∃ t', execPannierResend nd n why s = .next t' ∧ Keeps z t' := by
  unfold execPannierResend
  try dsimp only
  repeat' first | with_reducible assumption | (with_reducible refine ⟨_, rfl, ?_⟩) | with_reducible apply State.resend_keeps | split

theorem execDigestComputeDone_keeps {z : State} {s : State} (hz : Keeps z s) :
    ∃ t', execDigestComputeDone s = .next t' ∧ Keeps z t' := by
  unfold execDigestComputeDone
  try dsimp only
  repeat' first | with_reducible assumption | (with_reducible refine ⟨_, rfl, ?_⟩) | with_reducible apply State.digestsDone_keeps | split

theorem execCopyRepair_keeps {z : State} (own : Bool) (pages : List Sys2Proof.PageData) {s : State} (hz : Keeps z s) :
    ∃ t', execCopyRepair own pages s = .next t' ∧ Keeps z t' := by
  unfold execCopyRepair
  try dsimp only
  repeat' first
    | with_reducible assumption | (with_reducible refine ⟨_, rfl, ?_⟩) | with_reducible apply State.sendRepair_keeps
    | with_reducible apply State.writePage_keeps | with_reducible apply foldl_keeps | (simp only [keeps_mk]; refine ⟨?_, ?_, ?_⟩)
    | with_reducible apply Keeps.pending | with_reducible apply Keeps.hbm | with_reducible apply Keeps.sites | split

theorem execRefereeRun_keeps {z : State} (r : Sys2Proof.RefereeInput) {s : State} (hz : Keeps z s) :
    ∃ t', execRefereeRun r s = .next t' ∧ Keeps z t' := by
  unfold execRefereeRun
  try dsimp only
  repeat' first
    | with_reducible assumption | (with_reducible refine ⟨_, rfl, ?_⟩) | with_reducible apply State.refereed_keeps
    | with_reducible apply State.needTier3_keeps | with_reducible apply State.sendReferee_keeps
    | with_reducible apply State.refereeRun_keeps | split

theorem execPoisonPageRestore_keeps {z : State} (p : Sys2Proof.PageFrom) {s : State} (hz : Keeps z s) :
    ∃ t', execPoisonPageRestore p s = .next t' ∧ Keeps z t' := by
  unfold execPoisonPageRestore
  try dsimp only
  repeat' first
    | with_reducible assumption | (with_reducible refine ⟨_, rfl, ?_⟩) | with_reducible apply State.writePage_keeps
    | with_reducible apply State.bumpHd_keeps | with_reducible apply State.badSource_keeps | with_reducible apply State.sendPage_keeps
    | (simp only [keeps_mk]; refine ⟨?_, ?_, ?_⟩) | with_reducible apply Keeps.pending | with_reducible apply Keeps.hbm
    | with_reducible apply Keeps.sites | split

theorem execTier1Rewind_keeps {z : State} (cause : BitVec 8) {s : State} (hz : Keeps z s) :
    ∃ t', execTier1Rewind cause s = .next t' ∧ Keeps z t' := by
  unfold execTier1Rewind
  try dsimp only
  repeat' first
    | with_reducible assumption | (with_reducible refine ⟨_, rfl, ?_⟩) | with_reducible apply State.tier1_keeps
    | with_reducible apply State.releaseHeld_keeps | split

theorem execTier2Recovery_keeps {z : State} (subj : BitVec 16) (domSerial : BitVec 64) {s : State} (hz : Keeps z s) :
    ∃ t', execTier2Recovery subj domSerial s = .next t' ∧ Keeps z t' := by
  unfold execTier2Recovery
  try dsimp only
  repeat' first
    | with_reducible assumption | (with_reducible refine ⟨_, rfl, ?_⟩) | with_reducible apply State.placeDom_keeps
    | with_reducible apply State.sendTransfers_keeps | with_reducible apply State.setHd_keeps
    | (simp only [keeps_mk]; refine ⟨?_, ?_, ?_⟩) | with_reducible apply Keeps.pending | with_reducible apply Keeps.hbm
    | with_reducible apply Keeps.sites | split

theorem execStateTransferDone_keeps {z : State} (x : Sys2Proof.Transfer) {s : State} (hz : Keeps z s) :
    ∃ t', execStateTransferDone x s = .next t' ∧ Keeps z t' := by
  unfold execStateTransferDone
  try dsimp only
  repeat' first
    | with_reducible assumption | (with_reducible refine ⟨_, rfl, ?_⟩) | with_reducible apply State.setTier2_keeps
    | with_reducible apply State.transferFails_keeps | with_reducible apply State.transferIn_keeps | split

theorem execNoDomestique_keeps {z : State} (forReferee : Bool) {s : State} (hz : Keeps z s) :
    ∃ t', execNoDomestique forReferee s = .next t' ∧ Keeps z t' := by
  unfold execNoDomestique
  try dsimp only
  repeat' first
    | with_reducible assumption | (with_reducible refine ⟨_, rfl, ?_⟩) | with_reducible apply State.sendHalt_keeps
    | with_reducible apply State.needTier3_keeps | split

theorem execCatchupReplay_keeps {z : State} (x : Sys2Proof.CatchUp) {s : State} (hz : Keeps z s) :
    ∃ t', execCatchupReplay x s = .next t' ∧ Keeps z t' := by
  unfold execCatchupReplay
  try dsimp only
  repeat' first
    | with_reducible assumption | (with_reducible refine ⟨_, rfl, ?_⟩) | with_reducible apply State.holderCatchUp_keeps
    | with_reducible apply State.catchUpRun_keeps | split

theorem execTier3Restore_keeps {z : State} {s : State} (hz : Keeps z s) :
    ∃ t', execTier3Restore s = .next t' ∧ Keeps z t' := by
  unfold execTier3Restore
  try dsimp only
  repeat' first
    | with_reducible assumption | (with_reducible refine ⟨_, rfl, ?_⟩) | with_reducible apply State.queryAll_keeps
    | with_reducible apply State.noteRewind_keeps | with_reducible apply State.setGate_keeps | with_reducible apply State.setHd_keeps
    | with_reducible apply State.stopAll_keeps | with_reducible apply State.abandonRound_keeps
    | (simp only [keeps_mk]; refine ⟨?_, ?_, ?_⟩) | with_reducible apply Keeps.pending | with_reducible apply Keeps.hbm
    | with_reducible apply Keeps.sites | split

theorem execPowerUp_keeps {z : State} (b : Sys2Proof.BootInput) {s : State} (hz : Keeps z s) :
    ∃ t', execPowerUp b s = .next t' ∧ Keeps z t' := by
  unfold execPowerUp
  try dsimp only
  repeat' first
    | with_reducible assumption | (with_reducible refine ⟨_, rfl, ?_⟩) | with_reducible apply State.setHd_keeps
    | with_reducible apply State.meterUpAgain_keeps | with_reducible apply State.boot_keeps | (simp only [keeps_mk]; refine ⟨?_, ?_, ?_⟩)
    | with_reducible apply Keeps.pending | with_reducible apply Keeps.hbm | with_reducible apply Keeps.sites | split

theorem execModReset_keeps {z : State} (h : Sys2Proof.HostHdr) (b : Sys2Proof.BootInput) {s : State} (hz : Keeps z s) :
    ∃ t', execModReset h b s = .next t' ∧ Keeps z t' := by
  unfold execModReset
  try dsimp only
  repeat' first
    | with_reducible assumption | (with_reducible refine ⟨_, rfl, ?_⟩) | with_reducible apply State.boot_keeps
    | with_reducible apply State.cleared_keeps | with_reducible apply State.answer_keeps | with_reducible apply State.request_keeps
    | (simp only [keeps_mk]; refine ⟨?_, ?_, ?_⟩) | with_reducible apply Keeps.pending | with_reducible apply Keeps.hbm
    | with_reducible apply Keeps.sites | split | intro _

theorem execShutdown_keeps {z : State} (h : Sys2Proof.HostHdr) (full : Bool) (res : Sys2Proof.FullResult) {s : State} (hz : Keeps z s) :
    ∃ t', execShutdown h full res s = .next t' ∧ Keeps z t' := by
  unfold execShutdown
  try dsimp only
  repeat' first
    | with_reducible assumption | (with_reducible refine ⟨_, rfl, ?_⟩) | with_reducible apply State.cleared_keeps
    | with_reducible apply State.fullTest_keeps | with_reducible apply State.answer_keeps | with_reducible apply State.request_keeps
    | (simp only [keeps_mk]; refine ⟨?_, ?_, ?_⟩) | with_reducible apply Keeps.pending | with_reducible apply Keeps.hbm
    | with_reducible apply Keeps.sites | split | intro _

theorem execSelftest_keeps {z : State} (h : Sys2Proof.HostHdr) (res : Sys2Proof.FullResult) {s : State} (hz : Keeps z s) :
    ∃ t', execSelftest h res s = .next t' ∧ Keeps z t' := by
  unfold execSelftest
  try dsimp only
  repeat' first
    | with_reducible assumption | (with_reducible refine ⟨_, rfl, ?_⟩) | with_reducible apply State.fullTest_keeps
    | with_reducible apply State.answer_keeps | with_reducible apply State.request_keeps | split | intro _

theorem execRegrd_keeps {z : State} (h : Sys2Proof.HostHdr) (addr : BitVec 64) {s : State} (hz : Keeps z s) :
    ∃ t', execRegrd h addr s = .next t' ∧ Keeps z t' := by
  unfold execRegrd
  try dsimp only
  repeat' first
    | with_reducible assumption | (with_reducible refine ⟨_, rfl, ?_⟩) | with_reducible apply State.answerFree_keeps
    | with_reducible apply State.answer_keeps | with_reducible apply State.request_keeps | split | intro _

theorem execRegwr_keeps {z : State} (h : Sys2Proof.HostHdr) (addr : BitVec 64) (v : BitVec 64) (mask : BitVec 64) {s : State} (hz : Keeps z s) :
    ∃ t', execRegwr h addr v mask s = .next t' ∧ Keeps z t' := by
  unfold execRegwr
  try dsimp only
  repeat' first
    | with_reducible assumption | (with_reducible refine ⟨_, rfl, ?_⟩) | with_reducible apply State.answerFree_keeps
    | with_reducible apply State.answer_keeps | with_reducible apply State.regWrite_keeps | with_reducible apply State.request_keeps
    | split | intro _

theorem execHostAdmission_keeps {z : State} (h : Sys2Proof.HostHdr) (step0 : BitVec 64) (restore : Bool) {s : State} (hz : Keeps z s) :
    ∃ t', execHostAdmission h step0 restore s = .next t' ∧ Keeps z t' := by
  unfold execHostAdmission
  try dsimp only
  repeat' first
    | with_reducible assumption | (with_reducible refine ⟨_, rfl, ?_⟩) | with_reducible apply State.admitJob_keeps
    | with_reducible apply State.skipFree_keeps | with_reducible apply State.refuseFree_keeps | with_reducible apply State.answer_keeps
    | with_reducible apply State.request_keeps | split | intro _

theorem execAdmissionTimeout_keeps {z : State} {s : State} (hz : Keeps z s) :
    ∃ t', execAdmissionTimeout s = .next t' ∧ Keeps z t' := by
  unfold execAdmissionTimeout
  try dsimp only
  repeat' first
    | with_reducible assumption | (with_reducible refine ⟨_, rfl, ?_⟩) | with_reducible apply State.refuseAdmission_keeps
    | with_reducible apply State.skipFree_keeps | split

theorem execSlReady_keeps {z : State} (dev : BitVec 16) (step0 : BitVec 64) (jobLo : BitVec 32) {s : State} (hz : Keeps z s) :
    ∃ t', execSlReady dev step0 jobLo s = .next t' ∧ Keeps z t' := by
  unfold execSlReady
  try dsimp only
  repeat' first
    | with_reducible assumption | (with_reducible refine ⟨_, rfl, ?_⟩) | with_reducible apply State.readyFrom_keeps
    | with_reducible apply State.mgtRespond_keeps | with_reducible apply State.mgtAnswer_keeps | split

theorem execSlStart_keeps {z : State} (dev : BitVec 16) {s : State} (hz : Keeps z s) :
    ∃ t', execSlStart dev s = .next t' ∧ Keeps z t' := by
  unfold execSlStart
  try dsimp only
  repeat' first
    | with_reducible assumption | (with_reducible refine ⟨_, rfl, ?_⟩) | with_reducible apply State.startSlice_keeps
    | with_reducible apply State.refuseAdmission_keeps | with_reducible apply State.skipFree_keeps
    | with_reducible apply State.mgtAnswer_keeps | split

theorem execHostRelease_keeps {z : State} (h : Sys2Proof.HostHdr) (force : Bool) {s : State} (hz : Keeps z s) :
    ∃ t', execHostRelease h force s = .next t' ∧ Keeps z t' := by
  unfold execHostRelease
  try dsimp only
  repeat' first
    | with_reducible assumption | (with_reducible refine ⟨_, rfl, ?_⟩) | with_reducible apply State.release_keeps
    | with_reducible apply State.answer_keeps | with_reducible apply State.request_keeps | split | intro _

theorem execRelOrder_keeps {z : State} (dev : BitVec 16) {s : State} (hz : Keeps z s) :
    ∃ t', execRelOrder dev s = .next t' ∧ Keeps z t' := by
  unfold execRelOrder
  try dsimp only
  repeat' first
    | with_reducible assumption | (with_reducible refine ⟨_, rfl, ?_⟩) | with_reducible apply State.notify_keeps
    | with_reducible apply State.mgtAnswer_keeps | with_reducible apply State.mgtRespond_keeps
    | (simp only [keeps_mk]; refine ⟨?_, ?_, ?_⟩) | with_reducible apply Keeps.pending | with_reducible apply Keeps.hbm
    | with_reducible apply Keeps.sites | split

theorem execRelOrderTimeout_keeps {z : State} {s : State} (hz : Keeps z s) :
    ∃ t', execRelOrderTimeout s = .next t' ∧ Keeps z t' := by
  unfold execRelOrderTimeout
  try dsimp only
  repeat' first | with_reducible assumption | (with_reducible refine ⟨_, rfl, ?_⟩) | with_reducible apply State.release_keeps | split

theorem execHostEvict_keeps {z : State} (h : Sys2Proof.HostHdr) (dev : BitVec 16) {s : State} (hz : Keeps z s) :
    ∃ t', execHostEvict h dev s = .next t' ∧ Keeps z t' := by
  unfold execHostEvict
  try dsimp only
  repeat' first
    | with_reducible assumption | (with_reducible refine ⟨_, rfl, ?_⟩) | with_reducible apply State.pelSend_keeps
    | with_reducible apply State.answer_keeps | with_reducible apply State.request_keeps | split | intro _

theorem execHostStatus_keeps {z : State} (h : Sys2Proof.HostHdr) {s : State} (hz : Keeps z s) :
    ∃ t', execHostStatus h s = .next t' ∧ Keeps z t' := by
  unfold execHostStatus
  try dsimp only
  repeat' first
    | with_reducible assumption | (with_reducible refine ⟨_, rfl, ?_⟩) | with_reducible apply State.answer_keeps
    | with_reducible apply State.request_keeps | intro _

theorem execIdentMsg_keeps {z : State} (h : Sys2Proof.HostHdr) {s : State} (hz : Keeps z s) :
    ∃ t', execIdentMsg h s = .next t' ∧ Keeps z t' := by
  unfold execIdentMsg
  try dsimp only
  repeat' first
    | with_reducible assumption | (with_reducible refine ⟨_, rfl, ?_⟩) | with_reducible apply State.bumpHd_keeps
    | with_reducible apply State.answer_keeps | with_reducible apply State.mgtDiscard_keeps | split

theorem execNotifyHost_keeps {z : State} (ev : BitVec 8) (arg1 : BitVec 64) {s : State} (hz : Keeps z s) :
    ∃ t', execNotifyHost ev arg1 s = .next t' ∧ Keeps z t' := by
  unfold execNotifyHost
  try dsimp only
  repeat' first | with_reducible assumption | (with_reducible refine ⟨_, rfl, ?_⟩) | with_reducible apply State.notify_keeps | split

theorem execAlertMsg_keeps {z : State} (code : BitVec 8) {s : State} (hz : Keeps z s) :
    ∃ t', execAlertMsg code s = .next t' ∧ Keeps z t' := by
  unfold execAlertMsg
  try dsimp only
  repeat' first | with_reducible assumption | (with_reducible refine ⟨_, rfl, ?_⟩) | with_reducible apply State.alert_keeps | split

theorem execCkptMsg_keeps {z : State} (src : Sys2Proof.MgtSrc) (m : Sys2Proof.CkMsg) {s : State} (hz : Keeps z s) :
    ∃ t', execCkptMsg src m s = .next t' ∧ Keeps z t' := by
  unfold execCkptMsg
  try dsimp only
  repeat' first
    | with_reducible assumption | (with_reducible refine ⟨_, rfl, ?_⟩) | with_reducible apply State.mgtAnswer_keeps
    | with_reducible apply State.mgtAnswered_keeps | with_reducible apply State.mgtDiscard_keeps | split

theorem execMgtResendTimer_keeps {z : State} {s : State} (hz : Keeps z s) :
    ∃ t', execMgtResendTimer s = .next t' ∧ Keeps z t' := by
  unfold execMgtResendTimer
  try dsimp only
  repeat' first | with_reducible assumption | (with_reducible refine ⟨_, rfl, ?_⟩) | with_reducible apply State.resendMgt_keeps | split

theorem execRouterAdvertisement_keeps {z : State} (mgtB : Bool) (net64 : BitVec 64) {s : State} (hz : Keeps z s) :
    ∃ t', execRouterAdvertisement mgtB net64 s = .next t' ∧ Keeps z t' := by
  unfold execRouterAdvertisement
  try dsimp only
  repeat' first | with_reducible assumption | (with_reducible refine ⟨_, rfl, ?_⟩) | with_reducible apply State.setHd_keeps | split

theorem execHostFlitReceive_keeps {z : State} (m : Fin 4) (fl : Sys2Proof.HostFlit) {s : State} (hz : Keeps z s) :
    ∃ t', execHostFlitReceive m fl s = .next t' ∧ Keeps z t' := by
  unfold execHostFlitReceive
  try dsimp only
  repeat' first
    | with_reducible assumption | (with_reducible refine ⟨_, rfl, ?_⟩) | with_reducible apply State.setLink_keeps
    | with_reducible apply State.linkFails_keeps | with_reducible apply State.emit_keeps | with_reducible apply State.takeFlit_keeps
    | split

theorem execHostLinkRetrainDone_keeps {z : State} (m : Fin 4) (ok : Bool) {s : State} (hz : Keeps z s) :
    ∃ t', execHostLinkRetrainDone m ok s = .next t' ∧ Keeps z t' := by
  unfold execHostLinkRetrainDone
  try dsimp only
  repeat' first
    | with_reducible assumption | (with_reducible refine ⟨_, rfl, ?_⟩) | with_reducible apply State.setLink_keeps
    | (simp only [keeps_mk]; refine ⟨?_, ?_, ?_⟩) | with_reducible apply Keeps.pending | with_reducible apply Keeps.hbm
    | with_reducible apply Keeps.sites | split

theorem execHxwdKick_keeps {z : State} {s : State} (hz : Keeps z s) :
    ∃ t', execHxwdKick s = .next t' ∧ Keeps z t' := by
  unfold execHxwdKick
  try dsimp only
  repeat' first
    | with_reducible assumption | (with_reducible refine ⟨_, rfl, ?_⟩) | (simp only [keeps_mk]; refine ⟨?_, ?_, ?_⟩)
    | with_reducible apply Keeps.pending | with_reducible apply Keeps.hbm | with_reducible apply Keeps.sites | split

theorem execHxWatchdogExpiry_keeps {z : State} {s : State} (hz : Keeps z s) :
    ∃ t', execHxWatchdogExpiry s = .next t' ∧ Keeps z t' := by
  unfold execHxWatchdogExpiry
  try dsimp only
  repeat' first
    | with_reducible assumption | (with_reducible refine ⟨_, rfl, ?_⟩) | with_reducible apply State.bootLast_keeps
    | with_reducible apply State.selfLasting_keeps | (simp only [keeps_mk]; refine ⟨?_, ?_, ?_⟩) | with_reducible apply Keeps.pending
    | with_reducible apply Keeps.hbm | with_reducible apply Keeps.sites | split

theorem execHeartbeatSend_keeps {z : State} {s : State} (hz : Keeps z s) :
    ∃ t', execHeartbeatSend s = .next t' ∧ Keeps z t' := by
  unfold execHeartbeatSend
  try dsimp only
  repeat' first | with_reducible assumption | (with_reducible refine ⟨_, rfl, ?_⟩) | with_reducible apply State.sendHeartbeat_keeps | split

theorem execHb_keeps {z : State} (h : Sys2Proof.PelHdr) (m : Sys2Proof.HbMsg) {s : State} (hz : Keeps z s) :
    ∃ t', execHb h m s = .next t' ∧ Keeps z t' := by
  unfold execHb
  try dsimp only
  repeat' first
    | with_reducible assumption | (with_reducible refine ⟨_, rfl, ?_⟩) | with_reducible apply State.heartbeatIn_keeps
    | with_reducible apply State.pelIn_keeps | split | intro _

theorem execHeartbeatMiss_keeps {z : State} (subj : BitVec 16) {s : State} (hz : Keeps z s) :
    ∃ t', execHeartbeatMiss subj s = .next t' ∧ Keeps z t' := by
  unfold execHeartbeatMiss
  try dsimp only
  repeat' first
    | with_reducible assumption | (with_reducible refine ⟨_, rfl, ?_⟩) | with_reducible apply State.missOne_keeps
    | with_reducible apply State.quorumCheck_keeps | with_reducible apply foldl_keeps | split | intro _

theorem execQuorumLossFence_keeps {z : State} {s : State} (hz : Keeps z s) :
    ∃ t', execQuorumLossFence s = .next t' ∧ Keeps z t' := by
  unfold execQuorumLossFence
  try dsimp only
  repeat' first | with_reducible assumption | (with_reducible refine ⟨_, rfl, ?_⟩) | with_reducible apply State.fence_keeps | split

theorem execMissMsg_keeps {z : State} (h : Sys2Proof.PelHdr) (subj : BitVec 16) (_misses : BitVec 8) (_lastSeq : BitVec 32) {s : State} (hz : Keeps z s) :
    ∃ t', execMissMsg h subj _misses _lastSeq s = .next t' ∧ Keeps z t' := by
  unfold execMissMsg
  try dsimp only
  repeat' first
    | with_reducible assumption | (with_reducible refine ⟨_, rfl, ?_⟩) | with_reducible apply State.noteMajority_keeps
    | with_reducible apply State.pelIn_keeps | (simp only [keeps_mk]; refine ⟨?_, ?_, ?_⟩) | with_reducible apply Keeps.pending
    | with_reducible apply Keeps.hbm | with_reducible apply Keeps.sites | split | intro _

theorem execWithdrawMsg_keeps {z : State} (h : Sys2Proof.PelHdr) (subj : BitVec 16) (_heard : BitVec 32) {s : State} (hz : Keeps z s) :
    ∃ t', execWithdrawMsg h subj _heard s = .next t' ∧ Keeps z t' := by
  unfold execWithdrawMsg
  try dsimp only
  repeat' first
    | with_reducible assumption | (with_reducible refine ⟨_, rfl, ?_⟩) | with_reducible apply State.noteMajority_keeps
    | with_reducible apply State.pelIn_keeps | (simp only [keeps_mk]; refine ⟨?_, ?_, ?_⟩) | with_reducible apply Keeps.pending
    | with_reducible apply Keeps.hbm | with_reducible apply Keeps.sites | intro _

theorem execCaptainConfirm_keeps {z : State} (subj : BitVec 16) {s : State} (hz : Keeps z s) :
    ∃ t', execCaptainConfirm subj s = .next t' ∧ Keeps z t' := by
  unfold execCaptainConfirm
  try dsimp only
  repeat' first | with_reducible assumption | (with_reducible refine ⟨_, rfl, ?_⟩) | with_reducible apply State.propose_keeps | split

theorem execProposeMsg_keeps {z : State} (h : Sys2Proof.PelHdr) (m : Sys2Proof.ProposeMsg) {s : State} (hz : Keeps z s) :
    ∃ t', execProposeMsg h m s = .next t' ∧ Keeps z t' := by
  unfold execProposeMsg
  try dsimp only
  repeat' first
    | with_reducible assumption | (with_reducible refine ⟨_, rfl, ?_⟩) | with_reducible apply State.proposeIn_keeps
    | with_reducible apply State.pelIn_keeps | split | intro _

theorem execAcceptMsg_keeps {z : State} (h : Sys2Proof.PelHdr) (m : Sys2Proof.AcceptMsg) {s : State} (hz : Keeps z s) :
    ∃ t', execAcceptMsg h m s = .next t' ∧ Keeps z t' := by
  unfold execAcceptMsg
  try dsimp only
  repeat' first
    | with_reducible assumption | (with_reducible refine ⟨_, rfl, ?_⟩) | with_reducible apply State.acceptIn_keeps
    | with_reducible apply State.pelIn_keeps | intro _

theorem execProposeTimeout_keeps {z : State} {s : State} (hz : Keeps z s) :
    ∃ t', execProposeTimeout s = .next t' ∧ Keeps z t' := by
  unfold execProposeTimeout
  try dsimp only
  repeat' first
    | with_reducible assumption | (with_reducible refine ⟨_, rfl, ?_⟩) | with_reducible apply State.askSync_keeps
    | with_reducible apply State.nextWish_keeps | (simp only [keeps_mk]; refine ⟨?_, ?_, ?_⟩) | with_reducible apply Keeps.pending
    | with_reducible apply Keeps.hbm | with_reducible apply Keeps.sites | split

theorem execDeclareMsg_keeps {z : State} (h : Sys2Proof.PelHdr) (m : Sys2Proof.DeclareMsg) {s : State} (hz : Keeps z s) :
    ∃ t', execDeclareMsg h m s = .next t' ∧ Keeps z t' := by
  unfold execDeclareMsg
  try dsimp only
  repeat' first
    | with_reducible assumption | (with_reducible refine ⟨_, rfl, ?_⟩) | with_reducible apply State.declareIn_keeps
    | with_reducible apply State.pelIn_keeps | intro _

theorem execSyncMsg_keeps {z : State} (h : Sys2Proof.PelHdr) (fromEp : BitVec 32) {s : State} (hz : Keeps z s) :
    ∃ t', execSyncMsg h fromEp s = .next t' ∧ Keeps z t' := by
  unfold execSyncMsg
  try dsimp only
  repeat' first
    | with_reducible assumption | (with_reducible refine ⟨_, rfl, ?_⟩) | with_reducible apply State.pelSend_keeps
    | with_reducible apply State.pelIn_keeps | split | intro _

theorem execSyncRep_keeps {z : State} (h : Sys2Proof.PelHdr) (ws : List (BitVec 64)) {s : State} (hz : Keeps z s) :
    ∃ t', execSyncRep h ws s = .next t' ∧ Keeps z t' := by
  unfold execSyncRep
  try dsimp only
  repeat' first
    | with_reducible assumption | (with_reducible refine ⟨_, rfl, ?_⟩) | with_reducible apply State.syncRepIn_keeps
    | with_reducible apply State.pelIn_keeps | intro _

theorem execPelFault_keeps {z : State} (h : Sys2Proof.PelHdr) (m : Sys2Proof.FaultMsg) {s : State} (hz : Keeps z s) :
    ∃ t', execPelFault h m s = .next t' ∧ Keeps z t' := by
  unfold execPelFault
  try dsimp only
  repeat' first
    | with_reducible assumption | (with_reducible refine ⟨_, rfl, ?_⟩) | with_reducible apply State.faultIn_keeps
    | with_reducible apply State.pelIn_keeps | split | intro _

theorem execPelRewind_keeps {z : State} (h : Sys2Proof.PelHdr) (m : Sys2Proof.RewindMsg) {s : State} (hz : Keeps z s) :
    ∃ t', execPelRewind h m s = .next t' ∧ Keeps z t' := by
  unfold execPelRewind
  try dsimp only
  repeat' first
    | with_reducible assumption | (with_reducible refine ⟨_, rfl, ?_⟩) | with_reducible apply State.rewindIn_keeps
    | with_reducible apply State.pelIn_keeps | intro _

theorem execPelHalt_keeps {z : State} (h : Sys2Proof.PelHdr) (cause : BitVec 8) {s : State} (hz : Keeps z s) :
    ∃ t', execPelHalt h cause s = .next t' ∧ Keeps z t' := by
  unfold execPelHalt
  try dsimp only
  repeat' first
    | with_reducible assumption | (with_reducible refine ⟨_, rfl, ?_⟩) | with_reducible apply State.haltJob_keeps
    | with_reducible apply State.pelIn_keeps | intro _

theorem execPelEvict_keeps {z : State} (h : Sys2Proof.PelHdr) (subj : BitVec 16) {s : State} (hz : Keeps z s) :
    ∃ t', execPelEvict h subj s = .next t' ∧ Keeps z t' := by
  unfold execPelEvict
  try dsimp only
  repeat' first
    | with_reducible assumption | (with_reducible refine ⟨_, rfl, ?_⟩) | with_reducible apply State.pelSend_keeps
    | with_reducible apply State.propose_keeps | with_reducible apply State.pelIn_keeps | split | intro _

theorem execFencedMsg_keeps {z : State} (h : Sys2Proof.PelHdr) (m : Sys2Proof.FencedMsg) {s : State} (hz : Keeps z s) :
    ∃ t', execFencedMsg h m s = .next t' ∧ Keeps z t' := by
  unfold execFencedMsg
  try dsimp only
  repeat' first
    | with_reducible assumption | (with_reducible refine ⟨_, rfl, ?_⟩) | with_reducible apply State.propose_keeps
    | with_reducible apply State.pelIn_keeps | split | intro _

theorem execPelAck_keeps {z : State} (h : Sys2Proof.PelHdr) (kind : BitVec 8) (n : BitVec 32) {s : State} (hz : Keeps z s) :
    ∃ t', execPelAck h kind n s = .next t' ∧ Keeps z t' := by
  unfold execPelAck
  try dsimp only
  repeat' first
    | with_reducible assumption | (with_reducible refine ⟨_, rfl, ?_⟩) | with_reducible apply State.ackIn_keeps
    | with_reducible apply State.pelIn_keeps | intro _

theorem execOcsRequest_keeps {z : State} (pairs : List Sys2Proof.OcsPair) {s : State} (hz : Keeps z s) :
    ∃ t', execOcsRequest pairs s = .next t' ∧ Keeps z t' := by
  unfold execOcsRequest
  try dsimp only
  repeat' first | with_reducible assumption | (with_reducible refine ⟨_, rfl, ?_⟩) | with_reducible apply State.ocsSend_keeps | split

theorem execOcsResponse_keeps {z : State} (m : Sys2Proof.OcsRsp) {s : State} (hz : Keeps z s) :
    ∃ t', execOcsResponse m s = .next t' ∧ Keeps z t' := by
  unfold execOcsResponse
  try dsimp only
  repeat' first
    | with_reducible assumption | (with_reducible refine ⟨_, rfl, ?_⟩) | with_reducible apply State.ocsLate_keeps
    | with_reducible apply State.ocsAnswer_keeps | split

theorem execOcsBusyRepeat_keeps {z : State} {s : State} (hz : Keeps z s) :
    ∃ t', execOcsBusyRepeat s = .next t' ∧ Keeps z t' := by
  unfold execOcsBusyRepeat
  try dsimp only
  repeat' first | with_reducible assumption | (with_reducible refine ⟨_, rfl, ?_⟩) | with_reducible apply State.ocsAgain_keeps | split

theorem execOcsRetryTimer_keeps {z : State} {s : State} (hz : Keeps z s) :
    ∃ t', execOcsRetryTimer s = .next t' ∧ Keeps z t' := by
  unfold execOcsRetryTimer
  try dsimp only
  repeat' first | with_reducible assumption | (with_reducible refine ⟨_, rfl, ?_⟩) | with_reducible apply State.ocsAgain_keeps | split

theorem execOcsTimeout_keeps {z : State} {s : State} (hz : Keeps z s) :
    ∃ t', execOcsTimeout s = .next t' ∧ Keeps z t' := by
  unfold execOcsTimeout
  try dsimp only
  repeat' first
    | with_reducible assumption | (with_reducible refine ⟨_, rfl, ?_⟩) | with_reducible apply State.reportFault_keeps
    | with_reducible apply State.ocsDrop_keeps | with_reducible apply State.spareRefused_keeps
    | with_reducible apply State.ocsPlaced_keeps | split

end Sys2Proof.Machine
end

