-- ==== Sys2Proof/Laws/Solo.lean ====
section
/-! SUPPORT. What an operation commanded by itself does: one lemma for each slot whose operations stand outside the arrays' stream. -/

set_option autoImplicit false

namespace Sys2Proof.Machine

/-! ## The site as the operation finds it -/

@[simp] theorem Site.solo_regs (c : Site) : c.solo.regs = c.regs := rfl
@[simp] theorem Site.solo_sregs (c : Site) : c.solo.sregs = c.sregs := rfl
@[simp] theorem Site.solo_vregs (c : Site) : c.solo.vregs = c.vregs := rfl
@[simp] theorem Site.solo_pregs (c : Site) : c.solo.pregs = c.pregs := rfl
@[simp] theorem Site.solo_role (c : Site) : c.solo.role = c.role := rfl
@[simp] theorem Site.solo_active (c : Site) : c.solo.active = c.active := rfl
@[simp] theorem Site.solo_brShadow (c : Site) : c.solo.brShadow = c.brShadow := rfl
@[simp] theorem Site.solo_t30seen (c : Site) : c.solo.t30seen = c.t30seen := rfl
@[simp] theorem Site.solo_tables (c : Site) : c.solo.tables = c.tables := rfl
@[simp] theorem Site.solo_store (c : Site) : c.solo.store = c.store := rfl
@[simp] theorem Site.solo_recs (c : Site) : c.solo.recs = c.recs := rfl
@[simp] theorem Site.solo_drainQ (c : Site) : c.solo.drainQ = c.drainQ := rfl
@[simp] theorem Site.solo_f (c : Site) (x : Fld) : c.solo.f x = c.f x := rfl
@[simp] theorem Site.solo_sreg (c : Site) (i : Nat) : c.solo.sreg i = c.sreg i := rfl
@[simp] theorem Site.solo_vreg (c : Site) (i : Nat) : c.solo.vreg i = c.vreg i := rfl
@[simp] theorem Site.solo_preg (c : Site) (i : Nat) : c.solo.preg i = c.preg i := rfl
@[simp] theorem Site.solo_enabled (c : Site) (i : Nat) : c.solo.enabled i = c.enabled i := rfl
@[simp] theorem Site.solo_ea (c : Site) (ra : BitVec 6) (off : BitVec 24) : c.solo.ea ra off = c.ea ra off := rfl

/-- A change of a site that leaves its register fields signals nothing. -/
theorem State.onSite_of_regs (s : State) (n : Nat) (g : Site → Site) (h : (g (s.site n)).regs = (s.site n).regs) :
    s.onSite n g = s.setSite n (g (s.site n)) := by
  have hf : ∀ x, (g (s.site n)).f x = (s.site n).f x := fun x => by unfold Site.f; rw [h]
  unfold State.onSite
  dsimp only
  rw [if_neg]
  rw [hf, hf]
  simp

/-! ## Rules that operations outside the stream never break together -/

/-- An operation that takes no part in the arrays' stream. -/
def Op.apart (o : Op) : Bool := !o.isStream && (match o with
  | .ldw _ _ => false
  | _ => true)

theorem groupViols_apart (c : Site) (o : Op) (x : Nat) (h : o.apart = true) : groupViols c [o] x = [] := by
  cases o <;> simp [Op.apart, Op.isStream] at h <;>
    simp [groupViols, Op.drainForced, capturesOf, feedOf, rowPlans, chanCross, seqBreaks, List.flatMap]

/-- An operation outside the stream whose own checks pass has its effect, and signals the poison it consumes. -/
theorem soloOp_apart (n : Nat) (o : Op) (s : State) (hr : (s.site n).f CORE_STATE_STATE = 1) (hd : s.dieRuns (n / 104) = true)
    (ha : o.apart = true)
    (hv : opViols (s.site n).solo o (s.site n).active ((s.site n).f CORE_PC_PC) (decide (0 < (s.site n).brShadow)) = []) :
    soloOp n o s = (opEffect (s.site n).solo o (s.site n).active ((s.site n).f CORE_PC_PC) n none (soloBase (s.site n).solo n o s)).notePoison
      (s.site n).solo [o] (s.site n).active n := by
  have hs : o.isStream = false := by revert ha; simp only [Op.apart]; cases o.isStream <;> simp
  have hm : [o].filter isMtsrVfl ++ [o].filter (fun o => !isMtsrVfl o) = [o] := by
    cases h : isMtsrVfl o <;> simp [h]
  have hz : soloViols (s.site n).solo o (s.site n).solo.active ((s.site n).solo.f CORE_PC_PC) = [] := by
    unfold soloViols
    rw [groupViols_apart _ _ _ ha]
    have h0 : ∀ b : Bool, (if b = true then ([] : List Viol) else []) = [] := fun b => by cases b <;> rfl
    rw [h0, List.append_nil]
    exact hv
  have h1 : applyOps (s.site n).solo [o] (s.site n).active ((s.site n).f CORE_PC_PC) n none (soloBase (s.site n).solo n o s) =
      (opEffect (s.site n).solo o (s.site n).active ((s.site n).f CORE_PC_PC) n none (soloBase (s.site n).solo n o s)).notePoison
        (s.site n).solo [o] (s.site n).active n := by
    unfold applyOps
    rw [hm]
    simp [hs]
  unfold soloOp
  dsimp only
  rw [if_neg (by simp [hr, hd]), if_pos hz]
  rw [← h1]
  cases o <;> simp [Op.apart, Op.isStream] at ha <;> rfl

/-- An operation whose decoded uses are not poisoned signals nothing. -/
theorem notePoison_none (pre : Site) (o : Op) (x n : Nat) (s : State) (h : consumesPoison pre o x = false) :
    s.notePoison pre [o] x n = s := by
  simp [State.notePoison, h]

/-- A legal scalar operation of a running core has its effect. -/
theorem soloOp_sc (n : Nat) (o : ScOp) (f : ScF) (s : State) (hr : (s.site n).f CORE_STATE_STATE = 1) (hd : s.dieRuns (n / 104) = true)
    (hl : scOk (s.site n).solo o f = true) (hp : ((s.site n).preg f.pred.toNat).poi = false)
    (hc : o = .mtsr → ((s.site n).sreg f.ra.toNat).poi = false) :
    soloOp n (.sc o f) s = scEffect (s.site n).solo o f n s := by
  rw [soloOp_apart n (.sc o f) s hr hd rfl (by simp [opViols, opLegal, hl]), notePoison_none]
  · rfl
  · simp only [consumesPoison, opPoisonUse, Op.pred, Site.solo_preg, hp, Bool.false_or, Bool.or_false]
    by_cases hm : o = .mtsr
    · subst hm; simp [opConsumes, hc]
    · cases o <;> simp_all [opConsumes]

end Sys2Proof.Machine
end

