-- ==== Sys2Proof/WellFormed.lean ====
section
/-! DEFINITION. Which commands are well formed: the bounds that the spec gives an operand and its type does not. -/

set_option autoImplicit false

namespace Sys2Proof

/-- 64-byte bursts of an HBM stack of 72 GiB (R230, R240). -/
def stackBursts : Nat := 0x1200000000 / 64

/-- 64 KiB pages of an HBM stack (R230, R242). -/
def stackPages : Nat := 0x1200000000 / 65536

/-- 64 KiB pages of the module's HBM (R230). -/
def modulePages : Nat := 24 * stackPages

/-- The address of an HBM word (R233). -/
def wordOk (a : Nat) : Bool := decide (a % 8 = 0) && decide (a < 24 * 0x1200000000)

/-- A packet's payload has the length that its header states, unless the frame says that it has not (R298). -/
def packetOk (k : UalPkt) : Bool := k.lenBad || decide (k.words.length = k.h.nwords.toNat)

/-- A page carries its 8,192 words (R337). -/
def pageOk (p : PageData) : Bool := decide (p.words.length = 8192) && decide (p.page < modulePages)

/-- An entry's second run, where there is one, answers as many words as its first (R417). -/
def runOk (r : EntryRun) : Bool := decide (r.second = []) || decide (r.second.length = r.first.length)

/-- What a power-up or module reset meets, and what a test finds, list runs as above (R411, R417). -/
def fullOk (r : FullResult) : Bool := r.runs.all runOk
def quickOk (r : QuickResult) : Bool := r.runs.all runOk
def bootOk (b : BootInput) : Bool := quickOk b.quick && fullOk b.full

/-- The TYPEs assigned in the host message layer and on the management ports (R452, R458). -/
def typesAssigned : List Nat := List.range' 1 15 ++ [0x10, 0x20, 0x21, 0x22, 0x23, 0x30, 0x40]

/-- A message carries the TYPE of its row, or one that is not assigned, which every row answers alike (R452, R458). -/
def hdrOk (h : HostHdr) (typ : Nat) : Bool := h.typ.toNat = typ || h.typ.toNat ∉ typesAssigned

/-- The payload of a message is PLEN bytes (R451). -/
def payloadOk (h : HostHdr) (b : Bytes) : Bool := h.plen.toNat = b.length

/-- A core bank has 16 counters, a die bank 64 (R467). -/
def bankOk (b : BankId) (i : Nat) : Bool := match b with
  | .core _ => decide (i < 16)
  | .die _ => decide (i < 64)

/-- Whether a command's operands lie in the bounds that the spec gives them. -/
def wellFormed (i : Instr) : Bool := match i with
  | .bundleIssue _ => true
  | .nop _ _ => true
  | .add _ _ => true
  | .sub _ _ => true
  | .and _ _ => true
  | .or _ _ => true
  | .xor _ _ => true
  | .shl _ _ => true
  | .shr _ _ => true
  | .sra _ _ => true
  | .min _ _ => true
  | .max _ _ => true
  | .minu _ _ => true
  | .maxu _ _ => true
  | .addi _ _ => true
  | .andi _ _ => true
  | .ori _ _ => true
  | .xori _ _ => true
  | .shli _ _ => true
  | .shri _ _ => true
  | .srai _ _ => true
  | .movi _ _ => true
  | .movh _ _ => true
  | .mul _ _ => true
  | .mulh _ _ => true
  | .mulhu _ _ => true
  | .ceq _ _ => true
  | .cne _ _ => true
  | .clt _ _ => true
  | .cltu _ _ => true
  | .cge _ _ => true
  | .cgeu _ _ => true
  | .pand _ _ => true
  | .por _ _ => true
  | .pxor _ _ => true
  | .pandn _ _ => true
  | .mfsr _ _ => true
  | .mtsr _ _ => true
  | .branch _ _ => true
  | .branchLink _ _ => true
  | .jumpReg _ _ => true
  | .arrive _ _ => true
  | .vadd _ _ => true
  | .vsub _ _ => true
  | .vmul _ _ => true
  | .vfma _ _ => true
  | .vfms _ _ => true
  | .vmin _ _ => true
  | .vmax _ _ => true
  | .vabs _ _ => true
  | .vneg _ _ => true
  | .vfcmp _ _ => true
  | .vicmp _ _ => true
  | .viadd _ _ => true
  | .visub _ _ => true
  | .vand _ _ => true
  | .vor _ _ => true
  | .vxor _ _ => true
  | .vshl _ _ => true
  | .vshr _ _ => true
  | .vsra _ _ => true
  | .vimin _ _ => true
  | .vimax _ _ => true
  | .vsel _ _ => true
  | .vrot _ _ => true
  | .vbcast _ _ => true
  | .vext _ _ => true
  | .vcvt _ _ => true
  | .vqblk _ _ => true
  | .vtlu _ _ => true
  | .ld1u _ _ => true
  | .ld1s _ _ => true
  | .ld2u _ _ => true
  | .ld2s _ _ => true
  | .ld4u _ _ => true
  | .ld4s _ _ => true
  | .ld8 _ _ => true
  | .st1 _ _ => true
  | .st2 _ _ => true
  | .st4 _ _ => true
  | .st8 _ _ => true
  | .vld128 _ _ => true
  | .vld256 _ _ => true
  | .vst128 _ _ => true
  | .vst256 _ _ => true
  | .chPost _ _ _ => true
  | .chRelease _ _ _ => true
  | .chMb _ _ _ => true
  | .recordMergeStore _ _ _ _ => true
  | .feed _ _ => true
  | .feedv _ _ => true
  | .ldw _ _ _ => true
  | .pass _ _ _ => true
  | .drain _ _ _ => true
  | .dmac _ _ => true
  | .dmad _ _ => true
  | .accAdd _ _ => true
  | .drainRow _ => true
  | .arrRepairApply _ _ => true
  | .dmaComplete _ _ _ => true
  | .barrierRelease _ => true
  | .channelSlotSent _ _ => true
  | .channelSlotArrive _ _ _ => true
  | .channelCreditReturn _ _ _ => true
  | .waitTimeout _ => true
  | .coreHalt _ => true
  | .coreGo _ => true
  | .corePcWrite _ _ => true
  | .regWrite _ _ _ _ => true
  | .coreGearChange _ => true
  | .stepEntry _ => true
  | .checkVerdict _ => true
  | .commitPageWrite _ _ => true
  | .preimageCopyDone _ => true
  | .gateDone => true
  | .stepBoundary => true
  | .commitResume => true
  | .stepRecordEntry _ => true
  | .stepRecordAck _ _ => true
  | .pllUnlock _ => true
  | .clockGlitch _ => true
  | .fencedStandbyTimer => true
  | .networkLinkLoss _ => true
  | .hubLinkStop _ => true
  | .hbmPatrol _ burst => decide (burst < stackBursts)
  | .hbmCorrectionRewrite word => wordOk word
  | .hbmErrorRecheck word _ => wordOk word
  | .pageRetire _ page => decide (page < stackPages)
  | .pageRetireDone _ => true
  | .nocPacketReceive _ p => decide (p.hdr.length = 4)
  | .d2dBlockReceive _ b => decide (b.length = 32)
  | .d2dBlockReplay _ b => decide (b.length = 32)
  | .d2dRetrainDone _ => true
  | .frmload h => hdrOk h 0x03
  | .frameLoadComplete _ => true
  | .identityFrameSend _ => true
  | .identityFrameReceive _ _ => true
  | .portLightReturn _ => true
  | .portTrained _ => true
  | .ualarPacketReceive _ k => packetOk k
  | .ualAck _ _ => true
  | .ualAckTimer _ => true
  | .ualRtoExpiry _ => true
  | .ecnEcho _ => true
  | .ecnRateRaise => true
  | .roceCnp _ _ => true
  | .llrFrameReceive _ _ => true
  | .llrAck _ _ _ => true
  | .llrReplay _ _ => true
  | .portFailure _ _ => true
  | .portRetrainDone _ _ => true
  | .collectivePost _ _ _ _ _ => true
  | .ualReady _ _ _ => true
  | .cutoffExpiry _ _ => true
  | .decideMsg _ _ _ _ => true
  | .chunkReceive _ _ _ _ _ => true
  | .chunkAck _ _ _ _ => true
  | .collectiveResume _ _ => true
  | .collectiveComplete _ _ => true
  | .collectiveDeadline _ _ => true
  | .phaseTimerExpiry => true
  | .pannierOverflow _ k => packetOk k
  | .pannierResend _ _ _ => true
  | .digestComputeDone => true
  | .copyRepair _ pages => pages.all pageOk
  | .refereeRun (.run _ block pages) => decide (block.length ≤ 128) && pages.all pageOk
  | .refereeRun (.settle _ _ _) => true
  | .refereeRun (.fetch _ _) => true
  | .poisonPageRestore p => pageOk p.pg
  | .tier1Rewind _ => true
  | .tier2Recovery _ _ => true
  | .stateTransferDone x => x.pages.all pageOk
  | .noDomestique _ => true
  | .catchupReplay _ => true
  | .tier3Restore => true
  | .heartbeatSend => true
  | .hb _ _ => true
  | .heartbeatMiss _ => true
  | .missMsg _ _ _ _ => true
  | .withdrawMsg _ _ _ => true
  | .quorumLossFence => true
  | .captainConfirm _ => true
  | .proposeMsg _ _ => true
  | .acceptMsg _ _ => true
  | .proposeTimeout => true
  | .declareMsg _ _ => true
  | .syncMsg _ _ => true
  | .syncRep _ ws => decide (ws.length ≤ 64)
  | .pelFault _ _ => true
  | .pelRewind _ _ => true
  | .pelHalt _ _ => true
  | .pelEvict _ _ => true
  | .fencedMsg _ _ => true
  | .pelAck _ _ _ => true
  | .fence _ => true
  | .fencedTimer => true
  | .ocsRequest pairs => decide (1 ≤ pairs.length) && decide (pairs.length ≤ 18)
  | .ocsResponse _ => true
  | .ocsBusyRepeat => true
  | .ocsRetryTimer => true
  | .ocsTimeout => true
  | .ckOrder _ => true
  | .snapshotHeldWrite page _ => decide (page < modulePages)
  | .priorityCopyDone page _ => decide (page < modulePages)
  | .stagePageFreed page => decide (page < modulePages)
  | .checkpointPageWriteAck page => decide (page < modulePages)
  | .ckData _ => true
  | .ckSeal _ => true
  | .ckSealed _ => true
  | .ckOk _ => true
  | .checkpointRoundFail why => (match why with | .poisoned page => decide (page < modulePages) | .queuePair => true)
  | .cktoExpiry => true
  | .ckQuery _ _ => true
  | .ckSlots _ => true
  | .ckRestore _ _ _ => true
  | .spareTableFault _ _ _ => true
  | .selfTestFull res => fullOk res
  | .selfTestQuick res => quickOk res
  | .sliceDue => true
  | .siteTest _ => true
  | .siteTestDone _ r => r.all runOk
  | .portTest r => r.all (fun x => runOk x.run)
  | .phaseCheck _ _ _ _ => true
  | .tcInstall h _ _ b => hdrOk h 0x09 && payloadOk h b
  | .deviceCertInstall _ => true
  | .securityAlarm _ _ => true
  | .fcool _ => true
  | .fpwr _ => true
  | .fmtrq _ => true
  | .fstat => true
  | .falarm _ _ _ => true
  | .fid => true
  | .facilityFrameFilter _ _ _ _ => true
  | .meterRead _ _ => true
  | .jobStart _ _ => true
  | .jobStop _ _ => true
  | .fetchRecord _ => true
  | .meterInputLoss => true
  | .meterLinkReturn => true
  | .regrd h _ => hdrOk h 0x01
  | .regwr h _ _ _ => hdrOk h 0x02
  | .hostAdmission h _ _ => hdrOk h 0x04
  | .hostRelease h _ => hdrOk h 0x05
  | .chal h => hdrOk h 0x06
  | .challengeExpiry => true
  | .signreq h b => hdrOk h 0x07 && payloadOk h b
  | .attest h _ => hdrOk h 0x08
  | .fwInstall h _ _ b => hdrOk h 0x0A && payloadOk h b
  | .shutdown h _ res => hdrOk h 0x0B && fullOk res
  | .selftest h res => hdrOk h 0x0C && fullOk res
  | .hostEvict h _ => hdrOk h 0x0D
  | .hostStatus h => hdrOk h 0x0E
  | .modReset h b => hdrOk h 0x0F && bootOk b
  | .notifyHost ev _ => decide (1 ≤ ev.toNat) && decide (ev.toNat ≤ 8)
  | .powerUp b => bootOk b
  | .inputLoss => true
  | .hxWatchdogExpiry => true
  | .hxwdKick => true
  | .hostFlitReceive _ fl => decide (fl.words.length = 24)
  | .identMsg h => hdrOk h 0x10
  | .ckptMsg _ _ => true
  | .slReady _ _ _ => true
  | .slStart _ => true
  | .admissionTimeout => true
  | .relOrder _ => true
  | .relOrderTimeout => true
  | .alertMsg _ => true
  | .mgtResendTimer => true
  | .counterWrap b i => bankOk b i.val
  | .pmcRead b i _ => bankOk b i.val
  | .pmcFreeze _ _ => true
  | .tagRecordDone _ _ => true
  | .tagPop _ => true
  | .powerSample _ _ _ _ => true
  | .throttleOverrun => true
  | .inputVoltageFault _ => true
  | .thermalSample t => t.tj.all (fun e => decide (e.1.toNat < 12))
  | .leakSensed => true
  | .presentBreak => true
  | .pfcPause _ _ _ => true
  | .neighbourSolicitation _ _ => true
  | .routerAdvertisement _ _ => true
  | .llrAckTimer _ => true
  | .hostLinkRetrainDone _ _ => true
  | .meterLinkLoss => true
  | .facSupplyLoss => true
  | .facSupplyReturn _ => true
  | .presentMate => true
  | .replacementRoutes _ => true
  | .restoreObjectRead _ => true

end Sys2Proof
end

