-- ==== Sys2Proof/Tests/Slice0.lean ====
section
/-! SUPPORT. Tests: the spec's worked examples, single operations, commands that are not well formed, and for each clause of a statement
with hypotheses a state and operands that meet them together. -/

set_option autoImplicit false

namespace Sys2Proof.Tests

set_option Elab.async false

open Sys2Proof.Machine

/-- A core site with the given fields, all else as at reset. -/
def tSite (l : List (Fld × Nat)) : Site := l.foldl (fun d e => d.set e.1 e.2) Site.reset

/-- A running core with the given fields. -/
def tGoing (l : List (Fld × Nat)) : Site := (tSite l).set CORE_STATE_STATE 1

/-- The module after reset with `d` at core site 0. -/
def tAt (d : Site) : State := State.reset.setSite 0 d

/-- The module after reset with the given fields of the hub die. -/
def tHd (l : List (Fld × Nat)) : State := l.foldl (fun s e => s.setHd e.1 e.2) State.reset

/-- The module after reset with core 0 running. -/
def tRun : State := tAt (tGoing [])

def tSc : ScF := ⟨false, 0, 0, 0, 0, 0⟩
def tBr : BrF := ⟨0, 0, 0, 0, 0⟩
def tVec : VecF := ⟨0, 0, 0, 0, false, false, 0, 0, 0, 0, 0, 0, 0, 0⟩
def tLs : LsF := ⟨0, 0, 0, 0, 0⟩
def tImg : Image :=
  { devidx := 0, jobid := 0, tdeg := 1, slicen := 1, nspare := 0, build := 0, umin := 0, buffers := [], commit := [], tensors := [],
    udpPort := 0, rto := 1, rtry := 1, wbulk := 1, wcol := 1, pfc := false, net64 := 0, ports := [], routes := [], groups := [],
    tfb := 0, tred := 0, tchk := 0, tcom := 0, groupDl := [], caps := none, stages := ⟨[], []⟩,
    resil := { dign := 0, shardId := 0, panniers := [], partners := [], mirrors := [], preimg := [], watchers := [], subjects := [],
               captains := [], ocs := [], ckTrig := none, ckSlots := [], ckObjs := [], bistMode := 0, bistPeriod := 0 },
    keySlot := 0, dieKeys := [] }

/-- Channel 5 in use, sending, of 4 slots of 16 bytes. -/
def tSends : List (Fld × Nat) := [(CORE_CH_EN 5, 1), (CORE_CH_DIR 5, 0), (CORE_CH_NSLM1 5, 3), (CORE_CH_SLOG 5, 4)]

/-- Channel 5 in use, receiving. -/
def tTakes : List (Fld × Nat) := [(CORE_CH_EN 5, 1), (CORE_CH_DIR 5, 1), (CORE_CH_NSLM1 5, 3), (CORE_CH_SLOG 5, 4)]

/-- The module after reset with the first words of core 0's instruction store holding a bundle, and that core running. -/
def tBundle (b : Nat) (l : List (Fld × Nat)) : State :=
  tAt ({ tGoing l with istore := Mem.empty.write 0 (leBytes 128 b) false } : Site)

def tFeed : FeedF := ⟨0, 0, 0, 0, 5, 0, 0, 0⟩
def tLdw : LdwF := ⟨0, 0, 0, 15, 5, 0, 0, false, false, 0, 0⟩
def tPass : PassF := ⟨0, false, true, 15, 0, false, 1, 0⟩
def tTile : Tile := ⟨5, 0, 16, 16, [], [], false⟩
def tDrain : DrainF := ⟨0, 0, 0, 0, 0⟩
def tDmac : DmacF := ⟨false, true, true, 0, 0, 0, 0, 0⟩

/-- A core whose four arrays are in use as wide ones. -/
def tArrs : List (Fld × Nat) := [(ARR_CFG_EN 0, 1), (ARR_CFG_EN 1, 1), (ARR_CFG_EN 2, 1), (ARR_CFG_EN 3, 1)]

def tDma : Dma :=
  { tok := 15, kind := .copy, srcl := true, dstl := true, src := 0, dst := 0x3FFF00, rows := 1, rbytes := 256, sstride := 0,
    dstride := 0, bad := false, held := none, tag := none }

def tDesc : DrainDesc :=
  { ofmt := 0, rm := 0, sat := false, dst := 0, ch := 0, func := 0, red := 0, rset := 0, rms := false, nrm := false, cnt := false,
    afmt := 0, dstride := 0, daddr := 0, astride := 0, aaddr := 0, tid := 0, eps := 0, ebase := 0, erow := 0, tab := none, expt := none }

def tRow : DrainRow := ⟨0, 0, 255, false, 0, 0, true, { tDesc with dst := 1 }, some ⟨[], false, 0⟩, some ([], false), none⟩

def tVecIn : VecIn := ⟨0, 0, 255, 5, 0, [], [], false, true, false, []⟩

/-- Array 3 of core 0 as given. -/
def tArr (r : Arr) : State := tAt ({ Site.reset with arrs := [(3, r)] } : Site)

/-- An image with one barrier group, 9, of role 0 on token 16. -/
def tBarrier : Image := { tImg with stages := ⟨[(9, 16, 0)], []⟩ }

/-- NOP, or a scalar operation other than MTSR. -/
def plainScalar (o : Op) : Bool := match o with
  | .nop _ _ => true
  | .sc q _ => q ≠ .mtsr
  | _ => false

theorem plainScalar_spec (o : Op) (h : plainScalar o = true) : (∃ k p, o = .nop k p) ∨ ∃ q f, o = .sc q f ∧ q ≠ .mtsr := by
  cases o <;> simp_all [plainScalar]

/-- The module after reset with the commit gate in a state. -/
def tGate (g : Nat) : State := State.reset.setHd PEL_CGSTATE_STATE g

def tTotals : SliceTotals := ⟨0, 0, 0, 0, false, []⟩

/-- Pages 5 and 6 as role 0's commit group. -/
def tCommit : Image := { tImg with commit := [(0, [5, 6])] }

/-- A copy of a page of HBM. -/
def tOut (page : Nat) : Dma := { tDma with srcl := true, dstl := false, dst := page * 65536, rbytes := 65536 }

/-- A doorbell of role 0. -/
def tDoor : Dma := { tDma with srcl := true, dstl := false, dst := doorBase, rbytes := 64 }

/-- Core 0 with a row waiting to be drained. -/
def tQueued : State := tAt ({ Site.reset with drainQ := [tRow] } : Site)

/-- The module with an image in force. -/
def tWith (im : Image) : State := { State.reset with img := some im }

/-- Three captains of pod 0: devices 0, 1 and 2. -/
def tCaps : Image :=
  { tImg with slicen := 3, resil := { tImg.resil with captains := [(0, 0, 0), (1, 1, 0), (2, 2, 0)] } }

def tTransfer : Transfer := ⟨1, 1, [], num256 (sha32 []), 0, []⟩

/-- A packet to die 0 that writes one byte at address 0 of its HBM. -/
def tHdr : Nat := 1 + 0 * 2 ^ 18 + 1 * 2 ^ 40 + 1 * 2 ^ 96

/-- The code word of a data word. -/
def tWord (v : Nat) : CodeWord := encodeWord (BitVec.ofNat 64 v) ++ (BitVec.ofNat 64 v)

/-- A code word with two bad symbols. -/
def tBadWord : CodeWord := tWord 0 ^^^ 0x11000000000000000000

def tPacket (h : Nat) (data : List CodeWord) : NocPkt := ⟨[tWord (h % 2 ^ 64), tWord (h / 2 ^ 64), tWord 0, tWord 0], data⟩

def tPkt : NocPkt := tPacket tHdr (List.replicate 4 (tWord 0))

def tGroup : GroupId := ⟨0, 0, 0⟩

/-- Port 17, and the module after reset with that port in a state. -/
def tP : PortId := ⟨17, 0⟩
def tPort (v : Nat) : State := State.reset.setPortState (portKey tP) v

/-- Port 17 as a link of the image to port 3 of module 1. -/
def tLink : PortCfg := { port := 17, sub := 0, use := 1, llr := true, ndev := 1, nport := 3, nsub := 0, spare := 31, prewired := false }

/-- The module with an image of that link and the port in a state. -/
def tNet (v : Nat) (x : PortSt) : State :=
  (({ State.reset with img := some { tImg with ports := [tLink] } } : State).setPortState (portKey tP) v).setPort (portKey tP) x

def tUal : UalPkt :=
  ⟨⟨0, 0, 0, 0, false, false, 1, 0, 0, 0, 0, 0, 0, 0, 0, 0, 0, 0, 0⟩, [], false, false, ⟨48, 0, 0, 49200, true, 0, 0, none⟩⟩

/-- The module with an image in force, at step 5, with port 17 up. -/
def tOpen : State := ({ tWith tImg with gate := { Gate.reset with step := 5 } } : State).setPortState (portKey tP) psUP

/-- Group 4 of the devices 0 and 1, ranks 0 and 1. -/
def tGroups : Image := { tImg with groups := [⟨4, 0, 0, 2⟩, ⟨4, 1, 1, 2⟩] }

/-- A broadcast in flight of bucket 6 of group 4, 16 bytes from rank 1. -/
def tColl : Coll :=
  { op := opBCAST, dt := 0, nrm := false, cnt := false, tok := 0, gid := 4, bucket := 6, root := 1, src := 0, dst := 0, len := 16,
    fold := 0, crec := 0, site := 0, step := 0, sent := false, fed := true, decision := none, contrib := [], acked := [] }

/-- The module with those groups and a collectives engine. -/
def tCol (x : ColSt) : State := { State.reset with img := some tGroups, col := x }

def tH : PelHdr := ⟨1, 0, 0, 0, 0, 0, false⟩
def tHb : HbMsg := ⟨0, 2, 0, 0, 0⟩

/-- The module as device 0, a captain of pod 0, with its peloton engine as given. -/
def tPel (x : Pel) : State := { tWith tCaps with pel := x }

def tOcs (busy : Bool) : OcsReq := ⟨9, [⟨0, 0, 0, false, 0, 0, 0⟩], 1, false, busy, false, none, 0⟩
def tRsp (st : BitVec 8) : OcsRsp := ⟨0x4F43, 1, 2, 9, st, 0⟩

/-- A checkpoint message of a type. -/
def tCk (t : BitVec 8) : CkMsg := ⟨t, 0, 0, 0, 5, 0, 0, 0, 0⟩

/-- An armed round that protects page 3. -/
def tRound : Round := ⟨0, 0, 5, true, [3], [], [], [], [], [], false, 0, 0, 0⟩

/-- The module with that image and its checkpoint engine as given; page 3 is an object, and each die has two stage pages. -/
def tCkp (x : Ckp) : State :=
  { tWith { tImg with resil := { tImg.resil with ckTrig := some ⟨0, 0, 0, 0xFF, 0x100000, 2⟩, ckObjs := [(1, 196608, 65536)] } } with ckp := x }

/-- A manifest of one empty object at page 1. -/
def tMf : Bytes := leBytes 64 0 ++ leBytes 8 65536 ++ leBytes 8 0 ++ leBytes 8 0 ++ leBytes 8 0 ++ sha32 []

/-- A good request of a TYPE with no payload, and one with a payload of `n` bytes, over the host link. -/
def tReq (ty : BitVec 8) : HostHdr := ⟨7, false, false, 0, .hx, ty⟩
def tReqN (ty : BitVec 8) (n : Nat) : HostHdr := ⟨7, false, false, BitVec.ofNat 32 n, .hx, ty⟩

/-- The module with its host link up. -/
def tHost : State := { State.reset with host := { HostSt.reset with hxUp := true } }

/-- The address of a register of the hub die. -/
def tHub (off : Nat) : BitVec 44 := BitVec.ofNat 44 (ctlBase + 8 * 2 ^ 24 + off)

/-- A package of one entry: its CLASS, CYCLES and EXP; EVERY is 1. -/
def tPkg (cls cyc exp : Nat) : Bytes :=
  leBytes 12 0 ++ leBytes 2 1 ++ leBytes 50 0 ++ leBytes 1 cls ++ leBytes 1 1 ++ leBytes 2 0 ++ leBytes 4 7 ++ leBytes 12 0 ++
    leBytes 4 cyc ++ leBytes 8 0 ++ leBytes 16 exp ++ leBytes 16 0

/-- A run of such an entry. -/
def tRunAs (cls kind : BitVec 8) (unit : BitVec 48) (sig : BitVec 128) (first second : List (BitVec 128)) : EntryRun :=
  ⟨7, cls, kind, unit, false, sig, first, second⟩

/-- The module with an entry in its spare-mapping table. -/
def tSpare (e : SpareEntry) : State := { State.reset with test := { TestSt.reset with table := [e] } }

/-- A visit of test slice 0 with a package, and the module in it. -/
def tV (pkg : Bytes) (todo testing : List Nat) : Visit := ⟨0, todo, [], testing, 0, 1, pkg, false⟩
def tVisit (v : Visit) : State := { State.reset with test := { TestSt.reset with visit := some v } }

/-- The module with its host link up and an image in force. -/
def tLoaded (im : Image) : State := { tHost with img := some im }

/-- The module with the facility bridge up as node 5. -/
def tFac (sent : List (Nat × Nat)) : State :=
  { State.reset with fac := { up := true, node := 5, sent := sent, supply := 0, measured := 0, limit := 0 } }

/-- The module with the link to its meter up. -/
def tMtr (m : Meter) : State := { State.reset.setHd MTR_STATUS_LINK 1 with mtr := m }

/-- The module with an image that is loaded, ports and meter ready. -/
def tReady (im : Image) : State :=
  { ((tLoaded im).setHd FRM_STATUS_STATE 2).setHd MTR_STATUS_LINK 1 with mtr := { Meter.reset with readOk := true } }

/-- A signed request of type ALMPOL with a payload, up to the signature, by the owner whose point is the curve's base point. -/
def tAsk (ty p : Nat) : Bytes :=
  leBytes 4 0x51544B53 ++ leBytes 1 1 ++ leBytes 1 ty ++ leBytes 2 0 ++ leBytes 8 0 ++ leBytes 32 0 ++ leBytes 16 0 ++ leBytes 132 p ++
    keyId p521gx p521gy
def tAlmpol (p : Nat) : Bytes := tAsk 7 p
def tScan : Bytes := tAsk 1 0

/-- A manifest up to its signature. -/
def tMfBody : Bytes :=
  leBytes 4 0x4D4B4354 ++ leBytes 1 1 ++ leBytes 1 0 ++ leBytes 2 0 ++ leBytes 8 0 ++ leBytes 8 5 ++ leBytes 8 0 ++ leBytes 8 0 ++
    leBytes 2 0 ++ leBytes 2 1 ++ leBytes 20 0 ++ leBytes 64 0

/-- R of the signatures below, whose secret and per-signature number are 1; S of each. -/
def tSigR : Nat :=
  2661740802050217063228768716723360960729859168756973147706671368418802944996427808491545080627771902352094241225065558662157113545570916814161637315895999846
def tSigAlm : Nat :=
  2668779817631567028548779060548683904982322402250091067549926325103508483652012105985665365584520907371282338783293684732136227940228302591830674361964180484
def tSigBad : Nat :=
  2673984069230855695460499166689523603978117121803060798904194278734969807790162352378486578330494914684472141350610574567699546843577619689737526162291193675
def tSigScan : Nat :=
  2668716207295169900339706209254933689165335799393547685818921381966013944731154561379246034722407652366562767989237946239940970802395780876565624568625877664
def tSigMf : Nat :=
  2665611142829261105279223835613801874472415930314169834467974777332876097203803723981511061765245515758219359640213883266165814297580006134789516106719012512
def tSigFw : Nat :=
  2672762119948225704311409369202526129429268072172055359313071451669404171975271183497104755291580117792197366969296573195397975598971934777877841735734522298
def tSigCert : Nat :=
  2673629913527184961981956897124444602783873167146683332030252632830749841096549629211511214810694536155536223550710386289243427232090323083851019542216939499

def tSigned (m : Bytes) (sig : Nat) : Bytes := m ++ leBytes 66 tSigR ++ leBytes 66 sig

/-- A certificate in DER of a key that may sign certificates, whose point is the base point, signed by itself; and a chain of two of them. -/
def tTbs : Bytes :=
  [0x30, 0x81, 0xE8, 0xA0, 0x03, 0x02, 0x01, 0x02, 0x02, 0x01, 0x01] ++ algSha512 ++ [0x30, 0] ++
  [0x30, 0x1E, 0x17, 0x0D, 0x32, 0x36, 0x30, 0x31, 0x30, 0x31, 0x30, 0x30, 0x30, 0x30, 0x30, 0x30, 0x5A, 0x17, 0x0D, 0x34, 0x36, 0x30, 0x31, 0x30, 0x31, 0x30, 0x30, 0x30, 0x30, 0x30, 0x30, 0x5A] ++ [0x30, 0] ++
  [0x30, 0x81, 0x9B, 0x30, 0x10, 0x06, 0x07, 0x2A, 0x86, 0x48, 0xCE, 0x3D, 0x02, 0x01, 0x06, 0x05, 0x2B, 0x81, 0x04, 0x00, 0x23, 0x03, 0x81, 0x86, 0x00, 0x04] ++
    beBytes 66 p521gx ++ beBytes 66 p521gy ++
  [0xA3, 0x10, 0x30, 0x0E, 0x30, 0x0C, 0x06, 0x03, 0x55, 0x1D, 0x13, 0x04, 0x05, 0x30, 0x03, 0x01, 0x01, 0xFF]
def tCert : Bytes :=
  [0x30, 0x82, 0x01, 0x86] ++ tTbs ++ algSha512 ++ [0x03, 0x81, 0x8C, 0x00, 0x30, 0x81, 0x88, 0x02, 0x42] ++ beBytes 66 tSigR ++ [0x02, 0x42] ++ beBytes 66 tSigCert
def tChain : Bytes := tCert ++ tCert
def tCertOf : Cert := ⟨tTbs, [0x30, 0], [0x30, 0], p521gx, p521gy, true, tSigR, tSigCert⟩

/-- Fuses whose first root is that key. -/
def tRoots : List (BitVec 256) := [num256 (keyId p521gx p521gy), 0, 0, 0]

/-- The chain leads to a root when the certificate's signature verifies. -/
theorem tChained (k : Nat) (c : Config.certKind tTbs = k) (e : ecdsaOk p521gx p521gy tTbs tSigR tSigCert = true) :
    certPoint k tRoots [] tChain = some (p521gx, p521gy) := by
  have h : certsOf tChain = some [tCertOf, tCertOf] := by decide +kernel
  have hs : tCertOf.signedBy tCertOf = true := by
    show (true && decide (([0x30, 0] : Bytes) = [0x30, 0]) && ecdsaOk p521gx p521gy tTbs tSigR tSigCert) = true
    rw [e]
    rfl
  have hr : isRoot tRoots [] tCertOf = true := by decide +kernel
  have hk : (if k = 3 then tCertOf else tCertOf).tbs = tTbs := by split <;> rfl
  unfold certPoint
  rw [h]
  simp only [chained, hs, List.getLast?_singleton, Option.any_some, hr, Bool.and_self, hk, c, decide_true, if_true]
  rfl

/-- A firmware package up to its signature, with that chain. -/
def tFwHead : Bytes :=
  leBytes 4 0x57464B59 ++ leBytes 1 1 ++ leBytes 1 0 ++ leBytes 2 0xA1 ++ leBytes 4 0 ++ leBytes 4 0 ++ leBytes 2 0 ++ leBytes 2 0 ++
    leBytes 4 788 ++ leBytes 8 1080 ++ leBytes 48 0 ++ leBytes 48 0
def tFwBody : Bytes := tFwHead ++ tChain

/-- The module with its host link up, that owner, those fuses, and a challenge of zeros. -/
def tOwner : State :=
  { tHost with sec := { Sec.reset with slots := [(14, ⟨1, p521gx, p521gy⟩)], roots := tRoots, chal := some 0 } }

/-- A request whose parts are as given is good when its signature is. -/
theorem tReqCode (b : Bytes) (s : State) (m : Bytes) (sig : Nat) (h0 : s.jobLoaded = false ∧ reqShape b = true)
    (h1 : numAt b 8 8 = s.serial.toNat) (h2 : s.sec.chal = some (num256 ((b.drop 16).take 32)))
    (h3 : s.reqSigner b = some (p521gx, p521gy)) (h4 : (b.drop 196).take 32 = keyId p521gx p521gy)
    (h5 : b.take 228 = m) (h6 : numAt b 228 66 = tSigR ∧ numAt b 294 66 = sig)
    (h7 : ecdsaOk p521gx p521gy m tSigR sig = true) : s.reqCode b = 0 := by
  have g : s.reqSigned b = true := by
    unfold State.reqSigned
    simp only [h3, h4, h5, h6.1, h6.2, h7, decide_true, Bool.and_self]
  unfold State.reqCode
  simp [h0.1, h0.2, h1, h2, g]

/-- A package is signed when its chain certifies a point whose signature of it verifies. -/
theorem tFwSigned (s : State) (b : Bytes) (c n x y : Nat) (hc : fwChainAt b = c) (hn : numAt b 20 4 = n)
    (h : certPoint 0 s.sec.roots s.sec.rootsRevoked ((b.drop c).take n) = some (x, y)) (hk : (b.drop (c + n)).take 32 = keyId x y)
    (he : ecdsaOk x y (b.take (c + n)) (numAt b (c + n + 32) 66) (numAt b (c + n + 98) 66) = true) : s.fwSigned b = true := by
  unfold State.fwSigned
  simp only [hc, hn, h, hk, he, decide_true, Bool.and_self]

/-- The signer of SCANUNLOCK is the key that the certificates after it certify. -/
theorem tSigner (s : State) (b : Bytes) (k : Nat × Nat) (h : numAt b 5 1 = srSCANUNLOCK)
    (hc : certPoint 2 s.sec.roots s.sec.rootsRevoked (b.drop 384) = some k) : s.reqSigner b = some k := by
  unfold State.reqSigner
  simpa [h, srSCANUNLOCK, srFKEYADD, srFKEYREVOKE, srALMPOL] using hc

/-- The entry of a self-test that all passed, signed by a device whose point is the base point. -/
def tPassMsg : Bytes := leBytes 32 0 ++ State.reset.smapDig ++ leBytes 32 0
def tSigPass : Nat :=
  2665720195134586186749819631281086433370800087383093685877763722675792060531472880675606383036542415769397693325763632522829229819339688796995318148165166362
def tPassRec : PassRec := ⟨0, 0, 0, 0, tPassMsg ++ keyId p521gx p521gy ++ leBytes 66 tSigR ++ leBytes 66 tSigPass, true⟩

/-- A state with that entry. -/
def tPassed (s : State) : State :=
  { s with test := { TestSt.reset with pass := some tPassRec }, sec := { Sec.reset with dev := some ⟨1, p521gx, p521gy, [], 0⟩ } }

/-- A record of that entry is current when the signature is good. -/
theorem tCurrent (s : State) (p : PassRec) (hr : p.raw = tPassRec.raw) (hd : s.smapDig = State.reset.smapDig)
    (hk : s.sec.dev = some ⟨1, p521gx, p521gy, [], 0⟩) (ht : p.tcver = leNat ((s.test.pkg.drop 8).take 4))
    (e : ecdsaOk p521gx p521gy tPassMsg tSigR tSigPass = true) : s.passCurrent p = true := by
  have h1 : tPassRec.raw.take 96 = tPassMsg := by decide +kernel
  have h2 : leNat ((tPassRec.raw.drop 128).take 66) = tSigR := by decide +kernel
  have h3 : leNat ((tPassRec.raw.drop 194).take 66) = tSigPass := by decide +kernel
  have h4 : (tPassRec.raw.drop 96).take 32 = keyId p521gx p521gy := by decide +kernel
  have h5 : (tPassRec.raw.drop 32).take 32 = State.reset.smapDig := by decide +kernel
  unfold State.passCurrent State.passVerifies
  simp only [hk, hr, h1, h2, h3, h4, h5, hd, ht, e, decide_true, Bool.and_self]

/-- With a current pass record of the last power-down, which was orderly, QUICK applies. -/
theorem tQuick (s : State) (p : PassRec) (h : s.test.pass = some p) (a : p.wher = 1) (b : p.bootcnt + 1 = s.test.bootcnt) (c : p.orderly = true)
    (d : s.passCurrent p = true) : s.quickApplies = true := by
  unfold State.quickApplies
  simp [h, a, b, c, d]

/-- Such a state holds a signed pass when the signature is good. -/
theorem tHolds (s : State) (hb : s.tsec = 0) (e : ecdsaOk p521gx p521gy tPassMsg tSigR tSigPass = true) : (tPassed s).holdsPass = true := by
  have h7 : (tPassed s).tsec = 0 := hb
  have hc : (tPassed s).passCurrent tPassRec = true := tCurrent _ _ rfl rfl rfl rfl e
  unfold State.holdsPass
  show (!(tPassed s).test.mustTest && (tPassed s).passCurrent tPassRec && decide ((tPassed s).tsec - 0 ≤ _)) = true
  rw [hc, h7, Nat.zero_sub, decide_eq_true (Nat.zero_le _)]
  rfl

/-- No word of a list is uncorrectable, checked one by one. -/
theorem tClean (l : List CodeWord) (h : l.all (fun w => decide ((cwDecode w).2 ≠ .uncorrectable)) = true) : ∀ w ∈ l, (cwDecode w).2 ≠ .uncorrectable :=
  fun w hw => of_decide_eq_true (List.all_eq_true.mp h w hw)
theorem tPlain (l : List CodeWord) (h : l.all (fun w => decide ((cwDecode w).2 ≠ .corrected)) = true) : ∀ w ∈ l, (cwDecode w).2 ≠ .corrected :=
  fun w hw => of_decide_eq_true (List.all_eq_true.mp h w hw)

/-- The header of a packet of a type from a node to a die. -/
def tHead (ty src dst lenb addr : Nat) : Nat := ty + src * 2 ^ 6 + dst * 2 ^ 26 + lenb * 2 ^ 40 + addr * 2 ^ 52 + 2 ^ 96

/-- The module as a spare that recovers shard 0: an image in force, not admitted, one record of recovery. -/
def tSpareOf (y : Tier2) (got : Bool) : State :=
  { tWith tImg with rep := { Rep.reset with tier2 := [y] }, host := { HostSt.reset with admitted := got } }

/-- With one route over port 0, every packet has a port. -/
theorem tRoute (s : State) (h : s.img = some { tImg with routes := [⟨0, 0xFFFF, 1⟩] }) (src dst cls : Nat) (hd : dst ≤ 0xFFFF) :
    (s.routePort src dst cls).isSome = true := by
  unfold State.routePort
  rw [h]
  simp [tImg, hd, Nat.mod_one, List.range, List.range.loop]

/-- The module with an image in force at step 5, its gate in RUN. -/
def tGateWith : State := ({ tWith tImg with gate := { Gate.reset with step := 5 } } : State).setHd PEL_CGSTATE_STATE gRUN

/-- What a test of each entry says of all of them. -/
theorem tAll {α : Type} {P : α → Prop} [DecidablePred P] (l : List α) (h : l.all (fun x => decide (P x)) = true) : ∀ x ∈ l, P x :=
  fun x hx => of_decide_eq_true (List.all_eq_true.mp h x hx)

/-- The module with an image whose one route leaves by port 0, fenced, and one packet in its second pannier. -/
def tPanned : State :=
  { tWith { tImg with routes := [⟨0, 0xFFFF, 1⟩] } with
      rep := { Rep.reset with pan := [(1, [⟨0, 4, tUal⟩])] }, pel := { Pel.reset with fencedWhy := some 1 } }
theorem tPannedOff (k : Nat) : tPanned.portsFenced k = true := rfl

/-! ## The worked examples of the spec -/

/-- A value v * 2^e. -/
def tv (v : Nat) (e : Int) : FV := .fin false v e

/-- The code of a value after conversion, and the flags. -/
def tConv (f : Fmt) (mode : RMode) (sat : Bool) (x : FV) : Nat × Flags := f.convert mode sat 0 x

-- The codes of the example after R37 (02_number_formats.md).
theorem test_codes : (F8A.dec 0x7E).eqv (tv 448 0) = true ∧ F8A.dec 0x7F = .nan ∧ F8A.dec 0xFF = .nan ∧ (F8B.dec 0x7B).eqv (tv 57344 0) = true ∧
    F8B.dec 0x7C = .inf false ∧ (F6A.dec 0b011111).eqv (tv 15 (-1)) = true := by decide +kernel

-- The table of conversions to F4 (02_number_formats.md), row by row: 0.25, 0.75, 3.5, 5.5, 7 and 10.
theorem test_f4_rne : [tv 1 (-2), tv 3 (-2), tv 7 (-1), tv 11 (-1), tv 7 0, tv 10 0].map (tConv F4 .rne true) =
    [(0, flUNF), (0b0010, 0), (0b0110, 0), (0b0111, 0), (0b0111, flCVT), (0b0111, flCVT)] := by decide +kernel
theorem test_f4_nonsat : [tv 7 0, .inf false, .nan].map (tConv F4 .rne false) =
    [(0b1000, flINV), (0b1000, flINFI ||| flINV), (0b1000, flNANI)] := by decide +kernel
theorem test_f4_rtz : [tv 3 (-2), tv 7 (-1), tv 7 0, tv 10 0].map (tConv F4 .rtz true) =
    [(0b0001, 0), (0b0101, 0), (0b0111, 0), (0b0111, flCVT)] := by decide +kernel

-- The conversions to F8A that follow that table: 272, 300, 460, 464 and 470.
theorem test_f8a : [tv 272 0, tv 300 0, tv 460 0, tv 464 0, tv 470 0].map (fun x => ((tConv F8A .rne true x).1, (tConv F8A .rne true x).2)) =
    [(F8A.enc (tv 256 0), 0), (F8A.enc (tv 288 0), 0), (F8A.enc (tv 448 0), 0), (F8A.enc (tv 448 0), 0), (F8A.enc (tv 448 0), flCVT)] := by
  decide +kernel

-- Stochastic rounding of 0.8 (0x3F4CCCCD in F32) to F4 under R47: 1 for r = 0x800000, 0.5 for r = 0xA00000.
theorem test_sr : (F4.convert .sr true 0x800000 (F32.dec 0x3F4CCCCD)).1 = 0b0010 ∧ (F4.convert .sr true 0xA00000 (F32.dec 0x3F4CCCCD)).1 = 0b0001 := by
  decide +kernel

-- The drain's rounding to F16 (R54): 70,000; 3 * 2^-25; 2^-14 - 2^-26.
theorem test_drain_f16 : [tv 70000 0, tv 3 (-25), tv 4095 (-26)].map (F16.convertDrain .rne true 0) =
    [(0x7BFF, flSAT), (0, flUNF), (0x0400, 0)] := by decide +kernel

-- A block to be quantised to F4 (R57): 20.0, 2.6, -7.0 and thirteen zeros.
theorem test_block : (quantBlock F4 .rne true (fun _ => 0) ([tv 20 0, F32.dec 0x40266666, .fin true 7 0] ++ List.replicate 13 posZero)) =
    (0x81, [0b0110, 0b0001, 0b1100] ++ List.replicate 13 0, 0) := by decide +kernel

-- The compensated sum of R94: 1.0 and four times 2^-25.
theorem test_crumb :
    let go := (List.range 4).foldl (fun p _ => let c := compAdd p.1 p.2 (tv 1 (-25)); (c.1, c.2.1)) (F32.dec 0x3F800000, negZero)
    go.1.eqv (tv 1 0) = true ∧ go.2.eqv (tv 1 (-23)) = true := by decide +kernel

-- The reduction tree of R312 over 1.0, 2^-25, 2^-25, 2^-25.
theorem test_tree :
    (treeOf Table.blank 8 ([tv 1 0, tv 1 (-25), tv 1 (-25), tv 1 (-25)].map (fun x => ⟨.pair x negZero, false⟩)) ⟨.dbl negZero, false⟩).deliver =
      leBytes 4 0x3F800001 := by decide +kernel

-- The table segment of the example after R200 (07_training_datapath.md).
theorem test_segment :
    ((⟨0, 0, 0, 0, 0, 0, [0x3F000000], [0x3E800000, 0x3F000000, 0, 0]⟩ : Table).segment 0 (tv 3 (-2))).1.eqv (tv 3 (-3)) = true := by
  decide +kernel

-- The symbol code (R233 to R236): the check bits of 0x100, a corrected symbol, and poison.
theorem test_ecc : encodeWord 0x100 = 0x0341 ∧ cwDecode ((0x0341 : BitVec 16) ++ (0x500 : BitVec 64)) = (0x100, .corrected) ∧
    (cwDecode ((0x1240 : BitVec 16) ++ (0x100 : BitVec 64))).2 = .poison := by decide +kernel

-- The placement of module address 0x040_0000_5040 (R230): stack H3, stack address 0x3_5555_7040.
theorem test_placement : hbmDie 0x40_0000_5040 = 1 ∧ hbmStack 0x40_0000_5040 = 3 ∧ hbmAddr 0x40_0000_5040 = 0x3_5555_7040 := by decide +kernel

-- The worked encoding of 06_atnus_instructions.md.
theorem test_encoding : bundleSlots (0x23111 + 0x10000145011 * 2 ^ 64 + 0x27E001002 * 2 ^ 384 + 0x100000007001 * 2 ^ 704) =
    [(0, some (.sc .addi ⟨false, 256, 0, 5, 5, 0⟩)), (4, some (.pass 0 ⟨0, false, true, 63, 0, false, 1, 0⟩)),
     (8, some (.feed false ⟨0, 0, 0, 0, 4, 0, 7, 0⟩))] := by decide +kernel

-- The REGS record of 09_frame_image.md: ARR_CFG2 of role 37 in dual mode.
theorem test_record :
    let r := recOf (0x0000A08000250001 + 3 * 2 ^ 64 + 7 * 2 ^ 128)
    let q := recOf (0x0000A08000250001 + 7 * 2 ^ 64 + 7 * 2 ^ 128)
    (r.kind, r.target, r.off, r.val, r.mask) = (1, 37, 0xA080, 3, 7) ∧ siteValueBad r.off r.value = false ∧ siteValueBad q.off q.value = true := by
  decide +kernel

-- Slice 5 holds sites 5, 37, 69 and 101 of a die (14_self_test_repair.md).
theorem test_slice : (List.range 104).filter (fun n => sliceOf n = 5) = [5, 37, 69, 101] := by decide +kernel

-- The interface identifier of device 0x012C, port P3, half B (10_network.md).
theorem test_address : ({ State.reset with img := some { tImg with devidx := 0x012C } } : State).portAddr (4 * 3 + 2) =
    some (BitVec.ofNat 128 0x0000_0000_012C_0083) := by decide +kernel

/-! ## Single operations on core 0 -/

/-- What a scalar register of core 0 holds after a command. -/
def tAfter (i : Instr) (s : State) (k : Nat) : Option (Nat × Bool) := match exec i s with
  | .next t => some (((t.site 0).sreg k).val.toNat, ((t.site 0).sreg k).poi)
  | _ => none

/-- Core 0 running with s1 and s2 as given. -/
def tTwo (a b : Nat) : State := tAt (((tGoing []).setS 1 (BitVec.ofNat 64 a) false).setS 2 (BitVec.ofNat 64 b) false)

/-- A scalar operation on s1 and s2 into s1. -/
def tOp : ScF := ⟨false, 0, 2, 1, 1, 0⟩

-- R161 wraps modulo 2^64; the destination may be a source.
theorem test_add_wraps : tAfter (.add 0 tOp) (tTwo (2 ^ 64 - 1) 2) 1 = some (1, false) := by decide +kernel
theorem test_sub_wraps : tAfter (.sub 0 tOp) (tTwo 0 1) 1 = some (2 ^ 64 - 1, false) := by decide +kernel
theorem test_sra_sign : tAfter (.sra 0 tOp) (tTwo (2 ^ 63) 63) 1 = some (2 ^ 64 - 1, false) := by decide +kernel
theorem test_mulh_sign : tAfter (.mulh 0 tOp) (tTwo (2 ^ 64 - 1) 2) 1 = some (2 ^ 64 - 1, false) := by decide +kernel
theorem test_mulhu : tAfter (.mulhu 0 tOp) (tTwo (2 ^ 64 - 1) 2) 1 = some (1, false) := by decide +kernel

-- A command waits in the queue and is taken first in, first out.
theorem test_queue : (match step { tTwo 1 2 with pending := [.add 0 tOp, .sub 0 tOp] } with
    | .next t => decide (t.pending = [.sub 0 tOp] ∧ ((t.site 0).sreg 1).val = 3)
    | _ => false) = true := by decide +kernel

/-! ## Ill-formed commands are refused -/

def tBadPkt : UalPkt := { tUal with words := [0] }
def tBadPage : PageData := ⟨0, []⟩
def tBadRun : EntryRun := ⟨0, 0, 0, 0, false, 0, [], [0]⟩

theorem test_wf_memory : wellFormed (.hbmPatrol 0 stackBursts) = false ∧ wellFormed (.hbmCorrectionRewrite 4) = false ∧
    wellFormed (.hbmErrorRecheck (24 * 0x1200000000) true) = false ∧ wellFormed (.pageRetire 0 stackPages) = false := by decide +kernel
theorem test_wf_links : wellFormed (.nocPacketReceive 0 ⟨[], []⟩) = false ∧ wellFormed (.d2dBlockReceive tGroup []) = false ∧
    wellFormed (.d2dBlockReplay tGroup []) = false ∧ wellFormed (.ualarPacketReceive tP tBadPkt) = false ∧
    wellFormed (.pannierOverflow 0 tBadPkt) = false := by decide +kernel
theorem test_wf_pages : wellFormed (.copyRepair false [tBadPage]) = false ∧ wellFormed (.refereeRun (.run 0 (List.replicate 129 0) [])) = false ∧
    wellFormed (.poisonPageRestore ⟨0, tBadPage⟩) = false ∧ wellFormed (.stateTransferDone { tTransfer with pages := [tBadPage] }) = false ∧
    wellFormed (.snapshotHeldWrite modulePages .hx) = false ∧ wellFormed (.priorityCopyDone modulePages 0) = false ∧
    wellFormed (.stagePageFreed modulePages) = false ∧ wellFormed (.checkpointPageWriteAck modulePages) = false := by decide +kernel
theorem test_wf_messages : wellFormed (.syncRep tH (List.replicate 65 0)) = false ∧ wellFormed (.ocsRequest []) = false ∧
    wellFormed (.hostStatus (tReq 1)) = false ∧ wellFormed (.identMsg (tReq 1)) = false ∧ wellFormed (.notifyHost 9 0) = false ∧
    wellFormed (.hostFlitReceive 0 ⟨0, true, [], false, 0, 0, false⟩) = false ∧ wellFormed (.signreq (tReq 7) [0]) = false := by decide +kernel
theorem test_wf_tests : wellFormed (.selfTestFull ⟨[tBadRun], []⟩) = false ∧ wellFormed (.siteTestDone 0 [tBadRun]) = false ∧
    wellFormed (.portTest [⟨17, tBadRun⟩]) = false ∧ wellFormed (.counterWrap (.core 0) 16) = false ∧
    wellFormed (.pmcRead (.core 0) 16 .runtime) = false := by decide +kernel

/-- R451, from its table: TYPE 0x0E, RSP, TAG 0x0107, STATUS OK, CODE 0, two payload bytes; 32 bytes of header. -/
theorem test_response_bytes : Out.message 0 (.hostRsp .hx 0x0E 0x0107 0 0 5 [0xAA, 0xBB]) =
    some ([0x0E, 0x01, 0x07, 0x01, 0, 0, 0, 0, 2, 0, 0, 0, 0, 0, 0, 0, 5, 0, 0, 0, 0, 0, 0, 0, 0, 0, 0, 0, 0, 0, 0, 0] ++ [0xAA, 0xBB]) := by
  decide +kernel
/-- R450: a flit carries 192 data bytes. -/
theorem test_flits : (flitsOf 3 (List.replicate 193 1)).map List.length = [192, 192] := by decide +kernel

/-! ## Witnesses: for each clause of a statement with hypotheses, a state and operands that meet them together -/

-- StepRunsFrontCommand.
theorem witness_stepRunsFrontCommand_0 :
    ∃ (i : Instr) (rest : List Instr) (s : State),
      s.pending = i :: rest := by
  exact ⟨.gateDone, [.mgtResendTimer], { State.reset with pending := [.gateDone, .mgtResendTimer] }, rfl⟩

-- StepIdles.
theorem witness_stepIdles_0 :
    ∃ (s : State),
      s.pending = [] ∧ s.pwr.input = false := by
  exact ⟨{ State.reset with pwr := { State.reset.pwr with input := false } }, rfl, rfl⟩
theorem witness_stepIdles_1 :
    ∃ (s : State),
      s.pending = [] ∧ s.pwr.input = true := by
  refine ⟨State.reset, ?_⟩
  decide +kernel

-- QueueIsFifo.
theorem witness_queueIsFifo_0 :
    ∃ (s : State) (t : State),
      step s = .next t := by
  exact ⟨{ State.reset with pending := [.nop 0 0] }, State.reset, rfl⟩

-- MemoriesStayCanonical.
theorem witness_memoriesStayCanonical_0 :
    ∃ (s : State) (t : State),
      s.memsWf = true ∧ step s = .next t := by
  exact ⟨{ State.reset with pending := [.nop 0 0] }, State.reset, by decide, rfl⟩

-- ScalarRegisterResults.
theorem witness_scalarRegisterResults_0 :
    ∃ (c : SiteNo) (f : ScF) (s : State),
      s.ready c f.pred ∧ f.imm = 0 := by
  refine ⟨0, tSc, tRun, ?_⟩
  unfold State.ready State.runs State.clocked
  decide +kernel

-- ScalarImmediateResults.
theorem witness_scalarImmediateResults_4 :
    ∃ (c : SiteNo) (f : ScF) (s : State),
      let k := f.imm.toNat
      s.ready c f.pred ∧ f.rb = 0 ∧ k < 64 := by
  refine ⟨0, { tSc with imm := 63, ra := 1 }, tRun, ?_⟩
  dsimp only
  unfold State.ready State.runs State.clocked
  decide +kernel
theorem witness_scalarImmediateResults_7 :
    ∃ (c : SiteNo) (f : ScF) (s : State),
      s.ready c f.pred ∧ f.rb = 0 ∧ f.ra = 0 := by
  refine ⟨0, { tSc with imm := BitVec.allOnes 48 }, tRun, ?_⟩
  unfold State.ready State.runs State.clocked
  decide +kernel
theorem witness_scalarImmediateResults_8 :
    ∃ (c : SiteNo) (f : ScF) (s : State),
      let k := f.imm.toNat
      s.ready c f.pred ∧ f.rb = 0 ∧ k < 2 ^ 16 := by
  refine ⟨0, { tSc with imm := 0xFFFF }, tRun, ?_⟩
  dsimp only
  unfold State.ready State.runs State.clocked
  decide +kernel

-- ScalarPredicateResults.
theorem witness_scalarPredicateResults_6 :
    ∃ (c : SiteNo) (f : ScF) (s : State),
      s.ready c f.pred ∧ f.imm = 0 ∧ f.rd.toNat < 16 ∧ f.ra.toNat < 16 ∧ f.rb.toNat < 16 := by
  refine ⟨0, { tSc with rd := 15, ra := 15, rb := 15 }, tRun, ?_⟩
  unfold State.ready State.runs State.clocked
  decide +kernel

-- StoppedCoreIgnores.
theorem witness_stoppedCoreIgnores_0 :
    ∃ (i : Instr) (c : SiteNo) (o : Op) (s : State),
      coreOp i = some (c, o) ∧ (¬ s.runs c) := by
  refine ⟨.add 831 tSc, 831, .sc .add tSc, State.reset, ?_⟩
  unfold State.runs State.clocked
  decide +kernel

-- UnpredicatedChangesNothing.
theorem witness_unpredicatedChangesNothing_0 :
    ∃ (i : Instr) (c : SiteNo) (o : Op) (s : State),
      coreOp i = some (c, o) ∧ o.plain = true ∧ s.runs c ∧ (s.site c.val).enabled o.pred = false ∧ opPoisonUse (s.site c.val) o = false ∧
      opViols (s.site c.val).solo o (s.site c.val).active ((s.site c.val).f CORE_PC_PC) (decide (0 < (s.site c.val).brShadow)) = [] := by
  refine ⟨.add 0 { tSc with rd := 1, pred := 1 }, 0, .sc .add { tSc with rd := 1, pred := 1 }, tRun, ?_⟩
  unfold State.runs State.clocked
  decide +kernel

-- ReservedEncodingsTrap.
theorem witness_reservedEncodingsTrap_0 :
    ∃ (i : Instr) (c : SiteNo) (o : Op) (s : State),
      coreOp i = some (c, o) ∧ s.runs c ∧ opLegal (s.site c.val) o (decide (0 < (s.site c.val).brShadow)) = false ∧
      opPoisonUse (s.site c.val) o = false ∧ (∀ f, o ≠ .dmad f) := by
  exact ⟨.add 0 { tSc with imm := 1 }, 0, .sc .add { tSc with imm := 1 }, tRun, rfl, by unfold State.runs State.clocked; decide +kernel, by decide +kernel, by decide +kernel, fun _ h => nomatch h⟩

-- AddressRulesTrap.
theorem witness_addressRulesTrap_0 :
    ∃ (i : Instr) (c : SiteNo) (o : LsOp) (f : LsF) (s : State) (d : Nat),
      coreOp i = some (c, .ls o f) ∧ s.runs c ∧ lsOk o f = true ∧ opPoisonUse (s.site c.val) (.ls o f) = false ∧
      addressDetail (s.site c.val) o ((s.site c.val).ea f.ra f.off).toNat = some d := by
  refine ⟨.ld2u 0 { tLs with off := 1 }, 0, .ld2u, { tLs with off := 1 }, tRun, acALIGN, ?_⟩
  unfold State.runs State.clocked
  decide +kernel

-- PoisonUseIsSignalled.
theorem witness_poisonUseIsSignalled_0 :
    ∃ (i : Instr) (c : SiteNo) (o : Op) (s : State),
      coreOp i = some (c, o) ∧ s.runs c ∧ (s.site c.val).poisonSig = false ∧ opPoisonUse (s.site c.val) o = true ∧
      ((∃ p f, o = .ls p f) ∨ (∃ f, o = .br .jr f) ∨ ∃ f, o = .dmac f) := by
  exact ⟨.ld8 0 { tLs with ra := 1 }, 0, .ls .ld8 { tLs with ra := 1 }, tAt ((tGoing []).setS 1 0 true), rfl, by unfold State.runs State.clocked; decide +kernel, by decide +kernel, by decide +kernel, .inl ⟨_, _, rfl⟩⟩

-- SpecialReads.
theorem witness_specialReads_0 :
    ∃ (c : SiteNo) (f : ScF) (s : State),
      s.ready c f.pred ∧ f.rb = 0 ∧ f.ra = 0 ∧ f.imm = 0 := by
  refine ⟨0, { tSc with imm := 0, rd := 63 }, tRun, ?_⟩
  unfold State.ready State.runs State.clocked
  decide +kernel
theorem witness_specialReads_1 :
    ∃ (c : SiteNo) (f : ScF) (s : State),
      s.ready c f.pred ∧ f.rb = 0 ∧ f.ra = 0 ∧ f.imm = 1 := by
  refine ⟨0, { tSc with imm := 1, rd := 63 }, tRun, ?_⟩
  unfold State.ready State.runs State.clocked
  decide +kernel
theorem witness_specialReads_2 :
    ∃ (c : SiteNo) (f : ScF) (s : State),
      s.ready c f.pred ∧ f.rb = 0 ∧ f.ra = 0 ∧ f.imm = 2 := by
  refine ⟨0, { tSc with imm := 2, rd := 63 }, tRun, ?_⟩
  unfold State.ready State.runs State.clocked
  decide +kernel
theorem witness_specialReads_3 :
    ∃ (c : SiteNo) (f : ScF) (s : State),
      s.ready c f.pred ∧ f.rb = 0 ∧ f.ra = 0 ∧ f.imm = 3 := by
  refine ⟨0, { tSc with imm := 3, rd := 63 }, tRun, ?_⟩
  unfold State.ready State.runs State.clocked
  decide +kernel
theorem witness_specialReads_4 :
    ∃ (c : SiteNo) (f : ScF) (s : State),
      s.ready c f.pred ∧ f.rb = 0 ∧ f.ra = 0 ∧ f.imm = 4 := by
  refine ⟨0, { tSc with imm := 4, rd := 63 }, tRun, ?_⟩
  unfold State.ready State.runs State.clocked
  decide +kernel
theorem witness_specialReads_5 :
    ∃ (c : SiteNo) (f : ScF) (s : State),
      s.ready c f.pred ∧ f.rb = 0 ∧ f.ra = 0 ∧ f.imm = 5 := by
  refine ⟨0, { tSc with imm := 5, rd := 63 }, tRun, ?_⟩
  unfold State.ready State.runs State.clocked
  decide +kernel
theorem witness_specialReads_6 :
    ∃ (c : SiteNo) (f : ScF) (s : State) (k : Nat),
      s.ready c f.pred ∧ f.rb = 0 ∧ f.ra = 0 ∧ k < 32 ∧ f.imm = BitVec.ofNat 48 (0x20 + k) := by
  refine ⟨0, { tSc with imm := 0x3F, rd := 1 }, tRun, 31, ?_⟩
  unfold State.ready State.runs State.clocked
  decide +kernel
theorem witness_specialReads_7 :
    ∃ (c : SiteNo) (f : ScF) (s : State),
      s.ready c f.pred ∧ f.rb = 0 ∧ f.ra = 0 ∧ f.imm = 0x101 := by
  refine ⟨0, { tSc with imm := 0x101, rd := 1 }, tRun, ?_⟩
  unfold State.ready State.runs State.clocked
  decide +kernel

-- SpecialWrites.
theorem witness_specialWrites_0 :
    ∃ (c : SiteNo) (f : ScF) (s : State),
      s.ready c f.pred ∧ f.rb = 0 ∧ f.rd = 0 ∧ ((s.site c.val).sreg f.ra.toNat).poi = false ∧ f.imm = 0 := by
  refine ⟨0, tSc, tRun, ?_⟩
  unfold State.ready State.runs State.clocked
  decide +kernel
theorem witness_specialWrites_1 :
    ∃ (c : SiteNo) (f : ScF) (s : State),
      s.ready c f.pred ∧ f.rb = 0 ∧ f.rd = 0 ∧ ((s.site c.val).sreg f.ra.toNat).poi = false ∧ f.imm = 4 := by
  refine ⟨0, { tSc with imm := 4 }, tRun, ?_⟩
  unfold State.ready State.runs State.clocked
  decide +kernel
theorem witness_specialWrites_2 :
    ∃ (c : SiteNo) (f : ScF) (s : State),
      let x := s.site c.val
      let v := (x.sreg f.ra.toNat).val.toNat
      s.ready c f.pred ∧ f.rb = 0 ∧ f.rd = 0 ∧ ((s.site c.val).sreg f.ra.toNat).poi = false ∧ f.imm = 5 ∧ v / 2 % 4 ≠ 3 := by
  refine ⟨0, { tSc with imm := 5, ra := 1 }, tAt ((tGoing []).setS 1 13 false), ?_⟩
  dsimp only
  unfold State.ready State.runs State.clocked
  decide +kernel
theorem witness_specialWrites_3 :
    ∃ (c : SiteNo) (f : ScF) (s : State) (r : _),
      let x := s.site c.val
      let v := (x.sreg f.ra.toNat).val.toNat
      s.ready c f.pred ∧ f.rb = 0 ∧ f.rd = 0 ∧ ((s.site c.val).sreg f.ra.toNat).poi = false ∧ f.imm = 6 ∧ x.role = some r ∧ v = 1 := by
  refine ⟨0, { tSc with imm := 6, ra := 1 }, tAt ({ (tGoing []).setS 1 1 false with role := some 0 } : Site), 0, ?_⟩
  dsimp only
  unfold State.ready State.runs State.clocked
  decide +kernel
theorem witness_specialWrites_4 :
    ∃ (c : SiteNo) (f : ScF) (s : State) (r : _),
      let x := s.site c.val
      let v := (x.sreg f.ra.toNat).val.toNat
      s.ready c f.pred ∧ f.rb = 0 ∧ f.rd = 0 ∧ ((s.site c.val).sreg f.ra.toNat).poi = false ∧ f.imm = 6 ∧ x.role = some r ∧ v = 2 := by
  refine ⟨0, { tSc with imm := 6, ra := 1 }, tAt ({ (tGoing []).setS 1 2 false with role := some 0 } : Site), 0, ?_⟩
  dsimp only
  unfold State.ready State.runs State.clocked
  decide +kernel
theorem witness_specialWrites_5 :
    ∃ (c : SiteNo) (f : ScF) (s : State) (r : _),
      let x := s.site c.val
      let v := (x.sreg f.ra.toNat).val.toNat
      s.ready c f.pred ∧ f.rb = 0 ∧ f.rd = 0 ∧ ((s.site c.val).sreg f.ra.toNat).poi = false ∧ f.imm = 6 ∧ x.role = some r ∧ v = 3 ∧
      x.t30seen = true ∧ s.gateState = gCOMMIT := by
  refine ⟨0, { tSc with imm := 6, ra := 1 }, (tAt ({ (tGoing []).setS 1 3 false with role := some 0, t30seen := true } : Site)).setHd PEL_CGSTATE_STATE gCOMMIT, 0, ?_⟩
  dsimp only
  unfold State.ready State.runs State.clocked
  decide +kernel

-- Branches.
theorem witness_branches_0 :
    ∃ (c : SiteNo) (f : BrF) (s : State),
      let x := s.site c.val
      s.runs c ∧ ((s.site c.val).preg f.pred.toNat).poi = false ∧ f.bar = 0 ∧ x.brShadow = 0 ∧ f.ra = 0 ∧
      x.halfBusy (f.target.toNat / 2048) = false ∧ f.rd = 0 := by
  refine ⟨0, { tBr with target := 2048 }, tRun, ?_⟩
  dsimp only
  unfold State.runs State.clocked
  decide +kernel
theorem witness_branches_2 :
    ∃ (c : SiteNo) (f : BrF) (s : State),
      let x := s.site c.val
      let t := (x.sreg f.ra.toNat).val.toNat % 4096
      s.runs c ∧ ((s.site c.val).preg f.pred.toNat).poi = false ∧ f.bar = 0 ∧ x.brShadow = 0 ∧ f.rd = 0 ∧ f.target = 0 ∧
      (x.sreg f.ra.toNat).poi = false ∧ x.halfBusy (t / 2048) = false := by
  refine ⟨0, { tBr with ra := 1 }, tAt ((tGoing []).setS 1 0xFFFF false), ?_⟩
  dsimp only
  unfold State.runs State.clocked
  decide +kernel

-- ArriveCounts.
theorem witness_arriveCounts_0 :
    ∃ (c : SiteNo) (f : BrF) (s : State) (r : Nat) (g : _),
      s.ready c f.pred ∧ f.ra = 0 ∧ f.rd = 0 ∧ f.target = 0 ∧ (s.site c.val).role = some r ∧ s.barrierOf r (16 + f.bar.toNat) = some g := by
  refine ⟨0, { tBr with bar := 7 }, ({ tAt ({ tGoing [] with role := some 0 } : Site) with img := some { tImg with stages := ⟨[(5, 23, 0)], []⟩ } } : State), 0, 5, ?_⟩
  unfold State.ready State.runs State.clocked
  decide +kernel
theorem witness_arriveCounts_1 :
    ∃ (c : SiteNo) (f : BrF) (s : State) (r : Nat),
      s.ready c f.pred ∧ f.ra = 0 ∧ f.rd = 0 ∧ f.target = 0 ∧ (s.site c.val).role = some r ∧ s.barrierOf r (16 + f.bar.toNat) = none := by
  refine ⟨0, tBr, tAt ({ tGoing [] with role := some 799 } : Site), 799, ?_⟩
  unfold State.ready State.runs State.clocked
  decide +kernel

-- VectorIntegerResults.
theorem witness_vectorIntegerResults_0 :
    ∃ (c : SiteNo) (f : VecF) (s : State),
      s.runs c ∧ plainVec f ∧ f.lt.toNat < 3 ∧ f.vc = 0 ∧ f.s1 = 0 ∧ f.imm8 = 0 := by
  refine ⟨0, { tVec with lt := 2, va := 1, vb := 2, vd := 31 }, tRun, ?_⟩
  unfold State.runs State.clocked plainVec
  decide +kernel

-- VectorFloatResults.
theorem witness_vectorFloatResults_5 :
    ∃ (c : SiteNo) (f : VecF) (s : State),
      s.runs c ∧ plainVec f ∧ f.lt.toNat < 4 ∧ f.s1 = 0 ∧ f.imm8 = 0 ∧ f.vc = 0 ∧ f.vb = 0 := by
  refine ⟨0, { tVec with lt := 3, va := 1, vd := 31 }, tRun, ?_⟩
  unfold State.runs State.clocked plainVec
  decide +kernel

-- VectorMoves.
theorem witness_vectorMoves_0 :
    ∃ (c : SiteNo) (f : VecF) (s : State),
      let w := if f.lt = 0 then 64 else if f.lt = 1 then 32 else 16
      s.runs c ∧ plainVec f ∧ f.vb = 0 ∧ f.vc = 0 ∧ f.lt.toNat < 3 ∧ f.s1 = 0 ∧ f.imm8.toNat < 2048 / w := by
  refine ⟨0, { tVec with lt := 2, imm8 := 127, va := 1 }, tRun, ?_⟩
  dsimp only
  unfold State.runs State.clocked plainVec
  decide +kernel
theorem witness_vectorMoves_1 :
    ∃ (c : SiteNo) (f : VecF) (s : State),
      s.runs c ∧ plainVec f ∧ f.vb = 0 ∧ f.vc = 0 ∧ f.lt.toNat < 3 ∧ f.va = 0 ∧ f.imm8 = 0 := by
  refine ⟨0, { tVec with lt := 2, s1 := 63 }, tRun, ?_⟩
  unfold State.runs State.clocked plainVec
  decide +kernel
theorem witness_vectorMoves_2 :
    ∃ (c : SiteNo) (f : VecF) (s : State) (t : _),
      let o := s.site c.val
      s.runs c ∧ plainVec f ∧ f.vb = 0 ∧ f.vc = 0 ∧ f.lt = 1 ∧ f.s1 = 0 ∧ f.imm8.toNat < 32 ∧ mfind o.tables f.imm8.toNat = some t := by
  refine ⟨0, { tVec with lt := 1, imm8 := 31 }, tAt ({ tGoing [] with tables := [(31, ⟨0, 0, 0, 0, 0, 0, [], []⟩)] } : Site), ⟨0, 0, 0, 0, 0, 0, [], []⟩, ?_⟩
  dsimp only
  unfold State.runs State.clocked plainVec
  decide +kernel

-- VectorSelects.
theorem witness_vectorSelects_0 :
    ∃ (c : SiteNo) (f : VecF) (s : State),
      s.runs c ∧ plainVec f ∧ f.lt.toNat < 3 ∧ f.vc = 0 ∧ f.s1 = 0 ∧ f.imm8 = 0 := by
  refine ⟨0, { tVec with lt := 2, va := 1, vb := 2 }, tRun, ?_⟩
  unfold State.runs State.clocked plainVec
  decide +kernel
theorem witness_vectorSelects_1 :
    ∃ (c : SiteNo) (f : VecF) (s : State),
      let w := if f.lt = 0 then 64 else if f.lt = 1 then 32 else 16
      s.runs c ∧ plainVec f ∧ f.lt.toNat < 3 ∧ f.vc = 0 ∧ f.vb = 0 ∧ f.vd = 0 ∧ f.imm8.toNat < 2048 / w := by
  refine ⟨0, { tVec with lt := 2, imm8 := 127, s1 := 63 }, tRun, ?_⟩
  dsimp only
  unfold State.runs State.clocked plainVec
  decide +kernel

-- VectorCompares.
theorem witness_vectorCompares_0 :
    ∃ (c : SiteNo) (f : VecF) (s : State),
      s.runs c ∧ plainVec f ∧ f.vc = 0 ∧ f.s1 = 0 ∧ f.vd.toNat < 16 ∧ f.vd ≠ 0 ∧ f.lt.toNat < 4 ∧ f.imm8.toNat < 7 := by
  refine ⟨0, { tVec with lt := 3, vd := 15, imm8 := 6 }, tRun, ?_⟩
  unfold State.runs State.clocked plainVec
  decide +kernel
theorem witness_vectorCompares_1 :
    ∃ (c : SiteNo) (f : VecF) (s : State),
      s.runs c ∧ plainVec f ∧ f.vc = 0 ∧ f.s1 = 0 ∧ f.vd.toNat < 16 ∧ f.vd ≠ 0 ∧ f.lt.toNat < 3 ∧ f.imm8.toNat < 6 := by
  refine ⟨0, { tVec with lt := 2, vd := 1, imm8 := 5 }, tRun, ?_⟩
  unfold State.runs State.clocked plainVec
  decide +kernel

-- VectorConvert.
theorem witness_vectorConvert_0 :
    ∃ (c : SiteNo) (f : VecF) (s : State) (fs : Fmt) (fd : Fmt),
      s.runs c ∧ f.vb = 0 ∧ f.vc = 0 ∧ f.s1 = 0 ∧ f.imm8 = 0 ∧ vecRoundOk f = true ∧ fmtOf f.lt.toNat = some fs ∧ fmtOf f.df.toNat = some fd := by
  refine ⟨0, { tVec with lt := 0, df := 8 }, tRun, F64, ((fmtOf 8).getD F32), ?_⟩
  unfold State.runs State.clocked
  decide +kernel

-- VectorQuantise.
theorem witness_vectorQuantise_0 :
    ∃ (c : SiteNo) (f : VecF) (s : State) (fd : Fmt),
      s.runs c ∧ f.vb = 0 ∧ f.vc = 0 ∧ f.pred = 0 ∧ f.lt = 1 ∧ f.imm8.toNat < 2 ∧ vecRoundOk f = true ∧ 4 ≤ f.df.toNat ∧ f.df.toNat ≤ 8 ∧
      fmtOf f.df.toNat = some fd := by
  refine ⟨0, { tVec with lt := 1, imm8 := 1, df := 4 }, tRun, ((fmtOf 4).getD F32), ?_⟩
  unfold State.runs State.clocked
  decide +kernel

-- LoadsFromTheStore.
theorem witness_loadsFromTheStore_0 :
    ∃ (c : SiteNo) (f : LsF) (s : State),
      let o := s.site c.val
      let a := (o.ea f.ra f.off).toNat
      s.ready c f.pred ∧ ((s.site c.val).sreg f.ra.toNat).poi = false ∧ a < storeSize ∧ f.vr = 0 := by
  refine ⟨0, { tLs with off := 0x3FFF00, sr := 63 }, tRun, ?_⟩
  dsimp only
  unfold State.ready State.runs State.clocked
  decide +kernel
theorem witness_loadsFromTheStore_7 :
    ∃ (c : SiteNo) (f : LsF) (s : State),
      let o := s.site c.val
      let a := (o.ea f.ra f.off).toNat
      s.ready c f.pred ∧ ((s.site c.val).sreg f.ra.toNat).poi = false ∧ a < storeSize ∧ f.sr = 0 := by
  refine ⟨0, { tLs with off := 0x3FFF00, vr := 31 }, tRun, ?_⟩
  dsimp only
  unfold State.ready State.runs State.clocked
  decide +kernel

-- LoadsFromRegisters.
theorem witness_loadsFromRegisters_0 :
    ∃ (c : SiteNo) (f : LsF) (s : State) (off : _),
      let o := s.site c.val
      let a := (o.ea f.ra f.off).toNat
      s.ready c f.pred ∧ ((s.site c.val).sreg f.ra.toNat).poi = false ∧ f.vr = 0 ∧ a = 0x800000 + off ∧ off < 0xC000 ∧ off % 8 = 0 := by
  refine ⟨0, { tLs with ra := 5, sr := 1 }, tAt ((tGoing []).setS 5 0x80BFF8 false), 0xBFF8, ?_⟩
  dsimp only
  unfold State.ready State.runs State.clocked
  decide +kernel
theorem witness_loadsFromRegisters_1 :
    ∃ (c : SiteNo) (f : LsF) (s : State) (off : _),
      let o := s.site c.val
      let a := (o.ea f.ra f.off).toNat
      s.ready c f.pred ∧ ((s.site c.val).sreg f.ra.toNat).poi = false ∧ f.vr = 0 ∧ a = 0x800000 + off ∧ off < 0xC000 ∧ off % 4 = 0 := by
  refine ⟨0, { tLs with ra := 5, sr := 1 }, tAt ((tGoing []).setS 5 0x80BFFC false), 0xBFFC, ?_⟩
  dsimp only
  unfold State.ready State.runs State.clocked
  decide +kernel
theorem witness_loadsFromRegisters_2 :
    ∃ (c : SiteNo) (f : LsF) (s : State) (ch : _),
      let o := s.site c.val
      let a := (o.ea f.ra f.off).toNat
      s.ready c f.pred ∧ ((s.site c.val).sreg f.ra.toNat).poi = false ∧ f.vr = 0 ∧ ch < 6 ∧ a = 0x2008000 + 256 * ch + 8 ∧ o.chanOn ch = true := by
  refine ⟨0, { tLs with ra := 5, sr := 1 }, tAt ((tGoing tSends).setS 5 0x2008508 false), 5, ?_⟩
  dsimp only
  unfold State.ready State.runs State.clocked
  decide +kernel

-- StoresToTheStore.
theorem witness_storesToTheStore_0 :
    ∃ (c : SiteNo) (f : LsF) (s : State),
      let o := s.site c.val
      let a := (o.ea f.ra f.off).toNat
      s.ready c f.pred ∧ ((s.site c.val).sreg f.ra.toNat).poi = false ∧ a < storeSize ∧ f.vr = 0 := by
  refine ⟨0, { tLs with off := 0x3FFF00, sr := 63 }, tRun, ?_⟩
  dsimp only
  unfold State.ready State.runs State.clocked
  decide +kernel
theorem witness_storesToTheStore_4 :
    ∃ (c : SiteNo) (f : LsF) (s : State),
      let o := s.site c.val
      let a := (o.ea f.ra f.off).toNat
      s.ready c f.pred ∧ ((s.site c.val).sreg f.ra.toNat).poi = false ∧ a < storeSize ∧ f.sr = 0 := by
  refine ⟨0, { tLs with off := 0x3FFF00, vr := 31 }, tRun, ?_⟩
  dsimp only
  unfold State.ready State.runs State.clocked
  decide +kernel

-- ChannelPost.
theorem witness_channelPost_0 :
    ∃ (c : SiteNo) (ch : Fin 6) (v : BitVec 64) (s : State),
      let o := s.site c.val
      let k := v.toNat % 512
      s.runs c ∧ o.chanOn ch.val = true ∧ o.sends ch.val = true ∧ k ≤ 256 := by
  refine ⟨0, 5, 256, tAt (tGoing tSends), ?_⟩
  dsimp only
  unfold State.runs State.clocked
  decide +kernel

-- ChannelReleaseAndMb.
theorem witness_channelReleaseAndMb_0 :
    ∃ (c : SiteNo) (ch : Fin 6) (v : BitVec 64) (s : State),
      let o := s.site c.val
      let k := v.toNat % 512
      s.runs c ∧ o.chanOn ch.val = true ∧ o.sends ch.val = false ∧ k ≤ 256 := by
  refine ⟨0, 5, 256, tAt (tGoing tTakes), ?_⟩
  dsimp only
  unfold State.runs State.clocked
  decide +kernel
theorem witness_channelReleaseAndMb_1 :
    ∃ (c : SiteNo) (ch : Fin 6) (s : State),
      let o := s.site c.val
      s.runs c ∧ o.chanOn ch.val = true ∧ o.sends ch.val = true := by
  refine ⟨0, 5, tAt (tGoing tSends), ?_⟩
  dsimp only
  unfold State.runs State.clocked
  decide +kernel

-- ChannelNotInUseTraps.
theorem witness_channelNotInUseTraps_0 :
    ∃ (c : SiteNo) (ch : Fin 6) (s : State),
      s.runs c ∧ (s.site c.val).chanOn ch.val = false := by
  refine ⟨0, 5, tRun, ?_⟩
  unfold State.runs State.clocked
  decide +kernel

-- RecordMerge.
theorem witness_recordMerge_0 :
    ∃ (c : SiteNo) (wide : Bool) (r : Fin 512) (s : State),
      let o := s.site c.val
      let n := if wide then 8 else 4
      s.runs c ∧ r.val % n = 0 ∧ (o.pendingRows.filter (fun d => d.desc.inSeq && d.desc.rset = r.val / 256)) = [] := by
  refine ⟨0, true, 504, tRun, ?_⟩
  dsimp only
  unfold State.runs State.clocked
  decide +kernel

-- BundleIssues.
theorem witness_bundleIssues_0 :
    ∃ (c : SiteNo) (s : State),
      let x := (s.site c.val).active + 1
      let s1 := s.onSite c.val (fun d => Site.settle x { d with active := x })
      let p := s1.site c.val
      let pc := p.f CORE_PC_PC
      let b := (p.fetch pc).1
      let cnt := bitsOf b 22 17
      let tok := bitsOf b 16 12
      let ops := (bundleSlots b).filterMap (·.2)
      s.clocked c ∧ s.withheld c.val = false ∧ p.active? = true ∧ (p.fetch pc).2 = false ∧ (cnt = 0 ∨ (cnt ≤ p.f (CORE_TOK_CNT tok) ∧
      p.f (CORE_TOK_ERR tok) ≠ 1 ∧ p.f (CORE_TOK_OVF tok) ≠ 1)) ∧ bundleViols p (bundleSlots b) x pc = [] ∧
      (∀ o ∈ ops, (∃ k q, o = .nop k q) ∨ ∃ q f, o = .sc q f ∧ q ≠ .mtsr) ∧ (∀ o ∈ ops, opPoisonUse p o = false) := by
  refine ⟨0, tBundle (1 + 0x20 * 2 ^ 64) [], ?_⟩
  dsimp only
  unfold State.clocked
  refine ⟨by decide +kernel, by decide +kernel, by decide +kernel, by decide +kernel, by decide +kernel, by decide +kernel,
    fun o ho => plainScalar_spec o (List.all_eq_true.mp ?_ o ho), by decide +kernel⟩
  decide +kernel

-- BundleStallsOrTraps.
theorem witness_bundleStallsOrTraps_0 :
    ∃ (c : SiteNo) (s : State),
      let x := (s.site c.val).active + 1
      let s1 := s.onSite c.val (fun d => Site.settle x { d with active := x })
      let p := s1.site c.val
      let pc := p.f CORE_PC_PC
      let b := (p.fetch pc).1
      let cnt := bitsOf b 22 17
      let tok := bitsOf b 16 12
      s.clocked c ∧ s.withheld c.val = false ∧ p.active? = true ∧ (p.fetch pc).2 = false ∧ (cnt = 0 ∨ (p.f (CORE_TOK_ERR tok) ≠ 1 ∧
      p.f (CORE_TOK_OVF tok) ≠ 1)) ∧ p.f (CORE_TOK_CNT tok) < cnt := by
  refine ⟨0, tBundle (1 * 2 ^ 17 + 31 * 2 ^ 12) [], ?_⟩
  dsimp only
  unfold State.clocked
  decide +kernel
theorem witness_bundleStallsOrTraps_1 :
    ∃ (c : SiteNo) (s : State),
      let x := (s.site c.val).active + 1
      let s1 := s.onSite c.val (fun d => Site.settle x { d with active := x })
      let p := s1.site c.val
      let pc := p.f CORE_PC_PC
      let b := (p.fetch pc).1
      let cnt := bitsOf b 22 17
      let tok := bitsOf b 16 12
      s.clocked c ∧ s.withheld c.val = false ∧ p.active? = true ∧ (p.fetch pc).2 = false ∧ (cnt = 0 ∨ (p.f (CORE_TOK_ERR tok) ≠ 1 ∧
      p.f (CORE_TOK_OVF tok) ≠ 1)) ∧ cnt ≤ p.f (CORE_TOK_CNT tok) ∧ bundleViols p (bundleSlots b) x pc ≠ [] := by
  refine ⟨0, tBundle (2 ^ 11 + (2 ^ 80 - 1) * 2 ^ 944) [], ?_⟩
  dsimp only
  unfold State.clocked
  decide +kernel

-- FeedsAreCaptured.
theorem witness_feedsAreCaptured_0 :
    ∃ (c : SiteNo) (v : Bool) (f : FeedF) (s : State),
      let o := s.site c.val
      let op := Op.feed v f
      s.ready c f.pred ∧ opPoisonUse o op = false ∧ soloViols o.solo op o.active (o.f CORE_PC_PC) = [] := by
  refine ⟨0, false, tFeed, tAt (tGoing tArrs), ?_⟩
  dsimp only
  unfold State.ready State.runs State.clocked
  decide +kernel

-- LoadsReachTheirTile.
theorem witness_loadsReachTheirTile_0 :
    ∃ (c : SiteNo) (a : Fin 4) (f : LdwF) (s : State),
      let o := s.site c.val
      let op := Op.ldw a.val f
      s.ready c f.pred ∧ opPoisonUse o op = false ∧ soloViols o.solo op o.active (o.f CORE_PC_PC) = [] ∧ (o.arr a.val).loads = [] := by
  refine ⟨0, 3, tLdw, tAt (tGoing tArrs), ?_⟩
  dsimp only
  unfold State.ready State.runs State.clocked
  decide +kernel

-- PassOpens.
theorem witness_passOpens_0 :
    ∃ (c : SiteNo) (a : Fin 4) (f : PassF) (s : State),
      let o := s.site c.val
      let op := Op.pass a.val f
      s.ready c f.pred ∧ soloViols o.solo op o.active (o.f CORE_PC_PC) = [] := by
  refine ⟨0, 3, tPass, tAt ({ tGoing tArrs with arrs := [(3, { Arr.reset with tiles := [(0, tTile), (1, tTile), (2, tTile), (3, tTile)] })] } : Site), ?_⟩
  dsimp only
  unfold State.ready State.runs State.clocked
  decide +kernel

-- DrainSchedules.
theorem witness_drainSchedules_0 :
    ∃ (c : SiteNo) (a : Fin 4) (f : DrainF) (s : State),
      let o := s.site c.val
      let op := Op.drain a.val f
      s.ready c f.pred ∧ soloViols o.solo op o.active (o.f CORE_PC_PC) = [] := by
  refine ⟨0, 3, tDrain, tAt (tGoing tArrs), ?_⟩
  dsimp only
  unfold State.ready State.runs State.clocked
  decide +kernel

-- DmaStarts.
theorem witness_dmaStarts_0 :
    ∃ (c : SiteNo) (s : State) (f : DmacF),
      let o := s.site c.val
      s.ready c f.pred ∧ opPoisonUse o (.dmac f) = false ∧ ((dmacXfer o f).details o (o.f CORE_PC_PC / 2048)) = [] := by
  refine ⟨0, tAt ((tGoing []).setS 1 64 false), { tDmac with rlen := 1, tok := 15 }, ?_⟩
  dsimp only
  unfold State.ready State.runs State.clocked
  decide +kernel
theorem witness_dmaStarts_1 :
    ∃ (c : SiteNo) (s : State) (f : DmadF),
      let o := s.site c.val
      s.runs c ∧ (o.preg f.pred.toNat).poi = false ∧ opPoisonUse o (.dmad f) = false ∧ soloViols o.solo (.dmad f) o.active (o.f CORE_PC_PC) = [] := by
  refine ⟨0, tAt ({ tGoing [] with store := Mem.empty.write 0 (leBytes 64 (768 + 2 ^ 192 + 64 * 2 ^ 224)) false } : Site), ⟨true, 0, 0, 15, 0⟩, ?_⟩
  dsimp only
  unfold State.runs State.clocked
  decide +kernel

-- AccumulatorAdds.
theorem witness_accumulatorAdds_0 :
    ∃ (c : SiteNo) (s : State),
      (¬ s.clocked c) := by
  refine ⟨0, (State.reset.setD 0 CLK_STATUS_STOPPED 1), ?_⟩
  unfold State.clocked
  decide +kernel
theorem witness_accumulatorAdds_1 :
    ∃ (c : SiteNo) (a : Fin 4) (s : State),
      let o := s.site c.val
      s.clocked c ∧ (o.arr a.val).vecs = [] := by
  refine ⟨0, 3, State.reset, ?_⟩
  dsimp only
  unfold State.clocked
  decide +kernel
theorem witness_accumulatorAdds_2 :
    ∃ (c : SiteNo) (a : Fin 4) (s : State) (v : _) (rest : _),
      let o := s.site c.val
      s.clocked c ∧ (o.arr a.val).vecs = v :: rest := by
  refine ⟨0, 3, tArr { Arr.reset with vecs := [tVecIn] }, tVecIn, [], ?_⟩
  dsimp only
  unfold State.clocked
  decide +kernel

-- DrainRowWrites.
theorem witness_drainRowWrites_0 :
    ∃ (c : SiteNo) (s : State),
      (¬ s.clocked c) := by
  refine ⟨0, (State.reset.setD 0 CLK_STATUS_STOPPED 1), ?_⟩
  unfold State.clocked
  decide +kernel
theorem witness_drainRowWrites_1 :
    ∃ (c : SiteNo) (s : State),
      let o := s.site c.val
      o.pendingRows = [] := by
  refine ⟨0, State.reset, ?_⟩
  dsimp only
  decide +kernel
theorem witness_drainRowWrites_2 :
    ∃ (c : SiteNo) (s : State) (x : _) (r : _),
      let o := s.site c.val
      s.clocked c ∧ o.oldestRow = some (x, r) := by
  obtain ⟨p, hp⟩ := Option.isSome_iff_exists.mp (show (tQueued.site 0).oldestRow.isSome = true by decide +kernel)
  exact ⟨0, tQueued, p.1, p.2, by unfold State.clocked; decide +kernel, hp⟩

-- RepairApplies.
theorem witness_repairApplies_0 :
    ∃ (c : SiteNo) (a : Fin 4) (s : State) (m : _),
      let o := s.site c.val
      s.clocked c ∧ (o.arr a.val).newRepair = some m ∧ o.arrBusy a.val = false ∧ (o.arr a.val).loads = [] := by
  refine ⟨0, 3, tArr { Arr.reset with newRepair := some (31, 127) }, (31, 127), ?_⟩
  dsimp only
  unfold State.clocked
  decide +kernel
theorem witness_repairApplies_1 :
    ∃ (c : SiteNo) (a : Fin 4) (s : State),
      let o := s.site c.val
      ((o.arr a.val).newRepair = none ∨ o.arrBusy a.val = true ∨ (o.arr a.val).loads ≠ [] ∨ ¬ s.clocked c) := by
  refine ⟨0, 3, tArr { Arr.reset with newRepair := none }, ?_⟩
  dsimp only
  unfold State.clocked
  decide +kernel

-- DmaCompletes.
theorem witness_dmaCompletes_0 :
    ∃ (c : SiteNo) (s : State),
      (¬ s.clocked c) := by
  refine ⟨0, (State.reset.setD 0 CLK_STATUS_STOPPED 1), ?_⟩
  unfold State.clocked
  decide +kernel
theorem witness_dmaCompletes_1 :
    ∃ (c : SiteNo) (k : Nat) (s : State),
      let o := s.site c.val
      s.clocked c ∧ o.dmas[k]? = none := by
  refine ⟨0, 1, tAt ({ Site.reset with dmas := [tDma] } : Site), ?_⟩
  dsimp only
  unfold State.clocked
  decide +kernel
theorem witness_dmaCompletes_2 :
    ∃ (c : SiteNo) (k : Nat) (s : State) (d : Dma),
      let o := s.site c.val
      let door := !d.dstl && d.dst = doorBase + 0x40 * o.roleNo && d.rows = 1 && d.rbytes = 64
      let rule := if d.bad || door then some d.bad else s.pageRule o.roleNo d
      let held := rule = some false && !door && ((d.hbmSources c.val).any (fun r => s.readWaits r.1 r.2) || d.hbmTargets.any (fun r => s.writeWaits r.1 r.2))
      s.clocked c ∧ o.dmas[k]? = some d ∧ (∀ a b, d.kind ≠ .collective a b) ∧ d.tok < 32 ∧ (rule = none ∨ held = true) := by
  refine ⟨0, 0, ({ (tGate gCOMMIT).setSite 0 { Site.reset with role := some 0, dmas := [tOut 5] } with img := some tCommit } : State), tOut 5, ?_⟩
  dsimp only
  unfold State.clocked
  exact ⟨by decide +kernel, by decide +kernel, (fun _ _ h => nomatch (h : DmaKind.copy = _)), by decide +kernel, by decide +kernel⟩
theorem witness_dmaCompletes_3 :
    ∃ (c : SiteNo) (k : Nat) (s : State) (d : Dma),
      let o := s.site c.val
      let door := !d.dstl && d.dst = doorBase + 0x40 * o.roleNo && d.rows = 1 && d.rbytes = 64
      let rule := if d.bad || door then some d.bad else s.pageRule o.roleNo d
      s.clocked c ∧ o.dmas[k]? = some d ∧ (∀ a b, d.kind ≠ .collective a b) ∧ d.tok < 32 ∧ rule = some true := by
  refine ⟨0, 0, ({ (tGate gCOMMIT).setSite 0 { Site.reset with role := some 0, dmas := [tOut 6] } with img := some tCommit } : State), tOut 6, ?_⟩
  dsimp only
  unfold State.clocked
  exact ⟨by decide +kernel, by decide +kernel, (fun _ _ h => nomatch (h : DmaKind.copy = _)), by decide +kernel, by decide +kernel⟩
theorem witness_dmaCompletes_4 :
    ∃ (c : SiteNo) (k : Nat) (s : State) (d : Dma),
      let o := s.site c.val
      let door := !d.dstl && d.dst = doorBase + 0x40 * o.roleNo && d.rows = 1 && d.rbytes = 64
      let rule := if d.bad || door then some d.bad else s.pageRule o.roleNo d
      let held := rule = some false && !door && ((d.hbmSources c.val).any (fun r => s.readWaits r.1 r.2) || d.hbmTargets.any (fun r => s.writeWaits r.1 r.2))
      s.clocked c ∧ o.dmas[k]? = some d ∧ (∀ a b, d.kind ≠ .collective a b) ∧ d.tok < 32 ∧ rule = some false ∧ held = false ∧ door = false := by
  refine ⟨0, 0, tAt ({ Site.reset with dmas := [tDma] } : Site), tDma, ?_⟩
  dsimp only
  unfold State.clocked
  exact ⟨by decide +kernel, by decide +kernel, (fun _ _ h => nomatch (h : DmaKind.copy = _)), by decide +kernel, by decide +kernel, by decide +kernel, by decide +kernel⟩
theorem witness_dmaCompletes_5 :
    ∃ (c : SiteNo) (k : Nat) (s : State) (d : Dma),
      let o := s.site c.val
      let door := !d.dstl && d.dst = doorBase + 0x40 * o.roleNo && d.rows = 1 && d.rbytes = 64
      s.clocked c ∧ o.dmas[k]? = some d ∧ (∀ a b, d.kind ≠ .collective a b) ∧ d.tok < 32 ∧ d.bad = false ∧ door = true := by
  refine ⟨0, 0, tAt ({ Site.reset with dmas := [tDoor] } : Site), tDoor, ?_⟩
  dsimp only
  unfold State.clocked
  exact ⟨by decide +kernel, by decide +kernel, (fun _ _ h => nomatch (h : DmaKind.copy = _)), by decide +kernel, by decide +kernel, by decide +kernel⟩

-- BarrierReleases.
theorem witness_barrierReleases_0 :
    ∃ (g : Nat) (s : State),
      let ms := s.barrierMembers g
      (ms = [] ∨ s.hdRuns = false ∨ (∃ m ∈ ms, (g, m.2) ∉ s.gate.arrivals)) := by
  refine ⟨9, ({ State.reset with img := some tBarrier } : State), ?_⟩
  dsimp only
  decide +kernel
theorem witness_barrierReleases_1 :
    ∃ (g : Nat) (s : State),
      let ms := s.barrierMembers g
      ms ≠ [] ∧ s.hdRuns = true ∧ (∀ m ∈ ms, (g, m.2) ∈ s.gate.arrivals) ∧ (∀ m ∈ ms, m.1 < 32) := by
  refine ⟨9, ({ State.reset with img := some tBarrier, gate := { Gate.reset with arrivals := [(9, 0)] } } : State), ?_⟩
  dsimp only
  decide +kernel

-- ChannelSlots.
theorem witness_channelSlots_0 :
    ∃ (c : SiteNo) (s : State),
      (¬ s.clocked c) := by
  refine ⟨0, (State.reset.setD 0 CLK_STATUS_STOPPED 1), ?_⟩
  unfold State.clocked
  decide +kernel
theorem witness_channelSlots_3 :
    ∃ (c : SiteNo) (ch : Fin 6) (s : State) (mb : _) (rest : _),
      let o := s.site c.val
      let x := o.chan ch.val
      s.clocked c ∧ o.chanOn ch.val = true ∧ o.sends ch.val = true ∧ x.posted = mb :: rest ∧ 0 < x.credits := by
  refine ⟨0, 5, tAt ({ tSite tSends with chans := [(5, { Chan.reset with credits := 1, filled := 1, posted := [7] })] } : Site), 7, [], ?_⟩
  dsimp only
  unfold State.clocked
  decide +kernel
theorem witness_channelSlots_4 :
    ∃ (c : SiteNo) (ch : Fin 6) (s : State),
      let o := s.site c.val
      let x := o.chan ch.val
      s.clocked c ∧ o.chanOn ch.val = true ∧ o.sends ch.val = true ∧ (x.posted = [] ∨ x.credits = 0) := by
  refine ⟨0, 5, tAt (tSite tSends), ?_⟩
  dsimp only
  unfold State.clocked
  decide +kernel
theorem witness_channelSlots_5 :
    ∃ (c : SiteNo) (ch : Fin 6) (s : State) (m : SlotMsg),
      let o := s.site c.val
      let x := o.chan ch.val
      s.clocked c ∧ o.chanOn ch.val = true ∧ o.sends ch.val = false ∧ m.words.length * 8 = o.slotBytes ch.val ∧ m.seq.toNat = x.rxSeq ∧
      x.filled < o.nsl ch.val := by
  refine ⟨0, 5, tAt (tSite tTakes), ⟨0, 0, 0, 0, [0, 0]⟩, ?_⟩
  dsimp only
  unfold State.clocked
  decide +kernel
theorem witness_channelSlots_6 :
    ∃ (c : SiteNo) (ch : Fin 6) (s : State) (m : SlotMsg),
      let o := s.site c.val
      let x := o.chan ch.val
      s.clocked c ∧ o.chanOn ch.val = true ∧ o.sends ch.val = false ∧ m.words.length * 8 = o.slotBytes ch.val ∧ m.seq.toNat < x.rxSeq := by
  refine ⟨0, 5, tAt ({ tSite tTakes with chans := [(5, { Chan.reset with rxSeq := 1 })] } : Site), ⟨0, 0, 0, 0, [0, 0]⟩, ?_⟩
  dsimp only
  unfold State.clocked
  decide +kernel
theorem witness_channelSlots_7 :
    ∃ (c : SiteNo) (ch : Fin 6) (s : State) (m : SlotMsg),
      let o := s.site c.val
      let x := o.chan ch.val
      s.clocked c ∧ o.chanOn ch.val = true ∧ o.sends ch.val = false ∧ m.words.length * 8 = o.slotBytes ch.val ∧ x.rxSeq < m.seq.toNat := by
  refine ⟨0, 5, tAt (tSite tTakes), ⟨0, 0, 0, 1, [0, 0]⟩, ?_⟩
  dsimp only
  unfold State.clocked
  decide +kernel

-- WaitLimits.
theorem witness_waitLimits_0 :
    ∃ (c : SiteNo) (s : State),
      let o := s.site c.val
      s.clocked c ∧ o.f CORE_STATE_STATE = 2 ∧ o.f CORE_WAITLIM_LIM ≠ 0 ∧ 1024 * o.f CORE_WAITLIM_LIM < o.stall ∧ o.f CORE_PC_PC < 4096 := by
  refine ⟨0, tAt ({ tSite [(CORE_STATE_STATE, 2), (CORE_WAITLIM_LIM, 1)] with stall := 1025 } : Site), ?_⟩
  dsimp only
  unfold State.clocked
  decide +kernel
theorem witness_waitLimits_1 :
    ∃ (c : SiteNo) (s : State),
      let o := s.site c.val
      (¬ s.clocked c ∨ o.f CORE_STATE_STATE ≠ 2 ∨ o.f CORE_WAITLIM_LIM = 0 ∨ o.stall ≤ 1024 * o.f CORE_WAITLIM_LIM) := by
  refine ⟨0, tAt ({ tSite [(CORE_STATE_STATE, 2), (CORE_WAITLIM_LIM, 1)] with stall := 1024 } : Site), ?_⟩
  dsimp only
  unfold State.clocked
  decide +kernel

-- CoreStartsAndStops.
theorem witness_coreStartsAndStops_0 :
    ∃ (c : SiteNo) (s : State),
      (s.hdRuns = false ∨ ¬ s.clocked c) := by
  refine ⟨0, (State.reset.setHd CLK_STATUS_STOPPED 1), ?_⟩
  unfold State.clocked
  decide +kernel
theorem witness_coreStartsAndStops_3 :
    ∃ (c : SiteNo) (s : State),
      let o := s.site c.val
      s.hdRuns = true ∧ s.clocked c ∧ o.active? = true := by
  refine ⟨0, tRun, ?_⟩
  dsimp only
  unfold State.clocked
  decide +kernel
theorem witness_coreStartsAndStops_6 :
    ∃ (c : SiteNo) (s : State),
      let o := s.site c.val
      s.hdRuns = true ∧ s.clocked c ∧ o.active? = false := by
  refine ⟨0, State.reset, ?_⟩
  dsimp only
  unfold State.clocked
  decide +kernel

-- CountersCount.
theorem witness_countersCount_0 :
    ∃ (c : SiteNo) (i : Fin 64) (s : State),
      let o := s.site c.val
      i.val < 16 ∧ s.clocked c ∧ o.f (PMC_CTR_VALUE i.val) = 2 ^ 48 - 1 ∧ o.f PMC_CTL_FRZ = 0 ∧ (o.f (PMC_SEL_CHAIN (i.val + 1)) ≠ 1 ∨ i.val = 15) := by
  refine ⟨0, 15, tAt (tSite [(PMC_CTR_VALUE 15, 2 ^ 48 - 1)]), ?_⟩
  dsimp only
  unfold State.clocked
  decide +kernel
theorem witness_countersCount_1 :
    ∃ (c : SiteNo) (i : Fin 64) (s : State),
      i.val < 16 ∧ s.hdRuns = true ∧ s.clocked c := by
  refine ⟨0, 15, State.reset, ?_⟩
  unfold State.clocked
  decide +kernel
theorem witness_countersCount_2 :
    ∃ (i : Fin 64) (s : State) (d : Fin 12),
      i.val < 16 ∧ s.hdRuns = true ∧ s.dieRuns d.val = true := by
  refine ⟨15, State.reset, 11, ?_⟩
  decide +kernel
theorem witness_countersCount_3 :
    ∃ (i : Fin 64) (s : State),
      i.val < 16 ∧ s.hdRuns = false := by
  refine ⟨15, State.reset.setHd CLK_STATUS_STOPPED 1, ?_⟩
  decide +kernel
theorem witness_countersCount_4 :
    ∃ (c : SiteNo) (i : Fin 64) (s : State),
      i.val < 16 ∧ (¬ s.clocked c) := by
  refine ⟨0, 15, State.reset.setD 0 CLK_STATUS_STOPPED 1, ?_⟩
  unfold State.clocked
  decide +kernel
theorem witness_countersCount_8 :
    ∃ (c : SiteNo) (i : Fin 64) (s : State),
      let o := s.site c.val
      i.val < 16 ∧ o.f (PMC_SEL_USER i.val) ≠ 1 := by
  refine ⟨0, 15, State.reset, ?_⟩
  dsimp only
  decide +kernel

-- TagRecords.
theorem witness_tagRecords_0 :
    ∃ (c : SiteNo) (j : Fin 16) (s : State) (x : _) (n : _),
      let o := s.site c.val
      s.clocked c ∧ o.tag.opened.find? (fun t => t.1 = j.val) = some (x, n, 0) := by
  refine ⟨0, 15, tAt ({ Site.reset with tag := ⟨1, 0, [(15, 3, 0)]⟩ } : Site), 15, 3, ?_⟩
  dsimp only
  unfold State.clocked
  decide +kernel
theorem witness_tagRecords_1 :
    ∃ (c : SiteNo) (s : State),
      let o := s.site c.val
      s.hdRuns = true ∧ s.clocked c ∧ 0 < o.tagCount ∧ o.tagCount ≤ 16 := by
  refine ⟨0, tAt (tSite [(PMC_TSTAT_FULL, 1)]), ?_⟩
  dsimp only
  unfold State.clocked
  decide +kernel
theorem witness_tagRecords_2 :
    ∃ (c : SiteNo) (s : State),
      let o := s.site c.val
      s.hdRuns = true ∧ s.clocked c ∧ o.tagCount = 0 := by
  refine ⟨0, State.reset, ?_⟩
  dsimp only
  unfold State.clocked
  decide +kernel
theorem witness_tagRecords_3 :
    ∃ (c : SiteNo) (s : State),
      (s.hdRuns = false ∨ ¬ s.clocked c) := by
  refine ⟨0, (State.reset.setHd CLK_STATUS_STOPPED 1), ?_⟩
  unfold State.clocked
  decide +kernel

-- GearPoints.
theorem witness_gearPoints_0 :
    ∃ (c : SiteNo) (s : State) (r : Nat),
      let o := s.site c.val
      s.hdRuns = true ∧ o.role = some r ∧ (s.marks r).commitDone = false ∧ (∀ e ∈ o.chans, e.2.ovr = false) ∧ o.f CORE_STATE_STATE = 5 ∧
      s.gate.replay = false ∧ o.shadow = [] ∧ o.tableShadow = [] ∧ s.mustMove c.val = false := by
  refine ⟨0, tAt ({ tSite [(CORE_STATE_STATE, 5)] with role := some 0 } : Site), 0, ?_⟩
  dsimp only
  decide +kernel

-- StepEntries.
theorem witness_stepEntries_0 :
    ∃ (c : SiteNo) (s : State) (r : Nat),
      let o := s.site c.val
      o.role = some r ∧ s.siteOf r = some c.val ∧ s.entryReady c.val r = false := by
  refine ⟨0, ({ tAt ({ Site.reset with role := some 0 } : Site) with roleSite := [(0, 0)] } : State), 0, ?_⟩
  dsimp only
  decide +kernel
theorem witness_stepEntries_1 :
    ∃ (c : SiteNo) (s : State) (r : Nat),
      let o := s.site c.val
      o.role = some r ∧ s.siteOf r = some c.val ∧ s.entryReady c.val r = true ∧ s.gateState = gRUN ∧ s.gate.resuming = false := by
  refine ⟨0, (({ tAt ({ Site.reset with role := some 0 } : Site) with roleSite := [(0, 0)], gate := { Gate.reset with due := [0] } } : State).setHd PEL_CGSTATE_STATE gRUN).setHd PEL_STATUS_STATE 1, 0, ?_⟩
  dsimp only
  decide +kernel

-- VerdictsThatFail.
theorem witness_verdictsThatFail_0 :
    ∃ (s : State),
      (s.gateState ≠ gWAIT ∨ s.hdRuns = false ∨ s.rep.check.begun = true) := by
  refine ⟨State.reset, ?_⟩
  decide +kernel
theorem witness_verdictsThatFail_1 :
    ∃ (u : SliceTotals) (s : State),
      let v := s.rep.check.total.getD u
      s.hdRuns = true ∧ s.rep.check.begun = false ∧ s.gateState = gWAIT ∧ (v.pcnt ≠ 0 ∨ v.cfgMismatch = true) := by
  refine ⟨{ tTotals with pcnt := 1 }, tGate gWAIT, ?_⟩
  dsimp only
  decide +kernel
theorem witness_verdictsThatFail_2 :
    ∃ (u : SliceTotals) (s : State),
      let v := s.rep.check.total.getD u
      s.hdRuns = true ∧ s.rep.check.begun = false ∧ s.gateState = gWAIT ∧ v.pcnt = 0 ∧ v.cfgMismatch = false ∧ (v.ncnt ≠ 0 ∨ v.icnt ≠ 0) ∧
      s.hd PEL_CGCFG_POL = 0 ∧ int8 (s.hd PEL_CGLS_LSMIN) ≤ s.lsExp - 1 := by
  refine ⟨{ tTotals with ncnt := 1 }, (((tGate gWAIT).setHd PEL_CGLS_LSCALE 0x47000000).setHd PEL_CGLS_LSMIN 14).setHd PEL_CGCFG_POL 0, ?_⟩
  dsimp only
  decide +kernel

-- CheckPasses.
theorem witness_checkPasses_0 :
    ∃ (u : SliceTotals) (s : State),
      let v := s.rep.check.total.getD u
      s.hdRuns = true ∧ s.rep.check.begun = false ∧ s.gateState = gWAIT ∧ v.pcnt = 0 ∧ v.cfgMismatch = false ∧ v.ncnt = 0 ∧ v.icnt = 0 ∧
      (s.gOf v.norm).isFin = true ∧ s.digestStep s.stepNo.toNat = false ∧ (∀ n ∈ s.liveSites, (s.site n).f CORE_STATE_STATE ≠ 2) := by
  refine ⟨{ tTotals with norm := 0x4010000000000000 }, (tGate gWAIT).setHd PEL_CGLS_LSCALE 0x3F800000, ?_⟩
  dsimp only
  decide +kernel

-- CommitPages.
theorem witness_commitPages_0 :
    ∃ (c : SiteNo) (k : Nat) (r : Nat) (d : Dma) (s : State),
      s.clocked c ∧ (s.site c.val).dmas[k]? = some d ∧ (s.site c.val).role = some r ∧ d.bad = false ∧ s.pageRule r d = none ∧
      (s.pageSt r).copying = none := by
  refine ⟨0, 0, 0, tOut 5, ({ (tGate gCOMMIT).setSite 0 { Site.reset with role := some 0, dmas := [tOut 5] } with img := some tCommit } : State), ?_⟩
  unfold State.clocked
  decide +kernel
theorem witness_commitPages_1 :
    ∃ (c : SiteNo) (k : Nat) (r : Nat) (d : Dma) (s : State),
      s.clocked c ∧ (s.site c.val).dmas[k]? = some d ∧ (s.site c.val).role = some r ∧ d.bad = false ∧ s.pageRule r d ≠ none := by
  refine ⟨0, 0, 0, tOut 6, ({ (tGate gCOMMIT).setSite 0 { Site.reset with role := some 0, dmas := [tOut 6] } with img := some tCommit } : State), ?_⟩
  unfold State.clocked
  decide +kernel
theorem witness_commitPages_2 :
    ∃ (r : Fin 800) (i : Nat) (s : State),
      (s.pageSt r.val).copying = some i ∧ s.gateState = gCOMMIT ∧ s.gate.stopped = false ∧
      (s.retiring ((s.pagesOf r.val).getD i 0 * 65536) 65536 = true ∨ s.snapHeld ((s.pagesOf r.val).getD i 0) = true) := by
  refine ⟨799, 1, ({ tGate gCOMMIT with gate := { Gate.reset with pages := [(799, ⟨[], 1, some 1⟩)] }, img := some { tImg with commit := [(799, [5, 6])] }, fab := { State.reset.fab with copying := [(hbmStack (6 * 65536), hbmAddr (6 * 65536) / 65536)] } } : State), ?_⟩
  decide +kernel
theorem witness_commitPages_3 :
    ∃ (r : Fin 800) (i : Nat) (s : State),
      (s.pageSt r.val).copying = some i ∧ s.gateState = gCOMMIT ∧ s.gate.stopped = false ∧
      s.retiring ((s.pagesOf r.val).getD i 0 * 65536) 65536 = false ∧ s.snapHeld ((s.pagesOf r.val).getD i 0) = false := by
  refine ⟨799, 1, ({ tGate gCOMMIT with gate := { Gate.reset with pages := [(799, ⟨[], 1, some 1⟩)] } } : State), ?_⟩
  decide +kernel
theorem witness_commitPages_4 :
    ∃ (r : Fin 800) (s : State),
      (s.pageSt r.val).copying = none := by
  refine ⟨799, State.reset, ?_⟩
  decide +kernel

-- GateMoves.
theorem witness_gateMoves_0 :
    ∃ (s : State),
      s.hdRuns = true ∧ s.gateState = gCOMMIT ∧ s.gate.resuming = false ∧ s.gate.stopped = false ∧ s.commitComplete = true ∧ s.rep.referee = false := by
  refine ⟨tGate gCOMMIT, ?_⟩
  decide +kernel
theorem witness_gateMoves_1 :
    ∃ (s : State),
      s.hdRuns = true ∧ s.gateState = gCOMMIT ∧ s.gate.resuming = false ∧ s.gate.stopped = false ∧ s.commitComplete = true ∧ s.rep.referee = true := by
  refine ⟨({ tGate gCOMMIT with rep := { Rep.reset with referee := true } } : State), ?_⟩
  decide +kernel
theorem witness_gateMoves_2 :
    ∃ (s : State),
      (s.gateState ≠ gCOMMIT ∨ s.commitComplete = false ∨ s.hdRuns = false) := by
  refine ⟨tGate gDONE, ?_⟩
  decide +kernel
theorem witness_gateMoves_3 :
    ∃ (s : State),
      s.hdRuns = true ∧ s.gateState = gDONE ∧ s.gearMayBegin = true ∧ s.overrunSite = none ∧ s.pel.selfReports = 0 ∧ s.pel.dueProps = [] := by
  refine ⟨tGate gDONE, ?_⟩
  decide +kernel
theorem witness_gateMoves_4 :
    ∃ (s : State) (n : _),
      s.hdRuns = true ∧ s.gateState = gDONE ∧ s.gearMayBegin = true ∧ s.overrunSite = some n ∧ s.host.halted = false ∧ s.pel.selfReports = 0 ∧
      s.pel.dueProps = [] := by
  refine ⟨({ (tGate gDONE).setSite 0 { Site.reset with role := some 0, chans := [(5, { Chan.reset with ovr := true })] } with roleSite := [(0, 0)] } : State), 0, ?_⟩
  decide +kernel
theorem witness_gateMoves_5 :
    ∃ (s : State),
      (s.gateState ≠ gDONE ∨ s.gearMayBegin = false ∨ s.hdRuns = false) := by
  refine ⟨tGate gCOMMIT, ?_⟩
  decide +kernel
theorem witness_gateMoves_6 :
    ∃ (s : State),
      s.hdRuns = true ∧ s.gateState = gCOMMIT ∧ s.gate.stopped = true ∧ s.gate.resuming = false ∧ s.restored = true ∧ s.fenced = false ∧
      s.host.halted = false ∧ (∀ n ∈ s.liveSites, (s.site n).dmas = [] ∧ (s.site n).active? = false) := by
  refine ⟨({ tGate gCOMMIT with gate := { Gate.reset with stopped := true } } : State), ?_⟩
  decide +kernel
theorem witness_gateMoves_7 :
    ∃ (s : State),
      (s.gateState ≠ gCOMMIT ∨ s.hdRuns = false) := by
  refine ⟨tGate gRUN, ?_⟩
  decide +kernel

-- StepRecords.
theorem witness_stepRecords_1 :
    ∃ (s : State) (q : Fin 2),
      s.hdRuns = true ∧ s.gateState ≠ gIDLE ∧ s.fenced = false ∧ (∃ l ∈ s.livePartners, l.1 = q.val) := by
  refine ⟨(({ tWith { tImg with resil := { tImg.resil with partners := [(0, 1, 0)] } } with gate := Gate.reset } : State).setHd PEL_CGSTATE_STATE gRUN), 0, ?_⟩
  decide +kernel
theorem witness_stepRecords_2 :
    ∃ (s : State),
      (s.gateState = gIDLE ∨ s.hdRuns = false) := by
  refine ⟨State.reset, ?_⟩
  decide +kernel
theorem witness_stepRecords_4 :
    ∃ (s : State),
      (s.hdRuns = false ∨ s.fenced = true) := by
  refine ⟨tPel { Pel.reset with fencedWhy := some 1 }, ?_⟩
  decide +kernel

-- Digests.
theorem witness_digests_0 :
    ∃ (s : State),
      let due := s.hdRuns = true ∧ ((s.gateState = gRUN ∧ s.gate.phase < 4) ∨ s.rep.check.begun = true) ∧ s.digestStep s.stepNo.toNat = true ∧ s.rep.digestReady = false
      due := by
  refine ⟨({ tGate gRUN with img := some tImg } : State), ?_⟩
  dsimp only
  decide +kernel
theorem witness_digests_1 :
    ∃ (s : State),
      let due := s.hdRuns = true ∧ ((s.gateState = gRUN ∧ s.gate.phase < 4) ∨ s.rep.check.begun = true) ∧ s.digestStep s.stepNo.toNat = true ∧ s.rep.digestReady = false
      (¬ due) := by
  refine ⟨State.reset, ?_⟩
  dsimp only
  decide +kernel

-- Repairs.
theorem witness_repairs_0 :
    ∃ (s : State),
      s.hdRuns = false := by
  refine ⟨(State.reset.setHd CLK_STATUS_STOPPED 1), ?_⟩
  decide +kernel
theorem witness_repairs_1 :
    ∃ (own : Bool) (pages : List PageData) (s : State) (c : _),
      let waits := pages.any (fun p => s.writeWaits (p.page * 65536) 65536)
      s.hdRuns = true ∧ s.repairTarget own pages = some c ∧ waits = true := by
  refine ⟨true, [⟨5, []⟩], ({ tWith tCommit with roleSite := [(0, 0)], rep := { Rep.reset with losing := [(0, none)] }, fab := { State.reset.fab with copying := [(hbmStack (5 * 65536), hbmAddr (5 * 65536) / 65536)] } } : State), (0, none), ?_⟩
  dsimp only
  decide +kernel
theorem witness_repairs_2 :
    ∃ (own : Bool) (pages : List PageData) (s : State) (c : _),
      let waits := pages.any (fun p => s.writeWaits (p.page * 65536) 65536)
      s.hdRuns = true ∧ s.repairTarget own pages = some c ∧ waits = false := by
  refine ⟨true, [], ({ State.reset with rep := { Rep.reset with losing := [(0, none)] } } : State), (0, none), ?_⟩
  dsimp only
  decide +kernel
theorem witness_repairs_3 :
    ∃ (own : Bool) (pages : List PageData) (s : State) (w : _),
      let ours : List Nat → Bool := fun l => pages.all (fun p => p.page ∈ l)
      s.hdRuns = true ∧ s.repairTarget own pages = none ∧ s.fenced = false ∧
      s.rep.winning.find? (fun w => (w.1 = 0) = own && ours (s.copyPages w.1)) = some w := by
  refine ⟨true, [], ({ State.reset with rep := { Rep.reset with winning := [(0, [1])] } } : State), (0, [1]), ?_⟩
  dsimp only
  decide +kernel
theorem witness_repairs_4 :
    ∃ (own : Bool) (pages : List PageData) (s : State),
      let ours : List Nat → Bool := fun l => pages.all (fun p => p.page ∈ l)
      s.hdRuns = true ∧ s.repairTarget own pages = none ∧ (s.fenced = true ∨ ∀ w ∈ s.rep.winning, ((w.1 = 0) = own && ours (s.copyPages w.1)) = false) := by
  refine ⟨true, [], ({ State.reset with rep := { Rep.reset with winning := [] } } : State), ?_⟩
  dsimp only
  decide +kernel

-- Referee.
-- Under a premise on what the model leaves free or what no kernel evaluates: an opaque value of Config, or a signature on P-521 that holds.
theorem witness_referee_0 (e : ecdsaOk p521gx p521gy tPassMsg tSigR tSigPass = true) :
    ∃ (s : State),
      s.hdRuns = true ∧ s.loaded = true ∧ s.fenced = false ∧ s.host.admitted = false ∧ s.rep.tier2 = [] ∧ s.gateState = gIDLE ∧ s.holdsPass = true := by
  exact ⟨tPassed (tWith tImg), by decide +kernel, rfl, rfl, rfl, rfl, by decide +kernel, tHolds _ rfl e⟩
theorem witness_referee_1 :
    ∃ (s : State),
      (s.hdRuns = false ∨ s.loaded = false ∨ s.fenced = true ∨ s.host.admitted = true ∨ s.rep.tier2 ≠ [] ∨ s.gateState ≠ gIDLE ∨ s.holdsPass = false) := by
  refine ⟨State.reset, ?_⟩
  decide +kernel
theorem witness_referee_2 :
    ∃ (s : State) (shard : BitVec 32),
      (s.hdRuns = false ∨ s.fenced = true ∨ shard.toNat ∉ s.rep.verdictWait) := by
  refine ⟨State.reset.setHd CLK_STATUS_STOPPED 1, 0, ?_⟩
  decide +kernel
theorem witness_referee_3 :
    ∃ (s : State) (shard : BitVec 32) (c : _),
      s.hdRuns = true ∧ s.fenced = false ∧ shard.toNat ∈ s.rep.verdictWait ∧ s.copies.find? (fun c => s.copyShard c = shard.toNat) = some c := by
  refine ⟨({ tWith tImg with rep := { Rep.reset with verdictWait := [0] } } : State), 0, 0, ?_⟩
  decide +kernel
theorem witness_referee_4 :
    ∃ (s : State) (logs : List (BitVec 256)) (result : BitVec 256) (copies : List DigestRec) (c : DigestRec) (rest : List DigestRec),
      let h := c.shard.toNat
      let agree := logs.all (fun d => d = logs.headD 0) && copies.any (fun c => c.shard.toNat = h && !c.poi && c.dig = result)
      s.hdRuns = true ∧ copies = c :: rest ∧ h ∈ s.rep.verdictWait ∧ agree = true := by
  refine ⟨({ State.reset with rep := { Rep.reset with verdictWait := [0] } } : State), [7, 7], 9, [⟨0, 0, false, false, 9⟩], ⟨0, 0, false, false, 9⟩, [], ?_⟩
  dsimp only
  decide +kernel
theorem witness_referee_5 :
    ∃ (s : State) (logs : List (BitVec 256)) (result : BitVec 256) (copies : List DigestRec) (c : DigestRec) (rest : List DigestRec),
      let h := c.shard.toNat
      let agree := logs.all (fun d => d = logs.headD 0) && copies.any (fun c => c.shard.toNat = h && !c.poi && c.dig = result)
      s.hdRuns = true ∧ copies = c :: rest ∧ h ∈ s.rep.verdictWait ∧ agree = false := by
  refine ⟨({ State.reset with rep := { Rep.reset with verdictWait := [0] } } : State), [7, 8], 9, [⟨0, 0, false, false, 9⟩], ⟨0, 0, false, false, 9⟩, [], ?_⟩
  dsimp only
  decide +kernel
theorem witness_referee_6 :
    ∃ (s : State) (copies : _) (c : DigestRec) (rest : _),
      let h := c.shard.toNat
      s.hdRuns = true ∧ copies = c :: rest ∧ h ∉ s.rep.verdictWait := by
  refine ⟨({ State.reset with rep := { Rep.reset with verdictWait := [] } } : State), [⟨0, 0, false, false, 9⟩], ⟨0, 0, false, false, 9⟩, [], ?_⟩
  dsimp only
  decide +kernel

-- PoisonPages.
theorem witness_poisonPages_0 :
    ∃ (holder : BitVec 16) (pg : PageData) (s : State),
      let dirty := (pageMarks pg).any (·.2) = true ∨ pg.words.length ≠ 8192
      let open_ := s.hdRuns = true ∧ holder.toNat ≠ s.devidx ∧ s.restoring = true ∧ pg.page ∈ s.rep.poison ∧ s.writeWaits (pg.page * 65536) 65536 = false ∧ s.sourceCurrent pg.page holder.toNat = true
      open_ ∧ (¬ dirty) := by
  refine ⟨0, ⟨3, List.replicate 8192 0⟩, ({ (tGate gREWIND) with rep := { Rep.reset with poison := [3] } } : State), ?_⟩
  dsimp only
  refine ⟨by decide +kernel, ?_⟩
  rintro (h | h)
  · obtain ⟨x, hx, hp⟩ := List.any_eq_true.mp h
    obtain ⟨y, hy, hz⟩ := List.mem_flatMap.mp (List.mem_of_mem_take hx)
    rw [List.eq_of_mem_replicate hy] at hz
    obtain ⟨b, _, rfl⟩ := List.mem_map.mp hz
    exact absurd hp (show (cwDecode (0 : CodeWord)).2.bad ≠ true by decide +kernel)
  · exact h List.length_replicate
theorem witness_poisonPages_1 :
    ∃ (holder : BitVec 16) (pg : PageData) (s : State),
      let dirty := (pageMarks pg).any (·.2) = true ∨ pg.words.length ≠ 8192
      let open_ := s.hdRuns = true ∧ holder.toNat ≠ s.devidx ∧ s.restoring = true ∧ pg.page ∈ s.rep.poison ∧ s.writeWaits (pg.page * 65536) 65536 = false ∧ s.sourceCurrent pg.page holder.toNat = true
      open_ ∧ dirty := by
  refine ⟨0, ⟨3, [0]⟩, ({ (tGate gREWIND) with rep := { Rep.reset with poison := [3] } } : State), ?_⟩
  dsimp only
  decide +kernel
theorem witness_poisonPages_2 :
    ∃ (holder : BitVec 16) (pg : PageData) (s : State),
      holder.toNat ≠ s.devidx ∧
      (s.restoring = false ∨ pg.page ∉ s.rep.poison ∨ s.writeWaits (pg.page * 65536) 65536 = true ∨ s.sourceCurrent pg.page holder.toNat = false) := by
  refine ⟨0, ⟨3, [0]⟩, State.reset, ?_⟩
  decide +kernel
theorem witness_poisonPages_3 :
    ∃ (holder : BitVec 16) (s : State),
      s.hdRuns = true ∧ holder.toNat = s.devidx ∧ s.loaded = true ∧ s.fenced = false := by
  refine ⟨0, tWith tImg, ?_⟩
  decide +kernel
theorem witness_poisonPages_4 :
    ∃ (holder : BitVec 16) (s : State),
      (s.hdRuns = false ∨ (holder.toNat = s.devidx ∧ (s.loaded = false ∨ s.fenced = true))) := by
  refine ⟨0, State.reset.setHd CLK_STATUS_STOPPED 1, ?_⟩
  decide +kernel

-- TierOne.
theorem witness_tierOne_0 :
    ∃ (cause : BitVec 8) (s : State),
      let takes := s.hdRuns = true ∧ s.fenced = false ∧ s.host.halted = false ∧ s.host.admitted = true ∧ cause.toNat ≤ 0x0E
      (¬ takes) := by
  refine ⟨0x0F, ({ (tGate gRUN) with host := { HostSt.reset with admitted := true } } : State), ?_⟩
  dsimp only
  decide +kernel
theorem witness_tierOne_1 :
    ∃ (cause : BitVec 8) (s : State),
      let takes := s.hdRuns = true ∧ s.fenced = false ∧ s.host.halted = false ∧ s.host.admitted = true ∧ cause.toNat ≤ 0x0E
      takes ∧ s.held = false ∧ (s.gateState = gRUN ∨ s.gateState = gWAIT ∨ s.gateState = gREWIND) := by
  refine ⟨0x0E, ({ (tGate gWAIT) with host := { HostSt.reset with admitted := true } } : State), ?_⟩
  dsimp only
  decide +kernel
theorem witness_tierOne_2 :
    ∃ (cause : BitVec 8) (s : State),
      let takes := s.hdRuns = true ∧ s.fenced = false ∧ s.host.halted = false ∧ s.host.admitted = true ∧ cause.toNat ≤ 0x0E
      takes ∧ s.held = false ∧ s.gateState = gCOMMIT := by
  refine ⟨0x0E, ({ (tGate gCOMMIT) with host := { HostSt.reset with admitted := true } } : State), ?_⟩
  dsimp only
  decide +kernel
theorem witness_tierOne_3 :
    ∃ (cause : BitVec 8) (s : State),
      let takes := s.hdRuns = true ∧ s.fenced = false ∧ s.host.halted = false ∧ s.host.admitted = true ∧ cause.toNat ≤ 0x0E
      takes ∧ s.held = false ∧ (s.gateState = gIDLE ∨ s.gateState = gDONE ∨ s.gateState = gSKIP) := by
  refine ⟨0x0E, ({ (tGate gSKIP) with host := { HostSt.reset with admitted := true } } : State), ?_⟩
  dsimp only
  decide +kernel
theorem witness_tierOne_4 :
    ∃ (cause : BitVec 8) (s : State),
      let takes := s.hdRuns = true ∧ s.fenced = false ∧ s.host.halted = false ∧ s.host.admitted = true ∧ cause.toNat ≤ 0x0E
      takes ∧ s.held = true := by
  refine ⟨0x0E, ({ ((tGate gRUN).setHd PEL_STATUS_STATE 2) with host := { HostSt.reset with admitted := true } } : State), ?_⟩
  dsimp only
  decide +kernel

-- TierTwo.
-- Under a premise on what the model leaves free or what no kernel evaluates: an opaque value of Config, or a signature on P-521 that holds.
theorem witness_tierTwo_0 (e : ecdsaOk p521gx p521gy tPassMsg tSigR tSigPass = true) :
    ∃ (ser : BitVec 64) (s : State),
      s.hdRuns = true ∧ s.fenced = false ∧ ser = s.serial ∧ s.host.admitted = false ∧ s.loaded = false ∧ s.holdsPass = true ∧ s.test.mustTest = false := by
  exact ⟨State.reset.serial, tPassed State.reset, by decide +kernel, rfl, rfl, rfl, rfl, tHolds _ rfl e, rfl⟩
theorem witness_tierTwo_1 :
    ∃ (ser : BitVec 64) (s : State),
      s.hdRuns = true ∧ s.fenced = false ∧ ser = s.serial ∧ s.host.admitted = false ∧ (s.loaded = true ∨ s.holdsPass = false ∨ s.test.mustTest = true) := by
  refine ⟨State.reset.serial, State.reset, ?_⟩
  decide +kernel
theorem witness_tierTwo_2 :
    ∃ (subj : BitVec 16) (ser : BitVec 64) (s : State),
      s.hdRuns = true ∧ s.fenced = false ∧ (ser ≠ s.serial ∨ s.host.admitted = true) ∧ s.loaded = true ∧ s.declared subj.toNat = true ∧
      s.captainFor subj.toNat = true := by
  refine ⟨2, 1, ({ tPel { Pel.reset with gone := [2] } with host := { HostSt.reset with admitted := true } } : State), ?_⟩
  decide +kernel
theorem witness_tierTwo_3 :
    ∃ (subj : BitVec 16) (ser : BitVec 64) (s : State),
      s.hdRuns = true ∧ s.fenced = false ∧ (ser ≠ s.serial ∨ s.host.admitted = true) ∧ s.loaded = true ∧ s.declared subj.toNat = true ∧
      s.captainFor subj.toNat = false := by
  refine ⟨2, 1, ({ tWith { tCaps with devidx := 9 } with pel := { Pel.reset with gone := [2] }, host := { HostSt.reset with admitted := true } } : State), ?_⟩
  decide +kernel
theorem witness_tierTwo_4 :
    ∃ (subj : BitVec 16) (ser : BitVec 64) (s : State),
      s.hdRuns = true ∧ s.fenced = false ∧ (ser ≠ s.serial ∨ s.host.admitted = true) ∧ (s.loaded = false ∨ s.declared subj.toNat = false) := by
  refine ⟨2, 1, ({ tWith tCaps with host := { HostSt.reset with admitted := true } } : State), ?_⟩
  decide +kernel

-- CatchUps.
theorem witness_catchUps_0 :
    ∃ (s : State),
      (s.hdRuns = false ∨ s.fenced = true ∨ s.loaded = false) := by
  refine ⟨State.reset, ?_⟩
  decide +kernel
theorem witness_catchUps_1 :
    ∃ (s : State) (y : _) (l : _),
      s.hdRuns = true ∧ s.fenced = false ∧ s.loaded = true ∧ s.host.admitted = false ∧ s.rep.tier2 = y :: l ∧ 4 ≤ y.stage ∧ 0 ∈ y.got := by
  refine ⟨tSpareOf ⟨0, 4, 0, 1, [], [], [], [0], []⟩ false, ⟨0, 4, 0, 1, [], [], [], [0], []⟩, [], ?_⟩
  decide +kernel
theorem witness_catchUps_2 :
    ∃ (s : State) (y : _) (l : _),
      s.hdRuns = true ∧ s.fenced = false ∧ s.loaded = true ∧ s.host.admitted = false ∧ s.rep.tier2 = y :: l ∧ (y.stage < 4 ∨ 0 ∉ y.got) := by
  refine ⟨tSpareOf ⟨0, 3, 0, 1, [], [], [], [0], []⟩ false, ⟨0, 3, 0, 1, [], [], [], [0], []⟩, [], ?_⟩
  decide +kernel
theorem witness_catchUps_3 :
    ∃ (s : State),
      s.hdRuns = true ∧ s.fenced = false ∧ s.loaded = true ∧ s.host.admitted = false ∧ s.rep.tier2 = [] := by
  refine ⟨tWith tImg, ?_⟩
  decide +kernel
theorem witness_catchUps_4 :
    ∃ (x : CatchUp) (s : State) (m : _),
      s.hdRuns = true ∧ s.fenced = false ∧ s.loaded = true ∧ s.host.admitted = true ∧ s.rep.mirrors.find? (fun m => m.2 = 1) = some m ∧
      s.gateState = gCOMMIT ∧ s.stepNo = x.step := by
  refine ⟨⟨0, []⟩, ({ tWith tImg with rep := { Rep.reset with mirrors := [(0, 1)] }, host := { HostSt.reset with admitted := true } } : State).setHd PEL_CGSTATE_STATE gCOMMIT, (0, 1), ?_⟩
  decide +kernel
theorem witness_catchUps_5 :
    ∃ (x : CatchUp) (s : State),
      s.hdRuns = true ∧ s.fenced = false ∧ s.loaded = true ∧ s.host.admitted = true ∧
      (s.rep.mirrors.find? (fun m => m.2 = 1) = none ∨ s.gateState ≠ gCOMMIT ∨ s.stepNo ≠ x.step) := by
  refine ⟨⟨0, []⟩, ({ tWith tImg with rep := { Rep.reset with mirrors := [(0, 1)] }, host := { HostSt.reset with admitted := true } } : State).setHd PEL_CGSTATE_STATE gRUN, ?_⟩
  decide +kernel

-- TierThree.
theorem witness_tierThree_0 :
    ∃ (s : State),
      s.hdRuns = true ∧ s.fenced = false ∧ s.loaded = true ∧ s.host.admitted = true := by
  refine ⟨({ tWith tImg with host := { HostSt.reset with admitted := true } } : State), ?_⟩
  decide +kernel
theorem witness_tierThree_1 :
    ∃ (s : State),
      (s.hdRuns = false ∨ s.fenced = true ∨ s.loaded = false ∨ s.host.admitted = false) := by
  refine ⟨State.reset, ?_⟩
  decide +kernel

-- Transfers.
theorem witness_transfers_0 :
    ∃ (x : Transfer) (y : Tier2) (l : List Tier2) (s : State),
      let c := x.copy.val
      let h := x.holder.toNat
      let takes := s.hdRuns = true ∧ s.barredHere = false ∧ s.loaded = true ∧ s.host.admitted = false ∧ s.fenced = false ∧ 4 ≤ y.stage ∧ s.portsReady = true ∧ c ∉ y.got ∧ c ∈ s.copies ∧ (c, h) ∉ y.failed ∧ s.declared h = false
      s.rep.tier2 = y :: l ∧ (¬ takes) := by
  refine ⟨tTransfer, ⟨0, 3, 0, 1, [], [], [], [], []⟩, [], tSpareOf ⟨0, 3, 0, 1, [], [], [], [], []⟩ false, ?_⟩
  dsimp only
  decide +kernel
theorem witness_transfers_1 :
    ∃ (x : Transfer) (y : Tier2) (l : List Tier2) (s : State),
      let c := x.copy.val
      let h := x.holder.toNat
      let takes := s.hdRuns = true ∧ s.barredHere = false ∧ s.loaded = true ∧ s.host.admitted = false ∧ s.fenced = false ∧ 4 ≤ y.stage ∧ s.portsReady = true ∧ c ∉ y.got ∧ c ∈ s.copies ∧ (c, h) ∉ y.failed ∧ s.declared h = false
      let good := arrivedDigest x.pages = some x.sentDigest ∧ x.pages.map (·.page) = s.copyPages c
      s.rep.tier2 = y :: l ∧ takes ∧ good := by
  refine ⟨{ tTransfer with copy := 0 }, ⟨0, 4, 0, 1, [], [], [], [], []⟩, [], tSpareOf ⟨0, 4, 0, 1, [], [], [], [], []⟩ false, ?_⟩
  dsimp only
  decide +kernel
theorem witness_transfers_2 :
    ∃ (x : Transfer) (y : Tier2) (l : List Tier2) (s : State),
      let c := x.copy.val
      let h := x.holder.toNat
      let takes := s.hdRuns = true ∧ s.barredHere = false ∧ s.loaded = true ∧ s.host.admitted = false ∧ s.fenced = false ∧ 4 ≤ y.stage ∧ s.portsReady = true ∧ c ∉ y.got ∧ c ∈ s.copies ∧ (c, h) ∉ y.failed ∧ s.declared h = false
      let good := arrivedDigest x.pages = some x.sentDigest ∧ x.pages.map (·.page) = s.copyPages c
      s.rep.tier2 = y :: l ∧ takes ∧ (¬ good) ∧ (c, h) ∉ y.retried := by
  refine ⟨{ tTransfer with copy := 0, sentDigest := 1 }, ⟨0, 4, 0, 1, [], [], [], [], []⟩, [], tSpareOf ⟨0, 4, 0, 1, [], [], [], [], []⟩ false, ?_⟩
  dsimp only
  decide +kernel
theorem witness_transfers_3 :
    ∃ (x : Transfer) (y : Tier2) (l : List Tier2) (s : State),
      let c := x.copy.val
      let h := x.holder.toNat
      let takes := s.hdRuns = true ∧ s.barredHere = false ∧ s.loaded = true ∧ s.host.admitted = false ∧ s.fenced = false ∧ 4 ≤ y.stage ∧ s.portsReady = true ∧ c ∉ y.got ∧ c ∈ s.copies ∧ (c, h) ∉ y.failed ∧ s.declared h = false
      let good := arrivedDigest x.pages = some x.sentDigest ∧ x.pages.map (·.page) = s.copyPages c
      s.rep.tier2 = y :: l ∧ takes ∧ (¬ good) ∧ (c, h) ∈ y.retried := by
  refine ⟨{ tTransfer with copy := 0, sentDigest := 1 }, ⟨0, 4, 0, 1, [], [(0, 1)], [], [], []⟩, [], tSpareOf ⟨0, 4, 0, 1, [], [(0, 1)], [], [], []⟩ false, ?_⟩
  dsimp only
  decide +kernel

-- NoDomestique.
theorem witness_noDomestique_0 :
    ∃ (s : State),
      s.hdRuns = true ∧ s.rep.verdictWait ≠ [] := by
  refine ⟨({ State.reset with rep := { Rep.reset with verdictWait := [0] } } : State), ?_⟩
  decide +kernel
theorem witness_noDomestique_1 :
    ∃ (s : State),
      (s.hdRuns = false ∨ s.rep.verdictWait = []) := by
  refine ⟨State.reset, ?_⟩
  decide +kernel
theorem witness_noDomestique_2 :
    ∃ (s : State),
      s.hdRuns = true ∧ s.isLead = true ∧ s.pel.gone ≠ [] ∧ s.fenced = false ∧ s.slice ≠ [] := by
  refine ⟨tPel { Pel.reset with gone := [2] }, ?_⟩
  decide +kernel
theorem witness_noDomestique_3 :
    ∃ (s : State),
      (s.hdRuns = false ∨ s.isLead = false ∨ s.pel.gone = []) := by
  refine ⟨State.reset, ?_⟩
  decide +kernel

-- HbmScrubbing.
theorem witness_hbmScrubbing_0 :
    ∃ (s : State) (k : Fin 24) (b : Nat),
      s.dieRuns (k.val / 3) = true ∧ b < 0x1200000000 / 64 := by
  refine ⟨State.reset, 0, 0x1200000000 / 64 - 1, ?_⟩
  decide +kernel
theorem witness_hbmScrubbing_1 :
    ∃ (s : State) (k : Fin 24) (b : Nat),
      (0x1200000000 / 64 ≤ b ∨ s.dieRuns (k.val / 3) = false) := by
  refine ⟨State.reset, 0, 0x1200000000 / 64, ?_⟩
  decide +kernel
theorem witness_hbmScrubbing_2 :
    ∃ (s : State) (w : _),
      s.dieRuns (hbmDie (w / 8 * 8)) = true ∧ w / 8 * 8 ∈ s.fab.rewrites := by
  refine ⟨({ State.reset with fab := { State.reset.fab with rewrites := [8] } } : State), 15, ?_⟩
  decide +kernel
theorem witness_hbmScrubbing_3 :
    ∃ (s : State) (w : _),
      (w / 8 * 8 ∉ s.fab.rewrites ∨ s.dieRuns (hbmDie (w / 8 * 8)) = false) := by
  refine ⟨({ State.reset with fab := { State.reset.fab with rewrites := [8] } } : State), 16, ?_⟩
  decide +kernel
theorem witness_hbmScrubbing_4 :
    ∃ (s : State) (w : _) (ev : _),
      s.hdRuns = true ∧ s.dieRuns (hbmDie (w / 8 * 8)) = true ∧ s.fab.rechecks.find? (fun e => e.1 = w / 8 * 8) = some ev := by
  refine ⟨({ (State.reset.setD 0 (HBM_STATUS_RSVFREE 0) 1) with hbm := ⟨[], [(8, 0x3)]⟩, fab := { State.reset.fab with rechecks := [(8, 2, 0)] } } : State), 8, (8, 2, 0), ?_⟩
  decide +kernel
theorem witness_hbmScrubbing_5 :
    ∃ (s : State) (w : _),
      (s.fab.rechecks.find? (fun e => e.1 = w / 8 * 8) = none ∨ s.hdRuns = false ∨ s.dieRuns (hbmDie (w / 8 * 8)) = false) := by
  refine ⟨({ State.reset with fab := { State.reset.fab with rewrites := [8] } } : State), 15, ?_⟩
  decide +kernel

-- PageRetirement.
theorem witness_pageRetirement_0 :
    ∃ (k : Fin 24) (p : Nat) (s : State),
      let free := s.d (k.val / 3) (HBM_STATUS_RSVFREE (k.val % 3))
      let lasts := ∃ e ∈ s.test.table, e.kind = ukHBMROW ∧ e.state = seLASTING ∧ e.unit % 32 = k.val ∧ e.unit / 2 ^ 11 % 64 = p % 64 ∧ e.unit / 2 ^ 17 = p / 64
      s.hdRuns = true ∧ s.dieRuns (k.val / 3) = true ∧ lasts ∧ mfind s.fab.retired (k.val * 2 ^ 21 + p) = none ∧ mfind s.fab.copying k.val = none ∧
      free ≠ 0 := by
  refine ⟨23, 65, ({ State.reset.setD 7 (HBM_STATUS_RSVFREE 2) 1 with test := { TestSt.reset with table := [⟨ukHBMROW, seLASTING, 23 + 2 ^ 11 + 2 ^ 17, 0, 0⟩] } } : State), ?_⟩
  dsimp only
  decide +kernel
theorem witness_pageRetirement_1 :
    ∃ (k : Fin 24) (p : Nat) (s : State),
      let free := s.d (k.val / 3) (HBM_STATUS_RSVFREE (k.val % 3))
      let lasts := ∃ e ∈ s.test.table, e.kind = ukHBMROW ∧ e.state = seLASTING ∧ e.unit % 32 = k.val ∧ e.unit / 2 ^ 11 % 64 = p % 64 ∧ e.unit / 2 ^ 17 = p / 64
      (s.hdRuns = false ∨ s.dieRuns (k.val / 3) = false ∨ ¬ lasts ∨ free = 0 ∨ mfind s.fab.retired (k.val * 2 ^ 21 + p) ≠ none ∨ mfind s.fab.copying k.val ≠ none) := by
  refine ⟨23, 65, State.reset, ?_⟩
  dsimp only
  decide +kernel
theorem witness_pageRetirement_2 :
    ∃ (k : Fin 24) (s : State),
      s.dieRuns (k.val / 3) = false := by
  refine ⟨23, State.reset.setD 7 CLK_STATUS_STOPPED 1, ?_⟩
  decide +kernel
theorem witness_pageRetirement_3 :
    ∃ (k : Fin 24) (p : Nat) (s : State),
      s.dieRuns (k.val / 3) = true ∧ mfind s.fab.copying k.val = some p ∧ s.fab.held = [] := by
  refine ⟨23, 65, ({ State.reset with fab := { State.reset.fab with copying := [(23, 65)] } } : State), ?_⟩
  decide +kernel

-- PacketsAtADie.
theorem witness_packetsAtADie_0 :
    ∃ (d : Fin 12) (s : State),
      s.dieRuns d.val = false := by
  refine ⟨8, (State.reset.setHd CLK_STATUS_STOPPED 1), ?_⟩
  decide +kernel
theorem witness_packetsAtADie_1 :
    ∃ (d : Fin 12) (p : NocPkt) (s : State),
      s.dieRuns d.val = true ∧ (∃ w ∈ p.hdr, (cwDecode w).2 = .uncorrectable) := by
  refine ⟨0, ⟨[tBadWord], []⟩, State.reset, ?_⟩
  dsimp only
  exact ⟨by decide +kernel, ⟨tBadWord, List.mem_singleton.mpr rfl, by decide +kernel⟩⟩
theorem witness_packetsAtADie_2 :
    ∃ (d : Fin 12) (p : NocPkt) (s : State),
      let h := hdrNat p.hdr
      s.dieRuns d.val = true ∧ (∀ w ∈ p.hdr, (cwDecode w).2 ≠ .uncorrectable) ∧ nocBad h p.data.length = true := by
  refine ⟨0, tPacket (tHead 9 (0) 0 0 (0)) [], State.reset, ?_⟩
  dsimp only
  exact ⟨by decide +kernel, tClean _ (by decide +kernel), by decide +kernel⟩
theorem witness_packetsAtADie_3 :
    ∃ (d : Fin 12) (p : NocPkt) (s : State),
      let h := hdrNat p.hdr
      let ok := s.dieRuns d.val = true ∧ (∀ w ∈ p.hdr, (cwDecode w).2 ≠ .uncorrectable) ∧ nocBad h p.data.length = false
      let here := hDst h / 256 = d.val
      ok ∧ (¬ here) := by
  refine ⟨0, tPacket (tHead 0 (0) 1 0 (0)) [], State.reset, ?_⟩
  dsimp only
  exact ⟨⟨by decide +kernel, tClean _ (by decide +kernel), by decide +kernel⟩, by decide +kernel⟩
theorem witness_packetsAtADie_4 :
    ∃ (d : Fin 12) (p : NocPkt) (s : State),
      let h := hdrNat p.hdr
      let a := hAddr h
      let ok := s.dieRuns d.val = true ∧ (∀ w ∈ p.hdr, (cwDecode w).2 ≠ .uncorrectable) ∧ nocBad h p.data.length = false
      let here := hDst h / 256 = d.val
      let reads := hType h = nocRD ∨ hType h = nocCFGRD
      let own := a < hbmSize ∧ hbmDie a = d.val ∧ (hSrc h / 256 = 11 → hostLo ≤ a)
      ok ∧ here ∧ reads ∧ own ∧ s.mustWait s.fab.held h [] = false := by
  refine ⟨0, tPacket (tHead 0 (0) 0 0 (0)) [], State.reset, ?_⟩
  dsimp only
  exact ⟨⟨by decide +kernel, tClean _ (by decide +kernel), by decide +kernel⟩, by decide +kernel, by decide +kernel, by decide +kernel, by decide +kernel⟩
theorem witness_packetsAtADie_5 :
    ∃ (d : Fin 12) (p : NocPkt) (s : State),
      let h := hdrNat p.hdr
      let data := payloadOf h p.data
      let a := hAddr h
      let ok := s.dieRuns d.val = true ∧ (∀ w ∈ p.hdr, (cwDecode w).2 ≠ .uncorrectable) ∧ nocBad h p.data.length = false
      let here := hDst h / 256 = d.val
      let writes := hType h = nocWR ∨ hType h = nocCFGWR
      let own := a < hbmSize ∧ hbmDie a = d.val ∧ (hSrc h / 256 = 11 → hostLo ≤ a)
      ok ∧ here ∧ writes ∧ own ∧ s.mustWait s.fab.held h data = false := by
  refine ⟨0, tPacket (tHead 1 (0) 0 1 (0)) (List.replicate 4 (tWord 0)), State.reset, ?_⟩
  dsimp only
  exact ⟨⟨by decide +kernel, tClean _ (by decide +kernel), by decide +kernel⟩, by decide +kernel, by decide +kernel, by decide +kernel, by decide +kernel⟩
theorem witness_packetsAtADie_6 :
    ∃ (d : Fin 12) (p : NocPkt) (s : State) (l : _),
      let h := hdrNat p.hdr
      let data := payloadOf h p.data
      let a := hAddr h
      let ok := s.dieRuns d.val = true ∧ (∀ w ∈ p.hdr, (cwDecode w).2 ≠ .uncorrectable) ∧ nocBad h p.data.length = false
      let here := hDst h / 256 = d.val
      let reads := hType h = nocRD ∨ hType h = nocCFGRD
      let writes := hType h = nocWR ∨ hType h = nocCFGWR
      let own := a < hbmSize ∧ hbmDie a = d.val ∧ (hSrc h / 256 = 11 → hostLo ≤ a)
      ok ∧ here ∧ own ∧ (reads ∧ l = [] ∨ writes ∧ l = data) ∧ s.mustWait s.fab.held h l = true := by
  refine ⟨0, tPacket (tHead 0 (0) 0 0 (0)) [], ({ State.reset with fab := { State.reset.fab with copying := [(0, 0)] } } : State), [], ?_⟩
  dsimp only
  exact ⟨⟨by decide +kernel, tClean _ (by decide +kernel), by decide +kernel⟩, by decide +kernel, by decide +kernel, by decide +kernel, by decide +kernel⟩
theorem witness_packetsAtADie_7 :
    ∃ (d : Fin 12) (p : NocPkt) (s : State) (q : _) (r : _) (who : _),
      let h := hdrNat p.hdr
      let a := hAddr h
      let ok := s.dieRuns d.val = true ∧ (∀ w ∈ p.hdr, (cwDecode w).2 ≠ .uncorrectable) ∧ nocBad h p.data.length = false
      let here := hDst h / 256 = d.val
      let reads := hType h = nocRD ∨ hType h = nocCFGRD
      let own := a < hbmSize ∧ hbmDie a = d.val ∧ (hSrc h / 256 = 11 → hostLo ≤ a)
      let ctl := ctlBase ≤ a ∧ (a - ctlBase) / 2 ^ 24 = d.val
      ok ∧ here ∧ reads ∧ (¬ own) ∧ ctl ∧ s.placeReg a = some q ∧ q.reg = some r ∧ nocWriter (hSrc h) = some who ∧ (s.hdRuns = true ∧
      who ≠ .program) ∧ h / 2 ^ 96 % 4096 ≠ 0 ∧ (∀ w ∈ p.hdr, (cwDecode w).2 ≠ .corrected) := by
  refine ⟨8, tPacket (tHead 5 (8 * 256) 8 8 (ctlBase + 8 * 2 ^ 24 + 0x310018)) (List.replicate 4 (tWord 0)), State.reset, (.die 8 0x310018), FRM_SRC, .firmware, ?_⟩
  dsimp only
  exact ⟨⟨by decide +kernel, tClean _ (by decide +kernel), by decide +kernel⟩, by decide +kernel, by decide +kernel, by decide +kernel, by decide +kernel, by decide +kernel, by decide +kernel, by decide +kernel, ⟨by decide +kernel, by decide +kernel⟩, by decide +kernel, tPlain _ (by decide +kernel)⟩
theorem witness_packetsAtADie_8 :
    ∃ (d : Fin 12) (p : NocPkt) (s : State) (q : _) (r : _) (who : _),
      let h := hdrNat p.hdr
      let a := hAddr h
      let ok := s.dieRuns d.val = true ∧ (∀ w ∈ p.hdr, (cwDecode w).2 ≠ .uncorrectable) ∧ nocBad h p.data.length = false
      let here := hDst h / 256 = d.val
      let reads := hType h = nocRD ∨ hType h = nocCFGRD
      let own := a < hbmSize ∧ hbmDie a = d.val ∧ (hSrc h / 256 = 11 → hostLo ≤ a)
      let ctl := ctlBase ≤ a ∧ (a - ctlBase) / 2 ^ 24 = d.val
      ok ∧ here ∧ reads ∧ (¬ own) ∧ ctl ∧ s.placeReg a = some q ∧ q.reg = some r ∧ nocWriter (hSrc h) = some who ∧ (s.hdRuns = false ∨ who = .program) := by
  refine ⟨8, tPacket (tHead 5 (0) 8 8 (ctlBase + 8 * 2 ^ 24 + 0x310018)) (List.replicate 4 (tWord 0)), State.reset, (.die 8 0x310018), FRM_SRC, .program, ?_⟩
  dsimp only
  exact ⟨⟨by decide +kernel, tClean _ (by decide +kernel), by decide +kernel⟩, by decide +kernel, by decide +kernel, by decide +kernel, by decide +kernel, by decide +kernel, by decide +kernel, by decide +kernel, by decide +kernel⟩
theorem witness_packetsAtADie_9 :
    ∃ (d : Fin 12) (p : NocPkt) (s : State) (q : _) (r : _),
      let h := hdrNat p.hdr
      let data := payloadOf h p.data
      let a := hAddr h
      let ok := s.dieRuns d.val = true ∧ (∀ w ∈ p.hdr, (cwDecode w).2 ≠ .uncorrectable) ∧ nocBad h p.data.length = false
      let here := hDst h / 256 = d.val
      let writes := hType h = nocWR ∨ hType h = nocCFGWR
      let own := a < hbmSize ∧ hbmDie a = d.val ∧ (hSrc h / 256 = 11 → hostLo ≤ a)
      let ctl := ctlBase ≤ a ∧ (a - ctlBase) / 2 ^ 24 = d.val
      ok ∧ here ∧ writes ∧ (¬ own) ∧ ctl ∧ s.placeReg a = some q ∧ q.reg = some r ∧ (∀ b ∈ data, b.2 = false) ∧
      (doorOf a = none ∨ data.length ≠ 64) ∧ nocWriter (hSrc h) = some .firmware := by
  refine ⟨8, tPacket (tHead 6 (8 * 256) 8 8 (ctlBase + 8 * 2 ^ 24 + 0x310018)) (List.replicate 4 (tWord 0)), State.reset, (.die 8 0x310018), FRM_SRC, ?_⟩
  dsimp only
  exact ⟨⟨by decide +kernel, tClean _ (by decide +kernel), by decide +kernel⟩, by decide +kernel, by decide +kernel, by decide +kernel, by decide +kernel, by decide +kernel, by decide +kernel, by decide +kernel, by decide +kernel⟩
theorem witness_packetsAtADie_10 :
    ∃ (d : Fin 12) (p : NocPkt) (s : State),
      let h := hdrNat p.hdr
      let a := hAddr h
      let ok := s.dieRuns d.val = true ∧ (∀ w ∈ p.hdr, (cwDecode w).2 ≠ .uncorrectable) ∧ nocBad h p.data.length = false
      let here := hDst h / 256 = d.val
      let reads := hType h = nocRD ∨ hType h = nocCFGRD
      let own := a < hbmSize ∧ hbmDie a = d.val ∧ (hSrc h / 256 = 11 → hostLo ≤ a)
      let ctl := ctlBase ≤ a ∧ (a - ctlBase) / 2 ^ 24 = d.val
      ok ∧ here ∧ reads ∧ (¬ own) ∧ (¬ ctl ∨ s.placeReg a = none ∨ nocWriter (hSrc h) = none) := by
  refine ⟨0, tPacket (tHead 0 (0) 0 0 (2 ^ 40)) [], State.reset, ?_⟩
  dsimp only
  exact ⟨⟨by decide +kernel, tClean _ (by decide +kernel), by decide +kernel⟩, by decide +kernel, by decide +kernel, by decide +kernel, by decide +kernel⟩
theorem witness_packetsAtADie_11 :
    ∃ (d : Fin 12) (p : NocPkt) (s : State),
      let h := hdrNat p.hdr
      let data := payloadOf h p.data
      let a := hAddr h
      let ok := s.dieRuns d.val = true ∧ (∀ w ∈ p.hdr, (cwDecode w).2 ≠ .uncorrectable) ∧ nocBad h p.data.length = false
      let here := hDst h / 256 = d.val
      let writes := hType h = nocWR ∨ hType h = nocCFGWR
      let own := a < hbmSize ∧ hbmDie a = d.val ∧ (hSrc h / 256 = 11 → hostLo ≤ a)
      let ctl := ctlBase ≤ a ∧ (a - ctlBase) / 2 ^ 24 = d.val
      ok ∧ here ∧ writes ∧ (¬ own) ∧ (¬ ctl ∨ (s.placeReg a = none ∧ (doorOf a = none ∨ data.length ≠ 64))) := by
  refine ⟨0, tPacket (tHead 1 (0) 0 1 (2 ^ 40)) (List.replicate 4 (tWord 0)), State.reset, ?_⟩
  dsimp only
  exact ⟨⟨by decide +kernel, tClean _ (by decide +kernel), by decide +kernel⟩, by decide +kernel, by decide +kernel, by decide +kernel, by decide +kernel⟩
theorem witness_packetsAtADie_12 :
    ∃ (d : Fin 12) (p : NocPkt) (s : State),
      let h := hdrNat p.hdr
      let ok := s.dieRuns d.val = true ∧ (∀ w ∈ p.hdr, (cwDecode w).2 ≠ .uncorrectable) ∧ nocBad h p.data.length = false
      let here := hDst h / 256 = d.val
      let reads := hType h = nocRD ∨ hType h = nocCFGRD
      let writes := hType h = nocWR ∨ hType h = nocCFGWR
      ok ∧ here ∧ (¬ reads) ∧ (¬ writes) := by
  refine ⟨0, tPacket (tHead 4 (0) 0 1 (0)) (List.replicate 4 (tWord 0)), State.reset, ?_⟩
  dsimp only
  exact ⟨⟨by decide +kernel, tClean _ (by decide +kernel), by decide +kernel⟩, by decide +kernel, by decide +kernel, by decide +kernel⟩

-- LinkBlocks.
theorem witness_linkBlocks_0 :
    ∃ (g : GroupId) (b : List CodeWord) (s : State),
      let wait := mfind s.fab.replay (gidKey g)
      let on := s.groupLive g = true ∧ s.dieRuns g.die.val = true
      on ∧ b.length = 32 ∧ wait = none ∧ blockOk b = true := by
  refine ⟨tGroup, List.replicate 32 (tWord 0), State.reset, ?_⟩
  dsimp only
  decide +kernel
theorem witness_linkBlocks_1 :
    ∃ (g : GroupId) (b : List CodeWord) (s : State),
      let wait := mfind s.fab.replay (gidKey g)
      let on := s.groupLive g = true ∧ s.dieRuns g.die.val = true
      on ∧ b.length = 32 ∧ wait = none ∧ blockOk b = false := by
  refine ⟨tGroup, List.replicate 32 tBadWord, State.reset, ?_⟩
  dsimp only
  decide +kernel
theorem witness_linkBlocks_2 :
    ∃ (g : GroupId) (b : List CodeWord) (s : State),
      let wait := mfind s.fab.replay (gidKey g)
      let on := s.groupLive g = true ∧ s.dieRuns g.die.val = true
      (¬ on ∨ b.length ≠ 32 ∨ wait ≠ none) := by
  refine ⟨tGroup, List.replicate 31 (tWord 0), State.reset, ?_⟩
  dsimp only
  decide +kernel
theorem witness_linkBlocks_3 :
    ∃ (g : GroupId) (b : List CodeWord) (s : State) (why : _),
      let wait := mfind s.fab.replay (gidKey g)
      let on := s.groupLive g = true ∧ s.dieRuns g.die.val = true
      on ∧ b.length = 32 ∧ wait = some why ∧ blockOk b = true := by
  refine ⟨tGroup, List.replicate 32 (tWord 0), ({ State.reset with fab := { State.reset.fab with replay := [(gidKey tGroup, 1)] } } : State), 1, ?_⟩
  dsimp only
  decide +kernel
theorem witness_linkBlocks_4 :
    ∃ (g : GroupId) (b : List CodeWord) (s : State) (why : _),
      let wait := mfind s.fab.replay (gidKey g)
      let on := s.groupLive g = true ∧ s.dieRuns g.die.val = true
      on ∧ b.length = 32 ∧ wait = some why ∧ blockOk b = false ∧ why = 2 := by
  refine ⟨tGroup, List.replicate 32 tBadWord, ({ State.reset with fab := { State.reset.fab with replay := [(gidKey tGroup, 2)] } } : State), 2, ?_⟩
  dsimp only
  decide +kernel
theorem witness_linkBlocks_5 :
    ∃ (g : GroupId) (b : List CodeWord) (s : State) (why : _),
      let wait := mfind s.fab.replay (gidKey g)
      let on := s.groupLive g = true ∧ s.dieRuns g.die.val = true
      on ∧ b.length = 32 ∧ wait = some why ∧ blockOk b = false ∧ why ≠ 2 := by
  refine ⟨tGroup, List.replicate 32 tBadWord, ({ State.reset with fab := { State.reset.fab with replay := [(gidKey tGroup, 1)] } } : State), 1, ?_⟩
  dsimp only
  decide +kernel
theorem witness_linkBlocks_6 :
    ∃ (g : GroupId) (b : List CodeWord) (s : State),
      let wait := mfind s.fab.replay (gidKey g)
      let on := s.groupLive g = true ∧ s.dieRuns g.die.val = true
      (¬ on ∨ b.length ≠ 32 ∨ wait = none) := by
  refine ⟨tGroup, List.replicate 32 (tWord 0), State.reset, ?_⟩
  dsimp only
  decide +kernel
theorem witness_linkBlocks_7 :
    ∃ (g : GroupId) (s : State),
      s.dieRuns g.die.val = true := by
  refine ⟨tGroup, State.reset, ?_⟩
  decide +kernel
theorem witness_linkBlocks_8 :
    ∃ (g : GroupId) (s : State),
      s.dieRuns g.die.val = false := by
  refine ⟨tGroup, State.reset.setD 0 CLK_STATUS_STOPPED 1, ?_⟩
  decide +kernel

-- IdentityExchange.
theorem witness_identityExchange_0 :
    ∃ (p : PortId) (s : State),
      let k := portKey p
      s.ndRuns k = false := by
  refine ⟨tP, State.reset.setD (ndWin (keyDie (portKey tP))) CLK_STATUS_STOPPED 1, ?_⟩
  dsimp only
  decide +kernel
theorem witness_identityExchange_2 :
    ∃ (p : PortId) (s : State),
      let k := portKey p
      let st := s.portState k
      s.ndRuns k = true ∧ (st = psIDENT ∨ st = psNOIMG ∨ st = psMISMATCH ∨ st = psREFUSED) := by
  refine ⟨tP, tPort psREFUSED, ?_⟩
  dsimp only
  decide +kernel
theorem witness_identityExchange_3 :
    ∃ (p : PortId) (s : State),
      let k := portKey p
      let st := s.portState k
      st ≠ psIDENT ∧ st ≠ psNOIMG ∧ st ≠ psMISMATCH ∧ st ≠ psREFUSED := by
  refine ⟨tP, State.reset, ?_⟩
  dsimp only
  decide +kernel
theorem witness_identityExchange_4 :
    ∃ (p : PortId) (fr : BitVec 512) (s : State),
      let k := portKey p
      s.ndRuns k = true ∧ idFrameOk fr = false := by
  refine ⟨tP, (BitVec.ofNat 512 (0x4C48 + 2 ^ 16 + 2 ^ 24 + 1 * 2 ^ 96 + 3 * 2 ^ 112 + (0) * 2 ^ 152)), State.reset, ?_⟩
  dsimp only
  decide +kernel
theorem witness_identityExchange_5 :
    ∃ (p : PortId) (fr : BitVec 512) (s : State),
      let k := portKey p
      let st := s.portState k
      let takes := s.ndRuns k = true ∧ idFrameOk fr = true ∧ (st = psUP ∨ st = psIDENT ∨ st = psNOIMG ∨ st = psMISMATCH ∨ st = psREFUSED)
      idFrameOk fr = true ∧ (¬ takes) := by
  refine ⟨tP, (BitVec.ofNat 512 (0x4C49 + 2 ^ 16 + 2 ^ 24 + 1 * 2 ^ 96 + 3 * 2 ^ 112 + (0) * 2 ^ 152)), State.reset, ?_⟩
  dsimp only
  decide +kernel
theorem witness_identityExchange_6 :
    ∃ (p : PortId) (fr : BitVec 512) (s : State),
      let k := portKey p
      let st := s.portState k
      let takes := s.ndRuns k = true ∧ idFrameOk fr = true ∧ (st = psUP ∨ st = psIDENT ∨ st = psNOIMG ∨ st = psMISMATCH ∨ st = psREFUSED)
      takes ∧ s.loaded = false := by
  refine ⟨tP, (BitVec.ofNat 512 (0x4C49 + 2 ^ 16 + 2 ^ 24 + 1 * 2 ^ 96 + 3 * 2 ^ 112 + (0) * 2 ^ 152)), tPort psREFUSED, ?_⟩
  dsimp only
  decide +kernel
theorem witness_identityExchange_7 :
    ∃ (p : PortId) (fr : BitVec 512) (s : State),
      let k := portKey p
      let st := s.portState k
      let takes := s.ndRuns k = true ∧ idFrameOk fr = true ∧ (st = psUP ∨ st = psIDENT ∨ st = psNOIMG ∨ st = psMISMATCH ∨ st = psREFUSED)
      takes ∧ s.loaded = true ∧ idf fr 96 16 = 0xFFFF := by
  refine ⟨tP, (BitVec.ofNat 512 (0x4C49 + 2 ^ 16 + 2 ^ 24 + 0xFFFF * 2 ^ 96 + 3 * 2 ^ 112 + (0) * 2 ^ 152)), tNet psMISMATCH PortSt.reset, ?_⟩
  dsimp only
  decide +kernel
theorem witness_identityExchange_8 :
    ∃ (p : PortId) (fr : BitVec 512) (s : State),
      let k := portKey p
      let st := s.portState k
      let takes := s.ndRuns k = true ∧ idFrameOk fr = true ∧ (st = psUP ∨ st = psIDENT ∨ st = psNOIMG ∨ st = psMISMATCH ∨ st = psREFUSED)
      takes ∧ s.loaded = true ∧ idf fr 96 16 ≠ 0xFFFF ∧ idf fr 152 8 ≠ s.umaj := by
  refine ⟨tP, (BitVec.ofNat 512 (0x4C49 + 2 ^ 16 + 2 ^ 24 + 1 * 2 ^ 96 + 3 * 2 ^ 112 + (1) * 2 ^ 152)), tNet psNOIMG PortSt.reset, ?_⟩
  dsimp only
  decide +kernel
theorem witness_identityExchange_9 :
    ∃ (p : PortId) (fr : BitVec 512) (s : State),
      let k := portKey p
      let st := s.portState k
      let takes := s.ndRuns k = true ∧ idFrameOk fr = true ∧ (st = psUP ∨ st = psIDENT ∨ st = psNOIMG ∨ st = psMISMATCH ∨ st = psREFUSED)
      let match_ : PortCfg → Prop := fun c => idf fr 96 16 = c.ndev ∧ idf fr 112 5 = c.nport ∧ idf fr 117 2 = c.nsub ∧ idf fr 208 32 = s.jobLo
      takes ∧ s.loaded = true ∧ idf fr 96 16 ≠ 0xFFFF ∧ idf fr 152 8 = s.umaj ∧ (∀ c, s.expected k = some c → ¬ match_ c) := by
  refine ⟨tP, (BitVec.ofNat 512 (0x4C49 + 2 ^ 16 + 2 ^ 24 + 1 * 2 ^ 96 + 4 * 2 ^ 112)), tNet psIDENT PortSt.reset, ?_⟩
  dsimp only
  refine ⟨by decide +kernel, by decide +kernel, by decide +kernel, by decide +kernel, ?_⟩
  intro c h
  have : c = tLink := by
    have e : (tNet psIDENT PortSt.reset).expected (portKey tP) = some tLink := by decide +kernel
    exact (Option.some.inj (e.symm.trans h)).symm
  subst this
  decide +kernel
theorem witness_identityExchange_10 :
    ∃ (p : PortId) (fr : BitVec 512) (s : State) (c : _),
      let k := portKey p
      let st := s.portState k
      let takes := s.ndRuns k = true ∧ idFrameOk fr = true ∧ (st = psUP ∨ st = psIDENT ∨ st = psNOIMG ∨ st = psMISMATCH ∨ st = psREFUSED)
      let match_ : PortCfg → Prop := fun c => idf fr 96 16 = c.ndev ∧ idf fr 112 5 = c.nport ∧ idf fr 117 2 = c.nsub ∧ idf fr 208 32 = s.jobLo
      takes ∧ s.loaded = true ∧ idf fr 96 16 ≠ 0xFFFF ∧ idf fr 152 8 = s.umaj ∧ s.expected k = some c ∧ (match_ c) := by
  refine ⟨tP, (BitVec.ofNat 512 (0x4C49 + 2 ^ 16 + 2 ^ 24 + 1 * 2 ^ 96 + 3 * 2 ^ 112 + (0) * 2 ^ 152)), tNet psIDENT PortSt.reset, tLink, ?_⟩
  dsimp only
  decide +kernel

-- PortLives.
theorem witness_portLives_0 :
    ∃ (p : PortId) (s : State),
      let k := portKey p
      let on := s.ndRuns k = true
      (¬ on) := by
  refine ⟨tP, State.reset.setD (ndWin (keyDie (portKey tP))) CLK_STATUS_STOPPED 1, ?_⟩
  dsimp only
  decide +kernel
theorem witness_portLives_4 :
    ∃ (p : PortId) (s : State),
      let k := portKey p
      let st := s.portState k
      let on := s.ndRuns k = true
      on ∧ (st = psDARK ∨ (st = psSPARE ∧ s.placeOfPort k ≠ k)) := by
  refine ⟨tP, tPort psDARK, ?_⟩
  dsimp only
  decide +kernel
theorem witness_portLives_5 :
    ∃ (p : PortId) (s : State),
      let k := portKey p
      let st := s.portState k
      st ≠ psDARK ∧ (st ≠ psSPARE ∨ s.placeOfPort k = k) := by
  refine ⟨tP, tPort psUP, ?_⟩
  dsimp only
  decide +kernel
theorem witness_portLives_6 :
    ∃ (p : PortId) (s : State),
      let k := portKey p
      let st := s.portState k
      let on := s.ndRuns k = true
      on ∧ st = psTRAINING := by
  refine ⟨tP, tPort psTRAINING, ?_⟩
  dsimp only
  decide +kernel
theorem witness_portLives_7 :
    ∃ (p : PortId) (s : State),
      let k := portKey p
      let st := s.portState k
      st ≠ psTRAINING := by
  refine ⟨tP, tPort psUP, ?_⟩
  dsimp only
  decide +kernel
theorem witness_portLives_8 :
    ∃ (p : PortId) (s : State) (cause : BitVec 4),
      let k := portKey p
      let st := s.portState k
      let on := s.ndRuns k = true
      on ∧ st = psUP ∧ (cause = 1 ∨ cause = 2) := by
  refine ⟨tP, tPort psUP, 2, ?_⟩
  dsimp only
  decide +kernel
theorem witness_portLives_9 :
    ∃ (p : PortId) (s : State) (cause : BitVec 4),
      let k := portKey p
      let st := s.portState k
      (st ≠ psUP ∨ (cause ≠ 1 ∧ cause ≠ 2)) := by
  refine ⟨tP, tPort psUP, 3, ?_⟩
  dsimp only
  decide +kernel
theorem witness_portLives_10 :
    ∃ (p : PortId) (s : State),
      let k := portKey p
      let on := s.ndRuns k = true
      on ∧ (s.port k).retraining = true := by
  refine ⟨tP, tNet psIDENT { PortSt.reset with retraining := true }, ?_⟩
  dsimp only
  decide +kernel
theorem witness_portLives_12 :
    ∃ (p : PortId) (s : State),
      let k := portKey p
      (s.port k).retraining = false := by
  refine ⟨tP, State.reset, ?_⟩
  dsimp only
  decide +kernel

-- LinkReplay.
theorem witness_linkReplay_0 :
    ∃ (p : PortId) (s : State),
      let k := portKey p
      let on := s.ndRuns k = true ∧ s.portState k = psUP ∧ s.llrOn k = true
      (¬ on) := by
  refine ⟨tP, tPort psUP, ?_⟩
  dsimp only
  decide +kernel
theorem witness_linkReplay_3 :
    ∃ (p : PortId) (fr : LlrFrame) (s : State),
      let k := portKey p
      let x := s.port k
      let on := s.ndRuns k = true ∧ s.portState k = psUP ∧ s.llrOn k = true
      on ∧ fr.ok = true ∧ fr.seq.toNat = x.llrRx ∧ x.unackedRx < 15 := by
  refine ⟨tP, ⟨14, true, 0⟩, tNet psUP { PortSt.reset with peerCaps := 1, llrRx := 14, unackedRx := 14 }, ?_⟩
  dsimp only
  decide +kernel
theorem witness_linkReplay_4 :
    ∃ (p : PortId) (fr : LlrFrame) (s : State),
      let k := portKey p
      let x := s.port k
      let on := s.ndRuns k = true ∧ s.portState k = psUP ∧ s.llrOn k = true
      on ∧ fr.ok = true ∧ fr.seq.toNat = x.llrRx ∧ 15 ≤ x.unackedRx := by
  refine ⟨tP, ⟨15, true, 0⟩, tNet psUP { PortSt.reset with peerCaps := 1, llrRx := 15, unackedRx := 15 }, ?_⟩
  dsimp only
  decide +kernel
theorem witness_linkReplay_5 :
    ∃ (p : PortId) (fr : LlrFrame) (s : State),
      let k := portKey p
      let x := s.port k
      let on := s.ndRuns k = true ∧ s.portState k = psUP ∧ s.llrOn k = true
      on ∧ (fr.ok = false ∨ fr.seq.toNat ≠ x.llrRx) := by
  refine ⟨tP, ⟨1, true, 0⟩, tNet psUP { PortSt.reset with peerCaps := 1 }, ?_⟩
  dsimp only
  decide +kernel
theorem witness_linkReplay_6 :
    ∃ (p : PortId) (s : State),
      let k := portKey p
      let x := s.port k
      let on := s.ndRuns k = true ∧ s.portState k = psUP ∧ s.llrOn k = true
      on ∧ x.unackedRx ≠ 0 := by
  refine ⟨tP, tNet psUP { PortSt.reset with peerCaps := 1, unackedRx := 1 }, ?_⟩
  dsimp only
  decide +kernel
theorem witness_linkReplay_7 :
    ∃ (p : PortId) (s : State),
      let k := portKey p
      let x := s.port k
      x.unackedRx = 0 := by
  refine ⟨tP, tNet psUP { PortSt.reset with peerCaps := 1 }, ?_⟩
  dsimp only
  decide +kernel
theorem witness_linkReplay_9 :
    ∃ (p : PortId) (fr : LlrFrame) (s : State),
      let k := portKey p
      let x := s.port k
      s.ndRuns k = true ∧ s.portState k = psUP ∧ x.replayWanted = true ∧ fr.ok = true ∧ fr.seq.toNat = x.llrRx := by
  refine ⟨tP, ⟨0, true, 0⟩, tNet psUP { PortSt.reset with peerCaps := 1, replayWanted := true }, ?_⟩
  dsimp only
  decide +kernel
theorem witness_linkReplay_10 :
    ∃ (p : PortId) (fr : LlrFrame) (s : State),
      let k := portKey p
      let x := s.port k
      s.ndRuns k = true ∧ s.portState k = psUP ∧ x.replayWanted = true ∧ (fr.ok = false ∨ fr.seq.toNat ≠ x.llrRx) := by
  refine ⟨tP, ⟨1, true, 0⟩, tNet psUP { PortSt.reset with peerCaps := 1, replayWanted := true }, ?_⟩
  dsimp only
  decide +kernel
theorem witness_linkReplay_11 :
    ∃ (p : PortId) (s : State),
      let k := portKey p
      let x := s.port k
      (s.ndRuns k = false ∨ s.portState k ≠ psUP ∨ x.replayWanted = false) := by
  refine ⟨tP, tPort psUP, ?_⟩
  dsimp only
  decide +kernel

-- PacketsIn.
theorem witness_packetsIn_0 :
    ∃ (p : PortId) (pk : UalPkt) (s : State),
      let k := portKey p
      let open_ := s.portState k = psUP ∧ s.ndRuns k = true ∧ s.portsFenced k = false ∧ s.storagePort k = false
      (¬ open_ ∨ s.frameOk pk.frame = false) := by
  refine ⟨tP, tUal, State.reset, ?_⟩
  dsimp only
  decide +kernel
theorem witness_packetsIn_1 :
    ∃ (p : PortId) (pk : UalPkt) (s : State),
      let k := portKey p
      let h := pk.h
      let open_ := s.portState k = psUP ∧ s.ndRuns k = true ∧ s.portsFenced k = false ∧ s.storagePort k = false
      let good := h.vmaj.toNat = s.umaj ∧ kindOk h.cls.toNat h.kind.toNat = true ∧ pk.rsvd = false ∧ h.nwords.toNat ≤ 512 ∧ pk.lenBad = false ∧ pk.words.length = h.nwords.toNat
      open_ ∧ s.frameOk pk.frame = true ∧ (¬ good) := by
  refine ⟨tP, { tUal with h := { tUal.h with vmaj := 0xFE } }, tOpen, ?_⟩
  dsimp only
  decide +kernel
theorem witness_packetsIn_2 :
    ∃ (p : PortId) (pk : UalPkt) (s : State),
      let k := portKey p
      let h := pk.h
      let open_ := s.portState k = psUP ∧ s.ndRuns k = true ∧ s.portsFenced k = false ∧ s.storagePort k = false
      let good := h.vmaj.toNat = s.umaj ∧ kindOk h.cls.toNat h.kind.toNat = true ∧ pk.rsvd = false ∧ h.nwords.toNat ≤ 512 ∧ pk.lenBad = false ∧ pk.words.length = h.nwords.toNat
      let ours := s.loaded = true ∧ h.job.toNat = s.jobLo
      open_ ∧ s.frameOk pk.frame = true ∧ good ∧ (¬ ours) := by
  refine ⟨tP, { tUal with h := { tUal.h with job := 1 } }, tOpen, ?_⟩
  dsimp only
  decide +kernel
theorem witness_packetsIn_3 :
    ∃ (p : PortId) (pk : UalPkt) (s : State),
      let k := portKey p
      let h := pk.h
      let open_ := s.portState k = psUP ∧ s.ndRuns k = true ∧ s.portsFenced k = false ∧ s.storagePort k = false
      let good := h.vmaj.toNat = s.umaj ∧ kindOk h.cls.toNat h.kind.toNat = true ∧ pk.rsvd = false ∧ h.nwords.toNat ≤ 512 ∧ pk.lenBad = false ∧ pk.words.length = h.nwords.toNat
      let ours := s.loaded = true ∧ h.job.toNat = s.jobLo
      open_ ∧ s.frameOk pk.frame = true ∧ good ∧ ours ∧ h.epoch.toNat < s.epoch := by
  refine ⟨tP, tUal, tOpen.setHd PEL_STATUS_EPOCH 1, ?_⟩
  dsimp only
  decide +kernel
theorem witness_packetsIn_4 :
    ∃ (p : PortId) (pk : UalPkt) (s : State),
      let k := portKey p
      let h := pk.h
      let pel := h.cls.toNat = 3
      let open_ := s.portState k = psUP ∧ s.ndRuns k = true ∧ s.portsFenced k = false ∧ s.storagePort k = false
      let good := h.vmaj.toNat = s.umaj ∧ kindOk h.cls.toNat h.kind.toNat = true ∧ pk.rsvd = false ∧ h.nwords.toNat ≤ 512 ∧ pk.lenBad = false ∧ pk.words.length = h.nwords.toNat
      let ours := s.loaded = true ∧ h.job.toNat = s.jobLo
      open_ ∧ s.frameOk pk.frame = true ∧ good ∧ ours ∧ s.epoch < h.epoch.toNat ∧ (¬ pel) := by
  refine ⟨tP, { tUal with h := { tUal.h with epoch := 1 } }, tOpen, ?_⟩
  dsimp only
  decide +kernel
theorem witness_packetsIn_5 :
    ∃ (p : PortId) (pk : UalPkt) (s : State),
      let k := portKey p
      let h := pk.h
      let cur := s.stepNo.toNat
      let pel := h.cls.toNat = 3
      let open_ := s.portState k = psUP ∧ s.ndRuns k = true ∧ s.portsFenced k = false ∧ s.storagePort k = false
      let good := h.vmaj.toNat = s.umaj ∧ kindOk h.cls.toNat h.kind.toNat = true ∧ pk.rsvd = false ∧ h.nwords.toNat ≤ 512 ∧ pk.lenBad = false ∧ pk.words.length = h.nwords.toNat
      let ours := s.loaded = true ∧ h.job.toNat = s.jobLo
      open_ ∧ s.frameOk pk.frame = true ∧ good ∧ ours ∧ h.epoch.toNat = s.epoch ∧ (¬ pel) ∧ (h.step.toNat < cur ∨ (h.step.toNat = cur ∧
      h.att.toNat < s.hd PEL_STATUS_ATT)) := by
  refine ⟨tP, { tUal with h := { tUal.h with step := 4 } }, tOpen, ?_⟩
  dsimp only
  decide +kernel
theorem witness_packetsIn_6 :
    ∃ (p : PortId) (pk : UalPkt) (s : State),
      let k := portKey p
      let h := pk.h
      let cur := s.stepNo.toNat
      let pel := h.cls.toNat = 3
      let open_ := s.portState k = psUP ∧ s.ndRuns k = true ∧ s.portsFenced k = false ∧ s.storagePort k = false
      let good := h.vmaj.toNat = s.umaj ∧ kindOk h.cls.toNat h.kind.toNat = true ∧ pk.rsvd = false ∧ h.nwords.toNat ≤ 512 ∧ pk.lenBad = false ∧ pk.words.length = h.nwords.toNat
      let ours := s.loaded = true ∧ h.job.toNat = s.jobLo
      let passes := open_ ∧ s.frameOk pk.frame = true ∧ good ∧ ours ∧ (h.epoch.toNat = s.epoch ∨ (pel ∧ s.epoch ≤ h.epoch.toNat)) ∧ (pel ∨ (s.gate.catchUp = false ∧ s.catchUpNoise h = false ∧ (cur < h.step.toNat ∨ (h.step.toNat = cur ∧ s.hd PEL_STATUS_ATT ≤ h.att.toNat))))
      passes ∧ h.dstdev.toNat ≠ s.devidx ∧ s.routePort h.srcdev.toNat h.dstdev.toNat h.cls.toNat = none := by
  refine ⟨tP, { tUal with h := { tUal.h with step := 5, dstdev := 9 } }, tOpen, ?_⟩
  dsimp only
  decide +kernel
theorem witness_packetsIn_7 :
    ∃ (p : PortId) (pk : UalPkt) (s : State) (q : _),
      let k := portKey p
      let h := pk.h
      let cur := s.stepNo.toNat
      let pel := h.cls.toNat = 3
      let open_ := s.portState k = psUP ∧ s.ndRuns k = true ∧ s.portsFenced k = false ∧ s.storagePort k = false
      let good := h.vmaj.toNat = s.umaj ∧ kindOk h.cls.toNat h.kind.toNat = true ∧ pk.rsvd = false ∧ h.nwords.toNat ≤ 512 ∧ pk.lenBad = false ∧ pk.words.length = h.nwords.toNat
      let ours := s.loaded = true ∧ h.job.toNat = s.jobLo
      let passes := open_ ∧ s.frameOk pk.frame = true ∧ good ∧ ours ∧ (h.epoch.toNat = s.epoch ∨ (pel ∧ s.epoch ≤ h.epoch.toNat)) ∧ (pel ∨ (s.gate.catchUp = false ∧ s.catchUpNoise h = false ∧ (cur < h.step.toNat ∨ (h.step.toNat = cur ∧ s.hd PEL_STATUS_ATT ≤ h.att.toNat))))
      passes ∧ h.dstdev.toNat ≠ s.devidx ∧ s.routePort h.srcdev.toNat h.dstdev.toNat h.cls.toNat = some q := by
  obtain ⟨q, hq⟩ := Option.isSome_iff_exists.mp (tRoute (({ tWith { tImg with routes := [⟨0, 0xFFFF, 1⟩] } with gate := { Gate.reset with step := 5 } } : State).setPortState (portKey tP) psUP) rfl 1 9 0 (by decide))
  refine ⟨tP, { tUal with h := { tUal.h with step := 5, dstdev := 9 } }, (({ tWith { tImg with routes := [⟨0, 0xFFFF, 1⟩] } with gate := { Gate.reset with step := 5 } } : State).setPortState (portKey tP) psUP), q, ?_⟩
  dsimp only
  exact ⟨by decide +kernel, by decide +kernel, hq⟩
theorem witness_packetsIn_8 :
    ∃ (p : PortId) (pk : UalPkt) (s : State),
      let k := portKey p
      let h := pk.h
      let cur := s.stepNo.toNat
      let pel := h.cls.toNat = 3
      let open_ := s.portState k = psUP ∧ s.ndRuns k = true ∧ s.portsFenced k = false ∧ s.storagePort k = false
      let good := h.vmaj.toNat = s.umaj ∧ kindOk h.cls.toNat h.kind.toNat = true ∧ pk.rsvd = false ∧ h.nwords.toNat ≤ 512 ∧ pk.lenBad = false ∧ pk.words.length = h.nwords.toNat
      let ours := s.loaded = true ∧ h.job.toNat = s.jobLo
      let passes := open_ ∧ s.frameOk pk.frame = true ∧ good ∧ ours ∧ (h.epoch.toNat = s.epoch ∨ (pel ∧ s.epoch ≤ h.epoch.toNat)) ∧ (pel ∨ (s.gate.catchUp = false ∧ s.catchUpNoise h = false ∧ (cur < h.step.toNat ∨ (h.step.toNat = cur ∧ s.hd PEL_STATUS_ATT ≤ h.att.toNat))))
      let here := passes ∧ h.dstdev.toNat = s.devidx
      let used := ((s.net.hold.filter (fun q => keyDie q.1 = keyDie k)).map (fun q => pktBytes q.2)).sum
      here ∧ h.step.toNat = cur + 1 ∧ used + pktBytes pk ≤ 262144 := by
  refine ⟨tP, { tUal with h := { tUal.h with step := 6 } }, tOpen, ?_⟩
  dsimp only
  decide +kernel
theorem witness_packetsIn_9 :
    ∃ (p : PortId) (pk : UalPkt) (s : State),
      let k := portKey p
      let h := pk.h
      let cur := s.stepNo.toNat
      let pel := h.cls.toNat = 3
      let open_ := s.portState k = psUP ∧ s.ndRuns k = true ∧ s.portsFenced k = false ∧ s.storagePort k = false
      let good := h.vmaj.toNat = s.umaj ∧ kindOk h.cls.toNat h.kind.toNat = true ∧ pk.rsvd = false ∧ h.nwords.toNat ≤ 512 ∧ pk.lenBad = false ∧ pk.words.length = h.nwords.toNat
      let ours := s.loaded = true ∧ h.job.toNat = s.jobLo
      let passes := open_ ∧ s.frameOk pk.frame = true ∧ good ∧ ours ∧ (h.epoch.toNat = s.epoch ∨ (pel ∧ s.epoch ≤ h.epoch.toNat)) ∧ (pel ∨ (s.gate.catchUp = false ∧ s.catchUpNoise h = false ∧ (cur < h.step.toNat ∨ (h.step.toNat = cur ∧ s.hd PEL_STATUS_ATT ≤ h.att.toNat))))
      let here := passes ∧ h.dstdev.toNat = s.devidx
      let used := ((s.net.hold.filter (fun q => keyDie q.1 = keyDie k)).map (fun q => pktBytes q.2)).sum
      here ∧ h.step.toNat = cur + 1 ∧ 262144 < used + pktBytes pk := by
  refine ⟨tP, { tUal with h := { tUal.h with step := 6 } }, ({ tOpen with net := { tOpen.net with hold := List.replicate 51 (portKey tP, { tUal with words := List.replicate 512 0 }) } } : State), ?_⟩
  dsimp only
  decide +kernel
theorem witness_packetsIn_10 :
    ∃ (p : PortId) (pk : UalPkt) (s : State),
      let k := portKey p
      let h := pk.h
      let cur := s.stepNo.toNat
      let pel := h.cls.toNat = 3
      let open_ := s.portState k = psUP ∧ s.ndRuns k = true ∧ s.portsFenced k = false ∧ s.storagePort k = false
      let good := h.vmaj.toNat = s.umaj ∧ kindOk h.cls.toNat h.kind.toNat = true ∧ pk.rsvd = false ∧ h.nwords.toNat ≤ 512 ∧ pk.lenBad = false ∧ pk.words.length = h.nwords.toNat
      let ours := s.loaded = true ∧ h.job.toNat = s.jobLo
      let passes := open_ ∧ s.frameOk pk.frame = true ∧ good ∧ ours ∧ (h.epoch.toNat = s.epoch ∨ (pel ∧ s.epoch ≤ h.epoch.toNat)) ∧ (pel ∨ (s.gate.catchUp = false ∧ s.catchUpNoise h = false ∧ (cur < h.step.toNat ∨ (h.step.toNat = cur ∧ s.hd PEL_STATUS_ATT ≤ h.att.toNat))))
      let here := passes ∧ h.dstdev.toNat = s.devidx
      here ∧ (¬ pel) ∧ cur + 2 ≤ h.step.toNat := by
  refine ⟨tP, { tUal with h := { tUal.h with step := 7 } }, tOpen, ?_⟩
  dsimp only
  decide +kernel
theorem witness_packetsIn_11 :
    ∃ (p : PortId) (pk : UalPkt) (s : State),
      let k := portKey p
      let h := pk.h
      let cur := s.stepNo.toNat
      let x := s.stream (streamKey h.srcdev.toNat h.cls.toNat)
      let pel := h.cls.toNat = 3
      let open_ := s.portState k = psUP ∧ s.ndRuns k = true ∧ s.portsFenced k = false ∧ s.storagePort k = false
      let good := h.vmaj.toNat = s.umaj ∧ kindOk h.cls.toNat h.kind.toNat = true ∧ pk.rsvd = false ∧ h.nwords.toNat ≤ 512 ∧ pk.lenBad = false ∧ pk.words.length = h.nwords.toNat
      let ours := s.loaded = true ∧ h.job.toNat = s.jobLo
      let passes := open_ ∧ s.frameOk pk.frame = true ∧ good ∧ ours ∧ (h.epoch.toNat = s.epoch ∨ (pel ∧ s.epoch ≤ h.epoch.toNat)) ∧ (pel ∨ (s.gate.catchUp = false ∧ s.catchUpNoise h = false ∧ (cur < h.step.toNat ∨ (h.step.toNat = cur ∧ s.hd PEL_STATUS_ATT ≤ h.att.toNat))))
      let here := passes ∧ h.dstdev.toNat = s.devidx
      here ∧ (h.step.toNat = cur ∨ (pel ∧ h.step.toNat ≠ cur + 1)) ∧ (h.cls ≠ 2 ∨ h.kind ≠ 0) ∧ s.rep.check.own = none ∧ s.net.ctlWait = [] ∧
      h.seq.toNat < x.rxNext := by
  refine ⟨tP, { tUal with h := { tUal.h with step := 5 } }, ({ tOpen with net := { tOpen.net with streams := [(4, { Stream.reset with rxNext := 1 })] } } : State), ?_⟩
  dsimp only
  decide +kernel
theorem witness_packetsIn_12 :
    ∃ (p : PortId) (pk : UalPkt) (s : State),
      let k := portKey p
      let h := pk.h
      let cur := s.stepNo.toNat
      let x := s.stream (streamKey h.srcdev.toNat h.cls.toNat)
      let pel := h.cls.toNat = 3
      let open_ := s.portState k = psUP ∧ s.ndRuns k = true ∧ s.portsFenced k = false ∧ s.storagePort k = false
      let good := h.vmaj.toNat = s.umaj ∧ kindOk h.cls.toNat h.kind.toNat = true ∧ pk.rsvd = false ∧ h.nwords.toNat ≤ 512 ∧ pk.lenBad = false ∧ pk.words.length = h.nwords.toNat
      let ours := s.loaded = true ∧ h.job.toNat = s.jobLo
      let passes := open_ ∧ s.frameOk pk.frame = true ∧ good ∧ ours ∧ (h.epoch.toNat = s.epoch ∨ (pel ∧ s.epoch ≤ h.epoch.toNat)) ∧ (pel ∨ (s.gate.catchUp = false ∧ s.catchUpNoise h = false ∧ (cur < h.step.toNat ∨ (h.step.toNat = cur ∧ s.hd PEL_STATUS_ATT ≤ h.att.toNat))))
      let here := passes ∧ h.dstdev.toNat = s.devidx
      here ∧ (h.step.toNat = cur ∨ (pel ∧ h.step.toNat ≠ cur + 1)) ∧ (h.cls ≠ 2 ∨ h.kind ≠ 0) ∧ s.rep.check.own = none ∧ s.net.ctlWait = [] ∧
      x.rxNext < h.seq.toNat := by
  refine ⟨tP, { tUal with h := { tUal.h with step := 5, seq := 1 } }, tOpen, ?_⟩
  dsimp only
  decide +kernel
theorem witness_packetsIn_13 :
    ∃ (p : PortId) (pk : UalPkt) (s : State),
      let k := portKey p
      let h := pk.h
      let cur := s.stepNo.toNat
      let x := s.stream (streamKey h.srcdev.toNat h.cls.toNat)
      let pel := h.cls.toNat = 3
      let open_ := s.portState k = psUP ∧ s.ndRuns k = true ∧ s.portsFenced k = false ∧ s.storagePort k = false
      let good := h.vmaj.toNat = s.umaj ∧ kindOk h.cls.toNat h.kind.toNat = true ∧ pk.rsvd = false ∧ h.nwords.toNat ≤ 512 ∧ pk.lenBad = false ∧ pk.words.length = h.nwords.toNat
      let ours := s.loaded = true ∧ h.job.toNat = s.jobLo
      let passes := open_ ∧ s.frameOk pk.frame = true ∧ good ∧ ours ∧ (h.epoch.toNat = s.epoch ∨ (pel ∧ s.epoch ≤ h.epoch.toNat)) ∧ (pel ∨ (s.gate.catchUp = false ∧ s.catchUpNoise h = false ∧ (cur < h.step.toNat ∨ (h.step.toNat = cur ∧ s.hd PEL_STATUS_ATT ≤ h.att.toNat))))
      let here := passes ∧ h.dstdev.toNat = s.devidx
      here ∧ (h.step.toNat = cur ∨ (pel ∧ h.step.toNat ≠ cur + 1)) ∧ (h.cls ≠ 2 ∨ h.kind ≠ 0) ∧ s.rep.check.own = none ∧ s.net.ctlWait = [] ∧
      h.seq.toNat = x.rxNext ∧ (h.cls ≠ 1 ∨ h.kind ≠ 1) := by
  refine ⟨tP, { tUal with h := { tUal.h with step := 5 } }, tOpen, ?_⟩
  dsimp only
  decide +kernel

-- UalarTimers.
theorem witness_ualarTimers_0 :
    ∃ (s : State),
      s.fenced = true := by
  refine ⟨tPel { Pel.reset with fencedWhy := some 1 }, ?_⟩
  decide +kernel
theorem witness_ualarTimers_3 :
    ∃ (st : StreamId) (ack : BitVec 32) (s : State),
      let key := streamKey st.dev.toNat st.cls.toNat
      let x := s.stream key
      s.fenced = false ∧ (∀ q ∈ x.unacked, ack.toNat ≤ q.1) := by
  refine ⟨⟨1, 0⟩, 7, ({ State.reset with net := { Net.reset with streams := [(4, { Stream.reset with unacked := [(7, 0, tUal)] })] } } : State), ?_⟩
  dsimp only
  decide +kernel
theorem witness_ualarTimers_4 :
    ∃ (s : State),
      s.fenced = false ∧ s.net.ctlWait = [] := by
  refine ⟨State.reset, ?_⟩
  decide +kernel
theorem witness_ualarTimers_6 :
    ∃ (st : StreamId) (s : State),
      let key := streamKey st.dev.toNat st.cls.toNat
      let x := s.stream key
      x.ackDue = false := by
  refine ⟨⟨1, 0⟩, State.reset, ?_⟩
  dsimp only
  decide +kernel
theorem witness_ualarTimers_7 :
    ∃ (st : StreamId) (s : State),
      let key := streamKey st.dev.toNat st.cls.toNat
      let x := s.stream key
      s.fenced = false ∧ x.ackDue = true ∧ (s.routePort s.devidx (key / 4) 2).isSome = true := by
  have hq := tRoute ({ tWith { tImg with routes := [⟨0, 0xFFFF, 1⟩] } with net := { Net.reset with streams := [(4, { Stream.reset with ackDue := true })] } } : State) rfl tImg.devidx 1 2 (by decide)
  refine ⟨⟨1, 0⟩, ({ tWith { tImg with routes := [⟨0, 0xFFFF, 1⟩] } with net := { Net.reset with streams := [(4, { Stream.reset with ackDue := true })] } } : State), ?_⟩
  dsimp only
  exact ⟨by decide +kernel, by decide +kernel, hq⟩
theorem witness_ualarTimers_8 :
    ∃ (st : StreamId) (s : State),
      let key := streamKey st.dev.toNat st.cls.toNat
      let x := s.stream key
      x.ackDue = true ∧ s.routePort s.devidx (key / 4) 2 = none := by
  refine ⟨⟨1, 0⟩, ({ State.reset with net := { Net.reset with streams := [(4, { Stream.reset with ackDue := true })] } } : State), ?_⟩
  dsimp only
  decide +kernel
theorem witness_ualarTimers_9 :
    ∃ (st : StreamId) (s : State),
      let key := streamKey st.dev.toNat st.cls.toNat
      let x := s.stream key
      x.unacked = [] := by
  refine ⟨⟨1, 0⟩, State.reset, ?_⟩
  dsimp only
  decide +kernel
theorem witness_ualarTimers_10 :
    ∃ (st : StreamId) (s : State),
      let key := streamKey st.dev.toNat st.cls.toNat
      let x := s.stream key
      let late := x.unacked.any (fun q => decide (s.d (ndWin 0) UAL_CFG_RTRY ≤ q.2.1))
      s.fenced = false ∧ x.unacked ≠ [] ∧ late = false := by
  refine ⟨⟨1, 0⟩, ({ State.reset with net := { Net.reset with streams := [(4, { Stream.reset with unacked := [(0, 0, tUal)] })] } } : State).setD (ndWin 0) UAL_CFG_RTRY 1, ?_⟩
  dsimp only
  decide +kernel
theorem witness_ualarTimers_11 :
    ∃ (st : StreamId) (s : State),
      let key := streamKey st.dev.toNat st.cls.toNat
      let x := s.stream key
      let late := x.unacked.any (fun q => decide (s.d (ndWin 0) UAL_CFG_RTRY ≤ q.2.1))
      s.fenced = false ∧ x.unacked ≠ [] ∧ late = true := by
  refine ⟨⟨1, 0⟩, ({ State.reset with net := { Net.reset with streams := [(4, { Stream.reset with unacked := [(0, 1, tUal)] })] } } : State).setD (ndWin 0) UAL_CFG_RTRY 1, ?_⟩
  dsimp only
  decide +kernel

-- RatesAndPauses.
theorem witness_ratesAndPauses_1 :
    ∃ (s : State),
      mcanon (64, 0) s.net.rates = true := by
  refine ⟨State.reset, ?_⟩
  decide +kernel
theorem witness_ratesAndPauses_3 :
    ∃ (p : PortId) (s : State),
      let k := portKey p
      let on := (∃ im, s.img = some im ∧ im.pfc = true) ∧ s.portState k = psUP ∧ s.ndRuns k = true
      on ∧ (s.port k).queue = [] := by
  refine ⟨tP, ({ tPort psUP with img := some { tImg with pfc := true } } : State), ?_⟩
  dsimp only
  decide +kernel
theorem witness_ratesAndPauses_6 :
    ∃ (p : PortId) (s : State) (prio : _),
      let k := portKey p
      let on := (∃ im, s.img = some im ∧ im.pfc = true) ∧ s.portState k = psUP ∧ s.ndRuns k = true
      (¬ on ∨ (prio ≠ 1 ∧ prio ≠ 3)) := by
  refine ⟨tP, tPort psUP, 2, ?_⟩
  dsimp only
  decide +kernel
theorem witness_ratesAndPauses_7 :
    ∃ (p : PortId) (s : State) (a : _),
      let k := portKey p
      s.portAddr k = some a ∧ s.ndRuns k = true ∧ s.portsFenced k = false := by
  refine ⟨tP, tWith tImg, BitVec.ofNat 128 17, ?_⟩
  dsimp only
  decide +kernel
theorem witness_ratesAndPauses_8 :
    ∃ (p : PortId) (s : State) (a : _) (b : _),
      let k := portKey p
      s.portAddr k = some a ∧ b ≠ a := by
  refine ⟨tP, tWith tImg, BitVec.ofNat 128 17, 0, ?_⟩
  dsimp only
  decide +kernel
theorem witness_ratesAndPauses_9 :
    ∃ (p : PortId) (s : State),
      let k := portKey p
      (s.portAddr k = none ∨ s.portsFenced k = true ∨ s.ndRuns k = false) := by
  refine ⟨tP, State.reset, ?_⟩
  dsimp only
  decide +kernel
theorem witness_ratesAndPauses_10 :
    ∃ (s : State) (rs : List RouteEntry) (im : Image),
      s.hdRuns = true ∧ s.img = some im ∧ rs ≠ [] := by
  refine ⟨tWith tImg, [⟨0, 0xFFFF, 1⟩], tImg, ?_⟩
  decide +kernel
theorem witness_ratesAndPauses_12 :
    ∃ (s : State),
      (s.img = none ∨ s.hdRuns = false) := by
  refine ⟨State.reset, ?_⟩
  decide +kernel

-- CollectivePosts.
theorem witness_collectivePosts_0 :
    ∃ (c : SiteNo) (s : State),
      let o := s.site c.val
      (o.role = none ∨ ¬ s.clocked c) := by
  refine ⟨0, State.reset, ?_⟩
  dsimp only
  unfold State.clocked
  decide +kernel
theorem witness_collectivePosts_1 :
    ∃ (c : SiteNo) (door : Fin 800) (n : Nat) (s : State) (r : _),
      let o := s.site c.val
      let right := o.role = some door.val ∧ n = 64
      s.clocked c ∧ o.role = some r ∧ (¬ right) := by
  refine ⟨0, 4, 64, tAt ({ Site.reset with role := some 3 } : Site), 3, ?_⟩
  dsimp only
  unfold State.clocked
  decide +kernel
theorem witness_collectivePosts_2 :
    ∃ (c : SiteNo) (door : Fin 800) (n : Nat) (desc : BitVec 512) (s : State),
      let o := s.site c.val
      let q := collOf desc.toNat c.val s.stepNo
      let right := o.role = some door.val ∧ n = 64
      let bad := s.badDesc desc.toNat q
      let addr := s.badCollAddr o.roleNo q
      s.clocked c ∧ right ∧ (bad = true ∨ addr = true) := by
  refine ⟨0, 3, 64, 0, tAt ({ Site.reset with role := some 3 } : Site), ?_⟩
  dsimp only
  unfold State.clocked
  decide +kernel
theorem witness_collectivePosts_3 :
    ∃ (c : SiteNo) (door : Fin 800) (n : Nat) (desc : BitVec 512) (s : State),
      let o := s.site c.val
      let q := collOf desc.toNat c.val s.stepNo
      let right := o.role = some door.val ∧ n = 64
      let bad := s.badDesc desc.toNat q
      let addr := s.badCollAddr o.roleNo q
      s.clocked c ∧ right ∧ bad = false ∧ addr = false := by
  refine ⟨0, 3, 64, (BitVec.ofNat 512 (1 + 4 * 2 ^ 16 + 6 * 2 ^ 32 + 16 * 2 ^ 192 + 65536 * 2 ^ 128 + 131072 * 2 ^ 320)), ({ tAt ({ Site.reset with role := some 3 } : Site) with img := some { tGroups with buffers := [⟨3, 0, 3, 0, 262144⟩] } } : State), ?_⟩
  dsimp only
  unfold State.clocked
  decide +kernel

-- CollectiveMessages.
theorem witness_collectiveMessages_0 :
    ∃ (s : State),
      s.fenced = true := by
  refine ⟨tPel { Pel.reset with fencedWhy := some 1 }, ?_⟩
  decide +kernel
theorem witness_collectiveMessages_4 :
    ∃ (gid : BitVec 16) (bucket : BitVec 16) (s : State) (rank : _),
      let g := gid.toNat
      let b := bucket.toNat
      let decided := s.col.decisions.any (fun d => d.1 = g && d.2.1 = b)
      s.fenced = false ∧ s.rankIn g = some 0 ∧ rank < s.nranks g ∧ decided = false := by
  refine ⟨4, 6, tCol ColSt.reset, 1, ?_⟩
  dsimp only
  decide +kernel
theorem witness_collectiveMessages_5 :
    ∃ (gid : BitVec 16) (bucket : BitVec 16) (s : State) (rank : _),
      let g := gid.toNat
      let b := bucket.toNat
      let decided := s.col.decisions.any (fun d => d.1 = g && d.2.1 = b)
      s.fenced = false ∧ (s.rankIn g ≠ some 0 ∨ s.nranks g ≤ rank ∨ decided = true) := by
  refine ⟨4, 6, tCol { ColSt.reset with decisions := [(4, 6, [], false)] }, 1, ?_⟩
  dsimp only
  decide +kernel
theorem witness_collectiveMessages_6 :
    ∃ (gid : BitVec 16) (bucket : BitVec 16) (s : State),
      let g := gid.toNat
      let b := bucket.toNat
      let decided := s.col.decisions.any (fun d => d.1 = g && d.2.1 = b)
      s.fenced = false ∧ (s.rankIn g).isSome = true ∧ decided = false := by
  refine ⟨4, 6, tCol ColSt.reset, ?_⟩
  dsimp only
  decide +kernel
theorem witness_collectiveMessages_7 :
    ∃ (gid : BitVec 16) (bucket : BitVec 16) (s : State),
      let g := gid.toNat
      let b := bucket.toNat
      let decided := s.col.decisions.any (fun d => d.1 = g && d.2.1 = b)
      s.fenced = false ∧ (s.rankIn g = none ∨ decided = true) := by
  refine ⟨4, 6, tCol { ColSt.reset with decisions := [(4, 6, [], false)] }, ?_⟩
  dsimp only
  decide +kernel
theorem witness_collectiveMessages_9 :
    ∃ (gid : BitVec 16) (bucket : BitVec 16) (s : State),
      let g := gid.toNat
      let b := bucket.toNat
      s.coll g b = none := by
  refine ⟨4, 6, tCol ColSt.reset, ?_⟩
  dsimp only
  decide +kernel
theorem witness_collectiveMessages_10 :
    ∃ (gid : BitVec 16) (bucket : BitVec 16) (s : State) (rank : _) (chunk : _) (ws : List CodeWord) (c : Coll) (me : _) (q : _),
      let g := gid.toNat
      let b := bucket.toNat
      let late := match c.decision with | some d => d.1 | none => []
      s.fenced = false ∧ s.coll g b = some c ∧ s.rankIn g = some me ∧ rank ≠ me ∧ rank < s.nranks g ∧ q ∈ c.pieces (s.nranks g) me rank ∧
      q.1 = chunk ∧ (∀ z ∈ c.pieces (s.nranks g) me rank, z.1 = chunk → z = q) ∧
      ws.length = (c.pad (s.nranks g) rank q.2.1 (decide (rank ∈ s.foldRanks c late)) + leafBytes c.dt (decide (rank ∈ s.foldRanks c late) && c.reduces) * q.2.2 + 7) / 8 ∧
      c.contrib.any (fun x => x.1 = rank && x.2.1 = chunk) = false := by
  refine ⟨4, 6, tCol { ColSt.reset with colls := [tColl] }, 1, 1, [0, 0, 0, 0], tColl, 0, (1, 8, 8), ?_⟩
  dsimp only
  decide +kernel
theorem witness_collectiveMessages_11 :
    ∃ (gid : BitVec 16) (bucket : BitVec 16) (s : State) (rank : _) (chunk : _) (ws : List CodeWord) (c : Coll) (me : _) (q : _),
      let g := gid.toNat
      let b := bucket.toNat
      let late := match c.decision with | some d => d.1 | none => []
      s.fenced = false ∧ s.coll g b = some c ∧ s.rankIn g = some me ∧ rank ≠ me ∧ rank < s.nranks g ∧ q ∈ c.pieces (s.nranks g) me rank ∧
      q.1 = chunk ∧ (∀ z ∈ c.pieces (s.nranks g) me rank, z.1 = chunk → z = q) ∧
      ws.length = (c.pad (s.nranks g) rank q.2.1 (decide (rank ∈ s.foldRanks c late)) + leafBytes c.dt (decide (rank ∈ s.foldRanks c late) && c.reduces) * q.2.2 + 7) / 8 ∧
      c.contrib.any (fun x => x.1 = rank && x.2.1 = chunk) = true := by
  refine ⟨4, 6, tCol { ColSt.reset with colls := [{ tColl with contrib := [(1, 1, [0, 0, 0, 0])] }] }, 1, 1, [0, 0, 0, 0], { tColl with contrib := [(1, 1, [0, 0, 0, 0])] }, 0, (1, 8, 8), ?_⟩
  dsimp only
  decide +kernel
theorem witness_collectiveMessages_12 :
    ∃ (gid : BitVec 16) (bucket : BitVec 16) (s : State) (rank : _),
      let g := gid.toNat
      let b := bucket.toNat
      (s.coll g b = none ∨ s.rankIn g = none ∨ s.rankIn g = some rank ∨ s.nranks g ≤ rank) := by
  refine ⟨4, 6, tCol ColSt.reset, 1, ?_⟩
  dsimp only
  decide +kernel

-- CollectiveEnds.
theorem witness_collectiveEnds_0 :
    ∃ (s : State),
      let on := s.dieRuns (ndWin 0) = true
      (¬ on) := by
  refine ⟨State.reset.setD (ndWin 0) CLK_STATUS_STOPPED 1, ?_⟩
  dsimp only
  decide +kernel
theorem witness_collectiveEnds_5 :
    ∃ (gid : BitVec 16) (bucket : BitVec 16) (s : State),
      let g := gid.toNat
      let b := bucket.toNat
      ((g, b) ∉ s.col.cutoffs ∨ s.recorded g b ≠ none) := by
  refine ⟨4, 6, State.reset, ?_⟩
  dsimp only
  decide +kernel
theorem witness_collectiveEnds_6 :
    ∃ (gid : BitVec 16) (bucket : BitVec 16) (s : State),
      let g := gid.toNat
      let b := bucket.toNat
      let dl := s.groupDl g
      let on := s.dieRuns (ndWin 0) = true
      on ∧ (g, b) ∈ s.col.cutoffs ∧ s.recorded g b = none ∧ (dl.policy = 0 ∨ dl.maxlate < (s.lateRanks g b).length) := by
  refine ⟨4, 6, tCol { ColSt.reset with cutoffs := [(4, 6)] }, ?_⟩
  dsimp only
  decide +kernel
theorem witness_collectiveEnds_7 :
    ∃ (gid : BitVec 16) (bucket : BitVec 16) (s : State),
      let g := gid.toNat
      let b := bucket.toNat
      let dl := s.groupDl g
      let on := s.dieRuns (ndWin 0) = true
      on ∧ (g, b) ∈ s.col.cutoffs ∧ s.recorded g b = none ∧ dl.policy ≠ 0 ∧ (s.lateRanks g b).length ≤ dl.maxlate ∧
      s.col.decisions.any (fun d => d.1 = g && d.2.1 = b) = false := by
  refine ⟨4, 6, ({ tCol { ColSt.reset with cutoffs := [(4, 6)], ready := [(4, 6, [0])] } with img := some { tGroups with groupDl := [⟨4, 1, 1, 1, 1⟩] } } : State), ?_⟩
  dsimp only
  decide +kernel
theorem witness_collectiveEnds_8 :
    ∃ (gid : BitVec 16) (bucket : BitVec 16) (s : State) (c : _) (me : _) (late : _) (fold : _),
      let g := gid.toNat
      let b := bucket.toNat
      let on := s.dieRuns (ndWin 0) = true
      on ∧ s.coll g b = some c ∧ s.rankIn g = some me ∧ c.decision = some (late, fold) ∧ s.collReady c me late = true := by
  refine ⟨4, 6, tCol { ColSt.reset with colls := [{ tColl with decision := some ([1], false) }] }, { tColl with decision := some ([1], false) }, 0, [1], false, ?_⟩
  dsimp only
  decide +kernel
theorem witness_collectiveEnds_9 :
    ∃ (gid : BitVec 16) (bucket : BitVec 16) (s : State) (c : _),
      let g := gid.toNat
      let b := bucket.toNat
      s.coll g b = some c ∧ (c.decision = none ∨ s.rankIn g = none) := by
  refine ⟨4, 6, tCol { ColSt.reset with colls := [tColl] }, tColl, ?_⟩
  dsimp only
  decide +kernel
theorem witness_collectiveEnds_10 :
    ∃ (gid : BitVec 16) (bucket : BitVec 16) (s : State) (c : _) (me : _) (d : _),
      let g := gid.toNat
      let b := bucket.toNat
      s.coll g b = some c ∧ s.rankIn g = some me ∧ c.decision = some d ∧ s.collReady c me d.1 = false := by
  refine ⟨4, 6, tCol { ColSt.reset with colls := [{ tColl with decision := some ([], false) }] }, { tColl with decision := some ([], false) }, 0, ([], false), ?_⟩
  dsimp only
  decide +kernel
theorem witness_collectiveEnds_12 :
    ∃ (gid : BitVec 16) (bucket : BitVec 16) (s : State),
      let g := gid.toNat
      let b := bucket.toNat
      (s.coll g b = none ∨ s.rankIn g = none) := by
  refine ⟨4, 6, State.reset, ?_⟩
  dsimp only
  decide +kernel
theorem witness_collectiveEnds_14 :
    ∃ (gid : BitVec 16) (bucket : BitVec 16) (s : State),
      let g := gid.toNat
      let b := bucket.toNat
      let dl := s.groupDl g
      let awaits := (s.coll g b).isSome = true ∨ (s.rankIn g = some 0 ∧ s.col.decisions.any (fun d => d.1 = g && d.2.1 = b) = false ∧ s.readyRanks g b ≠ [])
      (dl.deadline = 0 ∨ ¬ awaits) := by
  refine ⟨4, 6, State.reset, ?_⟩
  dsimp only
  decide +kernel
theorem witness_collectiveEnds_15 :
    ∃ (gid : BitVec 16) (bucket : BitVec 16) (s : State),
      let g := gid.toNat
      let b := bucket.toNat
      let dl := s.groupDl g
      let on := s.dieRuns (ndWin 0) = true
      let awaits := (s.coll g b).isSome = true ∨ (s.rankIn g = some 0 ∧ s.col.decisions.any (fun d => d.1 = g && d.2.1 = b) = false ∧ s.readyRanks g b ≠ [])
      on ∧ dl.deadline ≠ 0 ∧ awaits := by
  refine ⟨4, 6, ({ tCol { ColSt.reset with colls := [tColl] } with img := some { tGroups with groupDl := [⟨4, 1, 1, 1, 1⟩] } } : State), ?_⟩
  dsimp only
  decide +kernel
theorem witness_collectiveEnds_16 :
    ∃ (s : State),
      (s.d (ndWin 0) BRM_STATUS_TIMER = 0 ∨ s.phaseLimit (s.d (ndWin 0) BRM_STATUS_TIMER) = 0) := by
  refine ⟨State.reset, ?_⟩
  decide +kernel
theorem witness_collectiveEnds_17 :
    ∃ (s : State),
      let on := s.dieRuns (ndWin 0) = true
      on ∧ s.d (ndWin 0) BRM_STATUS_TIMER ≠ 0 ∧ s.phaseLimit (s.d (ndWin 0) BRM_STATUS_TIMER) ≠ 0 := by
  refine ⟨(tWith { tImg with tfb := 1 }).setD (ndWin 0) BRM_STATUS_TIMER 1, ?_⟩
  dsimp only
  decide +kernel

-- PelotonMessages.
theorem witness_pelotonMessages_0 :
    ∃ (i : Instr) (h : PelHdr) (old : Bool) (bad : Bool) (s : State),
      let here := s.hdRuns = true ∧ s.fenced = false
      pelMsg i = some (h, old, bad) ∧ (¬ here) := by
  refine ⟨(.hb tH ⟨0, 2, 0, 0, 0⟩), tH, false, false, tPel { Pel.reset with fencedWhy := some 1 }, ?_⟩
  dsimp only
  decide +kernel
theorem witness_pelotonMessages_1 :
    ∃ (i : Instr) (h : PelHdr) (old : Bool) (bad : Bool) (s : State),
      let here := s.hdRuns = true ∧ s.fenced = false
      let good := s.loaded = true ∧ h.rsvd = false ∧ bad = false ∧ h.job.toNat = s.jobLo
      pelMsg i = some (h, old, bad) ∧ here ∧ (¬ good ∨ (old = false ∧ h.epoch.toNat < s.epoch)) := by
  refine ⟨(.hb { tH with job := 1 } ⟨0, 2, 0, 0, 0⟩), { tH with job := 1 }, false, false, tWith tCaps, ?_⟩
  dsimp only
  decide +kernel
theorem witness_pelotonMessages_2 :
    ∃ (i : Instr) (h : PelHdr) (old : Bool) (bad : Bool) (s : State),
      let here := s.hdRuns = true ∧ s.fenced = false
      let good := s.loaded = true ∧ h.rsvd = false ∧ bad = false ∧ h.job.toNat = s.jobLo
      pelMsg i = some (h, old, bad) ∧ here ∧ good ∧ s.epoch < h.epoch.toNat := by
  refine ⟨(.hb { tH with epoch := 1 } ⟨0, 2, 0, 0, 0⟩), { tH with epoch := 1 }, false, false, tWith tCaps, ?_⟩
  dsimp only
  decide +kernel
theorem witness_pelotonMessages_3 :
    ∃ (i : Instr) (h : PelHdr) (old : Bool) (bad : Bool) (s : State),
      let here := s.hdRuns = true ∧ s.fenced = false
      let good := s.loaded = true ∧ h.rsvd = false ∧ bad = false ∧ h.job.toNat = s.jobLo
      pelMsg i = some (h, old, bad) ∧ here ∧ good ∧ old = true ∧ h.epoch.toNat < s.epoch ∧ s.epoch < 2 ^ 32 := by
  refine ⟨(.fencedMsg tH ⟨5, 0, 0⟩), tH, true, false, (tWith tCaps).setHd PEL_STATUS_EPOCH 1, ?_⟩
  dsimp only
  decide +kernel

-- Heartbeats.
theorem witness_heartbeats_0 :
    ∃ (s : State),
      let part := s.hdRuns = true ∧ s.loaded = true ∧ s.hasCaptains = true ∧ s.fenced = false
      part := by
  refine ⟨tWith tCaps, ?_⟩
  dsimp only
  decide +kernel
theorem witness_heartbeats_1 :
    ∃ (s : State),
      let part := s.hdRuns = true ∧ s.loaded = true ∧ s.hasCaptains = true ∧ s.fenced = false
      (¬ part) := by
  refine ⟨tPel { Pel.reset with fencedWhy := some 1 }, ?_⟩
  dsimp only
  decide +kernel
theorem witness_heartbeats_3 :
    ∃ (s : State),
      s.hdRuns = true ∧ s.loaded = true ∧ s.hasCaptains = true ∧ s.inQuorum = false ∧ s.fenced = false := by
  refine ⟨tWith tCaps, ?_⟩
  decide +kernel
theorem witness_heartbeats_5 :
    ∃ (s : State),
      (s.hdRuns = false ∨ s.loaded = false ∨ s.hasCaptains = false ∨ s.inQuorum = true) := by
  refine ⟨tWith tImg, ?_⟩
  decide +kernel
theorem witness_heartbeats_6 :
    ∃ (s : State) (h : PelHdr) (m : HbMsg),
      s.takes h ∧ m.state.toNat ≤ 2 ∧ m.plane ≠ 3 ∧ s.hasCaptains = false := by
  refine ⟨tWith tImg, tH, tHb, ?_⟩
  unfold State.takes
  decide +kernel
theorem witness_heartbeats_7 :
    ∃ (s : State) (h : PelHdr) (m : HbMsg),
      let src := h.src.toNat
      let x := mfind s.pel.heard src
      let known := match x with | some y => y.seqs | none => []
      s.takes h ∧ m.state.toNat ≤ 2 ∧ m.plane ≠ 3 ∧ s.hasCaptains = true ∧ m.hbseq.toNat ∉ known := by
  refine ⟨tWith tCaps, tH, tHb, ?_⟩
  dsimp only
  unfold State.takes
  decide +kernel
theorem witness_heartbeats_8 :
    ∃ (s : State) (h : PelHdr) (m : HbMsg) (y : _),
      let src := h.src.toNat
      let x := mfind s.pel.heard src
      s.takes h ∧ m.state.toNat ≤ 2 ∧ m.plane ≠ 3 ∧ s.hasCaptains = true ∧ x = some y ∧ m.hbseq.toNat ∈ y.seqs := by
  refine ⟨tPel { Pel.reset with heard := [(1, ⟨0, 0, 1, [0]⟩)] }, tH, tHb, ⟨0, 0, 1, [0]⟩, ?_⟩
  dsimp only
  unfold State.takes
  decide +kernel
theorem witness_heartbeats_9 :
    ∃ (s : State) (subj : BitVec 16),
      let counts := s.hdRuns = true ∧ s.fenced = false ∧ s.hasCaptains = true ∧ subj.toNat ∈ s.subjects
      counts := by
  refine ⟨((tWith { tCaps with resil := { tCaps.resil with subjects := [1] } }).setHd (PEL_SUBJ_DEV 15) 1), 1, ?_⟩
  dsimp only
  decide +kernel
theorem witness_heartbeats_10 :
    ∃ (s : State) (subj : BitVec 16),
      let counts := s.hdRuns = true ∧ s.fenced = false ∧ s.hasCaptains = true ∧ subj.toNat ∈ s.subjects
      (¬ counts) := by
  refine ⟨tWith tCaps, 1, ?_⟩
  dsimp only
  decide +kernel

-- Proposals.
theorem witness_proposals_0 :
    ∃ (s : State) (h : PelHdr) (subj : BitVec 16),
      let d := subj.toNat
      s.takes h ∧ s.captainFor d = true := by
  refine ⟨tWith tCaps, tH, 2, ?_⟩
  dsimp only
  unfold State.takes
  decide +kernel
theorem witness_proposals_1 :
    ∃ (s : State) (h : PelHdr) (subj : BitVec 16),
      let d := subj.toNat
      s.takes h ∧ s.captainFor d = false := by
  refine ⟨tWith tCaps, tH, 256, ?_⟩
  dsimp only
  unfold State.takes
  decide +kernel
-- Under a premise on what the model leaves free or what no kernel evaluates: an opaque value of Config, or a signature on P-521 that holds.
theorem witness_proposals_3 (h : Config.watchersOf 2 = [5]) :
    ∃ (s : State) (subj : BitVec 16),
      let d := subj.toNat
      let confirms := s.hdRuns = true ∧ s.fenced = false ∧ s.hasCaptains = true ∧ s.captainFor d = true ∧ s.declared d = false ∧ s.majorityReports d = true ∧ (s.heardLately d = false ∨ s.stoodLong d = true) ∧ (s.backupFor d = false ∨ (s.proposalSeen d = false ∧ s.stoodLong d = true))
      confirms := by
  refine ⟨tPel { Pel.reset with reports := [(2, 5)] }, 2, ?_⟩
  dsimp only
  have hm : (tPel { Pel.reset with reports := [(2, 5)] }).majorityReports (2 : BitVec 16).toNat = true := by
    unfold State.majorityReports
    rw [show Config.watchersOf (2 : BitVec 16).toNat = [5] from h]
    decide +kernel
  exact ⟨by decide +kernel, by decide +kernel, by decide +kernel, by decide +kernel, by decide +kernel, hm, Or.inl (by decide +kernel), Or.inl (by decide +kernel)⟩
theorem witness_proposals_4 :
    ∃ (s : State) (subj : BitVec 16),
      let d := subj.toNat
      let confirms := s.hdRuns = true ∧ s.fenced = false ∧ s.hasCaptains = true ∧ s.captainFor d = true ∧ s.declared d = false ∧ s.majorityReports d = true ∧ (s.heardLately d = false ∨ s.stoodLong d = true) ∧ (s.backupFor d = false ∨ (s.proposalSeen d = false ∧ s.stoodLong d = true))
      (¬ confirms) := by
  refine ⟨tWith tCaps, 256, ?_⟩
  dsimp only
  decide +kernel
theorem witness_proposals_5 :
    ∃ (s : State) (subj : BitVec 16),
      let d := subj.toNat
      s.declared d = false ∧ s.epoch < 2 ^ 32 - 1 ∧ s.pel.proposal = none ∧ s.fenced = false ∧ s.captains ≠ [] := by
  refine ⟨tWith tCaps, 256, ?_⟩
  dsimp only
  decide +kernel
theorem witness_proposals_7 :
    ∃ (s : State) (h : PelHdr) (m : ProposeMsg),
      let src := h.src.toNat
      let caps := s.isCaptain s.devidx = true ∧ s.isCaptain src = true
      s.takes h ∧ m.cause.toNat ≤ 0x0E ∧ (¬ caps) := by
  refine ⟨tWith tCaps, { tH with src := 9 }, ⟨1, 2, 0x0E⟩, ?_⟩
  dsimp only
  unfold State.takes
  decide +kernel
theorem witness_proposals_8 :
    ∃ (s : State) (h : PelHdr) (m : ProposeMsg),
      let src := h.src.toNat
      let caps := s.isCaptain s.devidx = true ∧ s.isCaptain src = true
      let mine := (m.newEp.toNat, m.subj.toNat, src)
      s.takes h ∧ m.cause.toNat ≤ 0x0E ∧ caps ∧ (s.pel.accepted = some mine ∨ (m.newEp.toNat = s.epoch + 1 ∧
      ∀ a, s.pel.accepted = some a → a.1 ≠ m.newEp.toNat)) := by
  refine ⟨tWith tCaps, tH, ⟨1, 2, 0x0E⟩, ?_⟩
  dsimp only
  unfold State.takes
  decide +kernel
theorem witness_proposals_9 :
    ∃ (s : State) (h : PelHdr) (m : ProposeMsg) (a : _),
      let src := h.src.toNat
      let caps := s.isCaptain s.devidx = true ∧ s.isCaptain src = true
      let mine := (m.newEp.toNat, m.subj.toNat, src)
      s.takes h ∧ m.cause.toNat ≤ 0x0E ∧ caps ∧ s.pel.accepted = some a ∧ a ≠ mine ∧ a.1 = m.newEp.toNat := by
  refine ⟨tPel { Pel.reset with accepted := some (1, 2, 2) }, tH, ⟨1, 2, 0x0E⟩, (1, 2, 2), ?_⟩
  dsimp only
  unfold State.takes
  decide +kernel
theorem witness_proposals_10 :
    ∃ (s : State) (h : PelHdr) (m : ProposeMsg),
      let src := h.src.toNat
      let caps := s.isCaptain s.devidx = true ∧ s.isCaptain src = true
      s.takes h ∧ m.cause.toNat ≤ 0x0E ∧ caps ∧ m.newEp.toNat ≠ s.epoch + 1 ∧ (∀ a, s.pel.accepted = some a → a.1 ≠ m.newEp.toNat) := by
  refine ⟨tWith tCaps, tH, ⟨2, 2, 0x0E⟩, ?_⟩
  dsimp only
  exact ⟨by unfold State.takes; decide +kernel, by decide +kernel, by decide +kernel, by decide +kernel, (fun a h => nomatch (h : (none : Option (Nat × Nat × Nat)) = some a))⟩
theorem witness_proposals_11 :
    ∃ (s : State) (h : PelHdr) (m : AcceptMsg) (p : _),
      let src := h.src.toNat
      s.takes h ∧ s.pel.proposal = some p ∧ m.same = true ∧ m.newEp.toNat = p.newEp ∧ m.subj.toNat = p.subj ∧ s.isCaptain src = true ∧ src ∉ p.accepts := by
  refine ⟨tPel { Pel.reset with proposal := some ⟨1, 2, 0, []⟩ }, tH, ⟨1, 2, true⟩, ⟨1, 2, 0, []⟩, ?_⟩
  dsimp only
  unfold State.takes
  decide +kernel
theorem witness_proposals_12 :
    ∃ (s : State) (h : PelHdr) (m : AcceptMsg),
      let src := h.src.toNat
      s.takes h ∧
      (∀ p, s.pel.proposal = some p → m.same = false ∨ m.newEp.toNat ≠ p.newEp ∨ m.subj.toNat ≠ p.subj ∨ s.isCaptain src = false ∨ src ∈ p.accepts) := by
  refine ⟨tWith tCaps, tH, ⟨1, 2, true⟩, ?_⟩
  dsimp only
  exact ⟨by unfold State.takes; decide +kernel, (fun a h => nomatch (h : (none : Option (Proposal)) = some a))⟩
theorem witness_proposals_13 :
    ∃ (s : State),
      (s.hdRuns = false ∨ s.fenced = true) := by
  refine ⟨tPel { Pel.reset with fencedWhy := some 1 }, ?_⟩
  decide +kernel
theorem witness_proposals_14 :
    ∃ (s : State),
      s.hdRuns = true ∧ s.fenced = false ∧ s.pel.proposal = none := by
  refine ⟨tWith tCaps, ?_⟩
  decide +kernel
theorem witness_proposals_15 :
    ∃ (s : State) (p : _),
      s.hdRuns = true ∧ s.fenced = false ∧ s.pel.proposal = some p ∧ s.captains.length < 2 * p.accepts.length := by
  refine ⟨tPel { Pel.reset with proposal := some ⟨1, 2, 0, [0, 1]⟩ }, ⟨1, 2, 0, [0, 1]⟩, ?_⟩
  decide +kernel
theorem witness_proposals_16 :
    ∃ (s : State) (p : _),
      s.hdRuns = true ∧ s.fenced = false ∧ s.pel.proposal = some p ∧ 2 * p.accepts.length ≤ s.captains.length := by
  refine ⟨tPel { Pel.reset with proposal := some ⟨1, 2, 0, []⟩ }, ⟨1, 2, 0, []⟩, ?_⟩
  decide +kernel

-- Declarations.
theorem witness_declarations_0 :
    ∃ (s : State) (h : PelHdr) (m : DeclareMsg),
      s.takes h ∧ m.cause.toNat ≤ 0x0E ∧ m.tier ≠ 0 ∧ m.newEp.toNat ≤ s.epoch := by
  refine ⟨tWith tCaps, tH, ⟨0, 2, 0x0E, 3, 0, 0⟩, ?_⟩
  unfold State.takes
  decide +kernel
theorem witness_declarations_2 :
    ∃ (s : State) (h : PelHdr) (m : DeclareMsg),
      s.takes h ∧ m.cause.toNat ≤ 0x0E ∧ m.tier ≠ 0 ∧ m.newEp.toNat = s.epoch + 1 ∧ s.pel.held = [] := by
  refine ⟨tWith tCaps, tH, ⟨1, 2, 0, 1, 0, 0⟩, ?_⟩
  unfold State.takes
  decide +kernel
theorem witness_declarations_3 :
    ∃ (s : State) (h : PelHdr) (m : DeclareMsg),
      s.takes h ∧ m.cause.toNat ≤ 0x0E ∧ m.tier ≠ 0 ∧ s.epoch + 1 < m.newEp.toNat ∧ (∀ x ∈ s.pel.held, x.2 ≠ m) := by
  refine ⟨tWith tCaps, tH, ⟨2, 2, 0, 1, 0, 0⟩, ?_⟩
  unfold State.takes
  decide +kernel
theorem witness_declarations_4 :
    ∃ (s : State) (h : PelHdr) (m : DeclareMsg),
      s.takes h ∧ m.cause.toNat ≤ 0x0E ∧ m.tier ≠ 0 ∧ s.epoch + 1 < m.newEp.toNat ∧ (∃ x ∈ s.pel.held, x.2 = m) := by
  refine ⟨tPel { Pel.reset with held := [(1, ⟨2, 2, 0, 1, 0, 0⟩)] }, tH, ⟨2, 2, 0, 1, 0, 0⟩, ?_⟩
  unfold State.takes
  decide +kernel
theorem witness_declarations_5 :
    ∃ (s : State) (h : PelHdr) (e : BitVec 32),
      let l := (s.pel.adopted.filter (fun d => decide (e.toNat < d.1))).take 64
      s.takes h ∧ (s.isCaptain s.devidx = false ∨ l = []) := by
  refine ⟨tWith tCaps, tH, 0, ?_⟩
  dsimp only
  unfold State.takes
  decide +kernel
theorem witness_declarations_6 :
    ∃ (s : State) (h : PelHdr) (e : BitVec 32),
      let l := (s.pel.adopted.filter (fun d => decide (e.toNat < d.1))).take 64
      s.takes h ∧ s.isCaptain s.devidx = true ∧ l ≠ [] := by
  refine ⟨tPel { Pel.reset with adopted := [(1, 2, 0)] }, tH, 0, ?_⟩
  dsimp only
  unfold State.takes
  decide +kernel
theorem witness_declarations_7 :
    ∃ (s : State) (h : PelHdr) (ws : List (BitVec 64)),
      s.takes h ∧ ws ≠ [] ∧ ws.length ≤ 64 ∧ (∀ w ∈ ws, w.toNat < 2 ^ 56 ∧ w.toNat / 2 ^ 48 ≤ 0x0E) ∧ (∀ w ∈ ws, w.toNat % 2 ^ 32 ≠ s.epoch + 1) ∧
      s.pel.held = [] := by
  refine ⟨tWith tCaps, tH, [BitVec.ofNat 64 2], ?_⟩
  exact ⟨by unfold State.takes; decide +kernel, by decide +kernel, by decide +kernel, (fun w hw => by cases List.mem_singleton.mp hw; decide +kernel), (fun w hw => by cases List.mem_singleton.mp hw; decide +kernel), by decide +kernel⟩
theorem witness_declarations_8 :
    ∃ (s : State) (h : PelHdr) (ws : List (BitVec 64)) (w : _) (l : _),
      s.takes h ∧ ws ≠ [] ∧ ws.length ≤ 64 ∧ (∀ w ∈ ws, w.toNat < 2 ^ 56 ∧ w.toNat / 2 ^ 48 ≤ 0x0E) ∧ ws = w :: l ∧ w.toNat % 2 ^ 32 = s.epoch + 1 := by
  refine ⟨tWith tCaps, tH, [BitVec.ofNat 64 (0x0E * 2 ^ 48 + 1)], BitVec.ofNat 64 (0x0E * 2 ^ 48 + 1), [], ?_⟩
  exact ⟨by unfold State.takes; decide +kernel, by decide +kernel, by decide +kernel, (fun w hw => by cases List.mem_singleton.mp hw; decide +kernel), by decide +kernel, by decide +kernel⟩

-- PelotonOrders.
theorem witness_pelotonOrders_0 :
    ∃ (s : State) (h : PelHdr) (m : FaultMsg),
      let cap := s.isCaptain s.devidx = true
      s.takes h ∧ m.cause.toNat ≤ 0x0E ∧ (¬ cap) := by
  refine ⟨tWith tImg, tH, ⟨0x0E, 0, 0, false⟩, ?_⟩
  dsimp only
  unfold State.takes
  decide +kernel
theorem witness_pelotonOrders_1 :
    ∃ (s : State) (h : PelHdr) (m : FaultMsg),
      let src := h.src.toNat
      let b := m.blame.toNat
      let c := m.cause.toNat
      let key := (h.step.toNat, h.att.toNat, src, c, b, m.detail.toNat)
      let cap := s.isCaptain s.devidx = true
      s.takes h ∧ m.cause.toNat ≤ 0x0E ∧ cap ∧ key ∉ s.pel.faultsSeen ∧ c = 6 ∧ s.captainFor b = true ∧ s.backupFor b = false ∧ s.declared b = false := by
  refine ⟨tWith tCaps, tH, ⟨6, 2, 0, false⟩, ?_⟩
  dsimp only
  unfold State.takes
  decide +kernel
theorem witness_pelotonOrders_2 :
    ∃ (s : State) (h : PelHdr) (m : FaultMsg),
      let src := h.src.toNat
      let b := m.blame.toNat
      let c := m.cause.toNat
      let key := (h.step.toNat, h.att.toNat, src, c, b, m.detail.toNat)
      let cap := s.isCaptain s.devidx = true
      s.takes h ∧ m.cause.toNat ≤ 0x0E ∧ cap ∧ s.isLead = true ∧ key ∈ s.pel.faultsSeen := by
  refine ⟨tPel { Pel.reset with faultsSeen := [(0, 0, 1, 0x0E, 0, 0)] }, tH, ⟨0x0E, 0, 0, false⟩, ?_⟩
  dsimp only
  unfold State.takes
  decide +kernel
theorem witness_pelotonOrders_3 :
    ∃ (s : State) (h : PelHdr) (m : FaultMsg),
      let src := h.src.toNat
      let b := m.blame.toNat
      let c := m.cause.toNat
      let key := (h.step.toNat, h.att.toNat, src, c, b, m.detail.toNat)
      let cap := s.isCaptain s.devidx = true
      let late := c = 2 ∧ m.detail.toNat = 7
      s.takes h ∧ m.cause.toNat ≤ 0x0E ∧ cap ∧ c ≠ 6 ∧ (¬ late) ∧ s.isLead = true ∧ key ∉ s.pel.faultsSeen := by
  refine ⟨tWith tCaps, tH, ⟨0x0E, 0, 0, false⟩, ?_⟩
  dsimp only
  unfold State.takes
  decide +kernel
theorem witness_pelotonOrders_4 :
    ∃ (s : State) (h : PelHdr) (m : FaultMsg) (l : _),
      let src := h.src.toNat
      let c := m.cause.toNat
      let cap := s.isCaptain s.devidx = true
      let late := c = 2 ∧ m.detail.toNat = 7
      s.takes h ∧ m.cause.toNat ≤ 0x0E ∧ cap ∧ (¬ late) ∧ s.isLead = false ∧ s.captainFor src = true ∧ s.leadCaptain = some l := by
  refine ⟨({ tWith { tCaps with devidx := 1 } with pel := Pel.reset } : State), tH, ⟨0x0E, 0, 0, false⟩, 0, ?_⟩
  dsimp only
  unfold State.takes
  decide +kernel
theorem witness_pelotonOrders_5 :
    ∃ (s : State) (h : PelHdr) (m : FaultMsg),
      let src := h.src.toNat
      let c := m.cause.toNat
      let cap := s.isCaptain s.devidx = true
      let late := c = 2 ∧ m.detail.toNat = 7
      s.takes h ∧ m.cause.toNat ≤ 0x0E ∧ cap ∧ c ≠ 6 ∧ (¬ late) ∧ s.isLead = false ∧ s.captainFor src = false := by
  refine ⟨({ tWith { tCaps with devidx := 1 } with pel := Pel.reset } : State), { tH with src := 256 }, ⟨0x0E, 0, 0, false⟩, ?_⟩
  dsimp only
  unfold State.takes
  decide +kernel
theorem witness_pelotonOrders_6 :
    ∃ (s : State) (h : PelHdr) (m : FaultMsg) (u : _),
      let src := h.src.toNat
      let b := m.blame.toNat
      let c := m.cause.toNat
      let key := (h.step.toNat, h.att.toNat, src, c, b, m.detail.toNat)
      let cap := s.isCaptain s.devidx = true
      let late := c = 2 ∧ m.detail.toNat = 7
      s.takes h ∧ m.cause.toNat ≤ 0x0E ∧ cap ∧ late ∧ key ∉ s.pel.faultsSeen ∧ s.tier2Of b = some u := by
  refine ⟨({ tWith tCaps with rep := { Rep.reset with tier2 := [⟨2, 6, 0, 1, [], [], [], [], []⟩] } } : State), tH, ⟨2, 2, 7, false⟩, ⟨2, 6, 0, 1, [], [], [], [], []⟩, ?_⟩
  dsimp only
  unfold State.takes
  decide +kernel
theorem witness_pelotonOrders_7 :
    ∃ (s : State) (h : PelHdr) (m : FaultMsg),
      let b := m.blame.toNat
      let c := m.cause.toNat
      let cap := s.isCaptain s.devidx = true
      let late := c = 2 ∧ m.detail.toNat = 7
      s.takes h ∧ m.cause.toNat ≤ 0x0E ∧ cap ∧ late ∧ s.tier2Of b = none := by
  refine ⟨tWith tCaps, tH, ⟨2, 2, 7, false⟩, ?_⟩
  dsimp only
  unfold State.takes
  decide +kernel
theorem witness_pelotonOrders_8 :
    ∃ (s : State) (h : PelHdr) (m : RewindMsg),
      let b := m.step.toNat
      let cur := Nat.max (if b = s.stepNo.toNat then s.hd PEL_STATUS_ATT else 0) (s.attOf b)
      s.takes h ∧ m.cause.toNat ≤ 0x0E ∧ m.tier ≠ 0 ∧ m.att.toNat ≤ cur := by
  refine ⟨tWith tCaps, tH, ⟨0, 0, 1, 0⟩, ?_⟩
  dsimp only
  unfold State.takes
  decide +kernel
theorem witness_pelotonOrders_9 :
    ∃ (s : State) (h : PelHdr) (m : RewindMsg),
      let b := m.step.toNat
      let cur := Nat.max (if b = s.stepNo.toNat then s.hd PEL_STATUS_ATT else 0) (s.attOf b)
      s.takes h ∧ m.cause.toNat ≤ 0x0E ∧ m.tier ≠ 0 ∧ cur < m.att.toNat ∧ s.host.halted = true := by
  refine ⟨({ tWith tCaps with host := { HostSt.reset with halted := true } } : State), tH, ⟨1, 0x0E, 1, 0⟩, ?_⟩
  dsimp only
  unfold State.takes
  decide +kernel
theorem witness_pelotonOrders_10 :
    ∃ (s : State) (h : PelHdr) (m : RewindMsg),
      let b := m.step.toNat
      let cur := Nat.max (if b = s.stepNo.toNat then s.hd PEL_STATUS_ATT else 0) (s.attOf b)
      s.takes h ∧ m.cause.toNat ≤ 0x0E ∧ m.tier ≠ 0 ∧ cur < m.att.toNat ∧ s.host.halted = false := by
  refine ⟨({ (tWith tCaps).setHd PEL_CGSTATE_STATE gRUN with host := { HostSt.reset with admitted := true } } : State), tH, ⟨1, 0x0E, 1, 0⟩, ?_⟩
  dsimp only
  unfold State.takes
  decide +kernel
theorem witness_pelotonOrders_11 :
    ∃ (s : State) (h : PelHdr) (c : BitVec 8),
      s.takes h ∧ c.toNat ≤ 0x0E ∧ s.host.halted = true := by
  refine ⟨({ tWith tCaps with host := { HostSt.reset with halted := true } } : State), tH, 0x0E, ?_⟩
  unfold State.takes
  decide +kernel
theorem witness_pelotonOrders_12 :
    ∃ (s : State) (h : PelHdr) (c : BitVec 8),
      s.takes h ∧ c.toNat ≤ 0x0E ∧ s.host.halted = false := by
  refine ⟨tWith tCaps, tH, 0x0E, ?_⟩
  unfold State.takes
  decide +kernel
theorem witness_pelotonOrders_13 :
    ∃ (s : State) (h : PelHdr) (d : BitVec 16),
      s.takes h ∧ s.isCaptain s.devidx = true ∧ d.toNat ∈ s.slice ∧ s.captainFor d.toNat = true := by
  refine ⟨tWith tCaps, tH, 2, ?_⟩
  unfold State.takes
  decide +kernel
theorem witness_pelotonOrders_14 :
    ∃ (s : State) (h : PelHdr) (d : BitVec 16),
      s.takes h ∧ (s.isCaptain s.devidx = false ∨ d.toNat ∉ s.slice) := by
  refine ⟨tWith tCaps, tH, 3, ?_⟩
  unfold State.takes
  decide +kernel
theorem witness_pelotonOrders_15 :
    ∃ (s : State) (h : PelHdr) (d : BitVec 16) (c : _) (l : _),
      s.takes h ∧ s.isCaptain s.devidx = true ∧ d.toNat ∈ s.slice ∧ s.captainFor d.toNat = false ∧ s.captainsOf (podOf d.toNat) = c :: l := by
  refine ⟨(tWith { tCaps with slicen := 300, resil := { tCaps.resil with captains := [(0, 0, 0), (1, 1, 0), (2, 2, 0), (0, 256, 1)] } }), tH, 299, 256, [], ?_⟩
  unfold State.takes
  decide +kernel
theorem witness_pelotonOrders_16 :
    ∃ (s : State) (h : PelHdr) (d : BitVec 16),
      s.takes h ∧ s.captainsOf (podOf d.toNat) = [] := by
  refine ⟨tWith tCaps, tH, 256, ?_⟩
  unfold State.takes
  decide +kernel
theorem witness_pelotonOrders_17 :
    ∃ (s : State) (h : PelHdr) (m : FencedMsg),
      let src := h.src.toNat
      s.takes h ∧ m.reason ≠ 0 ∧ m.reason.toNat ≤ 5 ∧ s.captainFor src = true ∧ src ∈ s.slice ∧ s.declared src = false := by
  refine ⟨tWith tCaps, tH, ⟨5, 0, 0⟩, ?_⟩
  dsimp only
  unfold State.takes
  decide +kernel
theorem witness_pelotonOrders_18 :
    ∃ (s : State) (h : PelHdr) (m : FencedMsg),
      let src := h.src.toNat
      s.takes h ∧ m.reason ≠ 0 ∧ m.reason.toNat ≤ 5 ∧ (s.captainFor src = false ∨ src ∉ s.slice ∨ s.declared src = true) := by
  refine ⟨tPel { Pel.reset with gone := [1] }, tH, ⟨5, 0, 0⟩, ?_⟩
  dsimp only
  unfold State.takes
  decide +kernel
theorem witness_pelotonOrders_19 :
    ∃ (s : State) (h : PelHdr) (k : BitVec 8) (n : BitVec 32),
      let src := h.src.toNat
      let last := k.toNat = 7 ∧ s.isLead = true ∧ (n.toNat + 1) % 256 = s.nextAtt s.faultBoundary ∧ s.slice.all (fun d => s.declared d || d = src || (7, n.toNat, d) ∈ s.pel.acks) = true
      s.takes h ∧ (¬ last) := by
  refine ⟨tWith tCaps, tH, 6, 0, ?_⟩
  dsimp only
  unfold State.takes
  decide +kernel
theorem witness_pelotonOrders_20 :
    ∃ (s : State) (h : PelHdr) (k : BitVec 8) (n : BitVec 32),
      let src := h.src.toNat
      let last := k.toNat = 7 ∧ s.isLead = true ∧ (n.toNat + 1) % 256 = s.nextAtt s.faultBoundary ∧ s.slice.all (fun d => s.declared d || d = src || (7, n.toNat, d) ∈ s.pel.acks) = true
      s.takes h ∧ last := by
  refine ⟨tPel { Pel.reset with acks := [(7, 0, 0), (7, 0, 2)] }, tH, 7, 0, ?_⟩
  dsimp only
  unfold State.takes
  decide +kernel

-- CircuitSwitch.
theorem witness_circuitSwitch_0 :
    ∃ (s : State) (ps : List OcsPair),
      let ask := s.mayAsk = true
      ask ∧ ps ≠ [] ∧ ps.length ≤ 18 := by
  refine ⟨tWith tCaps, List.replicate 18 ⟨0, 0, 0, false, 0, 0, 0⟩, ?_⟩
  dsimp only
  decide +kernel
theorem witness_circuitSwitch_1 :
    ∃ (s : State) (ps : List OcsPair),
      let ask := s.mayAsk = true
      (¬ ask ∨ ps = [] ∨ 18 < ps.length) := by
  refine ⟨tWith tCaps, List.replicate 19 ⟨0, 0, 0, false, 0, 0, 0⟩, ?_⟩
  dsimp only
  decide +kernel
theorem witness_circuitSwitch_2 :
    ∃ (s : State) (m : OcsRsp),
      let ask := s.mayAsk = true
      (¬ ask ∨ m.magic ≠ 0x4F43 ∨ m.ver ≠ 1 ∨ m.typ ≠ 2) := by
  refine ⟨tWith tCaps, { tRsp 0 with magic := 0 }, ?_⟩
  dsimp only
  decide +kernel
theorem witness_circuitSwitch_3 :
    ∃ (s : State) (m : OcsRsp),
      let ask := s.mayAsk = true
      ask ∧ m.magic = 0x4F43 ∧ m.ver = 1 ∧ m.typ = 2 ∧ s.ocsFind m.reqid.toNat = none ∧ (∀ o ∈ s.pel.ocsOld, o.1 ≠ m.reqid.toNat) := by
  refine ⟨tPel { Pel.reset with ocs := [tOcs true] }, { tRsp 0 with reqid := 8 }, ?_⟩
  dsimp only
  decide +kernel
theorem witness_circuitSwitch_4 :
    ∃ (s : State) (m : OcsRsp) (o : _),
      let ask := s.mayAsk = true
      ask ∧ m.magic = 0x4F43 ∧ m.ver = 1 ∧ m.typ = 2 ∧ s.ocsFind m.reqid.toNat = none ∧ s.pel.ocsOld.find? (fun o => o.1 = m.reqid.toNat) = some o := by
  refine ⟨tPel { Pel.reset with ocs := [tOcs true], ocsOld := [(8, [])] }, { tRsp 0 with reqid := 8 }, (8, []), ?_⟩
  dsimp only
  decide +kernel
theorem witness_circuitSwitch_5 :
    ∃ (s : State) (m : OcsRsp) (r : _),
      let ask := s.mayAsk = true
      ask ∧ m.magic = 0x4F43 ∧ m.ver = 1 ∧ m.typ = 2 ∧ s.ocsFind m.reqid.toNat = some r := by
  refine ⟨tPel { Pel.reset with ocs := [tOcs true] }, tRsp 0, tOcs true, ?_⟩
  dsimp only
  decide +kernel
theorem witness_circuitSwitch_6 :
    ∃ (s : State) (r : _),
      let ask := s.mayAsk = true
      ask ∧ s.pel.ocs.find? (·.busy) = some r := by
  refine ⟨tPel { Pel.reset with ocs := [tOcs true] }, tOcs true, ?_⟩
  dsimp only
  decide +kernel
theorem witness_circuitSwitch_7 :
    ∃ (s : State) (r : _),
      let ask := s.mayAsk = true
      ask ∧ s.pel.ocs.find? (fun q => !q.busy) = some r := by
  refine ⟨tPel { Pel.reset with ocs := [tOcs false] }, tOcs false, ?_⟩
  dsimp only
  decide +kernel
theorem witness_circuitSwitch_8 :
    ∃ (s : State),
      let ask := s.mayAsk = true
      (¬ ask ∨ s.pel.ocs.find? (·.busy) = none) := by
  refine ⟨tWith tCaps, ?_⟩
  dsimp only
  decide +kernel
theorem witness_circuitSwitch_9 :
    ∃ (s : State),
      let ask := s.mayAsk = true
      (¬ ask ∨ s.pel.ocs.find? (fun q => !q.busy) = none) := by
  refine ⟨tWith tCaps, ?_⟩
  dsimp only
  decide +kernel
theorem witness_circuitSwitch_10 :
    ∃ (s : State) (r : _),
      let ask := s.mayAsk = true
      ask ∧ s.ocsOldest = some r ∧ r.rest = false := by
  refine ⟨tPel { Pel.reset with ocs := [tOcs false] }, tOcs false, ?_⟩
  dsimp only
  decide +kernel
theorem witness_circuitSwitch_11 :
    ∃ (s : State) (r : _),
      let ask := s.mayAsk = true
      ask ∧ s.ocsOldest = some r ∧ r.rest = true := by
  refine ⟨tPel { Pel.reset with ocs := [{ tOcs true with rest := true }] }, { tOcs true with rest := true }, ?_⟩
  dsimp only
  decide +kernel
theorem witness_circuitSwitch_12 :
    ∃ (s : State),
      let ask := s.mayAsk = true
      (¬ ask ∨ s.ocsOldest = none) := by
  refine ⟨tWith tCaps, ?_⟩
  dsimp only
  decide +kernel

-- AlarmsAndFences.
theorem witness_alarmsAndFences_0 :
    ∃ (s : State) (c : Fin 16),
      (c.val = 0 ∨ 4 < c.val ∨ s.hdRuns = false) := by
  refine ⟨State.reset, 5, ?_⟩
  decide +kernel
theorem witness_alarmsAndFences_1 :
    ∃ (s : State) (c : Fin 16),
      1 ≤ c.val ∧ c.val ≤ 4 ∧ s.hdRuns = true := by
  refine ⟨State.reset, 4, ?_⟩
  decide +kernel
theorem witness_alarmsAndFences_2 :
    ∃ (s : State),
      s.hdRuns = true ∧ s.fenced = false := by
  refine ⟨State.reset, ?_⟩
  decide +kernel
theorem witness_alarmsAndFences_3 :
    ∃ (s : State),
      (s.hdRuns = false ∨ s.fenced = true) := by
  refine ⟨tPel { Pel.reset with fencedWhy := some 1 }, ?_⟩
  decide +kernel
theorem witness_alarmsAndFences_4 :
    ∃ (s : State) (why : _),
      s.hdRuns = true ∧ s.pel.fencedWhy = some why ∧ s.podCaptains ≠ [] := by
  refine ⟨tPel { Pel.reset with fencedWhy := some 5 }, 5, ?_⟩
  decide +kernel
theorem witness_alarmsAndFences_5 :
    ∃ (s : State),
      (s.hdRuns = false ∨ s.pel.fencedWhy = none ∨ s.podCaptains = []) := by
  refine ⟨State.reset, ?_⟩
  decide +kernel

-- ClockFaults.
theorem witness_clockFaults_0 :
    ∃ (d : Fin 12) (s : State),
      let runs := s.d d.val CLK_STATUS_STOPPED ≠ 1
      (¬ runs) := by
  refine ⟨11, State.reset.setD 11 CLK_STATUS_STOPPED 1, ?_⟩
  dsimp only
  decide +kernel
theorem witness_clockFaults_1 :
    ∃ (d : Fin 12) (s : State),
      let runs := s.d d.val CLK_STATUS_STOPPED ≠ 1
      runs := by
  refine ⟨11, State.reset, ?_⟩
  dsimp only
  decide +kernel
theorem witness_clockFaults_2 :
    ∃ (s : State),
      s.pel.standby = true ∧ s.podCaptains ≠ [] := by
  refine ⟨tPel { Pel.reset with standby := true }, ?_⟩
  decide +kernel
theorem witness_clockFaults_5 :
    ∃ (s : State),
      s.pel.standby = false := by
  refine ⟨State.reset, ?_⟩
  decide +kernel
theorem witness_clockFaults_7 :
    ∃ (s : State),
      (s.pel.standby = false ∨ s.podCaptains = []) := by
  refine ⟨State.reset.setD 11 CLK_STATUS_STOPPED 1, ?_⟩
  decide +kernel

-- CheckpointRound.
theorem witness_checkpointRound_0 :
    ∃ (m : CkMsg) (s : State),
      s.ckOrdered m 1 = false := by
  refine ⟨tCk 1, State.reset, ?_⟩
  decide +kernel
theorem witness_checkpointRound_1 :
    ∃ (m : CkMsg) (s : State),
      let late := s.gateState ≠ gIDLE ∧ m.step.toNat ≤ s.stepNo.toNat
      s.ckOrdered m 1 = true ∧ late := by
  refine ⟨tCk 1, tGateWith, ?_⟩
  dsimp only
  decide +kernel
theorem witness_checkpointRound_2 :
    ∃ (m : CkMsg) (s : State) (r : _),
      let late := s.gateState ≠ gIDLE ∧ m.step.toNat ≤ s.stepNo.toNat
      s.ckOrdered m 1 = true ∧ (¬ late) ∧ s.ckp.round = some r ∧ r.ckseq = m.ckseq.toNat := by
  refine ⟨tCk 1, tCkp { Ckp.reset with round := some tRound }, tRound, ?_⟩
  dsimp only
  decide +kernel
theorem witness_checkpointRound_3 :
    ∃ (m : CkMsg) (s : State),
      let late := s.gateState ≠ gIDLE ∧ m.step.toNat ≤ s.stepNo.toNat
      s.ckOrdered m 1 = true ∧ (¬ late) ∧ (∀ r, s.ckp.round = some r → r.ckseq ≠ m.ckseq.toNat) := by
  refine ⟨tCk 1, tWith tImg, ?_⟩
  dsimp only
  decide +kernel
theorem witness_checkpointRound_4 :
    ∃ (m : CkMsg) (s : State) (r : _),
      let seals := s.ckOrdered m 3 = true ∧ r.ckseq = m.ckseq.toNat ∧ s.hd CKP_STATUS_STATE = 2 ∧ r.sealed = false
      s.ckp.round = some r ∧ seals ∧ s.provisioned = true := by
  refine ⟨tCk 3, ({ ((tCkp { Ckp.reset with round := some tRound }).setHd CKP_STATUS_STATE 2).setHd SEC_STATUS_KSTATE 1 with sec := { Sec.reset with dev := some ⟨1, 1, 1, [], 0⟩ } } : State), tRound, ?_⟩
  dsimp only
  decide +kernel
theorem witness_checkpointRound_5 :
    ∃ (m : CkMsg) (s : State) (r : _),
      let seals := s.ckOrdered m 3 = true ∧ r.ckseq = m.ckseq.toNat ∧ s.hd CKP_STATUS_STATE = 2 ∧ r.sealed = false
      s.ckp.round = some r ∧ seals ∧ s.provisioned = false := by
  refine ⟨tCk 3, (tCkp { Ckp.reset with round := some tRound }).setHd CKP_STATUS_STATE 2, tRound, ?_⟩
  dsimp only
  decide +kernel
theorem witness_checkpointRound_6 :
    ∃ (m : CkMsg) (s : State) (r : _),
      let seals := s.ckOrdered m 3 = true ∧ r.ckseq = m.ckseq.toNat ∧ s.hd CKP_STATUS_STATE = 2 ∧ r.sealed = false
      s.ckp.round = some r ∧ (¬ seals) := by
  refine ⟨{ tCk 5 with status := 3 }, tCkp { Ckp.reset with round := some tRound }, tRound, ?_⟩
  dsimp only
  decide +kernel
theorem witness_checkpointRound_7 :
    ∃ (m : CkMsg) (s : State) (r : _),
      let ends := s.ckOrdered m 5 = true ∧ r.ckseq = m.ckseq.toNat
      s.ckp.round = some r ∧ ends ∧ m.status = 0 ∧ r.sealed = true := by
  refine ⟨tCk 5, tCkp { Ckp.reset with round := some { tRound with sealed := true } }, { tRound with sealed := true }, ?_⟩
  dsimp only
  decide +kernel
theorem witness_checkpointRound_8 :
    ∃ (m : CkMsg) (s : State) (r : _),
      let ends := s.ckOrdered m 5 = true ∧ r.ckseq = m.ckseq.toNat
      s.ckp.round = some r ∧ ends ∧ m.status = 3 := by
  refine ⟨{ tCk 5 with status := 3 }, tCkp { Ckp.reset with round := some tRound }, tRound, ?_⟩
  dsimp only
  decide +kernel
theorem witness_checkpointRound_9 :
    ∃ (m : CkMsg) (s : State) (r : _),
      let ends := s.ckOrdered m 5 = true ∧ r.ckseq = m.ckseq.toNat
      s.ckp.round = some r ∧ (¬ ends ∨ (m.status ≠ 3 ∧ (m.status ≠ 0 ∨ r.sealed = false))) := by
  refine ⟨{ tCk 5 with status := 1 }, tCkp { Ckp.reset with round := some tRound }, tRound, ?_⟩
  dsimp only
  decide +kernel
theorem witness_checkpointRound_11 :
    ∃ (s : State) (r : _) (p : _),
      s.ckp.round = some r ∧ s.takesPart = true ∧ r.armed = true ∧ p ∈ r.protect ∧ p ∉ r.acked := by
  refine ⟨tCkp { Ckp.reset with round := some tRound }, tRound, 3, ?_⟩
  decide +kernel
theorem witness_checkpointRound_12 :
    ∃ (s : State) (r : _) (p : _),
      s.ckp.round = some r ∧ (r.armed = false ∨ p ∉ r.protect ∨ p ∈ r.acked) := by
  refine ⟨tCkp { Ckp.reset with round := some tRound }, tRound, 4, ?_⟩
  decide +kernel
theorem witness_checkpointRound_13 :
    ∃ (s : State),
      s.ckp.round = none := by
  refine ⟨tWith tImg, ?_⟩
  decide +kernel
theorem witness_checkpointRound_15 :
    ∃ (s : State),
      (s.ckp.round = none ∨ s.takesPart = false) := by
  refine ⟨State.reset, ?_⟩
  decide +kernel

-- CheckpointLead.
theorem witness_checkpointLead_0 :
    ∃ (m : CkMsg) (s : State),
      s.ckCollects m 2 = true ∧ m.status = 0 := by
  refine ⟨tCk 2, tCkp { Ckp.reset with leadRound := true, nextSeq := 1 }, ?_⟩
  decide +kernel
theorem witness_checkpointLead_1 :
    ∃ (m : CkMsg) (s : State),
      s.ckCollects m 2 = true ∧ (m.status = 1 ∨ m.status = 2) := by
  refine ⟨{ tCk 2 with status := 2 }, tCkp { Ckp.reset with leadRound := true, nextSeq := 1 }, ?_⟩
  decide +kernel
theorem witness_checkpointLead_2 :
    ∃ (m : CkMsg) (s : State),
      (s.ckCollects m 2 = false ∨ m.status = 3) := by
  refine ⟨{ tCk 2 with status := 3 }, tCkp { Ckp.reset with leadRound := true, nextSeq := 1 }, ?_⟩
  decide +kernel
theorem witness_checkpointLead_3 :
    ∃ (m : CkMsg) (s : State),
      s.ckCollects m 4 = true := by
  refine ⟨tCk 4, tCkp { Ckp.reset with leadRound := true, nextSeq := 1 }, ?_⟩
  decide +kernel
theorem witness_checkpointLead_4 :
    ∃ (m : CkMsg) (s : State),
      s.ckCollects m 4 = false := by
  refine ⟨tCk 4, State.reset, ?_⟩
  decide +kernel
theorem witness_checkpointLead_5 :
    ∃ (s : State),
      s.takesPart = true ∧ s.ckLead = s.devidx ∧ s.ckp.leadRound = true := by
  refine ⟨tCkp { Ckp.reset with leadRound := true, nextSeq := 1 }, ?_⟩
  decide +kernel
theorem witness_checkpointLead_6 :
    ∃ (s : State),
      (s.takesPart = false ∨ s.ckLead ≠ s.devidx ∨ s.ckp.leadRound = false) := by
  refine ⟨State.reset, ?_⟩
  decide +kernel
theorem witness_checkpointLead_7 :
    ∃ (m : CkMsg) (s : State),
      let gives := s.takesPart = true ∧ s.ckMine m 7 = true ∧ s.ckLead = s.devidx ∧ m.dev.toNat ∈ s.slice
      (¬ gives) := by
  refine ⟨tCk 2, tCkp { Ckp.reset with leadRound := true, nextSeq := 1 }, ?_⟩
  dsimp only
  decide +kernel
theorem witness_checkpointLead_8 :
    ∃ (m : CkMsg) (s : State),
      let gives := s.takesPart = true ∧ s.ckMine m 7 = true ∧ s.ckLead = s.devidx ∧ m.dev.toNat ∈ s.slice
      gives := by
  refine ⟨tCk 7, tCkp { Ckp.reset with leadRound := true, nextSeq := 1 }, ?_⟩
  dsimp only
  decide +kernel

-- CopyOnWrite.
theorem witness_copyOnWrite_0 :
    ∃ (p : Nat) (who : PageWriter) (s : State) (r : _),
      s.ckp.round = some r ∧ s.dieRuns (pageDie p) = true ∧ s.snapHeld p = true ∧ (p, who) ∉ r.held := by
  refine ⟨3, .hx, tCkp { Ckp.reset with round := some tRound }, tRound, ?_⟩
  decide +kernel
theorem witness_copyOnWrite_1 :
    ∃ (p : Nat) (who : PageWriter) (s : State) (r : _),
      s.ckp.round = some r ∧ (s.dieRuns (pageDie p) = false ∨ s.snapHeld p = false ∨ (p, who) ∈ r.held) := by
  refine ⟨4, .hx, tCkp { Ckp.reset with round := some tRound }, tRound, ?_⟩
  decide +kernel
theorem witness_copyOnWrite_2 :
    ∃ (p : Nat) (s : State) (r : _),
      let copies := s.reaches (pageDie p) = true ∧ s.snapHeld p = true ∧ r.held.any (fun h => h.1 = p) = true
      s.ckp.round = some r ∧ (¬ copies) := by
  refine ⟨4, tCkp { Ckp.reset with round := some tRound }, tRound, ?_⟩
  dsimp only
  decide +kernel
theorem witness_copyOnWrite_3 :
    ∃ (p : Nat) (s : State) (r : _),
      let a := p * 65536
      let copies := s.reaches (pageDie p) = true ∧ s.snapHeld p = true ∧ r.held.any (fun h => h.1 = p) = true
      s.ckp.round = some r ∧ copies ∧ (s.freeStage r (pageDie p) = none ∨ s.retiring a 65536 = true) := by
  refine ⟨3, ({ tCkp { Ckp.reset with round := some { tRound with held := [(3, .hx)] } } with fab := { State.reset.fab with copying := [(hbmStack 196608, stackPage (hbmAddr 196608))] } } : State), { tRound with held := [(3, .hx)] }, ?_⟩
  dsimp only
  decide +kernel
theorem witness_copyOnWrite_4 :
    ∃ (p : Nat) (s : State) (r : _) (i : _),
      let a := p * 65536
      let copies := s.reaches (pageDie p) = true ∧ s.snapHeld p = true ∧ r.held.any (fun h => h.1 = p) = true
      s.ckp.round = some r ∧ copies ∧ s.freeStage r (pageDie p) = some i ∧ s.retiring a 65536 = false ∧ s.hbm.badIn a 65536 = false := by
  refine ⟨3, tCkp { Ckp.reset with round := some { tRound with held := [(3, .hx)] } }, { tRound with held := [(3, .hx)] }, 0, ?_⟩
  dsimp only
  decide +kernel
theorem witness_copyOnWrite_5 :
    ∃ (p : Nat) (s : State) (r : _) (i : _),
      let a := p * 65536
      let copies := s.reaches (pageDie p) = true ∧ s.snapHeld p = true ∧ r.held.any (fun h => h.1 = p) = true
      s.ckp.round = some r ∧ copies ∧ s.freeStage r (pageDie p) = some i ∧ s.retiring a 65536 = false ∧ s.hbm.badIn a 65536 = true := by
  refine ⟨3, ({ tCkp { Ckp.reset with round := some { tRound with held := [(3, .hx)] } } with hbm := ⟨[], [(196608, 0xC5)]⟩ } : State), { tRound with held := [(3, .hx)] }, 0, ?_⟩
  dsimp only
  decide +kernel
theorem witness_copyOnWrite_6 :
    ∃ (p : Nat) (s : State) (r : _) (i : _),
      s.ckp.round = some r ∧ s.reaches (pageDie p) = true ∧ (p, i) ∈ r.staged ∧ p ∈ r.acked := by
  refine ⟨3, tCkp { Ckp.reset with round := some { tRound with staged := [(3, 1)], acked := [3] } }, { tRound with staged := [(3, 1)], acked := [3] }, 1, ?_⟩
  decide +kernel
theorem witness_copyOnWrite_7 :
    ∃ (p : Nat) (s : State) (r : _),
      s.ckp.round = some r ∧ (s.reaches (pageDie p) = false ∨ p ∉ r.acked ∨ (∀ e ∈ r.staged, e.1 ≠ p)) := by
  refine ⟨4, tCkp { Ckp.reset with round := some tRound }, tRound, ?_⟩
  decide +kernel
theorem witness_copyOnWrite_8 :
    ∃ (p : Nat) (s : State) (r : _) (k : _) (fmt : _) (base : _),
      let writes := s.takesPart = true ∧ s.dieRuns (pageDie p) = true ∧ r.armed = true ∧ s.nextWrite r = some p
      s.ckp.round = some r ∧ writes ∧ s.objOf p = some (k, fmt, base) ∧ s.hbm.badIn (s.pageAt r p) 65536 = false := by
  refine ⟨3, tCkp { Ckp.reset with round := some tRound }, tRound, 0, 1, 196608, ?_⟩
  dsimp only
  decide +kernel
theorem witness_copyOnWrite_9 :
    ∃ (p : Nat) (s : State) (r : _) (k : _) (fmt : _) (base : _),
      let writes := s.takesPart = true ∧ s.dieRuns (pageDie p) = true ∧ r.armed = true ∧ s.nextWrite r = some p
      s.ckp.round = some r ∧ writes ∧ s.objOf p = some (k, fmt, base) ∧ s.hbm.badIn (s.pageAt r p) 65536 = true := by
  refine ⟨3, ({ tCkp { Ckp.reset with round := some tRound } with hbm := ⟨[], [(196608, 0xC5)]⟩ } : State), tRound, 0, 1, 196608, ?_⟩
  dsimp only
  decide +kernel
theorem witness_copyOnWrite_10 :
    ∃ (p : Nat) (s : State) (r : _),
      let writes := s.takesPart = true ∧ s.dieRuns (pageDie p) = true ∧ r.armed = true ∧ s.nextWrite r = some p
      s.ckp.round = some r ∧ (¬ writes ∨ s.objOf p = none) := by
  refine ⟨4, tCkp { Ckp.reset with round := some tRound }, tRound, ?_⟩
  dsimp only
  decide +kernel
theorem witness_copyOnWrite_11 :
    ∃ (s : State),
      s.ckp.round = none := by
  refine ⟨tCkp Ckp.reset, ?_⟩
  decide +kernel

-- Restores.
theorem witness_restores_0 :
    ∃ (m : CkMsg) (s : State),
      s.ckOrdered m 6 = true := by
  refine ⟨tCk 6, tWith tImg, ?_⟩
  decide +kernel
theorem witness_restores_1 :
    ∃ (m : CkMsg) (s : State),
      s.ckOrdered m 6 = false := by
  refine ⟨tCk 7, tWith tImg, ?_⟩
  decide +kernel
-- Under a premise on what the model leaves free or what no kernel evaluates: an opaque value of Config, or a signature on P-521 that holds.
theorem witness_restores_2 (h : Config.devicePoint (keyId p521gx p521gy) = some (p521gx, p521gy))
    (e : ecdsaOk p521gx p521gy tMfBody tSigR tSigMf = true) :
    ∃ (m : CkMsg) (s : State) (mf : _) (l : _),
      let ofPartner : Manifest × Nat → Prop := fun e => ∃ im p, s.img = some im ∧ im.resil.partners.find? (fun p => p.1 = e.2) = some p ∧ s.manifestOk p.2.1 (numAt e.1 5 1) e.1 = true
      let valid := s.manifestOk s.devidx m.slot.toNat mf = true ∧ (∀ e ∈ l.zipIdx, ofPartner e) ∧ ∀ b ∈ mf :: l, mfStep b = m.step.toNat
      s.ckOrdered m 8 = true ∧ valid := by
  refine ⟨tCk 8, tWith tImg, tSigned (tMfBody ++ keyId p521gx p521gy) tSigMf ++ leBytes 30 0, [], ?_⟩
  dsimp only
  refine ⟨by decide +kernel, ?_, (fun e h => nomatch h), (fun b h => by cases List.mem_singleton.mp h; decide +kernel)⟩
  have h0 : mfNobj (tSigned (tMfBody ++ keyId p521gx p521gy) tSigMf ++ leBytes 30 0) = 1 := by decide +kernel
  have h2 : ((tSigned (tMfBody ++ keyId p521gx p521gy) tSigMf ++ leBytes 30 0).drop 128).take 32 = keyId p521gx p521gy := by decide +kernel
  have h3 : (tSigned (tMfBody ++ keyId p521gx p521gy) tSigMf ++ leBytes 30 0).take 128 = tMfBody := by decide +kernel
  have h4 : numAt (tSigned (tMfBody ++ keyId p521gx p521gy) tSigMf ++ leBytes 30 0) 160 66 = tSigR := by decide +kernel
  have h5 : numAt (tSigned (tMfBody ++ keyId p521gx p521gy) tSigMf ++ leBytes 30 0) 226 66 = tSigMf := by decide +kernel
  unfold State.manifestOk
  simp only [h0, Nat.mul_one, Nat.reduceAdd, h2, h, h3, h4, h5, e, decide_true, Bool.and_self, Bool.and_true]
  decide +kernel
theorem witness_restores_3 :
    ∃ (m : CkMsg) (s : State) (mf : _) (l : _),
      let ofPartner : Manifest × Nat → Prop := fun e => ∃ im p, s.img = some im ∧ im.resil.partners.find? (fun p => p.1 = e.2) = some p ∧ s.manifestOk p.2.1 (numAt e.1 5 1) e.1 = true
      let valid := s.manifestOk s.devidx m.slot.toNat mf = true ∧ (∀ e ∈ l.zipIdx, ofPartner e) ∧ ∀ b ∈ mf :: l, mfStep b = m.step.toNat
      s.ckOrdered m 8 = true ∧ (¬ valid) := by
  refine ⟨tCk 8, tWith tImg, [], [], ?_⟩
  dsimp only
  exact ⟨by decide +kernel, (fun h => absurd h.1 (by decide +kernel))⟩
theorem witness_restores_4 :
    ∃ (m : CkMsg) (s : State),
      s.ckOrdered m 8 = false := by
  refine ⟨tCk 8, State.reset, ?_⟩
  decide +kernel
theorem witness_restores_5 :
    ∃ (s : State),
      s.ckp.restore = none := by
  refine ⟨tWith tImg, ?_⟩
  decide +kernel
theorem witness_restores_6 :
    ∃ (s : State) (x : ObjectRead) (r : _),
      let due := s.takesPart = true ∧ x.src = r.src ∧ x.idx = r.obj ∧ x.second = r.retried
      s.ckp.restore = some r ∧ (¬ due) := by
  refine ⟨tCkp { Ckp.reset with restore := some ⟨[tMf], 0, 0, false⟩ }, ⟨0, 1, [], false⟩, ⟨[tMf], 0, 0, false⟩, ?_⟩
  dsimp only
  decide +kernel
theorem witness_restores_7 :
    ∃ (s : State) (x : ObjectRead) (r : _),
      let o := mfObj (r.mfs.getD r.src []) r.obj
      let due := s.takesPart = true ∧ x.src = r.src ∧ x.idx = r.obj ∧ x.second = r.retried
      let right := x.stored.length = o.2.2.2.1 ∧ sha32 x.stored = o.2.2.2.2
      s.ckp.restore = some r ∧ due ∧ right := by
  refine ⟨tCkp { Ckp.reset with restore := some ⟨[tMf], 0, 0, false⟩ }, ⟨0, 0, [], false⟩, ⟨[tMf], 0, 0, false⟩, ?_⟩
  dsimp only
  decide +kernel
theorem witness_restores_8 :
    ∃ (s : State) (x : ObjectRead) (r : _),
      let o := mfObj (r.mfs.getD r.src []) r.obj
      let due := s.takesPart = true ∧ x.src = r.src ∧ x.idx = r.obj ∧ x.second = r.retried
      let right := x.stored.length = o.2.2.2.1 ∧ sha32 x.stored = o.2.2.2.2
      s.ckp.restore = some r ∧ due ∧ (¬ right) ∧ r.retried = false := by
  refine ⟨tCkp { Ckp.reset with restore := some ⟨[tMf], 0, 0, false⟩ }, ⟨0, 0, [1], false⟩, ⟨[tMf], 0, 0, false⟩, ?_⟩
  dsimp only
  decide +kernel
theorem witness_restores_9 :
    ∃ (s : State) (x : ObjectRead) (r : _),
      let o := mfObj (r.mfs.getD r.src []) r.obj
      let due := s.takesPart = true ∧ x.src = r.src ∧ x.idx = r.obj ∧ x.second = r.retried
      let right := x.stored.length = o.2.2.2.1 ∧ sha32 x.stored = o.2.2.2.2
      s.ckp.restore = some r ∧ due ∧ (¬ right) ∧ r.retried = true := by
  refine ⟨tCkp { Ckp.reset with restore := some ⟨[tMf], 0, 0, true⟩ }, ⟨0, 0, [1], true⟩, ⟨[tMf], 0, 0, true⟩, ?_⟩
  dsimp only
  decide +kernel

-- RegisterWrites.
theorem witness_registerWrites_0 :
    ∃ (w : Writer) (s : State),
      w ≠ .program ∧ s.hdRuns = false := by
  refine ⟨.runtime, ({ State.reset with pwr := { Pwr.reset with input := false } } : State), ?_⟩
  decide +kernel
-- Under a premise on what the model leaves free or what no kernel evaluates: an opaque value of Config, or a signature on P-521 that holds.
theorem witness_registerWrites_1 (h : Config.tableWord 0 = none) :
    ∃ (w : Writer) (addr : BitVec 44) (s : State),
      w ≠ .program ∧ s.placeReg addr.toNat = none ∧ Config.tableWord addr.toNat = none := by
  exact ⟨.runtime, 0, State.reset, by decide, by decide +kernel, h⟩
-- Under a premise on what the model leaves free or what no kernel evaluates: an opaque value of Config, or a signature on P-521 that holds.
theorem witness_registerWrites_2 (h : Config.tableWord 0 = some (0, 0, 0)) :
    ∃ (w : Writer) (addr : BitVec 44) (s : State) (u : _),
      w ≠ .program ∧ s.hdRuns = true ∧ s.placeReg addr.toNat = none ∧ Config.tableWord addr.toNat = some u := by
  exact ⟨.runtime, 0, State.reset, (0, 0, 0), by decide, by decide +kernel, by decide +kernel, h⟩
theorem witness_registerWrites_3 :
    ∃ (w : Writer) (addr : BitVec 44) (v : BitVec 64) (mask : BitVec 64) (s : State) (p : _) (r : _),
      let code := s.writeCode w p r v.toNat mask.toNat
      w ≠ .program ∧ s.hdRuns = true ∧ s.placeReg addr.toNat = some p ∧ p.reg = some r ∧ code ≠ 0 := by
  refine ⟨.runtime, tHub 0x310018, 0, 1, State.reset, (.die 8 0x310018), FRM_SRC, ?_⟩
  dsimp only
  decide +kernel
theorem witness_registerWrites_4 :
    ∃ (w : Writer) (addr : BitVec 44) (v : BitVec 64) (mask : BitVec 64) (s : State) (p : _) (r : _),
      let code := s.writeCode w p r v.toNat mask.toNat
      w ≠ .program ∧ s.hdRuns = true ∧ s.placeReg addr.toNat = some p ∧ p.reg = some r ∧ code = 0 := by
  refine ⟨.runtime, tHub 0x310018, 0, BitVec.ofNat 64 (2 ^ 44 - 1), State.reset, (.die 8 0x310018), FRM_SRC, ?_⟩
  dsimp only
  decide +kernel
theorem witness_registerWrites_10 :
    ∃ (w : Writer) (addr : BitVec 44) (mask : BitVec 64) (s : State) (p : _) (r : _) (k : _) (off : _) (x : Fld),
      let hit := r.hit mask.toNat
      w ≠ .program ∧ s.hdRuns = true ∧ s.placeReg addr.toNat = some p ∧ p.reg = some r ∧ p = .die k off ∧
      (∀ x ∈ hit, x.cls = .rw ∨ x.cls = .shadow ∨ (x.cls = .live ∧ (x = BIST_CFG_HOLD → k ≠ hdWin))) ∧ x.off ≠ off ∧ x.off < 2 ^ 24 ∧ x.lo < 64 := by
  refine ⟨.firmware, tHub 0x310018, BitVec.ofNat 64 (2 ^ 44 - 1), State.reset, (.die 8 0x310018), FRM_SRC, 8, 0x310018, FRM_WREJ_VALID, ?_⟩
  dsimp only
  exact ⟨by decide +kernel, by decide +kernel, by decide +kernel, by decide +kernel, rfl, tAll _ (by decide +kernel), by decide +kernel, by decide +kernel, by decide +kernel⟩
theorem witness_registerWrites_11 :
    ∃ (w : Writer) (addr : BitVec 44) (v : BitVec 64) (mask : BitVec 64) (s : State) (p : _) (r : _) (k : _) (off : _) (x : _),
      let hit := r.hit mask.toNat
      let val : Fld → Nat := fun x => bitsOf v.toNat x.hi x.lo
      w ≠ .program ∧ s.hdRuns = true ∧ s.placeReg addr.toNat = some p ∧ p.reg = some r ∧ p = .die k off ∧ hit = [x] ∧ x.cls = .rw1c ∧
      s.d k x < 2 ^ x.width ∧ s.d k x &&& val x = 0 := by
  refine ⟨.firmware, BitVec.ofNat 44 (ctlBase + 0xD00000), 0, 4, State.reset.setD 0 CLK_STATUS_UNLOCK 1, (.die 0 0xD00000), CLK_STATUS, 0, 0xD00000, CLK_STATUS_UNLOCK, ?_⟩
  dsimp only
  exact ⟨by decide +kernel, by decide +kernel, by decide +kernel, by decide +kernel, rfl, by decide +kernel, by decide +kernel, by decide +kernel, by decide +kernel⟩
theorem witness_registerWrites_12 :
    ∃ (w : Writer) (addr : BitVec 44) (v : BitVec 64) (mask : BitVec 64) (s : State) (p : _) (r : _) (k : _) (off : _) (x : _),
      let hit := r.hit mask.toNat
      let val : Fld → Nat := fun x => bitsOf v.toNat x.hi x.lo
      w ≠ .program ∧ s.hdRuns = true ∧ s.placeReg addr.toNat = some p ∧ p.reg = some r ∧ p = .die k off ∧ hit = [x] ∧ x.cls = .rw1c ∧
      s.d k x < 2 ^ x.width ∧ s.d k x &&& val x ≠ s.d k x := by
  refine ⟨.firmware, BitVec.ofNat 44 (ctlBase + 0xD00000), 0, 4, State.reset.setD 0 CLK_STATUS_UNLOCK 1, (.die 0 0xD00000), CLK_STATUS, 0, 0xD00000, CLK_STATUS_UNLOCK, ?_⟩
  dsimp only
  exact ⟨by decide +kernel, by decide +kernel, by decide +kernel, by decide +kernel, rfl, by decide +kernel, by decide +kernel, by decide +kernel, by decide +kernel⟩
theorem witness_registerWrites_15 :
    ∃ (w : Writer) (addr : BitVec 44) (mask : BitVec 64) (s : State) (p : _) (r : _) (n : _) (off : _) (m : _),
      let hit := r.hit mask.toNat
      w ≠ .program ∧ s.hdRuns = true ∧ s.placeReg addr.toNat = some p ∧ p.reg = some r ∧ p = .site n off ∧ (off < 0x9200 ∨ 0x9600 ≤ off) ∧
      (∀ x ∈ hit, x.cls = .rw ∨ x.cls = .shadow) ∧ (∀ x ∈ hit, x ≠ CORE_PC_PC) ∧ m ≠ n := by
  refine ⟨.firmware, BitVec.ofNat 44 (ctlBase + 0xA004), BitVec.ofNat 64 (2 ^ 64 - 1), State.reset, (.site 0 0xA004), ARR_REPAIR 0, 0, 0xA004, 1, ?_⟩
  dsimp only
  exact ⟨by decide +kernel, by decide +kernel, by decide +kernel, by decide +kernel, rfl, by decide +kernel, tAll _ (by decide +kernel), tAll _ (by decide +kernel), by decide +kernel⟩
theorem witness_registerWrites_19 :
    ∃ (w : Writer) (addr : BitVec 44) (mask : BitVec 64) (s : State) (p : _) (r : _) (n : _) (off : _) (x : Fld),
      let hit := r.hit mask.toNat
      w ≠ .program ∧ s.hdRuns = true ∧ s.placeReg addr.toNat = some p ∧ p.reg = some r ∧ p = .site n off ∧ (off < 0x9200 ∨ 0x9600 ≤ off) ∧
      (∀ x ∈ hit, x.cls = .rw ∨ x.cls = .shadow) ∧ (∀ x ∈ hit, x ≠ CORE_PC_PC) ∧ x.off ≠ off ∧ x.lo < 64 := by
  refine ⟨.firmware, BitVec.ofNat 44 (ctlBase + 0xA004), BitVec.ofNat 64 (2 ^ 64 - 1), State.reset, (.site 0 0xA004), ARR_REPAIR 0, 0, 0xA004, CORE_ENTRY_ENTRY, ?_⟩
  dsimp only
  exact ⟨by decide +kernel, by decide +kernel, by decide +kernel, by decide +kernel, rfl, by decide +kernel, tAll _ (by decide +kernel), tAll _ (by decide +kernel), by decide +kernel, by decide +kernel⟩

-- ProgramWrites.
theorem witness_programWrites_0 :
    ∃ (addr : BitVec 44) (s : State),
      (∀ n off, s.placeReg addr.toNat ≠ some (.site n off)) := by
  refine ⟨0, State.reset, fun n off h => ?_⟩
  have e : State.reset.placeReg (0 : BitVec 44).toNat = none := by decide +kernel
  rw [e] at h
  exact nomatch h
theorem witness_programWrites_1 :
    ∃ (addr : BitVec 44) (s : State) (n : _) (off : _) (r : _),
      s.placeReg addr.toNat = some (.site n off) ∧ siteReg off = some r ∧ ((s.site n).f CORE_STATE_STATE ≠ 1 ∨ s.dieRuns (n / 104) = false) := by
  refine ⟨BitVec.ofNat 44 (ctlBase + 0x9010), State.reset, 0, 0x9010, CORE_ENTRY, ?_⟩
  decide +kernel
theorem witness_programWrites_2 :
    ∃ (addr : BitVec 44) (s : State) (n : _) (off : _) (r : _),
      s.placeReg addr.toNat = some (.site n off) ∧ siteReg off = some r ∧ s.dieRuns (n / 104) = true ∧ (s.site n).f CORE_STATE_STATE = 1 := by
  refine ⟨BitVec.ofNat 44 (ctlBase + 0x9010), tRun, 0, 0x9010, CORE_ENTRY, ?_⟩
  decide +kernel

-- HostRegisters.
theorem witness_hostRegisters_0 :
    ∃ (h : HostHdr) (addr : BitVec 64) (s : State) (p : _) (r : _),
      let reads := s.hostTakes h 0x01 false false
      s.placeReg addr.toNat = some p ∧ p.reg = some r ∧ reads ∧ s.ctrHidden p = false := by
  refine ⟨tReq 1, BitVec.ofNat 64 (ctlBase + 0x9010), tHost, .site 0 0x9010, CORE_ENTRY, ?_⟩
  dsimp only
  unfold State.hostTakes
  decide +kernel
theorem witness_hostRegisters_1 :
    ∃ (h : HostHdr) (addr : BitVec 64) (s : State) (p : _) (r : _),
      let reads := s.hostTakes h 0x01 false false
      s.placeReg addr.toNat = some p ∧ p.reg = some r ∧ reads ∧ s.ctrHidden p = true := by
  refine ⟨tReq 1, BitVec.ofNat 64 (ctlBase + 0xC078), tHost, .site 0 0xC078, PMC_CTR 15, ?_⟩
  dsimp only
  unfold State.hostTakes
  decide +kernel
theorem witness_hostRegisters_2 :
    ∃ (h : HostHdr) (addr : BitVec 64) (v : BitVec 64) (mask : BitVec 64) (s : State) (p : _) (r : _),
      let writes := s.hostTakes h 0x02 false false
      s.placeReg addr.toNat = some p ∧ p.reg = some r ∧ writes ∧ s.writeCode .runtime p r v.toNat mask.toNat = 0 := by
  refine ⟨tReqN 2 8, BitVec.ofNat 64 (ctlBase + 0x9008), 0, BitVec.ofNat 64 (2 ^ 12 - 1), tHost, .site 0 0x9008, CORE_PC, ?_⟩
  dsimp only
  unfold State.hostTakes
  decide +kernel
theorem witness_hostRegisters_3 :
    ∃ (h : HostHdr) (addr : BitVec 64) (v : BitVec 64) (mask : BitVec 64) (s : State) (p : _) (r : _),
      let writes := s.hostTakes h 0x02 false false
      s.placeReg addr.toNat = some p ∧ p.reg = some r ∧ writes ∧ s.writeCode .runtime p r v.toNat mask.toNat ≠ 0 := by
  refine ⟨tReqN 2 8, BitVec.ofNat 64 (ctlBase + 0x9010), 0, BitVec.ofNat 64 (2 ^ 12 - 1), tHost, .site 0 0x9010, CORE_ENTRY, ?_⟩
  dsimp only
  unfold State.hostTakes
  decide +kernel
theorem witness_hostRegisters_4 :
    ∃ (h : HostHdr) (addr : BitVec 64) (s : State),
      let reads := s.hostTakes h 0x01 false false
      s.placeReg addr.toNat = none ∧ reads := by
  refine ⟨tReq 1, 0, tHost, ?_⟩
  dsimp only
  unfold State.hostTakes
  decide +kernel
-- Under a premise on what the model leaves free or what no kernel evaluates: an opaque value of Config, or a signature on P-521 that holds.
theorem witness_hostRegisters_5 (h : Config.tableWord 0 = none) :
    ∃ (h : HostHdr) (addr : BitVec 64) (s : State),
      let writes := s.hostTakes h 0x02 false false
      s.placeReg addr.toNat = none ∧ writes ∧ Config.tableWord addr.toNat = none := by
  exact ⟨tReqN 2 8, 0, tHost, by decide +kernel, by unfold State.hostTakes; decide +kernel, h⟩
-- Under a premise on what the model leaves free or what no kernel evaluates: an opaque value of Config, or a signature on P-521 that holds.
theorem witness_hostRegisters_6 (h : Config.tableWord 0 = some (0, 0, 0)) :
    ∃ (h : HostHdr) (addr : BitVec 64) (s : State) (u : _),
      let writes := s.hostTakes h 0x02 false false
      s.placeReg addr.toNat = none ∧ writes ∧ Config.tableWord addr.toNat = some u := by
  exact ⟨tReqN 2 8, 0, tHost, (0, 0, 0), by decide +kernel, by unfold State.hostTakes; decide +kernel, h⟩

-- HostRequests.
theorem witness_hostRequests_0 :
    ∃ (i : Instr) (h : HostHdr) (typ : Nat) (mgt : Bool) (recov : Bool) (s : State),
      hostReq i = some (h, typ, mgt, recov) ∧ (s.hdRuns = false ∨ s.viaUp h.via = false) := by
  refine ⟨.hostStatus (tReq 0x0E), tReq 0x0E, 0x0E, true, false, State.reset, ?_⟩
  decide +kernel
theorem witness_hostRequests_1 :
    ∃ (i : Instr) (h : HostHdr) (typ : Nat) (mgt : Bool) (recov : Bool) (s : State),
      hostReq i = some (h, typ, mgt, recov) ∧ s.hdRuns = true ∧ s.viaUp h.via = true ∧ ((s.hd SEC_STATUS_RECOV = 1 ∧ recov = false) ∨ h.rsp = true) := by
  refine ⟨.hostStatus { tReq 0x0E with rsp := true }, { tReq 0x0E with rsp := true }, 0x0E, true, false, tHost, ?_⟩
  decide +kernel
theorem witness_hostRequests_2 :
    ∃ (i : Instr) (h : HostHdr) (typ : Nat) (mgt : Bool) (recov : Bool) (s : State),
      let bad := h.typ.toNat ≠ typ ∨ h.rsvd = true ∨ plenOk typ h.plen.toNat = false ∨ (if h.via = .hx then 65536 else 8192) < h.plen.toNat
      hostReq i = some (h, typ, mgt, recov) ∧ s.hdRuns = true ∧ s.viaUp h.via = true ∧ (s.hd SEC_STATUS_RECOV ≠ 1 ∨ recov = true) ∧ h.rsp = false ∧
      (bad ∨ (h.via ≠ .hx ∧ mgt = false)) := by
  refine ⟨.hostStatus (tReqN 0x0E 1), tReqN 0x0E 1, 0x0E, true, false, tHost, ?_⟩
  dsimp only
  decide +kernel
theorem witness_hostRequests_3 :
    ∃ (i : Instr) (h : HostHdr) (typ : Nat) (mgt : Bool) (recov : Bool) (s : State),
      let bad := h.typ.toNat ≠ typ ∨ h.rsvd = true ∨ plenOk typ h.plen.toNat = false ∨ (if h.via = .hx then 65536 else 8192) < h.plen.toNat
      hostReq i = some (h, typ, mgt, recov) ∧ s.hdRuns = true ∧ s.viaUp h.via = true ∧ (s.hd SEC_STATUS_RECOV ≠ 1 ∨ recov = true) ∧ h.rsp = false ∧
      (¬ bad) ∧ h.via = .hx ∧ 64 ≤ s.host.outstanding := by
  refine ⟨.hostStatus (tReq 0x0E), tReq 0x0E, 0x0E, true, false, ({ tHost with host := { tHost.host with outstanding := 64 } } : State), ?_⟩
  dsimp only
  decide +kernel

-- FrameImageLoads.
theorem witness_frameImageLoads_0 :
    ∃ (h : HostHdr) (s : State),
      let idle := s.hd FRM_STATUS_STATE = 0 ∨ s.hd FRM_STATUS_STATE = 3
      s.hostTakes h 0x03 false false ∧ (¬ idle) := by
  refine ⟨tReq 3, tHost.setHd FRM_STATUS_STATE 1, ?_⟩
  dsimp only
  unfold State.hostTakes
  decide +kernel
theorem witness_frameImageLoads_1 :
    ∃ (h : HostHdr) (s : State),
      let idle := s.hd FRM_STATUS_STATE = 0 ∨ s.hd FRM_STATUS_STATE = 3
      s.hostTakes h 0x03 false false ∧ idle ∧ s.unfit = true := by
  refine ⟨tReq 3, ({ tHost with test := { TestSt.reset with stackGone := true } } : State), ?_⟩
  dsimp only
  unfold State.hostTakes
  decide +kernel
theorem witness_frameImageLoads_2 :
    ∃ (h : HostHdr) (s : State),
      let idle := s.hd FRM_STATUS_STATE = 0 ∨ s.hd FRM_STATUS_STATE = 3
      s.hostTakes h 0x03 false false ∧ idle ∧ s.unfit = false := by
  refine ⟨tReq 3, tHost.setHd FRM_STATUS_STATE 3, ?_⟩
  dsimp only
  unfold State.hostTakes
  decide +kernel
theorem witness_frameImageLoads_3 :
    ∃ (s : State) (l : _),
      s.loader = some l ∧ s.hdRuns = true := by
  refine ⟨({ tHost with loader := some ⟨.hx, 7, 0, 0, none, [], [], []⟩ } : State), ⟨.hx, 7, 0, 0, none, [], [], []⟩, ?_⟩
  decide +kernel
theorem witness_frameImageLoads_4 :
    ∃ (s : State),
      (s.loader = none ∨ s.hdRuns = false) := by
  refine ⟨tHost.setHd FRM_STATUS_STATE 1, ?_⟩
  decide +kernel

-- Panniers.
theorem witness_panniers_0 :
    ∃ (nd : Fin 2) (s : State) (k : UalPkt),
      let full := s.loaded = true ∧ k.h.cls.toNat < 2 ∧ s.panBytes nd.val < ((s.kept nd.val).map Kept.size).sum + Kept.size ⟨k.h.step, 0, k⟩
      full := by
  refine ⟨1, tWith tImg, tUal, ?_⟩
  dsimp only
  decide +kernel
theorem witness_panniers_1 :
    ∃ (nd : Fin 2) (s : State) (k : UalPkt),
      let full := s.loaded = true ∧ k.h.cls.toNat < 2 ∧ s.panBytes nd.val < ((s.kept nd.val).map Kept.size).sum + Kept.size ⟨k.h.step, 0, k⟩
      (¬ full) := by
  refine ⟨1, tWith tImg, { tUal with h := { tUal.h with cls := 2 } }, ?_⟩
  dsimp only
  decide +kernel
theorem witness_panniers_5 :
    ∃ (nd : Fin 2) (s : State) (n : Nat) (r : _),
      let door := s.routePort s.devidx r.pkt.h.dstdev.toNat r.pkt.h.cls.toNat
      (s.kept nd.val)[n]? = some r ∧ door = none := by
  refine ⟨1, ({ State.reset with rep := { Rep.reset with pan := [(1, [⟨0, 4, tUal⟩])] } } : State), 0, ⟨0, 4, tUal⟩, ?_⟩
  dsimp only
  decide +kernel
theorem witness_panniers_6 :
    ∃ (nd : Fin 2) (s : State) (n : Nat) (r : Kept) (q : Nat),
      let door := s.routePort s.devidx r.pkt.h.dstdev.toNat r.pkt.h.cls.toNat
      (s.kept nd.val)[n]? = some r ∧ door = some q ∧ (s.portState q ≠ psUP ∨ s.portsFenced q = true ∨ s.storagePort q = true) := by
  obtain ⟨q, hq⟩ := Option.isSome_iff_exists.mp (tRoute tPanned rfl 0 0 0 (by decide))
  refine ⟨1, tPanned, 0, ⟨0, 4, tUal⟩, q, ?_⟩
  dsimp only
  exact ⟨by decide +kernel, hq, Or.inr (Or.inl (tPannedOff q))⟩
theorem witness_panniers_7 :
    ∃ (nd : Fin 2) (s : State) (n : Nat) (r : Kept) (q : Nat),
      let door := s.routePort s.devidx r.pkt.h.dstdev.toNat r.pkt.h.cls.toNat
      (s.kept nd.val)[n]? = some r ∧ door = some q ∧ r.pkt.h.cls.toNat < 2 := by
  obtain ⟨q, hq⟩ := Option.isSome_iff_exists.mp (tRoute tPanned rfl 0 0 0 (by decide))
  refine ⟨1, tPanned, 0, ⟨0, 4, tUal⟩, q, ?_⟩
  dsimp only
  exact ⟨by decide +kernel, hq, by decide⟩
theorem witness_panniers_10 :
    ∃ (nd : Fin 2) (s : State) (n : Nat),
      (s.kept nd.val)[n]? = none := by
  refine ⟨1, State.reset, 0, ?_⟩
  decide +kernel

-- SpareTableFaults.
theorem witness_spareTableFaults_0 :
    ∃ (kind : BitVec 8) (unit : BitVec 48) (s : State),
      let k := kind.toNat
      let u := unit.toNat
      (s.hdRuns = false ∨ k = 0 ∨ 0x0B < k ∨ unitOk k u = false) := by
  refine ⟨0x0B, 3, tSpare ⟨0x0B, seLASTING, 3, 0, 0⟩, ?_⟩
  dsimp only
  decide +kernel
theorem witness_spareTableFaults_1 :
    ∃ (kind : BitVec 8) (unit : BitVec 48) (s : State),
      let k := kind.toNat
      let u := unit.toNat
      s.hdRuns = true ∧ unitOk k u = true ∧ s.lasting k u = true := by
  refine ⟨1, 3, tSpare ⟨1, seLASTING, 3, 0, 0⟩, ?_⟩
  dsimp only
  decide +kernel
theorem witness_spareTableFaults_2 :
    ∃ (kind : BitVec 8) (unit : BitVec 48) (s : State),
      let k := kind.toNat
      let u := unit.toNat
      s.hdRuns = true ∧ unitOk k u = true ∧ s.lasting k u = false := by
  refine ⟨1, 3, tSpare ⟨1, seEVENT, 3, 0, 0⟩, ?_⟩
  dsimp only
  decide +kernel

-- SelfTests.
theorem witness_selfTests_0 :
    ∃ (s : State),
      (s.hdRuns = false ∨ s.jobLoaded = true ∨ s.quickApplies = false) := by
  refine ⟨tWith tImg, ?_⟩
  decide +kernel
-- Under a premise on what the model leaves free or what no kernel evaluates: an opaque value of Config, or a signature on P-521 that holds.
theorem witness_selfTests_1 (e : ecdsaOk p521gx p521gy tPassMsg tSigR tSigPass = true) :
    ∃ (s : State),
      s.hdRuns = true ∧ s.jobLoaded = false ∧ s.quickApplies = true := by
  have q := tQuick ({ tPassed State.reset with test := { TestSt.reset with pass := some { tPassRec with wher := 1 }, bootcnt := 1 } } : State)
    { tPassRec with wher := 1 } rfl rfl rfl rfl (tCurrent _ _ rfl rfl rfl rfl e)
  exact ⟨({ tPassed State.reset with test := { TestSt.reset with pass := some { tPassRec with wher := 1 }, bootcnt := 1 } } : State), by decide +kernel, rfl, q⟩
theorem witness_selfTests_2 :
    ∃ (s : State),
      (s.jobLoaded = true ∨ s.hdRuns = false) := by
  refine ⟨tWith tImg, ?_⟩
  decide +kernel

-- Slices.
theorem witness_slices_0 :
    ∃ (s : State),
      let due := s.hdRuns = true ∧ s.host.admitted = true ∧ s.sliced = true
      (¬ due) := by
  refine ⟨State.reset, ?_⟩
  dsimp only
  decide +kernel
theorem witness_slices_1 :
    ∃ (s : State),
      let due := s.hdRuns = true ∧ s.host.admitted = true ∧ s.sliced = true
      let waits := s.hd BIST_CFG_HOLD = 1 ∨ s.test.visit ≠ none ∨ s.gateState ≠ gRUN ∨ s.rep.tier2 ≠ [] ∨ s.rep.tier3 = true
      due ∧ waits := by
  refine ⟨((({ tWith { tImg with resil := { tImg.resil with bistMode := 1 } } with host := { HostSt.reset with admitted := true } } : State)).setHd BIST_CFG_HOLD 1), ?_⟩
  dsimp only
  decide +kernel
theorem witness_slices_2 :
    ∃ (s : State),
      let due := s.hdRuns = true ∧ s.host.admitted = true ∧ s.sliced = true
      let waits := s.hd BIST_CFG_HOLD = 1 ∨ s.test.visit ≠ none ∨ s.gateState ≠ gRUN ∨ s.rep.tier2 ≠ [] ∨ s.rep.tier3 = true
      due ∧ (¬ waits) := by
  refine ⟨(({ tWith { tImg with resil := { tImg.resil with bistMode := 1 } } with host := { HostSt.reset with admitted := true } } : State).setHd PEL_CGSTATE_STATE gRUN), ?_⟩
  dsimp only
  decide +kernel

-- SiteTests.
theorem witness_siteTests_0 :
    ∃ (s : State),
      (s.test.visit = none ∨ s.hdRuns = false) := by
  refine ⟨State.reset, ?_⟩
  decide +kernel
theorem witness_siteTests_3 :
    ∃ (c : SiteNo) (s : State) (v : _),
      let starts := c.val ∈ v.todo ∧ (s.site c.val).role = none ∧ s.hd BIST_CFG_HOLD = 0
      s.hdRuns = true ∧ s.test.visit = some v ∧ starts := by
  refine ⟨0, tVisit (tV [] [0] []), (tV [] [0] []), ?_⟩
  dsimp only
  decide +kernel
theorem witness_siteTests_4 :
    ∃ (c : SiteNo) (s : State) (v : _),
      let starts := c.val ∈ v.todo ∧ (s.site c.val).role = none ∧ s.hd BIST_CFG_HOLD = 0
      s.hdRuns = true ∧ s.test.visit = some v ∧ (¬ starts) := by
  refine ⟨1, tVisit (tV [] [0] []), (tV [] [0] []), ?_⟩
  dsimp only
  decide +kernel
theorem witness_siteTests_5 :
    ∃ (c : SiteNo) (s : State) (v : _),
      s.hdRuns = true ∧ s.test.visit = some v ∧ c.val ∉ v.testing := by
  refine ⟨0, tVisit (tV [] [0] []), (tV [] [0] []), ?_⟩
  decide +kernel
theorem witness_siteTests_6 :
    ∃ (c : SiteNo) (s : State) (v : _) (r : List EntryRun),
      let passes : EntryRun → Prop := fun e => misr e.first = e.expSig
      let runs : List EntryRun → List EntryRun := fun r => (pkgRuns v.pkg v.atSite r).filter (fun x => unitOfSite c.val x.kind.toNat x.unit.toNat)
      s.hdRuns = true ∧ s.test.visit = some v ∧ c.val ∈ v.testing ∧ (∀ e ∈ runs r, passes e) := by
  refine ⟨0, tVisit (tV (tPkg 1 0 0) [1] [0]), (tV (tPkg 1 0 0) [1] [0]), [tRunAs 1 1 0 0 [] []], ?_⟩
  dsimp only
  decide +kernel
theorem witness_siteTests_7 :
    ∃ (c : SiteNo) (s : State) (v : _) (r : List EntryRun) (e : _),
      let twice : EntryRun → Prop := fun e => misr e.first ≠ e.expSig ∧ misr e.second ≠ e.expSig
      let runs : List EntryRun → List EntryRun := fun r => (pkgRuns v.pkg v.atSite r).filter (fun x => unitOfSite c.val x.kind.toNat x.unit.toNat)
      s.hdRuns = true ∧ s.test.visit = some v ∧ c.val ∈ v.testing ∧ runs r = [e] ∧ twice e ∧ e.kind = 1 := by
  refine ⟨0, tVisit (tV (tPkg 1 0 1) [] [0]), (tV (tPkg 1 0 1) [] [0]), [tRunAs 1 1 0 1 [] []], tRunAs 1 1 0 1 [] [], ?_⟩
  dsimp only
  decide +kernel
theorem witness_siteTests_8 :
    ∃ (c : SiteNo) (s : State) (v : _) (r : List EntryRun) (e : _),
      let once : EntryRun → Prop := fun e => misr e.first ≠ e.expSig ∧ misr e.second = e.expSig
      let runs : List EntryRun → List EntryRun := fun r => (pkgRuns v.pkg v.atSite r).filter (fun x => unitOfSite c.val x.kind.toNat x.unit.toNat)
      s.hdRuns = true ∧ s.test.visit = some v ∧ c.val ∈ v.testing ∧ runs r = [e] ∧ once e ∧ e.kind = 1 ∧ s.test.table = [] ∧ s.siteBad c.val = false := by
  refine ⟨0, tVisit (tV (tPkg 1 1 1) [] [0]), (tV (tPkg 1 1 1) [] [0]), [tRunAs 1 1 0 1 [2] [1]], tRunAs 1 1 0 1 [2] [1], ?_⟩
  dsimp only
  decide +kernel
theorem witness_siteTests_9 :
    ∃ (s : State) (v : _) (r : List PortRun),
      let passes : EntryRun → Prop := fun e => misr e.first = e.expSig
      let ports : List PortRun → List EntryRun := fun r => pkgRuns v.pkg (v.beside 9) (r.map (fun p => { p.run with kind := 0x07, unit := BitVec.ofNat 48 p.port.val }))
      let ctl : List PortRun → Nat → List EntryRun := fun r i => (pkgRuns v.pkg (v.beside 8) (r.map (·.run))).filter (fun x => x.unit.toNat = i)
      let whole : List PortRun → Nat → Prop := fun r i => ctl r i ≠ [] ∧ s.covers v.pkg (v.beside 8) (fun _ => [(ukCTL, i)]) (ctl r i) = true
      s.hdRuns = true ∧ s.test.visit = some v ∧ (∀ e ∈ ports r, e.unit.toNat ∉ s.freePorts ∨ passes e) ∧ (∀ i, s.test.ctlTest = some i → ¬ whole r i) := by
  exact ⟨tVisit (tV (tPkg 9 0 0) [0] []), (tV (tPkg 9 0 0) [0] []), [⟨17, tRunAs 9 7 17 0 [] []⟩], by decide +kernel, by decide +kernel, tAll _ (by decide +kernel), fun i h => nomatch h⟩
theorem witness_siteTests_10 :
    ∃ (s : State) (v : _) (r : List PortRun) (i : _),
      let passes : EntryRun → Prop := fun e => misr e.first = e.expSig
      let ports : List PortRun → List EntryRun := fun r => pkgRuns v.pkg (v.beside 9) (r.map (fun p => { p.run with kind := 0x07, unit := BitVec.ofNat 48 p.port.val }))
      let ctl : List PortRun → Nat → List EntryRun := fun r i => (pkgRuns v.pkg (v.beside 8) (r.map (·.run))).filter (fun x => x.unit.toNat = i)
      let whole : List PortRun → Nat → Prop := fun r i => ctl r i ≠ [] ∧ s.covers v.pkg (v.beside 8) (fun _ => [(ukCTL, i)]) (ctl r i) = true
      s.hdRuns = true ∧ s.test.visit = some v ∧ (∀ e ∈ ports r, e.unit.toNat ∉ s.freePorts ∨ passes e) ∧ s.test.ctlTest = some i ∧ whole r i ∧
      (∀ e ∈ ctl r i, passes e) := by
  refine ⟨({ tVisit (tV (tPkg 8 0 0) [0] []) with test := { (tVisit (tV (tPkg 8 0 0) [0] [])).test with ctlTest := some 2 } } : State), (tV (tPkg 8 0 0) [0] []), [⟨0, tRunAs 8 9 2 0 [] []⟩], 2, ?_⟩
  dsimp only
  decide +kernel
theorem witness_siteTests_11 :
    ∃ (s : State) (v : _) (r : List PortRun) (i : _) (e : _),
      let passes : EntryRun → Prop := fun e => misr e.first = e.expSig
      let twice : EntryRun → Prop := fun e => misr e.first ≠ e.expSig ∧ misr e.second ≠ e.expSig
      let ports : List PortRun → List EntryRun := fun r => pkgRuns v.pkg (v.beside 9) (r.map (fun p => { p.run with kind := 0x07, unit := BitVec.ofNat 48 p.port.val }))
      let ctl : List PortRun → Nat → List EntryRun := fun r i => (pkgRuns v.pkg (v.beside 8) (r.map (·.run))).filter (fun x => x.unit.toNat = i)
      let whole : List PortRun → Nat → Prop := fun r i => ctl r i ≠ [] ∧ s.covers v.pkg (v.beside 8) (fun _ => [(ukCTL, i)]) (ctl r i) = true
      s.hdRuns = true ∧ s.test.visit = some v ∧ (∀ e ∈ ports r, e.unit.toNat ∉ s.freePorts ∨ passes e) ∧ s.test.ctlTest = some i ∧ whole r i ∧
      ctl r i = [e] ∧ twice e := by
  refine ⟨({ tVisit (tV (tPkg 8 0 1) [0] []) with test := { (tVisit (tV (tPkg 8 0 1) [0] [])).test with ctlTest := some 2 } } : State), (tV (tPkg 8 0 1) [0] []), [⟨0, tRunAs 8 9 2 1 [] []⟩], 2, tRunAs 8 9 2 1 [] [], ?_⟩
  dsimp only
  decide +kernel
theorem witness_siteTests_12 :
    ∃ (s : State) (v : _) (r : List PortRun) (e : _),
      let twice : EntryRun → Prop := fun e => misr e.first ≠ e.expSig ∧ misr e.second ≠ e.expSig
      let ports : List PortRun → List EntryRun := fun r => pkgRuns v.pkg (v.beside 9) (r.map (fun p => { p.run with kind := 0x07, unit := BitVec.ofNat 48 p.port.val }))
      s.hdRuns = true ∧ s.test.visit = some v ∧ s.test.ctlTest = none ∧ ports r = [e] ∧ e.unit.toNat ∈ s.freePorts ∧ twice e := by
  refine ⟨tVisit (tV (tPkg 9 0 1) [] [0]), (tV (tPkg 9 0 1) [] [0]), [⟨17, tRunAs 9 7 17 1 [] []⟩], tRunAs 9 7 17 1 [] [], ?_⟩
  dsimp only
  decide +kernel
theorem witness_siteTests_13 :
    ∃ (s : State) (v : _) (r : List PortRun) (e : _),
      let once : EntryRun → Prop := fun e => misr e.first ≠ e.expSig ∧ misr e.second = e.expSig
      let ports : List PortRun → List EntryRun := fun r => pkgRuns v.pkg (v.beside 9) (r.map (fun p => { p.run with kind := 0x07, unit := BitVec.ofNat 48 p.port.val }))
      s.hdRuns = true ∧ s.test.visit = some v ∧ s.test.ctlTest = none ∧ ports r = [e] ∧ e.unit.toNat ∈ s.freePorts ∧ once e ∧ s.test.table = [] := by
  refine ⟨tVisit (tV (tPkg 9 1 1) [] [0]), (tV (tPkg 9 1 1) [] [0]), [⟨17, tRunAs 9 7 17 1 [2] [1]⟩], tRunAs 9 7 17 1 [2] [1], ?_⟩
  dsimp only
  decide +kernel

-- PhaseChecks.
theorem witness_phaseChecks_0 :
    ∃ (rail : Fin 32) (phase : Fin 16) (ok : Bool) (s : State),
      let u := phaseUnit rail.val phase.val
      let skips := s.hdRuns = false ∨ ok = true ∨ s.lasting ukPHASE u = true ∨ railPhases rail.val < phase.val ∨ railPhases rail.val = 0
      skips := by
  refine ⟨22, 1, true, State.reset, ?_⟩
  dsimp only
  decide +kernel
theorem witness_phaseChecks_1 :
    ∃ (rail : Fin 32) (phase : Fin 16) (ok : Bool) (retryOk : Bool) (s : State),
      let u := phaseUnit rail.val phase.val
      let skips := s.hdRuns = false ∨ ok = true ∨ s.lasting ukPHASE u = true ∨ railPhases rail.val < phase.val ∨ railPhases rail.val = 0
      (¬ skips) ∧ retryOk = false ∧ s.test.table.length < 4096 := by
  refine ⟨22, 1, false, false, State.reset, ?_⟩
  dsimp only
  decide +kernel
theorem witness_phaseChecks_2 :
    ∃ (rail : Fin 32) (phase : Fin 16) (ok : Bool) (retryOk : Bool) (s : State),
      let u := phaseUnit rail.val phase.val
      let skips := s.hdRuns = false ∨ ok = true ∨ s.lasting ukPHASE u = true ∨ railPhases rail.val < phase.val ∨ railPhases rail.val = 0
      (¬ skips) ∧ retryOk = true ∧ s.test.table.length < 4096 ∧ (∀ e ∈ s.test.table, e.isFor ukPHASE u = false) := by
  refine ⟨22, 0, false, true, State.reset, ?_⟩
  dsimp only
  exact ⟨by decide +kernel, by decide +kernel, by decide +kernel, tAll _ (by decide +kernel)⟩

-- TestContent.
theorem witness_testContent_0 :
    ∃ (h : HostHdr) (off : BitVec 64) (len : BitVec 64) (chunk : Bytes) (s : State),
      s.hostTakes h 0x09 false false ∧ upload s.test.upload off.toNat len.toNat chunk = none := by
  refine ⟨(tReq 0x09), 1, 1, [], tHost, ?_⟩
  unfold State.hostTakes
  decide +kernel
theorem witness_testContent_1 :
    ∃ (h : HostHdr) (off : BitVec 64) (len : BitVec 64) (chunk : Bytes) (s : State) (b : _),
      s.hostTakes h 0x09 false false ∧ upload s.test.upload off.toNat len.toNat chunk = some b ∧ b.length < len.toNat := by
  refine ⟨(tReq 0x09), 0, 2, [0], tHost, [0], ?_⟩
  unfold State.hostTakes
  decide +kernel
theorem witness_testContent_2 :
    ∃ (h : HostHdr) (off : BitVec 64) (len : BitVec 64) (chunk : Bytes) (s : State) (b : _),
      s.hostTakes h 0x09 false false ∧ upload s.test.upload off.toNat len.toNat chunk = some b ∧ len.toNat ≤ b.length := by
  refine ⟨(tReq 0x09), 0, 1, [0], tHost, [0], ?_⟩
  unfold State.hostTakes
  decide +kernel

-- CertificatesAndChallenges.
-- Under a premise on what the model leaves free or what no kernel evaluates: an opaque value of Config, or a signature on P-521 that holds.
theorem witness_certificatesAndChallenges_0 (k : Config.certKind tTbs = 3) (c : ecdsaOk p521gx p521gy tTbs tSigR tSigCert = true) :
    ∃ (cert : Bytes) (s : State) (k : _),
      s.sec.dev = some k ∧ s.hdRuns = true ∧ certPoint 3 s.sec.roots s.sec.rootsRevoked cert = some (k.x, k.y) := by
  exact ⟨tChain, ({ State.reset with sec := { Sec.reset with dev := some ⟨1, p521gx, p521gy, [], 0⟩, roots := tRoots } } : State), ⟨1, p521gx, p521gy, [], 0⟩, by decide +kernel, by decide +kernel, tChained 3 k c⟩
theorem witness_certificatesAndChallenges_1 :
    ∃ (cert : Bytes) (s : State) (k : _),
      s.sec.dev = some k ∧ certPoint 3 s.sec.roots s.sec.rootsRevoked cert ≠ some (k.x, k.y) := by
  refine ⟨[], ({ State.reset with sec := { Sec.reset with dev := some ⟨1, p521gx, p521gy, [], 0⟩ } } : State), ⟨1, p521gx, p521gy, [], 0⟩, ?_⟩
  decide +kernel
theorem witness_certificatesAndChallenges_2 :
    ∃ (s : State),
      (s.sec.dev = none ∨ s.hdRuns = false) := by
  refine ⟨State.reset, ?_⟩
  decide +kernel
theorem witness_certificatesAndChallenges_3 :
    ∃ (h : HostHdr) (s : State),
      s.hostTakes h 0x06 true false := by
  refine ⟨{ tReq 6 with via := .mgtB }, State.reset.setHd MGT_STATUS_PLB 1, ?_⟩
  unfold State.hostTakes
  decide +kernel

-- SignedRequests.
theorem witness_signedRequests_0 :
    ∃ (h : HostHdr) (b : Bytes) (s : State),
      s.hostTakes h 0x07 true false ∧ s.reqCode b ≠ 0 := by
  refine ⟨(tReq 0x07), [], tHost, ?_⟩
  unfold State.hostTakes
  decide +kernel
-- Under a premise on what the model leaves free or what no kernel evaluates: an opaque value of Config, or a signature on P-521 that holds.
theorem witness_signedRequests_1 (e : ecdsaOk p521gx p521gy (tAlmpol 255) tSigR tSigBad = true) :
    ∃ (h : HostHdr) (b : Bytes) (s : State),
      s.hostTakes h 0x07 true false ∧ s.reqCode b = 0 ∧ s.typeOk b = false := by
  refine ⟨tReqN 7 384, tSigned (tAlmpol 255) tSigBad ++ leBytes 24 0, tOwner, by unfold State.hostTakes; decide +kernel, tReqCode _ tOwner (tAlmpol 255) tSigBad ?_ ?_ ?_ ?_ ?_ ?_ ?_ e, ?_⟩ <;> decide +kernel
-- Under a premise on what the model leaves free or what no kernel evaluates: an opaque value of Config, or a signature on P-521 that holds.
theorem witness_signedRequests_2 (k : Config.certKind tTbs = 2) (c : ecdsaOk p521gx p521gy tTbs tSigR tSigCert = true)
    (g : Config.freeBit 0 = true) (e : ecdsaOk p521gx p521gy tScan tSigR tSigScan = true) :
    ∃ (h : HostHdr) (b : Bytes) (s : State),
      s.hostTakes h 0x07 true false ∧ s.reqCode b = 0 ∧ s.typeOk b = true ∧ numAt b 5 1 = srSCANUNLOCK ∧ Config.freeBit s.free = true := by
  have h1 : numAt (tSigned tScan tSigScan ++ leBytes 24 0 ++ tChain) 5 1 = srSCANUNLOCK := by decide +kernel
  have h2 : (tSigned tScan tSigScan ++ leBytes 24 0 ++ tChain).drop 384 = tChain := by decide +kernel
  have h : tOwner.reqSigner (tSigned tScan tSigScan ++ leBytes 24 0 ++ tChain) = some (p521gx, p521gy) := by
    apply tSigner _ _ _ h1
    rw [h2]
    exact tChained 2 k c
  refine ⟨tReqN 7 1172, tSigned tScan tSigScan ++ leBytes 24 0 ++ tChain, tOwner, by unfold State.hostTakes; decide +kernel,
    tReqCode _ tOwner tScan tSigScan ?_ ?_ ?_ h ?_ ?_ ?_ e, ?_, ?_, g⟩ <;> decide +kernel
-- Under a premise on what the model leaves free or what no kernel evaluates: an opaque value of Config, or a signature on P-521 that holds.
theorem witness_signedRequests_3 (e : ecdsaOk p521gx p521gy (tAlmpol 21) tSigR tSigAlm = true) :
    ∃ (h : HostHdr) (b : Bytes) (s : State),
      s.hostTakes h 0x07 true false ∧ s.reqCode b = 0 ∧ s.typeOk b = true ∧ (numAt b 5 1 = srSCANUNLOCK → Config.freeBit s.free = false) := by
  refine ⟨tReqN 7 384, tSigned (tAlmpol 21) tSigAlm ++ leBytes 24 0, tOwner, by unfold State.hostTakes; decide +kernel, tReqCode _ tOwner (tAlmpol 21) tSigAlm ?_ ?_ ?_ ?_ ?_ ?_ ?_ e, ?_⟩ <;> decide +kernel

-- AttestationAndFirmware.
theorem witness_attestationAndFirmware_0 :
    ∃ (h : HostHdr) (s : State),
      s.hostTakes h 0x08 true false ∧ s.provisioned = true := by
  refine ⟨tReqN 8 32, ({ tHost.setHd SEC_STATUS_KSTATE 1 with sec := { Sec.reset with dev := some ⟨1, p521gx, p521gy, [], 0⟩ } } : State), ?_⟩
  unfold State.hostTakes
  decide +kernel
theorem witness_attestationAndFirmware_1 :
    ∃ (h : HostHdr) (s : State),
      s.hostTakes h 0x08 true false ∧ s.provisioned = false := by
  refine ⟨tReqN 8 32, tHost, ?_⟩
  unfold State.hostTakes
  decide +kernel
theorem witness_attestationAndFirmware_2 :
    ∃ (h : HostHdr) (s : State) (off : BitVec 64) (len : BitVec 64) (chunk : Bytes),
      s.hostTakes h 0x0A true true ∧ upload s.sec.upload off.toNat len.toNat chunk = none := by
  refine ⟨(tReq 0x0A), tHost, 1, 1, [], ?_⟩
  unfold State.hostTakes
  decide +kernel
theorem witness_attestationAndFirmware_3 :
    ∃ (h : HostHdr) (s : State) (off : BitVec 64) (len : BitVec 64) (chunk : Bytes) (b : _),
      s.hostTakes h 0x0A true true ∧ upload s.sec.upload off.toNat len.toNat chunk = some b ∧ b.length < len.toNat := by
  refine ⟨(tReq 0x0A), tHost, 0, 2, [0], [0], ?_⟩
  unfold State.hostTakes
  decide +kernel
theorem witness_attestationAndFirmware_4 :
    ∃ (h : HostHdr) (s : State) (off : BitVec 64) (len : BitVec 64) (chunk : Bytes) (b : _),
      s.hostTakes h 0x0A true true ∧ upload s.sec.upload off.toNat len.toNat chunk = some b ∧ len.toNat ≤ b.length ∧ s.fwCode b ≠ 0 := by
  refine ⟨(tReq 0x0A), tHost, 0, 1, [0], [0], ?_⟩
  unfold State.hostTakes
  decide +kernel
-- Under a premise on what the model leaves free or what no kernel evaluates: an opaque value of Config, or a signature on P-521 that holds.
theorem witness_attestationAndFirmware_5 (k : Config.certKind tTbs = 0) (c : ecdsaOk p521gx p521gy tTbs tSigR tSigCert = true)
    (e : ecdsaOk p521gx p521gy tFwBody tSigR tSigFw = true) :
    ∃ (h : HostHdr) (s : State) (off : BitVec 64) (len : BitVec 64) (chunk : Bytes) (b : _),
      s.hostTakes h 0x0A true true ∧ upload s.sec.upload off.toNat len.toNat chunk = some b ∧ len.toNat ≤ b.length ∧ s.fwCode b = 0 := by
  have h6 : fwChainAt (tSigned (tFwBody ++ keyId p521gx p521gy) tSigFw) = 128 := by decide +kernel
  have h7 : numAt (tSigned (tFwBody ++ keyId p521gx p521gy) tSigFw) 20 4 = 788 := by decide +kernel
  have h1 : ((tSigned (tFwBody ++ keyId p521gx p521gy) tSigFw).drop 128).take 788 = tChain := by decide +kernel
  have h2 : ((tSigned (tFwBody ++ keyId p521gx p521gy) tSigFw).drop 916).take 32 = keyId p521gx p521gy := by decide +kernel
  have h3 : (tSigned (tFwBody ++ keyId p521gx p521gy) tSigFw).take 916 = tFwBody := by decide +kernel
  have h4 : numAt (tSigned (tFwBody ++ keyId p521gx p521gy) tSigFw) 948 66 = tSigR := by decide +kernel
  have h5 : numAt (tSigned (tFwBody ++ keyId p521gx p521gy) tSigFw) 1014 66 = tSigFw := by decide +kernel
  have h8 : fwShape (tSigned (tFwBody ++ keyId p521gx p521gy) tSigFw) = true := by decide +kernel
  have h9 : numAt (tSigned (tFwBody ++ keyId p521gx p521gy) tSigFw) 6 2 = 0xA1 ∧ tOwner.hd SEC_STATUS_SVN = 0 := by decide +kernel
  have hu : upload tOwner.sec.upload (0 : BitVec 64).toNat (1080 : BitVec 64).toNat (tSigned (tFwBody ++ keyId p521gx p521gy) tSigFw) =
      some (tSigned (tFwBody ++ keyId p521gx p521gy) tSigFw) := by decide +kernel
  have hl : (1080 : BitVec 64).toNat ≤ (tSigned (tFwBody ++ keyId p521gx p521gy) tSigFw).length := by decide +kernel
  have hc : certPoint 0 tOwner.sec.roots tOwner.sec.rootsRevoked tChain = some (p521gx, p521gy) := tChained 0 k c
  generalize tSigned (tFwBody ++ keyId p521gx p521gy) tSigFw = b at *
  have s : tOwner.fwSigned b = true := tFwSigned tOwner b 128 788 p521gx p521gy h6 h7 (by rw [h1, hc]) h2 (by rw [h3, h4, h5, e])
  refine ⟨tReqN 10 1080, tOwner, 0, 1080, b, b, by unfold State.hostTakes; decide +kernel, hu, hl, ?_⟩
  unfold State.fwCode
  simp [h8, s, h9.1, h9.2]

-- FacilityBarrier.
theorem witness_facilityBarrier_0 :
    ∃ (s : State),
      (s.fac.up = false ∨ s.fac.node = 0x7F) := by
  refine ⟨State.reset, ?_⟩
  decide +kernel
theorem witness_facilityBarrier_1 :
    ∃ (outward : Bool) (code : BitVec 4) (node : BitVec 7) (d : Bytes) (s : State),
      s.fac.up = true ∧ s.fac.node ≠ 0x7F ∧ s.filtered outward code.toNat node.toNat d := by
  refine ⟨true, 0, 5, [], tFac [], ?_⟩
  unfold State.filtered
  decide +kernel
theorem witness_facilityBarrier_2 :
    ∃ (outward : Bool) (code : BitVec 4) (node : BitVec 7) (d : Bytes) (s : State),
      s.fac.up = true ∧ s.fac.node ≠ 0x7F ∧ (¬ s.filtered outward code.toNat node.toNat d) ∧ canRate code.toNat ≤ s.crossedLately code.toNat := by
  refine ⟨true, 7, 5, leBytes 16 0, tFac [(7, 0)], ?_⟩
  unfold State.filtered State.crossedLately
  decide +kernel
theorem witness_facilityBarrier_3 :
    ∃ (outward : Bool) (code : BitVec 4) (node : BitVec 7) (d : Bytes) (s : State),
      s.fac.up = true ∧ s.fac.node ≠ 0x7F ∧ (¬ s.filtered outward code.toNat node.toNat d) ∧ s.crossedLately code.toNat < canRate code.toNat ∧
      outward = true := by
  refine ⟨true, 1, 5, leBytes 16 0, tFac [(7, 0)], ?_⟩
  unfold State.filtered State.crossedLately
  decide +kernel
theorem witness_facilityBarrier_4 :
    ∃ (outward : Bool) (code : BitVec 4) (node : BitVec 7) (d : Bytes) (s : State),
      s.fac.up = true ∧ s.fac.node ≠ 0x7F ∧ (¬ s.filtered outward code.toNat node.toNat d) ∧ s.crossedLately code.toNat < canRate code.toNat ∧
      outward = false := by
  refine ⟨false, 4, 5, leBytes 8 65535, tFac [], ?_⟩
  unfold State.filtered State.crossedLately
  decide +kernel

-- FacilityInputs.
theorem witness_facilityInputs_3 :
    ∃ (d : BitVec 64) (s : State),
      let open_ := s.fac.up = true ∧ s.fac.node ≠ 0x7F
      open_ ∧ s.hdRuns = true ∧ d.toNat % 256 ≤ 2 ∧ d.toNat < 2 ^ 40 ∧ s.crossedLately 3 < 10 ∧ s.fac.measured ≤ 2 := by
  refine ⟨2, tFac [], ?_⟩
  dsimp only
  unfold State.crossedLately
  decide +kernel
theorem witness_facilityInputs_4 :
    ∃ (d : BitVec 64) (s : State),
      let open_ := s.fac.up = true ∧ s.fac.node ≠ 0x7F
      open_ ∧ (2 < d.toNat % 256 ∨ 2 ^ 40 ≤ d.toNat) := by
  refine ⟨3, tFac [], ?_⟩
  dsimp only
  decide +kernel
theorem witness_facilityInputs_5 :
    ∃ (d : BitVec 64) (s : State),
      let open_ := s.fac.up = true ∧ s.fac.node ≠ 0x7F
      open_ ∧ s.hdRuns = true ∧ d.toNat < 2 ^ 16 ∧ s.crossedLately 4 < 10 := by
  refine ⟨65535, tFac [], ?_⟩
  dsimp only
  unfold State.crossedLately
  decide +kernel
theorem witness_facilityInputs_6 :
    ∃ (d : BitVec 64) (s : State),
      let open_ := s.fac.up = true ∧ s.fac.node ≠ 0x7F
      open_ ∧ 2 ^ 16 ≤ d.toNat := by
  refine ⟨65536, tFac [], ?_⟩
  dsimp only
  decide +kernel
theorem witness_facilityInputs_7 :
    ∃ (s : State),
      s.hdRuns = false := by
  refine ⟨(State.reset.setHd CLK_STATUS_STOPPED 1), ?_⟩
  decide +kernel

-- FacilityFrames.
theorem witness_facilityFrames_2 :
    ∃ (s : State) (code : BitVec 8) (action : BitVec 8),
      s.hdRuns = true ∧ 1 ≤ code.toNat ∧ code.toNat ≤ 4 ∧ action.toNat ≤ 3 := by
  refine ⟨tFac [], 4, 3, ?_⟩
  decide +kernel
theorem witness_facilityFrames_3 :
    ∃ (s : State) (code : BitVec 8) (action : BitVec 8),
      (s.hdRuns = false ∨ code.toNat = 0 ∨ 4 < code.toNat ∨ 3 < action.toNat) := by
  refine ⟨tFac [], 5, 3, ?_⟩
  decide +kernel
theorem witness_facilityFrames_4 :
    ∃ (s : State),
      s.hdRuns = false := by
  refine ⟨(State.reset.setHd CLK_STATUS_STOPPED 1), ?_⟩
  decide +kernel
theorem witness_facilityFrames_6 :
    ∃ (s : State) (d : BitVec 64),
      s.hdRuns = true ∧ s.fac.up = true ∧ s.fac.node ≠ 0x7F ∧ s.fac.sent = [] ∧ d.toNat < 2 ^ 32 ∧ (s.meterUp = false ∨ s.meterRec d.toNat = none) := by
  refine ⟨tFac [], BitVec.ofNat 64 (2 ^ 32 - 1), ?_⟩
  decide +kernel
theorem witness_facilityFrames_7 :
    ∃ (s : State) (d : BitVec 64) (r : _),
      s.hdRuns = true ∧ s.fac.up = true ∧ s.fac.node ≠ 0x7F ∧ s.fac.sent = [] ∧ d.toNat < 2 ^ 32 ∧ s.meterUp = true ∧ s.meterRec d.toNat = some r := by
  refine ⟨({ (tFac []).setHd MTR_STATUS_LINK 1 with mtr := { Meter.reset with recs := [⟨9, [1]⟩] } } : State), 9, [1], ?_⟩
  decide +kernel

-- FacilitySupply.
theorem witness_facilitySupply_1 :
    ∃ (s : State),
      s.fac.up = false := by
  refine ⟨State.reset, ?_⟩
  decide +kernel
theorem witness_facilitySupply_2 :
    ∃ (s : State),
      s.fac.up = true := by
  refine ⟨tFac [], ?_⟩
  decide +kernel

-- MeterCommands.
theorem witness_meterCommands_1 :
    ∃ (s : State),
      s.meterUp = true ∧ s.mtr.job = none := by
  refine ⟨tMtr Meter.reset, ?_⟩
  decide +kernel
theorem witness_meterCommands_3 :
    ∃ (s : State),
      s.meterUp = true ∧ s.mtr.job ≠ none ∧ s.mtr.lost = none := by
  refine ⟨tMtr { Meter.reset with job := some ⟨1, 0, 0, 0, false⟩ }, ?_⟩
  decide +kernel
theorem witness_meterCommands_4 :
    ∃ (s : State),
      s.meterUp = true ∧ (s.mtr.job = none ∨ s.mtr.lost ≠ none) := by
  refine ⟨tMtr Meter.reset, ?_⟩
  decide +kernel
theorem witness_meterCommands_5 :
    ∃ (s : State) (n : BitVec 32) (r : _),
      s.meterUp = true ∧ s.meterRec n.toNat = some r := by
  refine ⟨tMtr { Meter.reset with recs := [⟨9, [1]⟩] }, 9, [1], ?_⟩
  decide +kernel
theorem witness_meterCommands_6 :
    ∃ (s : State) (n : BitVec 32),
      s.meterUp = true ∧ s.meterRec n.toNat = none := by
  refine ⟨tMtr Meter.reset, 9, ?_⟩
  decide +kernel
theorem witness_meterCommands_11 :
    ∃ (s : State),
      s.hdRuns = false := by
  refine ⟨(State.reset.setHd CLK_STATUS_STOPPED 1), ?_⟩
  decide +kernel
theorem witness_meterCommands_14 :
    ∃ (s : State),
      (s.mtr.job = none ∨ s.mtr.lost ≠ none) := by
  refine ⟨tMtr { Meter.reset with job := some ⟨1, 0, 0, 0, false⟩, lost := some (0, 0) }, ?_⟩
  decide +kernel
theorem witness_meterCommands_15 :
    ∃ (s : State),
      s.hdRuns = true ∧ s.meterUp = true := by
  refine ⟨tMtr Meter.reset, ?_⟩
  decide +kernel
theorem witness_meterCommands_17 :
    ∃ (s : State),
      s.hdRuns = true ∧ s.meterUp = false := by
  refine ⟨State.reset.setHd MTR_STATUS_LINK 0, ?_⟩
  decide +kernel

-- InputPower.
theorem witness_inputPower_0 :
    ∃ (s : State),
      s.hdRuns = false := by
  refine ⟨(State.reset.setHd CLK_STATUS_STOPPED 1), ?_⟩
  decide +kernel
theorem witness_inputPower_4 :
    ∃ (s : State),
      s.hdRuns = true ∧ s.hd PWR_STATUS_EMERG = 1 := by
  refine ⟨State.reset.setHd PWR_STATUS_EMERG 1, ?_⟩
  decide +kernel
theorem witness_inputPower_5 :
    ∃ (s : State),
      s.hd PWR_STATUS_EMERG ≠ 1 := by
  refine ⟨State.reset, ?_⟩
  decide +kernel
theorem witness_inputPower_6 :
    ∃ (v : BitVec 16),
      4000 ≤ v.toNat ∧ v.toNat ≤ 6000 := by
  refine ⟨6000, ?_⟩
  decide +kernel
theorem witness_inputPower_7 :
    ∃ (s : State) (v : BitVec 16),
      s.hdRuns = true ∧ 6000 < v.toNat ∧ v.toNat ≤ 6600 := by
  refine ⟨State.reset, 6600, ?_⟩
  decide +kernel
theorem witness_inputPower_8 :
    ∃ (s : State) (v : BitVec 16),
      s.hdRuns = true ∧ (v.toNat < 4000 ∨ 6600 < v.toNat) := by
  refine ⟨State.reset, 6601, ?_⟩
  decide +kernel

-- LossOfPower.
theorem witness_lossOfPower_0 :
    ∃ (s : State),
      s.pwr.input = false := by
  refine ⟨({ State.reset with pwr := { Pwr.reset with input := false } } : State), ?_⟩
  decide +kernel
theorem witness_lossOfPower_1 :
    ∃ (s : State),
      s.pwr.input = true := by
  refine ⟨State.reset, ?_⟩
  decide +kernel

-- Temperatures.
theorem witness_temperatures_0 :
    ∃ (s : State),
      s.hdRuns = false := by
  refine ⟨(State.reset.setHd CLK_STATUS_STOPPED 1), ?_⟩
  decide +kernel
theorem witness_temperatures_2 :
    ∃ (s : State),
      s.hdRuns = true := by
  refine ⟨State.reset, ?_⟩
  decide +kernel

-- PowerUp.
theorem witness_powerUp_0 :
    ∃ (s : State),
      (s.pwr.present = false ∨ s.host.stage ≠ 0 ∨ s.host.shut = true) := by
  refine ⟨({ State.reset with host := { HostSt.reset with shut := true } } : State), ?_⟩
  decide +kernel
theorem witness_powerUp_1 :
    ∃ (s : State),
      s.pwr.present = true ∧ s.host.stage = 0 ∧ s.host.shut = false := by
  refine ⟨State.reset, ?_⟩
  decide +kernel

-- ResetAndShutdown.
theorem witness_resetAndShutdown_0 :
    ∃ (h : HostHdr) (s : State),
      let resets := s.hostTakes h 0x0F false false
      s.jobLoaded = true ∧ resets := by
  refine ⟨tReq 0xf, tLoaded tImg, ?_⟩
  dsimp only
  unfold State.hostTakes
  decide +kernel
theorem witness_resetAndShutdown_1 :
    ∃ (h : HostHdr) (s : State),
      let shuts := s.hostTakes h 0x0B false false
      s.jobLoaded = true ∧ shuts := by
  refine ⟨tReq 0xb, tLoaded tImg, ?_⟩
  dsimp only
  unfold State.hostTakes
  decide +kernel
theorem witness_resetAndShutdown_2 :
    ∃ (h : HostHdr) (s : State),
      let tests := s.hostTakes h 0x0C false false
      s.jobLoaded = true ∧ tests := by
  refine ⟨tReq 0xc, tLoaded tImg, ?_⟩
  dsimp only
  unfold State.hostTakes
  decide +kernel
theorem witness_resetAndShutdown_3 :
    ∃ (h : HostHdr) (s : State),
      let resets := s.hostTakes h 0x0F false false
      s.jobLoaded = false ∧ resets := by
  refine ⟨tReq 0xf, tHost, ?_⟩
  dsimp only
  unfold State.hostTakes
  decide +kernel
theorem witness_resetAndShutdown_4 :
    ∃ (h : HostHdr) (s : State),
      let shuts := s.hostTakes h 0x0B false false
      s.jobLoaded = false ∧ shuts := by
  refine ⟨tReq 0xb, tHost, ?_⟩
  dsimp only
  unfold State.hostTakes
  decide +kernel
theorem witness_resetAndShutdown_5 :
    ∃ (h : HostHdr) (s : State),
      let tests := s.hostTakes h 0x0C false false
      s.jobLoaded = false ∧ tests := by
  refine ⟨tReq 0xc, tHost, ?_⟩
  dsimp only
  unfold State.hostTakes
  decide +kernel

-- HostLink.
theorem witness_hostLink_0 :
    ∃ (s : State),
      s.hdRuns = false := by
  refine ⟨(State.reset.setHd CLK_STATUS_STOPPED 1), ?_⟩
  decide +kernel
theorem witness_hostLink_4 :
    ∃ (s : State),
      s.host.hxUp = false := by
  refine ⟨State.reset, ?_⟩
  decide +kernel
theorem witness_hostLink_5 :
    ∃ (m : Fin 4) (s : State),
      s.hdRuns = true ∧ (s.host.hxUp = false ∨ 2 ≤ s.linkSt m.val) := by
  refine ⟨3, ({ State.reset with host := { HostSt.reset with hxUp := true, links := [(3, 2)] } } : State), ?_⟩
  decide +kernel
theorem witness_hostLink_6 :
    ∃ (m : Fin 4) (fl : HostFlit) (s : State),
      s.hdRuns = true ∧ s.host.hxUp = true ∧ s.linkSt m.val < 2 ∧ flitOk fl = true ∧ fl.seq.toNat ≠ s.host.rxSeq := by
  refine ⟨3, ⟨1, true, List.replicate 24 (tWord 0), false, 0, 0, false⟩, tHost, ?_⟩
  decide +kernel
theorem witness_hostLink_7 :
    ∃ (m : Fin 4) (fl : HostFlit) (s : State),
      s.hdRuns = true ∧ s.host.hxUp = true ∧ s.linkSt m.val < 2 ∧ flitOk fl = true ∧ fl.seq.toNat = s.host.rxSeq := by
  refine ⟨3, ⟨0xFFFF, true, List.replicate 24 (tWord 0), false, 0, 0, false⟩, ({ State.reset with host := { HostSt.reset with hxUp := true, rxSeq := 0xFFFF } } : State), ?_⟩
  decide +kernel
theorem witness_hostLink_8 :
    ∃ (m : Fin 4) (fl : HostFlit) (s : State),
      s.hdRuns = true ∧ s.host.hxUp = true ∧ flitOk fl = false ∧ s.linkSt m.val = 0 := by
  refine ⟨3, ⟨0, false, List.replicate 24 (tWord 0), false, 0, 0, false⟩, tHost, ?_⟩
  decide +kernel
theorem witness_hostLink_9 :
    ∃ (m : Fin 4) (fl : HostFlit) (s : State),
      s.hdRuns = true ∧ s.host.hxUp = true ∧ flitOk fl = false ∧ s.linkSt m.val = 1 ∧ (∀ e ∈ s.host.linkFails, e.1 = m.val → dayUnits < s.time - e.2) := by
  refine ⟨3, ⟨0, false, List.replicate 24 (tWord 0), true, 0, 0, false⟩, ({ State.reset with host := { HostSt.reset with hxUp := true, links := [(3, 1)] } } : State), ?_⟩
  decide +kernel
theorem witness_hostLink_10 :
    ∃ (m : Fin 4) (fl : HostFlit) (s : State),
      s.hdRuns = true ∧ s.host.hxUp = true ∧ flitOk fl = false ∧ s.linkSt m.val = 1 ∧ (∃ e ∈ s.host.linkFails, e.1 = m.val ∧ s.time - e.2 ≤ dayUnits) := by
  refine ⟨3, ⟨0, false, List.replicate 24 (tWord 0), true, 0, 0, false⟩, ({ State.reset with host := { HostSt.reset with hxUp := true, links := [(3, 1)], linkFails := [(3, 0)] } } : State), ?_⟩
  decide +kernel
theorem witness_hostLink_11 :
    ∃ (m : Fin 4) (s : State),
      s.hdRuns = true ∧ s.linkSt m.val ≠ 2 := by
  refine ⟨3, tHost, ?_⟩
  decide +kernel
theorem witness_hostLink_12 :
    ∃ (m : Fin 4) (s : State),
      s.hdRuns = true ∧ s.linkSt m.val = 2 := by
  refine ⟨3, ({ State.reset with host := { HostSt.reset with hxUp := true, links := [(3, 2)] } } : State), ?_⟩
  decide +kernel
theorem witness_hostLink_15 :
    ∃ (s : State),
      s.hdRuns = true ∧ (s.hd UCI_HXWD_EN = 0 ∨ s.time < s.host.kicked + 40000) := by
  refine ⟨({ State.reset.setHd UCI_HXWD_EN 1 with time := 39999 } : State), ?_⟩
  decide +kernel
theorem witness_hostLink_16 :
    ∃ (s : State),
      s.hdRuns = true ∧ s.hd UCI_HXWD_EN ≠ 0 ∧ s.host.kicked + 40000 ≤ s.time ∧ s.loaded = false := by
  refine ⟨({ State.reset.setHd UCI_HXWD_EN 1 with time := 40000 } : State), ?_⟩
  decide +kernel
theorem witness_hostLink_17 :
    ∃ (s : State),
      s.hdRuns = true ∧ s.hd UCI_HXWD_EN ≠ 0 ∧ s.host.kicked + 40000 ≤ s.time ∧ s.loaded = true := by
  refine ⟨({ (tWith tImg).setHd UCI_HXWD_EN 1 with time := 40000 } : State), ?_⟩
  decide +kernel

-- HostMessages.
theorem witness_hostMessages_0 :
    ∃ (h : HostHdr) (s : State),
      s.hostTakes h 0x0D false false ∧ s.loaded = true ∧ s.fenced = false := by
  refine ⟨(tReq 0x0D), tLoaded tImg, ?_⟩
  unfold State.hostTakes
  decide +kernel
theorem witness_hostMessages_1 :
    ∃ (h : HostHdr) (s : State),
      s.hostTakes h 0x0D false false ∧ s.loaded = true ∧ s.fenced = true := by
  refine ⟨(tReq 0x0D), ({ tLoaded tImg with pel := { Pel.reset with fencedWhy := some 1 } } : State), ?_⟩
  unfold State.hostTakes
  decide +kernel
theorem witness_hostMessages_2 :
    ∃ (h : HostHdr) (s : State),
      s.hostTakes h 0x0D false false ∧ s.loaded = false := by
  refine ⟨(tReq 0x0D), tHost, ?_⟩
  unfold State.hostTakes
  decide +kernel
theorem witness_hostMessages_3 :
    ∃ (h : HostHdr) (s : State),
      s.hostTakes h 0x0E true false := by
  refine ⟨(tReq 0x0E), tLoaded tImg, ?_⟩
  unfold State.hostTakes
  decide +kernel
theorem witness_hostMessages_4 :
    ∃ (h : HostHdr) (s : State),
      (s.pwr.input = false ∨ s.viaUp h.via = false) := by
  refine ⟨{ tReq 0x10 with via := .mgtA }, State.reset, ?_⟩
  decide +kernel
theorem witness_hostMessages_5 :
    ∃ (h : HostHdr) (s : State),
      s.pwr.input = true ∧ s.viaUp h.via = true ∧ h.rsp = true ∧ s.hdRuns = true := by
  refine ⟨{ tReq 0x10 with via := .mgtA, rsp := true }, State.reset.setHd MGT_STATUS_PLA 1, ?_⟩
  decide +kernel
theorem witness_hostMessages_6 :
    ∃ (h : HostHdr) (s : State),
      s.pwr.input = true ∧ s.viaUp h.via = true ∧ h.rsp = true ∧ s.hdRuns = false := by
  refine ⟨{ tReq 0x10 with via := .mgtA, rsp := true }, (State.reset.setHd MGT_STATUS_PLA 1).setHd CLK_STATUS_STOPPED 1, ?_⟩
  decide +kernel
theorem witness_hostMessages_7 :
    ∃ (h : HostHdr) (s : State),
      s.pwr.input = true ∧ s.viaUp h.via = true ∧ h.rsp = false ∧ hdrBad h 0x10 = false ∧ h.via ≠ .hx := by
  refine ⟨{ tReq 0x10 with via := .mgtA }, State.reset.setHd MGT_STATUS_PLA 1, ?_⟩
  decide +kernel
theorem witness_hostMessages_8 :
    ∃ (h : HostHdr) (s : State),
      s.pwr.input = true ∧ s.viaUp h.via = true ∧ h.rsp = false ∧ (hdrBad h 0x10 = true ∨ h.via = .hx) ∧ s.hdRuns = true := by
  refine ⟨tReq 0x10, tHost, ?_⟩
  decide +kernel
theorem witness_hostMessages_9 :
    ∃ (h : HostHdr) (s : State),
      s.pwr.input = true ∧ s.viaUp h.via = true ∧ h.rsp = false ∧ (hdrBad h 0x10 = true ∨ h.via = .hx) ∧ s.hdRuns = false := by
  refine ⟨tReq 0x10, tHost.setHd CLK_STATUS_STOPPED 1, ?_⟩
  decide +kernel
theorem witness_hostMessages_10 :
    ∃ (s : State) (ev : BitVec 8),
      let sends := s.hdRuns = true ∧ s.host.hxUp = true ∧ 1 ≤ ev.toNat ∧ ev.toNat ≤ 8
      sends := by
  refine ⟨tHost, 8, ?_⟩
  dsimp only
  decide +kernel
theorem witness_hostMessages_11 :
    ∃ (s : State) (ev : BitVec 8),
      let sends := s.hdRuns = true ∧ s.host.hxUp = true ∧ 1 ≤ ev.toNat ∧ ev.toNat ≤ 8
      (¬ sends) := by
  refine ⟨tHost, 9, ?_⟩
  dsimp only
  decide +kernel
theorem witness_hostMessages_12 :
    ∃ (s : State) (code : BitVec 8),
      let sends := s.hdRuns = true ∧ 1 ≤ code.toNat ∧ code.toNat ≤ 9
      sends := by
  refine ⟨State.reset, 9, ?_⟩
  dsimp only
  decide +kernel
theorem witness_hostMessages_13 :
    ∃ (s : State) (code : BitVec 8),
      let sends := s.hdRuns = true ∧ 1 ≤ code.toNat ∧ code.toNat ≤ 9
      (¬ sends) := by
  refine ⟨State.reset, 10, ?_⟩
  dsimp only
  decide +kernel
theorem witness_hostMessages_14 :
    ∃ (s : State) (src : MgtSrc) (m : CkMsg),
      let plane : Bool → Prop := fun b => s.hdRuns = true ∧ s.viaUp (if b then .mgtB else .mgtA) = true
      let dev := src.dev.toNat
      let takes := s.loaded = true ∧ (s.captainDev dev = true ∨ (dev ∈ s.slice ∧ (s.hasCaptains = false ∨ (s.ckLead = s.devidx ∧ (m.typ = 2 ∨ m.typ = 4 ∨ m.typ = 7)))))
      let serves := plane src.mgtB ∧ s.hd SEC_STATUS_RECOV ≠ 1
      serves ∧ src.rsp = none ∧ takes := by
  refine ⟨(tWith tCaps).setHd MGT_STATUS_PLB 1, ⟨true, 1, none⟩, tCk 1, ?_⟩
  dsimp only
  decide +kernel
theorem witness_hostMessages_15 :
    ∃ (s : State) (src : MgtSrc) (m : CkMsg),
      let plane : Bool → Prop := fun b => s.hdRuns = true ∧ s.viaUp (if b then .mgtB else .mgtA) = true
      let dev := src.dev.toNat
      let takes := s.loaded = true ∧ (s.captainDev dev = true ∨ (dev ∈ s.slice ∧ (s.hasCaptains = false ∨ (s.ckLead = s.devidx ∧ (m.typ = 2 ∨ m.typ = 4 ∨ m.typ = 7)))))
      let serves := plane src.mgtB ∧ s.hd SEC_STATUS_RECOV ≠ 1
      serves ∧ src.rsp = none ∧ (¬ takes) := by
  refine ⟨(tWith tCaps).setHd MGT_STATUS_PLB 1, ⟨true, 3, none⟩, tCk 1, ?_⟩
  dsimp only
  decide +kernel
theorem witness_hostMessages_16 :
    ∃ (s : State) (src : MgtSrc) (typ : _),
      let plane : Bool → Prop := fun b => s.hdRuns = true ∧ s.viaUp (if b then .mgtB else .mgtA) = true
      let dev := src.dev.toNat
      let serves := plane src.mgtB ∧ s.hd SEC_STATUS_RECOV ≠ 1
      let waits : MgtMsg → Prop := fun x => x.typ = typ.toNat ∧ (x.dst = [] ∨ dev ∈ x.dst)
      serves ∧ src.rsp = some typ ∧ (∀ x ∈ s.mgt, ¬ waits x) := by
  refine ⟨({ (tWith tCaps).setHd MGT_STATUS_PLB 1 with mgt := [⟨0x20, 0, 0, [2], [], 0⟩] } : State), ⟨true, 1, some 0x20⟩, 0x20, ?_⟩
  dsimp only
  decide +kernel
theorem witness_hostMessages_17 :
    ∃ (s : State) (src : MgtSrc) (typ : _) (a : _) (x : _) (b : _),
      let plane : Bool → Prop := fun b => s.hdRuns = true ∧ s.viaUp (if b then .mgtB else .mgtA) = true
      let dev := src.dev.toNat
      let serves := plane src.mgtB ∧ s.hd SEC_STATUS_RECOV ≠ 1
      let waits : MgtMsg → Prop := fun x => x.typ = typ.toNat ∧ (x.dst = [] ∨ dev ∈ x.dst)
      serves ∧ src.rsp = some typ ∧ s.mgt = a ++ x :: b ∧ (∀ y ∈ a, ¬ waits y) ∧ waits x := by
  refine ⟨({ (tWith tCaps).setHd MGT_STATUS_PLB 1 with mgt := [⟨0x21, 0, 0, [], [], 0⟩, ⟨0x20, 0, 0, [2], [], 0⟩] } : State), ⟨true, 2, some 0x20⟩, 0x20, [⟨0x21, 0, 0, [], [], 0⟩], ⟨0x20, 0, 0, [2], [], 0⟩, [], ?_⟩
  dsimp only
  decide +kernel
theorem witness_hostMessages_18 :
    ∃ (s : State) (src : MgtSrc),
      let plane : Bool → Prop := fun b => s.hdRuns = true ∧ s.viaUp (if b then .mgtB else .mgtA) = true
      plane src.mgtB ∧ s.hd SEC_STATUS_RECOV = 1 := by
  refine ⟨((tWith tCaps).setHd MGT_STATUS_PLB 1).setHd SEC_STATUS_RECOV 1, ⟨true, 3, none⟩, ?_⟩
  dsimp only
  decide +kernel
theorem witness_hostMessages_19 :
    ∃ (s : State) (src : MgtSrc),
      let plane : Bool → Prop := fun b => s.hdRuns = true ∧ s.viaUp (if b then .mgtB else .mgtA) = true
      (¬ plane src.mgtB) := by
  refine ⟨State.reset, ⟨true, 2, none⟩, ?_⟩
  dsimp only
  decide +kernel
theorem witness_hostMessages_22 :
    ∃ (s : State) (b : Bool),
      let plane : Bool → Prop := fun b => s.hdRuns = true ∧ s.viaUp (if b then .mgtB else .mgtA) = true
      plane b := by
  refine ⟨(State.reset.setHd MGT_STATUS_PLB 1), true, ?_⟩
  dsimp only
  decide +kernel
theorem witness_hostMessages_23 :
    ∃ (s : State) (b : Bool),
      let plane : Bool → Prop := fun b => s.hdRuns = true ∧ s.viaUp (if b then .mgtB else .mgtA) = true
      (¬ plane b) := by
  refine ⟨State.reset, true, ?_⟩
  dsimp only
  decide +kernel

-- Admission.
theorem witness_admission_0 :
    ∃ (h : HostHdr) (s : State),
      s.hostTakes h 0x04 false false ∧ s.hd FRM_STATUS_STATE ≠ 2 := by
  refine ⟨(tReq 0x04), tHost, ?_⟩
  unfold State.hostTakes
  decide +kernel
theorem witness_admission_1 :
    ∃ (h : HostHdr) (s : State),
      s.hostTakes h 0x04 false false ∧ s.hd FRM_STATUS_STATE = 2 ∧ s.fenced = true := by
  refine ⟨(tReq 0x04), ({ (tLoaded tImg).setHd FRM_STATUS_STATE 2 with pel := { Pel.reset with fencedWhy := some 1 } } : State), ?_⟩
  unfold State.hostTakes
  decide +kernel
theorem witness_admission_2 :
    ∃ (h : HostHdr) (s : State),
      s.hostTakes h 0x04 false false ∧ s.hd FRM_STATUS_STATE = 2 ∧ s.fenced = false ∧ s.host.admission ≠ none := by
  refine ⟨(tReq 0x04), ({ (tLoaded tImg).setHd FRM_STATUS_STATE 2 with host := { tHost.host with admission := some ⟨7, 0, false⟩ } } : State), ?_⟩
  unfold State.hostTakes
  decide +kernel
theorem witness_admission_3 :
    ∃ (h : HostHdr) (s : State),
      s.hostTakes h 0x04 false false ∧ s.hd FRM_STATUS_STATE = 2 ∧ s.fenced = false ∧ s.host.admission = none ∧ s.admitReason ≠ 0 := by
  refine ⟨(tReq 0x04), tHost.setHd FRM_STATUS_STATE 2, ?_⟩
  unfold State.hostTakes
  decide +kernel
theorem witness_admission_4 :
    ∃ (h : HostHdr) (restore : Bool) (s : State),
      s.hostTakes h 0x04 false false ∧ s.hd FRM_STATUS_STATE = 2 ∧ s.fenced = false ∧ s.host.admission = none ∧ s.admitReason = 0 ∧
      s.hasCaptains = true ∧ restore = false := by
  refine ⟨(tReq 0x04), false, tReady tCaps, ?_⟩
  unfold State.hostTakes
  decide +kernel
theorem witness_admission_5 :
    ∃ (h : HostHdr) (restore : Bool) (s : State),
      s.hostTakes h 0x04 false false ∧ s.hd FRM_STATUS_STATE = 2 ∧ s.fenced = false ∧ s.host.admission = none ∧ s.admitReason = 0 ∧
      s.hasCaptains = false ∧ restore = false ∧ s.overrunSite = none := by
  refine ⟨(tReq 0x04), false, tReady tImg, ?_⟩
  unfold State.hostTakes
  decide +kernel
theorem witness_admission_6 :
    ∃ (h : HostHdr) (restore : Bool) (s : State),
      s.hostTakes h 0x04 false false ∧ s.hd FRM_STATUS_STATE = 2 ∧ s.fenced = false ∧ s.host.admission = none ∧ s.admitReason = 0 ∧
      s.hasCaptains = false ∧ restore = false ∧ s.overrunSite ≠ none := by
  refine ⟨(tReq 0x04), false, ({ (tReady tImg).setSite 0 { Site.reset with role := some 0, chans := [(5, { Chan.reset with ovr := true })] } with roleSite := [(0, 0)] } : State), ?_⟩
  unfold State.hostTakes
  decide +kernel
theorem witness_admission_7 :
    ∃ (h : HostHdr) (restore : Bool) (s : State),
      s.hostTakes h 0x04 false false ∧ s.hd FRM_STATUS_STATE = 2 ∧ s.fenced = false ∧ s.host.admission = none ∧ s.admitReason = 0 ∧ restore = true ∧
      s.ckLead = s.devidx := by
  refine ⟨(tReq 0x04), true, tReady tImg, ?_⟩
  unfold State.hostTakes
  decide +kernel
theorem witness_admission_8 :
    ∃ (h : HostHdr) (restore : Bool) (s : State),
      s.hostTakes h 0x04 false false ∧ s.hd FRM_STATUS_STATE = 2 ∧ s.fenced = false ∧ s.host.admission = none ∧ s.admitReason = 0 ∧ restore = true ∧
      s.ckLead ≠ s.devidx := by
  refine ⟨(tReq 0x04), true, tReady { tCaps with devidx := 1 }, ?_⟩
  unfold State.hostTakes
  decide +kernel
theorem witness_admission_9 :
    ∃ (s : State) (a : _),
      s.hdRuns = true ∧ s.host.admission = some a := by
  refine ⟨({ tWith tCaps with host := { HostSt.reset with admission := some ⟨7, 0, true⟩ } } : State), ⟨7, 0, true⟩, ?_⟩
  decide +kernel
theorem witness_admission_10 :
    ∃ (s : State),
      (s.hdRuns = false ∨ s.host.admission = none) := by
  refine ⟨tHost, ?_⟩
  decide +kernel

-- SliceStart.
theorem witness_sliceStart_0 :
    ∃ (s : State),
      let takes := s.hdRuns = true ∧ s.hd SEC_STATUS_RECOV ≠ 1
      (¬ takes) := by
  refine ⟨State.reset.setHd SEC_STATUS_RECOV 1, ?_⟩
  dsimp only
  decide +kernel
theorem witness_sliceStart_2 :
    ∃ (dev : BitVec 16) (jobLo : BitVec 32) (s : State),
      let takes := s.hdRuns = true ∧ s.hd SEC_STATUS_RECOV ≠ 1
      let leads := takes ∧ s.loaded = true ∧ s.ckLead = s.devidx ∧ dev.toNat ∈ s.slice ∧ jobLo.toNat = s.jobLo
      takes ∧ (¬ leads) := by
  refine ⟨3, 0, tWith tCaps, ?_⟩
  dsimp only
  decide +kernel
theorem witness_sliceStart_3 :
    ∃ (dev : BitVec 16) (jobLo : BitVec 32) (s : State),
      let takes := s.hdRuns = true ∧ s.hd SEC_STATUS_RECOV ≠ 1
      let leads := takes ∧ s.loaded = true ∧ s.ckLead = s.devidx ∧ dev.toNat ∈ s.slice ∧ jobLo.toNat = s.jobLo
      leads ∧ s.fenced = true := by
  refine ⟨2, 0, ({ tWith tCaps with pel := { Pel.reset with fencedWhy := some 1 } } : State), ?_⟩
  dsimp only
  decide +kernel
theorem witness_sliceStart_4 :
    ∃ (dev : BitVec 16) (jobLo : BitVec 32) (s : State),
      let takes := s.hdRuns = true ∧ s.hd SEC_STATUS_RECOV ≠ 1
      let leads := takes ∧ s.loaded = true ∧ s.ckLead = s.devidx ∧ dev.toNat ∈ s.slice ∧ jobLo.toNat = s.jobLo
      leads ∧ s.fenced = false := by
  refine ⟨2, 0, tWith tCaps, ?_⟩
  dsimp only
  decide +kernel
theorem witness_sliceStart_5 :
    ∃ (dev : BitVec 16) (s : State),
      let takes := s.hdRuns = true ∧ s.hd SEC_STATUS_RECOV ≠ 1
      let lead := takes ∧ s.loaded = true ∧ dev.toNat ∈ s.slice ∧ dev.toNat = s.ckLead
      takes ∧ (¬ lead) := by
  refine ⟨3, tWith tCaps, ?_⟩
  dsimp only
  decide +kernel
theorem witness_sliceStart_6 :
    ∃ (dev : BitVec 16) (s : State),
      let takes := s.hdRuns = true ∧ s.hd SEC_STATUS_RECOV ≠ 1
      let lead := takes ∧ s.loaded = true ∧ dev.toNat ∈ s.slice ∧ dev.toNat = s.ckLead
      lead := by
  refine ⟨0, tWith tCaps, ?_⟩
  dsimp only
  decide +kernel

-- Releases.
theorem witness_releases_0 :
    ∃ (h : HostHdr) (s : State),
      s.hostTakes h 0x05 false false ∧ s.loaded = false := by
  refine ⟨(tReq 0x05), tHost, ?_⟩
  unfold State.hostTakes
  decide +kernel
theorem witness_releases_1 :
    ∃ (h : HostHdr) (s : State) (force : _),
      s.hostTakes h 0x05 false false ∧ s.loaded = true ∧ force = false ∧ (s.gateState = gRUN ∨ s.gateState = gWAIT ∨ s.gateState = gCOMMIT) := by
  refine ⟨(tReq 0x05), (tLoaded tImg).setHd PEL_CGSTATE_STATE gCOMMIT, false, ?_⟩
  unfold State.hostTakes
  decide +kernel
theorem witness_releases_2 :
    ∃ (h : HostHdr) (s : State) (force : _),
      s.hostTakes h 0x05 false false ∧ s.loaded = true ∧ (force = true ∨ (s.gateState ≠ gRUN ∧ s.gateState ≠ gWAIT ∧ s.gateState ≠ gCOMMIT)) := by
  refine ⟨(tReq 0x05), (tLoaded tImg).setHd PEL_CGSTATE_STATE gDONE, false, ?_⟩
  unfold State.hostTakes
  decide +kernel
theorem witness_releases_3 :
    ∃ (s : State),
      let takes := s.hdRuns = true ∧ s.hd SEC_STATUS_RECOV ≠ 1
      (¬ takes) := by
  refine ⟨State.reset.setHd CLK_STATUS_STOPPED 1, ?_⟩
  dsimp only
  decide +kernel
theorem witness_releases_4 :
    ∃ (s : State),
      let takes := s.hdRuns = true ∧ s.hd SEC_STATUS_RECOV ≠ 1
      takes ∧ s.loaded = false := by
  refine ⟨tHost, ?_⟩
  dsimp only
  decide +kernel
theorem witness_releases_5 :
    ∃ (dev : BitVec 16) (s : State),
      let takes := s.hdRuns = true ∧ s.hd SEC_STATUS_RECOV ≠ 1
      takes ∧ s.loaded = true ∧ s.captainDev dev.toNat = false := by
  refine ⟨3, tWith tCaps, ?_⟩
  dsimp only
  decide +kernel
theorem witness_releases_6 :
    ∃ (dev : BitVec 16) (s : State),
      let takes := s.hdRuns = true ∧ s.hd SEC_STATUS_RECOV ≠ 1
      takes ∧ s.loaded = true ∧ s.captainDev dev.toNat = true := by
  refine ⟨0, tWith tCaps, ?_⟩
  dsimp only
  decide +kernel
theorem witness_releases_7 :
    ∃ (s : State),
      s.hdRuns = true ∧ s.host.relOrder = true := by
  refine ⟨({ State.reset with host := { HostSt.reset with hxUp := true, relOrder := true } } : State), ?_⟩
  decide +kernel
theorem witness_releases_8 :
    ∃ (s : State),
      (s.hdRuns = false ∨ s.host.relOrder = false) := by
  refine ⟨tHost, ?_⟩
  decide +kernel

-- ResetState.
theorem witness_resetState_13 :
    ∃ (r : Nat),
      r ≠ 0 := by
  refine ⟨1, ?_⟩
  decide +kernel

-- BranchInADelayBundle.
theorem witness_branchInADelayBundle_0 :
    ∃ (c : SiteNo) (s : State),
      s.runs c ∧ 0 < (s.site c.val).brShadow := by
  refine ⟨0, tAt ({ tGoing [] with brShadow := 1 } : Site), ?_⟩
  unfold State.runs State.clocked
  decide +kernel
theorem witness_branchInADelayBundle_1 :
    ∃ (c : SiteNo) (f : BrF) (s : State) (r : _),
      s.ready c f.pred ∧ f.ra = 0 ∧ f.rd = 0 ∧ f.target = 0 ∧ (s.site c.val).role = some r ∧ 0 < (s.site c.val).brShadow := by
  refine ⟨0, tBr, tAt ({ tGoing [] with brShadow := 2, role := some 0 } : Site), 0, ?_⟩
  unfold State.ready State.runs State.clocked
  decide +kernel
theorem witness_branchInADelayBundle_2 :
    ∃ (c : SiteNo) (f : BrF) (s : State) (q : _),
      let x := (s.site c.val).active + 1
      let p := (s.onSite c.val (fun d => Site.settle x { d with active := x })).site c.val
      let pc := p.f CORE_PC_PC
      let b := (p.fetch pc).1
      s.clocked c ∧ s.withheld c.val = false ∧ p.active? = true ∧ (p.fetch pc).2 = false ∧ bitsOf b 22 17 = 0 ∧ 0 < p.brShadow ∧
      (2, some (Op.br q f)) ∈ bundleSlots b ∧ q ≠ .arrive := by
  refine ⟨0, { tBr with target := 5 }, tAt ({ tGoing [] with brShadow := 2, istore := Mem.empty.write 0 (leBytes 128 (4 + (1 + 5 * 2 ^ 24) * 2 ^ 224)) false } : Site), .b, ?_⟩
  dsimp only
  unfold State.clocked
  decide +kernel

-- CorePcRegister.
theorem witness_corePcRegister_1 :
    ∃ (c : SiteNo) (s : State),
      let o := s.site c.val
      s.hdRuns = true ∧ s.clocked c ∧ o.f CORE_STATE_STATE ∈ [1, 2, 5] := by
  refine ⟨0, tRun, ?_⟩
  dsimp only
  unfold State.clocked
  decide +kernel
theorem witness_corePcRegister_2 :
    ∃ (c : SiteNo) (s : State),
      let o := s.site c.val
      s.hdRuns = true ∧ s.clocked c ∧ o.f CORE_STATE_STATE ∉ [1, 2, 5] := by
  refine ⟨0, State.reset, ?_⟩
  dsimp only
  unfold State.clocked
  decide +kernel
theorem witness_corePcRegister_3 :
    ∃ (c : SiteNo) (s : State),
      let o := s.site c.val
      let x := o.active + 1
      let p := (s.onSite c.val (fun d => Site.settle x { d with active := x })).site c.val
      s.clocked c ∧ s.withheld c.val = false ∧ p.active? = true ∧ p.fetch (p.f CORE_PC_PC) = (0, false) ∧
      p.halfBusy (p.f CORE_PC_PC / 2048) = false ∧ p.branch = none := by
  refine ⟨0, tRun, ?_⟩
  dsimp only
  unfold State.clocked
  decide +kernel

-- HaltForAProgramError.
theorem witness_haltForAProgramError_0 :
    ∃ (s : State) (h : PelHdr) (m : FaultMsg),
      s.takes h ∧ m.cause = 9 ∧ s.isCaptain s.devidx = true ∧ s.isLead = true ∧ s.slice ≠ [] ∧
      (h.step.toNat, h.att.toNat, h.src.toNat, 9, m.blame.toNat, m.detail.toNat) ∉ s.pel.faultsSeen := by
  refine ⟨tWith tCaps, tH, ⟨9, 2, 0, false⟩, ?_⟩
  unfold State.takes
  decide +kernel
theorem witness_haltForAProgramError_1 :
    ∃ (s : State) (h : PelHdr) (c : BitVec 8),
      s.takes h ∧ c = 9 ∧ s.host.halted = false := by
  refine ⟨tWith tCaps, tH, 9, ?_⟩
  unfold State.takes
  decide +kernel

end Sys2Proof.Tests
end

section
/-! SUPPORT. The fields of CORE_PC and CORE_STATE beside the bookkeeping of a cycle: event counters, core.cycle, tag records. -/

set_option autoImplicit false

namespace Sys2Proof.Machine

/-! ## What bookkeeping leaves -/

theorem SameFiles.trans {c d e : Site} (h : SameFiles c d) (k : SameFiles d e) : SameFiles c e := by
  obtain ⟨hs, hv, hp⟩ := h
  obtain ⟨ks, kv, kp⟩ := k
  exact ⟨ks.trans hs, kv.trans hv, kp.trans hp⟩

/-- The register files of a site, its CORE_PC and its CORE_STATE.STATE are as they were. -/
def Site.SameCourse (c d : Site) : Prop :=
  SameFiles c d ∧ d.f CORE_PC_PC = c.f CORE_PC_PC ∧ d.f CORE_STATE_STATE = c.f CORE_STATE_STATE

theorem Site.SameCourse.refl (c : Site) : c.SameCourse c := ⟨⟨rfl, rfl, rfl⟩, rfl, rfl⟩

/-- A field above CORE_PC in the window is neither CORE_PC nor CORE_STATE.STATE. -/
theorem Site.SameCourse.set {c d : Site} (h : c.SameCourse d) {x : Fld} (hx : CORE_PC_PC.key < x.key) (v : Nat) :
    c.SameCourse (d.set x v) := by
  obtain ⟨hfiles, hpc, hstate⟩ := h
  have hst : CORE_STATE_STATE.key < CORE_PC_PC.key := by decide
  exact ⟨hfiles, (Site.f_set_ne d (by omega) v).trans hpc, (Site.f_set_ne d (by omega) v).trans hstate⟩

/-- A change of the site that leaves its register fields and its register files. -/
theorem Site.SameCourse.of_regs {c d e : Site} (h : c.SameCourse d) (hregs : e.regs = d.regs) (hfiles : SameFiles d e) :
    c.SameCourse e := by
  obtain ⟨hkept, hpc, hstate⟩ := h
  have hf : ∀ x, e.f x = d.f x := fun x => by unfold Site.f; rw [hregs]
  exact ⟨hkept.trans hfiles, (hf _).trans hpc, (hf _).trans hstate⟩

theorem Site.SameCourse.foldl {β : Type} {c d : Site} (h : c.SameCourse d) (f : Site → β → Site) (l : List β)
    (hf : ∀ e b, c.SameCourse e → c.SameCourse (f e b)) : c.SameCourse (l.foldl f d) := by
  induction l generalizing d with
  | nil => exact h
  | cons b l ih => exact ih (hf d b h)

theorem coreCounter_above_pc (i : Nat) : CORE_PC_PC.key < (PMC_CTR_VALUE i).key := by
  simp only [Fld.key, CORE_PC_PC, PMC_CTR_VALUE]; omega

theorem tagWord_above_pc (j w : Nat) : CORE_PC_PC.key < (PMC_TREC_RECORD j w).key := by
  simp only [Fld.key, CORE_PC_PC, PMC_TREC_RECORD]; omega

theorem Site.SameCourse.ctrAdd (k : Nat) {c d : Site} (i n : Nat) (h : c.SameCourse d) : c.SameCourse (d.ctrAdd k i n).1 := by
  induction k generalizing d i n with
  | zero => exact h
  | succ k ih =>
    have hv := fun v => h.set (coreCounter_above_pc i) v
    unfold Site.ctrAdd
    dsimp only
    split
    · exact hv _
    · split
      · exact ih _ _ (hv _)
      · exact (hv _).set (by decide) _

/-- Counting an event (R468). -/
theorem Site.SameCourse.count {c d : Site} (h : c.SameCourse d) (ev n : Nat) : c.SameCourse (d.count ev n) := by
  unfold Site.count
  split
  · exact h
  · refine h.foldl _ _ fun e i he => ?_
    split
    · exact he.ctrAdd _ _ _
    · exact he

theorem Site.SameCourse.tick {c d : Site} (h : c.SameCourse d) : c.SameCourse d.tick :=
  (h.set (by decide) _).count _ _

theorem Site.SameCourse.setTagCount {c d : Site} (h : c.SameCourse d) (k : Nat) : c.SameCourse (d.setTagCount k) :=
  (h.set (by decide) _).set (by decide) _

theorem Site.SameCourse.putRecord {c d : Site} (h : c.SameCourse d) (j v : Nat) : c.SameCourse (d.putRecord j v) :=
  h.foldl _ _ fun _ w he => he.set (tagWord_above_pc j w) _

theorem Site.SameCourse.withTag {c d : Site} (h : c.SameCourse d) (t : TagSt) : c.SameCourse { d with tag := t } :=
  h.of_regs rfl ⟨rfl, rfl, rfl⟩

theorem Site.SameCourse.tagReload {c d : Site} (h : c.SameCourse d) : c.SameCourse d.tagReload := h.withTag _

/-- Tagging a bundle at its issue (R477 to R479). -/
theorem State.tagIssue_sameCourse (s : State) (n : Nat) (pre : Site) (b pc next : Nat) (fed : Bool) (dmas : Nat) :
    (s.site n).SameCourse ((s.tagIssue n pre b pc next fed dmas).site n) := by
  have h0 := Site.SameCourse.refl (s.site n)
  unfold State.tagIssue
  split
  · exact h0
  · split
    · rw [State.site_onSite_self]; exact h0
    · have hcount : (s.site n).SameCourse ((s.site n).count 0x00F 1).tagReload := (h0.count _ _).tagReload
      have hsignal : ∀ (t : State) (o : Out) (p : Prop) [Decidable p], (if p then t.emit o else t).site n = t.site n := by
        intro t o p _
        split <;> rfl
      dsimp only
      rw [hsignal, State.site_onSite_self]
      split
      · exact hcount.set (by decide) _
      · exact ((hcount.putRecord _ _).setTagCount _).withTag _

/-- The limit of a token wait bears on a stalled core only (R135). -/
theorem State.waitLimit_of_not_stalled (s : State) (n : Nat) (h : (s.site n).f CORE_STATE_STATE ≠ 2) : s.waitLimit n = s := by
  unfold State.waitLimit
  exact if_neg fun hc => h hc.1

end Sys2Proof.Machine
end

section
/-! SUPPORT. The issue of a bundle without an operation (R127, R148, R157). -/

set_option autoImplicit false

namespace Sys2Proof.Machine

theorem bundleSlots_zero : bundleSlots 0 = [] := by decide

/-- A bundle without an operation breaks no rule but that of its own half (R126). -/
theorem bundleViols_nil (c : Site) (x pc : Nat) (h : c.halfBusy (pc / 2048) = false) : bundleViols c [] x pc = [] := by
  simp [bundleViols, groupViols, capturesOf, feedOf, rowPlans, chanCross, seqBreaks, bankViols, slotPorts, issueViols, h]

theorem applyOps_nil (pre : Site) (x pc n : Nat) (tag : Option Nat) (s : State) : applyOps pre [] x pc n tag s = s := by
  simp [applyOps, State.notePoison]

/-- A bundle word of zeros waits on no token and has no slot, so that it issues at once. -/
theorem State.tryIssue_zero (s : State) (n x : Nat) (hfetch : (s.site n).fetch ((s.site n).f CORE_PC_PC) = (0, false))
    (hhalf : (s.site n).halfBusy ((s.site n).f CORE_PC_PC / 2048) = false) :
    s.tryIssue n x = (s.onSite n (fun c => { c with istore := c.istore.healRange ((s.site n).f CORE_PC_PC * 128) 128 })).issueBundle
      n 0 x ((s.site n).f CORE_PC_PC) [] := by
  have hcnt : bitsOf 0 22 17 = 0 := by decide
  unfold State.tryIssue
  simp only [hfetch, hcnt, bundleSlots_zero, bundleViols_nil _ x _ hhalf]
  simp

/-- A core set running shows STATE 0b001, whatever is counted after it. -/
theorem Site.files_count_running {c d : Site} (h : SameFiles c d) (ev n : Nat) :
    SameFiles c ((d.set CORE_STATE_STATE 1).count ev n) ∧ ((d.set CORE_STATE_STATE 1).count ev n).f CORE_STATE_STATE = 1 := by
  obtain ⟨hcount, -, hstate⟩ := (Site.SameCourse.refl (d.set CORE_STATE_STATE 1)).count ev n
  exact ⟨SameFiles.trans h hcount, hstate.trans (Site.f_set_self _ _ _)⟩

/-- A site shows the register files of `c`, the bundle index `p` and a running core. -/
def Site.Issued (c : Site) (p : Nat) (d : Site) : Prop :=
  SameFiles c d ∧ d.f CORE_PC_PC = p ∧ d.f CORE_STATE_STATE = 1

/-- Bookkeeping after the issue changes none of it. -/
theorem Site.Issued.sameCourse {c d e : Site} {p : Nat} (hd : c.Issued p d) (h : d.SameCourse e) : c.Issued p e := by
  obtain ⟨hfiles, hpc, hstate⟩ := hd
  obtain ⟨hkept, hpc', hstate'⟩ := h
  exact ⟨hfiles.trans hkept, hpc'.trans hpc, hstate'.trans hstate⟩

/-- The issue of a bundle without an operation and with no branch under way moves the PC on and leaves the register files. -/
theorem State.issueBundle_nil (s : State) (n x pc : Nat) (hbr : (s.site n).branch = none) :
    (s.site n).Issued ((pc + 1) % 4096) ((s.issueBundle n 0 x pc []).site n) := by
  have hnext : nextPc (s.site n).branch pc = ((pc + 1) % 4096, none) := by rw [hbr]; rfl
  have hcnt : bitsOf 0 22 17 = 0 := by decide
  unfold State.issueBundle
  simp only [hnext, hcnt, applyOps_nil, ↓reduceIte]
  generalize hs1 : s.onSite n _ = s1
  have hrun : SameFiles (s.site n) (s1.site n) ∧ (s1.site n).f CORE_STATE_STATE = 1 := by
    rw [← hs1, State.site_onSite_self]
    refine Site.files_count_running ?_ _ _
    exact ⟨rfl, rfl, rfl⟩
  obtain ⟨hfiles, hstate⟩ := hrun
  refine Site.Issued.sameCourse ?_ (State.tagIssue_sameCourse _ _ _ _ _ _ _ _)
  rw [State.site_onSite_self]
  refine Site.Issued.sameCourse ?_ ((Site.SameCourse.refl _).count _ _)
  refine Site.Issued.sameCourse ?_ ((Site.SameCourse.refl _).count _ _)
  refine ⟨hfiles, ?_, ?_⟩
  · have hlt : (pc + 1) % 4096 < 2 ^ CORE_PC_PC.width := Nat.mod_lt _ (by decide)
    exact (Site.f_set_self _ _ _).trans (Nat.mod_eq_of_lt hlt)
  · exact (Site.f_set_ne _ (by decide) _).trans hstate

/-- The attempt to issue a bundle word of zeros succeeds. -/
theorem State.tryIssue_zero_issued (s : State) (n x : Nat) (hfetch : (s.site n).fetch ((s.site n).f CORE_PC_PC) = (0, false))
    (hhalf : (s.site n).halfBusy ((s.site n).f CORE_PC_PC / 2048) = false) (hbr : (s.site n).branch = none) :
    (s.site n).Issued (((s.site n).f CORE_PC_PC + 1) % 4096) ((s.tryIssue n x).site n) := by
  rw [State.tryIssue_zero s n x hfetch hhalf]
  have hissued := State.issueBundle_nil
    (s.onSite n (fun c => { c with istore := c.istore.healRange ((s.site n).f CORE_PC_PC * 128) 128 })) n x ((s.site n).f CORE_PC_PC)
  rw [State.site_onSite_self] at hissued
  exact hissued hbr

/-- The bookkeeping at the end of a cycle leaves what was issued in it. -/
theorem State.issued_tick_waitLimit {s : State} {n p : Nat} {c : Site} (h : c.Issued p (s.site n)) :
    c.Issued p (((s.onSite n Site.tick).waitLimit n).site n) := by
  have htick : c.Issued p ((s.onSite n Site.tick).site n) := by
    rw [State.site_onSite_self]
    exact h.sameCourse (Site.SameCourse.refl _).tick
  have hrunning : ((s.onSite n Site.tick).site n).f CORE_STATE_STATE ≠ 2 := by
    obtain ⟨-, -, hstate⟩ := htick
    rw [hstate]
    decide
  rwa [State.waitLimit_of_not_stalled _ _ hrunning]

/-- The cycle of a clocked core that is not withheld and is active once its pipeline has settled (R127). -/
theorem State.coreCycle_of_active (s : State) (n : Nat) (hclock : s.dieRuns (n / 104) = true) (hheld : s.withheld n = false) :
    let x := (s.site n).active + 1
    let s1 := s.onSite n (fun d => Site.settle x { d with active := x })
    (s1.site n).active? = true → s.coreCycle n = ((s1.tryIssue n x).onSite n Site.tick).waitLimit n := by
  intro x s1 hactive
  unfold State.coreCycle
  rw [if_neg (by simp [hclock]), if_neg (by simp [hheld])]
  dsimp only
  rw [if_pos hactive]

end Sys2Proof.Machine
end

section
/-! SUPPORT. CORE_PC as it is written and read (R148). -/

set_option autoImplicit false

namespace Sys2Proof.Machine

/-- A change of a site that leaves its overflow bits signals nothing (R472). -/
theorem State.onSite_of_ovf (s : State) (n : Nat) (g : Site → Site) (h : (g (s.site n)).f PMC_CTL_OVF = (s.site n).f PMC_CTL_OVF) :
    s.onSite n g = s.setSite n (g (s.site n)) := by
  unfold State.onSite
  dsimp only
  rw [if_neg (by simp [h])]

/-- The cores that run, stall or stand at a gear point (R147). -/
theorem Site.active?_iff (c : Site) : c.active? = true ↔ c.f CORE_STATE_STATE ∈ [1, 2, 5] := by
  simp [Site.active?, or_assoc]

theorem Site.writePc_active {c : Site} (h : c.active? = true) (v : Nat) : c.writePc v = c := if_pos h

theorem Site.writePc_stopped {c : Site} (h : c.active? = false) (v : Nat) :
    c.writePc v = { c with branch := none, brShadow := 0 }.set CORE_PC_PC v := if_neg (by simp [h])

theorem Site.f_writePc_ne (c : Site) {x : Fld} (h : CORE_PC_PC.key ≠ x.key) (v : Nat) : (c.writePc v).f x = c.f x := by
  unfold Site.writePc
  split
  · rfl
  · exact Site.f_set_ne _ h v

/-- The command CORE_PC_WRITE of firmware that reaches the die changes the site alone, and signals nothing. -/
theorem exec_corePcWrite_of_reaches (c : SiteNo) (v : BitVec 32) (s : State) (h : s.reaches (c.val / 104) = true) :
    exec (.corePcWrite c v) s = .next (s.setSite c.val ((s.site c.val).writePc v.toNat)) := by
  have hovf : ((s.site c.val).writePc v.toNat).f PMC_CTL_OVF = (s.site c.val).f PMC_CTL_OVF :=
    Site.f_writePc_ne _ (by decide) _
  have hexec : exec (.corePcWrite c v) s = execCorePcWrite c v s := rfl
  rw [hexec, execCorePcWrite, if_pos h, State.onSite_of_ovf s c.val (fun d => d.writePc v.toNat) hovf]

/-- Firmware reaches a site whose die and HD run (R20, R21). -/
theorem State.reaches_of {s : State} {c : SiteNo} (hhd : s.hdRuns = true) (hclock : s.clocked c) : s.reaches (c.val / 104) = true := by
  rw [State.reaches, hhd, Bool.true_and]
  exact hclock

/-- CORE_PC is 0 after reset (R148). -/
theorem Site.f_reset_corePc (n : Nat) : (State.reset.site n).f CORE_PC_PC = 0 := rfl

/-- A site replaced is a change of that site only. -/
theorem State.onlySite_setSite (s : State) (n : Nat) (c : Site) : OnlySite n s (s.setSite n c) :=
  ⟨rfl, fun _ hm => State.site_setSite_ne s (Ne.symm hm) c⟩

theorem leNat_leBytes (n v : Nat) : leNat (leBytes n v) = v % 256 ^ n := by
  induction n generalizing v with
  | zero => simp [leBytes, leNat, Nat.mod_one]
  | succ n ih =>
    have hsplit : v % 256 ^ (n + 1) = v % 256 + 256 * (v / 256 % 256 ^ n) := by
      rw [Nat.pow_succ', Nat.mod_mul]
    rw [leBytes, leNat, ih, hsplit, BitVec.toNat_ofNat]

theorem take_leBytes {m n : Nat} (h : m ≤ n) (v : Nat) : (leBytes n v).take m = leBytes m v := by
  induction m generalizing n v with
  | zero => rfl
  | succ m ih =>
    obtain ⟨n, rfl⟩ : ∃ k, n = k + 1 := ⟨n - 1, by omega⟩
    rw [leBytes, leBytes, List.take_succ_cons, ih (by omega)]

/-- Four bytes of the window at an 8-aligned offset are the low half of its word. -/
theorem Site.winBytes_word {c : Site} {n dev off : Nat} (h : off % 8 = 0) :
    c.winBytes n dev off 4 = leBytes 4 (c.winWord n dev off) := by
  have hw : wordsOf off 4 = [off] := by
    have hcount : (off + 4 - 1) / 8 + 1 - off / 8 = 1 := by omega
    have haddr : off / 8 * 8 = off := by omega
    unfold wordsOf
    rw [if_neg (by decide), hcount]
    simp [haddr]
  simp only [Site.winBytes, hw, h, List.flatMap_cons, List.flatMap_nil, List.append_nil, List.drop_zero]
  exact take_leBytes (by decide) _

theorem Site.readReg_corePc (c : Site) (n dev : Nat) : c.readReg n dev 0x9008 = c.f CORE_PC_PC := by
  simp [Site.readReg, siteReg, Site.regVal, CORE_PC, CORE_PC_PC]

/-- CORE_PC as the program reads it: its bundle index, with bits 31:12 at 0. -/
theorem Site.winBytes_corePc (c : Site) (n dev : Nat) : leNat (c.winBytes n dev 0x9008 4) = c.f CORE_PC_PC := by
  have hlt : c.f CORE_PC_PC < 2 ^ 12 := Site.f_lt c CORE_PC_PC
  have hreg : siteReg 0x9008 = some CORE_PC := rfl
  have hword : c.winWord n dev 0x9008 = c.f CORE_PC_PC + c.readReg n dev (0x9008 + 4) * 2 ^ 32 := by
    rw [← Site.readReg_corePc c n dev]
    unfold Site.winWord
    simp only [hreg]
    exact if_pos rfl
  rw [Site.winBytes_word rfl, leNat_leBytes, hword]
  omega

end Sys2Proof.Machine
end

section
/-! PROOF. The statement about the register CORE_PC. -/

set_option autoImplicit false

namespace Sys2Proof.Machine

/-- Settles O25: the write of R148 by whether the core is active, with the kept branch target discarded (R166), and one cycle of the
core (log entry 23) on the bundle that the register names. -/
theorem corePcRegister : Obligations.CorePcRegister := by
  intro c v s o
  refine ⟨Site.f_reset_corePc c.val, fun hhd hclock hactive => ?_, fun hhd hclock hstopped => ?_, ?_⟩
  · have hreach : s.reaches (c.val / 104) = true := State.reaches_of hhd hclock
    rw [exec_corePcWrite_of_reaches c v s hreach, Site.writePc_active (o.active?_iff.mpr hactive)]
  · have hreach : s.reaches (c.val / 104) = true := State.reaches_of hhd hclock
    have hidle : o.active? = false := by
      rw [← Bool.not_eq_true, Site.active?_iff]
      exact hstopped
    refine ⟨_, exec_corePcWrite_of_reaches c v s hreach, State.onlySite_setSite _ _ _, ?_⟩
    rw [State.site_setSite_self, Site.winBytes_corePc, Site.writePc_stopped hidle]
    exact ⟨rfl, Site.f_set_self _ _ _, Site.f_set_self _ _ _, fun x hx => Site.f_set_ne _ (Ne.symm hx) _⟩
  · intro x p hclock hheld hactive hfetch hhalf hbr
    have hcycle := State.coreCycle_of_active s c.val hclock hheld hactive
    obtain ⟨hfiles, hpc, -⟩ := State.issued_tick_waitLimit (State.tryIssue_zero_issued _ c.val x hfetch hhalf hbr)
    rw [← hcycle] at hfiles hpc
    exact ⟨s.coreCycle c.val, rfl, hpc, hfiles⟩

end Sys2Proof.Machine
end

section
/-! SUPPORT. What event counters, consumed poison and the firmware's action on an exception leave of a core site: its register files, its
memories, its branch, and fields of its window. -/

set_option autoImplicit false

namespace Sys2Proof.Machine

/-! ## The frame of a core site -/

/-- The register files, the memories, the branch under way and the register fields of `P` are as they were. Beside what `Site.SameCourse`
speaks of, this carries the record of an exception. -/
structure Site.Frame (P : Fld → Prop) (c d : Site) : Prop where
  files : SameFiles c d
  mems : SameMems c d
  branch : d.branch = c.branch
  field : ∀ x, P x → d.f x = c.f x

/-- The fields of CORE_STATE, CORE_PC and CORE_EPC, which stand below those of event counters, arrays and tag records. -/
def Fld.ofCourse (x : Fld) : Prop := x.key ≤ CORE_EPC_SLOTS.key

/-- CORE_PC alone: what a core that stops keeps of these. -/
def Fld.isPc (x : Fld) : Prop := x = CORE_PC_PC

theorem Fld.isPc.ofCourse {x : Fld} (h : x.isPc) : x.ofCourse := by
  rw [h]
  unfold Fld.ofCourse
  decide

namespace Site.Frame

variable {P : Fld → Prop} {c d e : Site}

theorem refl (c : Site) : c.Frame P c := ⟨⟨rfl, rfl, rfl⟩, ⟨rfl, rfl, rfl⟩, rfl, fun _ _ => rfl⟩

theorem trans (h : c.Frame P d) (k : d.Frame P e) : c.Frame P e where
  files := h.files.trans k.files
  mems := by
    obtain ⟨hstore, histore, hrecs⟩ := h.mems
    obtain ⟨kstore, kistore, krecs⟩ := k.mems
    exact ⟨kstore.trans hstore, kistore.trans histore, krecs.trans hrecs⟩
  branch := k.branch.trans h.branch
  field x hx := (k.field x hx).trans (h.field x hx)

theorem mono {Q : Fld → Prop} (h : c.Frame P d) (hQ : ∀ x, Q x → P x) : c.Frame Q d :=
  ⟨h.files, h.mems, h.branch, fun x hx => h.field x (hQ x hx)⟩

/-- A write to a field in another place than those of `P`. -/
theorem set (h : c.Frame P d) {x : Fld} (hx : ∀ y, P y → x.key ≠ y.key) (v : Nat) : c.Frame P (d.set x v) :=
  ⟨h.files, h.mems, h.branch, fun y hy => (Site.f_set_ne d (hx y hy) v).trans (h.field y hy)⟩

theorem foldl {β : Type} (h : c.Frame P d) (f : Site → β → Site) (l : List β) (hf : ∀ e b, c.Frame P e → c.Frame P (f e b)) :
    c.Frame P (l.foldl f d) := by
  induction l generalizing d with
  | nil => exact h
  | cons b l ih => exact ih (hf d b h)

theorem withTag (h : c.Frame P d) (t : TagSt) : c.Frame P { d with tag := t } := ⟨h.files, h.mems, h.branch, h.field⟩

theorem setArr (h : c.Frame P d) (a : Nat) (x : Arr) : c.Frame P (d.setArr a x) := ⟨h.files, h.mems, h.branch, h.field⟩

theorem withPoisonSig (h : c.Frame P d) (b : Bool) : c.Frame P { d with poisonSig := b } := ⟨h.files, h.mems, h.branch, h.field⟩

/-! ## Bookkeeping -/

section
variable (hP : ∀ y, P y → y.ofCourse)
include hP

/-- A field above CORE_EPC in the window. -/
theorem setAbove (h : c.Frame P d) {x : Fld} (hx : CORE_EPC_SLOTS.key < x.key) (v : Nat) : c.Frame P (d.set x v) :=
  h.set (fun y hy => (Nat.lt_of_le_of_lt (hP y hy) hx).ne') v

theorem ctrAdd (k : Nat) (i n : Nat) (h : c.Frame P d) : c.Frame P (d.ctrAdd k i n).1 := by
  induction k generalizing d i n with
  | zero => exact h
  | succ k ih =>
    have habove : CORE_EPC_SLOTS.key < (PMC_CTR_VALUE i).key := by
      simp only [Fld.key, CORE_EPC_SLOTS, PMC_CTR_VALUE]; omega
    have hv := fun v => h.setAbove hP habove v
    unfold Site.ctrAdd
    dsimp only
    split
    · exact hv _
    · split
      · exact ih _ _ (hv _)
      · exact (hv _).setAbove hP (by decide) _

/-- Counting an event (R468). -/
theorem count (h : c.Frame P d) (ev n : Nat) : c.Frame P (d.count ev n) := by
  unfold Site.count
  split
  · exact h
  · refine h.foldl _ _ fun e i he => ?_
    split
    · exact he.ctrAdd hP _ _ _
    · exact he

theorem tick (h : c.Frame P d) : c.Frame P d.tick := (h.setAbove hP (by decide) _).count hP _ _

theorem abortTags (h : c.Frame P d) : c.Frame P d.abortTags := by
  have habove : ∀ j w, CORE_EPC_SLOTS.key < (PMC_TREC_RECORD j w).key := fun j w => by
    simp only [Fld.key, CORE_EPC_SLOTS, PMC_TREC_RECORD]; omega
  unfold Site.abortTags
  refine (h.foldl _ _ fun e t he => ?_).withTag _
  exact (he.setAbove hP (habove _ _) _).setAbove hP (habove _ _) _

end

end Site.Frame

/-! ## Stopping and the record of an exception -/

/-- The record of an exception leaves CORE_PC. -/
theorem Site.Frame.except {c d : Site} (h : c.Frame Fld.isPc d) (cause detail slots bundle rjct : Nat) :
    c.Frame Fld.isPc (d.except cause detail slots bundle rjct) := by
  have hset : ∀ {e : Site} {x : Fld} (v : Nat), c.Frame Fld.isPc e → x.key ≠ CORE_PC_PC.key → c.Frame Fld.isPc (e.set x v) :=
    fun v he hx => he.set (fun y hy => by rw [hy]; exact hx) v
  unfold Site.except
  exact hset _ (hset _ (hset _ (hset _ (hset _ (hset _ h (by decide)) (by decide)) (by decide)) (by decide)) (by decide)) (by decide)

@[simp] theorem Site.f_except_state (c : Site) (cause detail slots bundle rjct : Nat) :
    (c.except cause detail slots bundle rjct).f CORE_STATE_STATE = 3 := by
  unfold Site.except
  rw [Site.f_set_ne _ (by decide), Site.f_set_ne _ (by decide), Site.f_set_ne _ (by decide), Site.f_set_ne _ (by decide),
    Site.f_set_ne _ (by decide), Site.f_set_self]
  rfl

theorem Site.active?_except (c : Site) (cause detail slots bundle rjct : Nat) : (c.except cause detail slots bundle rjct).active? = false := by
  simp [Site.active?]

/-- What `Site.except` records, for a cause, a detail and slots of the widths of their fields. -/
theorem Site.recorded_except (c : Site) {cause detail slots : Nat} (bundle rjct : Nat) (hc : cause < 256) (hd : detail < 256)
    (hs : slots < 4096) : (c.except cause detail slots bundle rjct).recorded cause detail slots bundle := by
  refine ⟨Site.f_except_state _ _ _ _ _ _, ?_, ?_, ?_, Site.f_set_self _ _ _⟩ <;> unfold Site.except
  · rw [Site.f_set_ne _ (by decide), Site.f_set_ne _ (by decide), Site.f_set_ne _ (by decide), Site.f_set_ne _ (by decide),
      Site.f_set_self]
    exact Nat.mod_eq_of_lt hc
  · rw [Site.f_set_ne _ (by decide), Site.f_set_ne _ (by decide), Site.f_set_ne _ (by decide), Site.f_set_self]
    exact Nat.mod_eq_of_lt hd
  · rw [Site.f_set_ne _ (by decide), Site.f_set_self]
    exact Nat.mod_eq_of_lt hs

/-- A record stands as long as the fields of CORE_STATE and CORE_EPC do. -/
theorem Site.recorded.of_frame {c d : Site} {cause detail slots pc : Nat} (h : c.recorded cause detail slots pc)
    (hf : c.Frame Fld.ofCourse d) : d.recorded cause detail slots pc := by
  obtain ⟨hstate, hcause, hdetail, hslots, hbundle⟩ := h
  have hfield : ∀ x, x.key ≤ CORE_EPC_SLOTS.key → d.f x = c.f x := hf.field
  exact ⟨(hfield _ (by decide)).trans hstate, (hfield _ (by decide)).trans hcause, (hfield _ (by decide)).trans hdetail,
    (hfield _ (by decide)).trans hslots, (hfield _ (by decide)).trans hbundle⟩

theorem Site.Frame.stopRewind {c d : Site} (h : c.Frame Fld.isPc d) (detail : Nat) : c.Frame Fld.isPc (d.stopRewind detail) := by
  unfold Site.stopRewind
  split
  · exact (h.except _ _ _ _ _).abortTags fun _ => Fld.isPc.ofCourse
  · exact h.abortTags fun _ => Fld.isPc.ofCourse

theorem Site.halt_of_stopped {c : Site} (h : c.active? = false) : c.halt = c := if_neg (by simp [h])

/-! ## Messages leave the sites -/

theorem State.site_congr {s t : State} (h : t.sites = s.sites) (m : Nat) : t.site m = s.site m := by unfold State.site; rw [h]

@[simp] theorem State.sites_countD (s : State) (w ev n : Nat) : (s.countD w ev n).sites = s.sites := by
  obtain ⟨r, o, h⟩ := State.countD_eq s w ev n
  rw [h]

@[simp] theorem State.sites_setPort (s : State) (k : Nat) (x : PortSt) : (s.setPort k x).sites = s.sites := rfl

@[simp] theorem State.sites_sendFrame (s : State) (k : Nat) (f : PortFrame) : (s.sendFrame k f).sites = s.sites := by
  unfold State.sendFrame
  dsimp only
  split <;> rfl

@[simp] theorem State.sites_launch (s : State) (k : Nat) (pkt : UalPkt) : (s.launch k pkt).sites = s.sites := by
  unfold State.launch
  rw [State.sites_sendFrame, State.sites_countD]

@[simp] theorem State.sites_drainPort (k n : Nat) (s : State) : (State.drainPort k n s).sites = s.sites := by
  induction n generalizing s with
  | zero => rfl
  | succ n ih =>
    unfold State.drainPort
    dsimp only
    split
    · rfl
    · split
      · rfl
      · split
        · rfl
        · split
          · rfl
          · rw [ih, State.sites_launch, State.sites_setPort]

@[simp] theorem State.sites_egress (s : State) (k : Nat) (pkt : UalPkt) : (s.egress k pkt).sites = s.sites := by
  unfold State.egress
  split
  · rfl
  · exact State.sites_drainPort _ _ _

@[simp] theorem State.sites_pelData (s : State) (kind dst : Nat) (ws : List (BitVec 64)) : (s.pelData kind dst ws).sites = s.sites := by
  unfold State.pelData
  split
  · rfl
  · exact State.sites_egress _ _ _

@[simp] theorem State.sites_pelSend (s : State) (kind : Nat) (dst : List Nat) (data : Bool) (ws : List (BitVec 64)) :
    (s.pelSend kind dst data ws).sites = s.sites := by
  have hfold : ∀ (l : List Nat) (t : State), (l.foldl (fun t d => t.pelData kind d ws) t).sites = t.sites := fun l => by
    induction l with
    | nil => exact fun _ => rfl
    | cons d l ih => exact fun t => (ih _).trans (State.sites_pelData t kind d ws)
  unfold State.pelSend State.pelSendAs
  split
  · rfl
  · dsimp only
    split
    · exact hfold _ _
    · rfl

@[simp] theorem State.sites_logFault (s : State) (r : FaultRec) : (s.logFault r).sites = s.sites := by
  unfold State.logFault
  split
  · rfl
  · split <;> rfl

/-- A report of a fault stops the step where the fault is one of R28, and else leaves every site. -/
theorem State.sites_reportFault (s : State) (cause blame want : Nat) (last : Bool) :
    (s.reportFault cause blame want last).sites = s.sites ∨
      (cause = 2 ∨ cause = 3 ∨ cause = 5) ∧ (s.reportFault cause blame want last).sites = s.faultStop.sites := by
  have hsend : ∀ (t u : State) (p : Prop) [Decidable p] (k : Nat) (dst : List Nat) (ws : List (BitVec 64)), t.sites = u.sites →
      (if p then t.pelSend k dst true ws else t).sites = u.sites := by
    intro t u p _ k dst ws h
    split
    · rw [State.sites_pelSend, h]
    · exact h
  unfold State.reportFault
  split
  · exact .inl rfl
  · by_cases hstop : cause = 2 ∨ cause = 3 ∨ cause = 5
    · refine .inr ⟨hstop, hsend _ _ _ _ _ _ ?_⟩
      rw [State.sites_logFault, if_pos hstop]
      rfl
    · refine .inl (hsend _ _ _ _ _ _ ?_)
      rw [State.sites_logFault, if_neg hstop]
      rfl

/-! ## What faults do to a site -/

/-- What holds of a site, and is kept by the change, holds of it after the change of every live site. -/
theorem State.site_onLive_of (M : Site → Prop) (s : State) (g : Site → Site) (m : Nat) (hg : ∀ c, M c → M (g c)) (h : M (s.site m)) :
    M ((s.onLive g).site m) := by
  unfold State.onLive
  generalize s.liveSites = l
  induction l generalizing s with
  | nil => exact h
  | cons n l ih =>
    refine ih _ ?_
    by_cases hnm : n = m
    · subst hnm
      rw [State.site_onSite_self]
      exact hg _ h
    · rwa [State.site_onSite_ne s hnm]

theorem State.frame_stopAll (s : State) (detail m : Nat) : (s.site m).Frame Fld.isPc ((s.stopAll detail).site m) :=
  State.site_onLive_of ((s.site m).Frame Fld.isPc) s _ m (fun _ hc => hc.stopRewind detail) (Site.Frame.refl _)

theorem State.frame_faultStop (s : State) (m : Nat) : (s.site m).Frame Fld.isPc (s.faultStop.site m) := by
  unfold State.faultStop State.commitStop
  split
  · exact State.frame_stopAll s 1 m
  · split
    · exact Site.Frame.refl _
    · exact State.frame_stopAll s 1 m

theorem State.frame_reportFault (s : State) (cause blame want : Nat) (last : Bool) (m : Nat) :
    (s.site m).Frame Fld.isPc ((s.reportFault cause blame want last).site m) := by
  rcases State.sites_reportFault s cause blame want last with h | ⟨-, h⟩
  · rw [State.site_congr h]
    exact Site.Frame.refl _
  · rw [State.site_congr h]
    exact State.frame_faultStop s m

/-- Consumed poison may stop the core, which keeps its CORE_PC (R159). -/
theorem State.frame_consumePoison (s : State) (n : Nat) : (s.site n).Frame Fld.isPc ((s.consumePoison n).site n) := by
  unfold State.consumePoison
  split
  · exact Site.Frame.refl _
  · dsimp only
    refine Site.Frame.trans ?_ (State.frame_reportFault _ _ _ _ _ n)
    rw [State.site_emit, State.site_onSite_self]
    exact ((Site.Frame.refl _).count (fun _ => Fld.isPc.ofCourse) _ _).withPoisonSig true

theorem State.frame_notePoison (s : State) (pre : Site) (ops : List Op) (x n : Nat) :
    (s.site n).Frame Fld.isPc ((s.notePoison pre ops x n).site n) := by
  unfold State.notePoison
  split
  · exact State.frame_consumePoison s n
  · exact Site.Frame.refl _

/-- The halt of the job leaves a core that stands stopped (R146). -/
theorem State.site_haltJob_of_stopped (s : State) (cause m : Nat) (h : (s.site m).active? = false) :
    (s.haltJob cause).site m = s.site m := by
  have hlive : (s.onLive Site.halt).site m = s.site m :=
    State.site_onLive_of (· = s.site m) s Site.halt m (fun c hc => by rw [hc]; exact Site.halt_of_stopped h) rfl
  unfold State.haltJob
  split
  · rfl
  · dsimp only
    split
    · exact hlive
    · exact hlive

/-- The firmware's action on an exception of class PROGRAM leaves a core that stands stopped (R139). -/
theorem State.site_firmwareAction_program (s : State) (n m cause detail : Nat) (lost : Bool) (h5 : cause ≠ 5) (h6 : cause ≠ 6)
    (h8 : cause ≠ 8) (h : (s.site m).active? = false) : (s.firmwareAction n cause detail lost).site m = s.site m := by
  unfold State.firmwareAction
  dsimp only
  rw [if_neg h6, if_neg h8, if_neg (show ¬(cause = 5 ∧ lost = true) from fun hc => h5 hc.1)]
  split
  · rfl
  · split
    · rfl
    · rcases State.sites_reportFault ((s.notify 3 (s.site n).programArg).haltJob 9) 9 noBlame cause false with hr | ⟨hc, -⟩
      · rw [State.site_congr hr]
        exact State.site_haltJob_of_stopped _ _ _ h
      · omega

/-- An exception of class PROGRAM leaves the core as the record of it does (R138, R139). -/
theorem State.site_takeException_program (s : State) (n cause detail slots rjct : Nat) (h5 : cause ≠ 5) (h6 : cause ≠ 6) (h8 : cause ≠ 8) :
    (s.takeException n cause detail slots rjct).site n = (s.site n).except cause detail slots ((s.site n).f CORE_PC_PC) rjct := by
  have hsite : ((s.onSite n (fun c => c.except cause detail slots (c.f CORE_PC_PC) rjct)).emit (.fwSignal n sigException)).site n =
      (s.site n).except cause detail slots ((s.site n).f CORE_PC_PC) rjct := by
    rw [State.site_emit, State.site_onSite_self]
  unfold State.takeException
  dsimp only
  rw [State.site_firmwareAction_program _ _ _ _ _ _ h5 h6 h8 (by rw [hsite]; exact Site.active?_except _ _ _ _ _ _), hsite]

end Sys2Proof.Machine
end

section
/-! SUPPORT. Which broken rules of a bundle are ILLEGAL, and the record that is picked from broken rules (R138). -/

set_option autoImplicit false

namespace Sys2Proof.Machine

/-! ## Rules that rank behind the encoding rules -/

@[simp] theorem violIllegal_cause (i : Nat) : (violIllegal i).cause = exILLEGAL := rfl
@[simp] theorem violIllegal_slot (i : Nat) : (violIllegal i).slot = i := rfl
@[simp] theorem violIllegal_detail (i : Nat) : (violIllegal i).detail = i := rfl

/-- A broken rule other than an encoding rule: its cause ranks behind ILLEGAL. -/
def Viol.behind (v : Viol) : Prop := exILLEGAL < v.cause

theorem violAccess_behind (sl d : Nat) : (violAccess sl d).behind := (by decide : exILLEGAL < exACCESS)
theorem violArray_behind (sl a h : Nat) : (violArray sl a h).behind := (by decide : exILLEGAL < exARRAY)
theorem violStop_behind (a p h : Nat) : (violStop a p h).behind := (by decide : exILLEGAL < exARRAY)

theorem behind_of_mem_map {β : Type} {f : β → Viol} {l : List β} {v : Viol} (hf : ∀ b, (f b).behind) (hv : v ∈ l.map f) : v.behind := by
  obtain ⟨b, -, rfl⟩ := List.mem_map.mp hv
  exact hf b

theorem behind_of_mem_ite {p : Prop} [Decidable p] {u v : Viol} (hu : u.behind) (hv : v ∈ if p then [u] else []) : v.behind := by
  split at hv
  · rwa [List.mem_singleton.mp hv]
  · simp at hv

/-- The rules that operations break together are none of encoding. -/
theorem groupViols_behind {c : Site} {ops : List Op} {x : Nat} {v : Viol} (hv : v ∈ groupViols c ops x) : v.behind := by
  unfold groupViols at hv
  simp only [List.mem_append] at hv
  obtain ((((hv | hv) | hv) | hv) | hv) | hv := hv
  · obtain ⟨k, -, hv⟩ := List.mem_flatMap.mp hv
    obtain hv | hv := List.mem_append.mp hv
    · exact behind_of_mem_map (violStop_behind _ _) hv
    · exact behind_of_mem_ite (violStop_behind _ _ _) hv
  · obtain ⟨r, -, hv⟩ := List.mem_flatMap.mp hv
    exact behind_of_mem_map (violAccess_behind _) hv
  · exact behind_of_mem_map (fun _ => violArray_behind _ _ _) hv
  · exact behind_of_mem_map (fun _ => violAccess_behind _ _) hv
  · exact behind_of_mem_map (fun _ => violArray_behind _ _ _) hv
  · obtain ⟨o, -, hv⟩ := List.mem_flatMap.mp hv
    cases o with
    | pass a f => exact behind_of_mem_ite (violArray_behind _ _ _) hv
    | ldw a f => exact behind_of_mem_ite (violArray_behind _ _ _) hv
    | _ => simp at hv

theorem bankViols_behind {c : Site} {ops : List Op} {x : Nat} {v : Viol} (hv : v ∈ bankViols c ops x) : v.behind :=
  behind_of_mem_map (fun _ => violAccess_behind _ _) hv

theorem issueViols_behind {c : Site} {ops : List Op} {x : Nat} {v : Viol} (hv : v ∈ issueViols c ops x) : v.behind := by
  have hissue : ∀ sl d, (⟨sl, exISSUE, d, none, none⟩ : Viol).behind := fun _ _ => (by decide : exILLEGAL < exISSUE)
  obtain hv | hv := List.mem_append.mp hv
  · obtain ⟨o, -, hv⟩ := List.mem_flatMap.mp hv
    exact behind_of_mem_ite (hissue _ _) hv
  · obtain ⟨w, -, hv⟩ := List.mem_flatMap.mp hv
    exact behind_of_mem_ite (hissue _ _) hv

/-! ## Encoding rules -/

/-- An operation of a reserved encoding raises ILLEGAL for its slot alone (R154). -/
theorem opViols_illegal {c : Site} {o : Op} {shadow : Bool} (x pc : Nat) (h : opLegal c o shadow = false) :
    opViols c o x pc shadow = [violIllegal o.slot] := by
  simp [opViols, h]

/-- Of the operations of a legal encoding only a DMAD raises ILLEGAL, by its descriptor (R185). -/
theorem opViols_legal {c : Site} {o : Op} {x pc : Nat} {shadow : Bool} {v : Viol} (h : opLegal c o shadow = true)
    (hv : v ∈ opViols c o x pc shadow) : v.behind ∨ 10 ≤ o.slot ∧ v = violIllegal o.slot := by
  unfold opViols at hv
  simp only [h, Bool.not_true, Bool.false_eq_true, if_false] at hv
  cases o with
  | br p f => exact .inl (behind_of_mem_ite (violAccess_behind _ _) hv)
  | ls p f =>
    left
    obtain hv | hv := List.mem_append.mp hv
    · exact behind_of_mem_map (violAccess_behind _) hv
    · split at hv
      · split at hv
        · exact behind_of_mem_map (fun _ => violArray_behind _ _ _) hv
        · simp at hv
      · simp at hv
  | feed w f =>
    left
    cases w with
    | true => simp at hv
    | false => exact behind_of_mem_map (violAccess_behind _) hv
  | ldw a f =>
    left
    obtain hv | hv := List.mem_append.mp hv
    · split at hv
      · split at hv
        · rw [List.mem_singleton.mp hv]
          exact violArray_behind _ _ _
        · obtain hv | hv := List.mem_append.mp hv
          · split at hv
            · exact behind_of_mem_ite (violArray_behind _ _ _) hv
            · simp at hv
          · split at hv
            · exact behind_of_mem_ite (violArray_behind _ _ _) hv
            · simp at hv
      · simp at hv
    · exact behind_of_mem_map (violAccess_behind _) hv
  | pass a f =>
    left
    dsimp only at hv
    split at hv
    · simp at hv
    · exact behind_of_mem_map (violArray_behind _ _) hv
  | drain a f => exact .inl (behind_of_mem_ite (violArray_behind _ _ _) hv)
  | dmac f => exact .inl (behind_of_mem_map (violAccess_behind _) hv)
  | dmad f =>
    dsimp only at hv
    split at hv
    · exact .inl (behind_of_mem_map (violAccess_behind _) hv)
    · split at hv
      · simp at hv
      · split at hv
        · refine .inr ⟨?_, List.mem_singleton.mp hv⟩
          show 10 ≤ if f.dma1 then 11 else 10
          split <;> decide
        · exact .inl (behind_of_mem_map (violAccess_behind _) hv)
  | _ => simp at hv

theorem ifZero_eq_some {r : Nat} {o p : Op} (h : ifZero r o = some p) : p = o := by
  unfold ifZero at h
  split at h
  · exact (Option.some.inj h).symm
  · simp at h

theorem slot_of_bind_ifZero {α : Type} {m : Option α} {r i : Nat} {g : α → Op} {o : Op}
    (h : m.bind (fun a => ifZero r (g a)) = some o) (hg : ∀ a, (g a).slot = i) : o.slot = i := by
  obtain ⟨a, -, ha⟩ := Option.bind_eq_some_iff.mp h
  rw [ifZero_eq_some ha, hg]

theorem slot_of_ifZero {r i : Nat} {p o : Op} (h : ifZero r p = some o) (hp : p.slot = i) : o.slot = i := by
  rw [ifZero_eq_some h, hp]

/-- The operation that a slot spells is one of that slot (R151). -/
theorem slot_of_decodeSlot {i v : Nat} {o : Op} (hi : i < 12) (h : decodeSlot i v = some o) : o.slot = i := by
  have hsc : i < 2 → (if decide (i = 1) = true then 1 else 0) = i := by
    intro h2
    simp only [decide_eq_true_eq]
    split <;> omega
  have harr : ¬i < 2 → ¬i = 2 → ¬i = 3 → 4 + (i - 4) = i := by omega
  have hdma : ¬i < 8 → ¬i = 8 → ¬i = 9 → (if decide (i = 11) = true then 11 else 10) = i := by
    intro h8 h8' h9
    simp only [decide_eq_true_eq]
    split <;> omega
  unfold decodeSlot at h
  dsimp only at h
  split_ifs at h with hnop h2 h2' h3 h8 op1 op2 op3 h8' op1 op2 h9 op1 op2
  · exact slot_of_ifZero h rfl
  · exact slot_of_bind_ifZero h fun _ => hsc h2
  · exact slot_of_bind_ifZero h fun _ => h2'.symm
  · exact slot_of_bind_ifZero h fun _ => h3.symm
  · exact slot_of_ifZero h (harr h2 h2' h3)
  · exact slot_of_ifZero h (harr h2 h2' h3)
  · exact slot_of_ifZero h (harr h2 h2' h3)
  · exact slot_of_ifZero h h8'.symm
  · exact slot_of_ifZero h h8'.symm
  · exact slot_of_bind_ifZero h fun _ => h9.symm
  · exact slot_of_ifZero h (hdma h8 h8' h9)
  · exact slot_of_ifZero h (hdma h8 h8' h9)

theorem slot_of_mem_bundleSlots {b : Nat} {y : Nat × Option Op} {o : Op} (hy : y ∈ bundleSlots b) (ho : y.2 = some o) : o.slot = y.1 := by
  obtain ⟨i, hi, rfl⟩ := List.mem_map.mp hy
  exact slot_of_decodeSlot (List.mem_range.mp (List.mem_filter.mp hi).1) ho

/-- A slot of a bundle breaks the encoding rules: it spells no operation, or one that is not legal here (R154). -/
def slotBad (c : Site) (y : Nat × Option Op) : Prop := ∀ o, y.2 = some o → opLegal c o (decide (0 < c.brShadow)) = false

theorem illegal_mem_bundleViols {c : Site} {b i x pc : Nat} {o : Op} (hy : (i, some o) ∈ bundleSlots b)
    (hbad : opLegal c o (decide (0 < c.brShadow)) = false) : violIllegal i ∈ bundleViols c (bundleSlots b) x pc := by
  have hslot : o.slot = i := slot_of_mem_bundleSlots hy rfl
  have hop : o ∈ (bundleSlots b).filterMap (·.2) := List.mem_filterMap.mpr ⟨_, hy, rfl⟩
  have hviol : violIllegal i ∈ opViols c o x pc (decide (0 < c.brShadow)) := by
    rw [opViols_illegal x pc hbad, hslot]
    exact List.mem_singleton_self _
  unfold bundleViols
  simp only [List.mem_append]
  exact .inl (.inl (.inl (.inl (.inr (List.mem_flatMap.mpr ⟨o, hop, hviol⟩)))))

/-- What a bundle raises ranks behind ILLEGAL, or is ILLEGAL for a slot that breaks the encoding rules, or for a DMAD. -/
theorem bundleViols_cases {c : Site} {b x pc : Nat} {v : Viol} (hv : v ∈ bundleViols c (bundleSlots b) x pc) :
    v.behind ∨ ∃ i, v = violIllegal i ∧ (10 ≤ i ∨ ∃ y ∈ bundleSlots b, y.1 = i ∧ slotBad c y) := by
  unfold bundleViols at hv
  simp only [List.mem_append] at hv
  obtain ((((hv | hv) | hv) | hv) | hv) | hv := hv
  · obtain ⟨y, hy, rfl⟩ := List.mem_map.mp hv
    obtain ⟨hmem, hnone⟩ := List.mem_filter.mp hy
    refine .inr ⟨y.1, rfl, .inr ⟨y, hmem, rfl, fun o ho => ?_⟩⟩
    simp [ho] at hnone
  · obtain ⟨o, ho, hv⟩ := List.mem_flatMap.mp hv
    obtain ⟨y, hy, hyo⟩ := List.mem_filterMap.mp ho
    cases hl : opLegal c o (decide (0 < c.brShadow)) with
    | true =>
      obtain hv | ⟨hslot, hv⟩ := opViols_legal hl hv
      · exact .inl hv
      · exact .inr ⟨o.slot, hv, .inl hslot⟩
    | false =>
      rw [opViols_illegal x pc hl] at hv
      refine .inr ⟨o.slot, List.mem_singleton.mp hv, .inr ⟨y, hy, (slot_of_mem_bundleSlots hy hyo).symm, fun p hp => ?_⟩⟩
      rwa [← Option.some.inj (hyo.symm.trans hp)]
  · exact .inl (groupViols_behind hv)
  · exact .inl (bankViols_behind hv)
  · exact .inl (issueViols_behind hv)
  · have hhalf : (⟨12, exACCESS, acIHALF, none, none⟩ : Viol).behind := (by decide : exILLEGAL < exACCESS)
    exact .inl (behind_of_mem_ite hhalf hv)

/-! ## The record that is picked (R138) -/

theorem least_eq {d m : Nat} {l : List Nat} (hd : m ≤ d) (hl : ∀ a ∈ l, m ≤ a) (hm : m = d ∨ m ∈ l) : least d l = m := by
  induction l generalizing d with
  | nil => exact (hm.resolve_right List.not_mem_nil).symm
  | cons a l ih =>
    have ha : m ≤ a := hl a List.mem_cons_self
    have hmin : Nat.min d a = min d a := rfl
    refine ih (d := Nat.min d a) (by omega) (fun b hb => hl b (List.mem_cons_of_mem _ hb)) ?_
    rcases hm with rfl | hm
    · left; omega
    · rcases List.mem_cons.mp hm with rfl | hm
      · left; omega
      · exact .inr hm

/-- The numbers below n that have a property, as bits. -/
def bitsWhere (p : Nat → Bool) (n : Nat) : Nat := ((List.range n).map (fun i => if p i then 2 ^ i else 0)).sum

theorem bitsWhere_succ (p : Nat → Bool) (n : Nat) : bitsWhere p (n + 1) = (if p n then 2 ^ n else 0) + bitsWhere p n := by
  simp [bitsWhere, List.range_succ, Nat.add_comm]

theorem bitsWhere_lt (p : Nat → Bool) (n : Nat) : bitsWhere p n < 2 ^ n := by
  induction n with
  | zero => simp [bitsWhere]
  | succ n ih =>
    rw [bitsWhere_succ, Nat.pow_succ]
    split <;> omega

theorem testBit_bitsWhere (p : Nat → Bool) {n k : Nat} (hk : k < n) : (bitsWhere p n).testBit k = p k := by
  induction n with
  | zero => omega
  | succ n ih =>
    rw [bitsWhere_succ]
    rcases Nat.lt_succ_iff_lt_or_eq.mp hk with hlt | rfl
    · split
      · rw [Nat.testBit_two_pow_add_gt hlt, ih hlt]
      · rw [Nat.zero_add, ih hlt]
    · have hclear : (bitsWhere p k).testBit k = false := Nat.testBit_lt_two_pow (bitsWhere_lt p k)
      cases hp : p k with
      | true => simp [Nat.testBit_two_pow_add_eq, hclear]
      | false => simp [hclear]

theorem pickViol_slots (vs : List Viol) : (pickViol vs).2.2 = bitsWhere (fun i => vs.any (fun v => v.slot = i)) 12 := rfl

theorem pickViol_slots_lt (vs : List Viol) : (pickViol vs).2.2 < 4096 := by
  rw [pickViol_slots]
  exact bitsWhere_lt _ 12

theorem least_le (d : Nat) (l : List Nat) : least d l ≤ d := by
  induction l generalizing d with
  | nil => exact le_rfl
  | cons a l ih => exact (ih _).trans (Nat.min_le_left d a)

theorem pickViol_detail_lt (vs : List Viol) : (pickViol vs).2.1 < 256 := Nat.lt_succ_of_le (least_le 255 _)

/-- Broken rules with the encoding rule of slot k among them, the others of the encoding or behind it. -/
structure IllegalFirst (vs : List Viol) (k : Nat) : Prop where
  mem : violIllegal k ∈ vs
  first : ∀ v ∈ vs, v.behind ∨ ∃ i, v = violIllegal i

namespace IllegalFirst

variable {vs : List Viol} {k : Nat}

theorem cause (h : IllegalFirst vs k) : (pickViol vs).1 = exILLEGAL := by
  refine least_eq (by decide) (fun a ha => ?_) (.inr (List.mem_map.mpr ⟨_, h.mem, rfl⟩))
  obtain ⟨v, hv, rfl⟩ := List.mem_map.mp ha
  rcases h.first v hv with hb | ⟨i, rfl⟩
  · exact Nat.le_of_lt hb
  · exact le_rfl

theorem testBit_slots (h : IllegalFirst vs k) (hk : k < 12) : (pickViol vs).2.2.testBit k = true := by
  rw [pickViol_slots, testBit_bitsWhere _ hk]
  exact List.any_eq_true.mpr ⟨_, h.mem, by simp⟩

/-- The lowest slot that breaks an encoding rule is the DETAIL. -/
theorem detail (h : IllegalFirst vs k) (hk : k < 12) (hmin : ∀ i, violIllegal i ∈ vs → k ≤ i) : (pickViol vs).2.1 = k := by
  have hown : ∀ v ∈ vs.filter (fun v => v.cause = (pickViol vs).1), ∃ i, v = violIllegal i ∧ k ≤ i := by
    intro v hv
    obtain ⟨hmem, hcause⟩ := List.mem_filter.mp hv
    rw [h.cause, decide_eq_true_eq] at hcause
    rcases h.first v hmem with hb | ⟨i, rfl⟩
    · exact absurd hcause (Nat.ne_of_gt hb)
    · exact ⟨i, rfl, hmin i hmem⟩
  have hmem : violIllegal k ∈ vs.filter (fun v => v.cause = (pickViol vs).1) :=
    List.mem_filter.mpr ⟨h.mem, by simp [h.cause]⟩
  have hslot : least 12 ((vs.filter (fun v => v.cause = (pickViol vs).1)).map (·.slot)) = k := by
    refine least_eq (by omega) (fun a ha => ?_) (.inr (List.mem_map.mpr ⟨_, hmem, rfl⟩))
    obtain ⟨v, hv, rfl⟩ := List.mem_map.mp ha
    obtain ⟨i, rfl, hi⟩ := hown v hv
    exact hi
  refine least_eq (by omega) (fun a ha => ?_) (.inr (List.mem_map.mpr ⟨_, List.mem_filter.mpr ⟨hmem, ?_⟩, rfl⟩))
  · obtain ⟨v, hv, rfl⟩ := List.mem_map.mp ha
    obtain ⟨i, rfl, hi⟩ := hown v (List.mem_filter.mp hv).1
    exact hi
  · exact decide_eq_true hslot.symm

end IllegalFirst

/-- A bundle with a slot whose operation is not legal raises ILLEGAL first. -/
theorem illegalFirst_bundleViols {c : Site} {b i x pc : Nat} {o : Op} (hy : (i, some o) ∈ bundleSlots b)
    (hbad : opLegal c o (decide (0 < c.brShadow)) = false) : IllegalFirst (bundleViols c (bundleSlots b) x pc) i where
  mem := illegal_mem_bundleViols hy hbad
  first _ hv := (bundleViols_cases hv).imp_right fun ⟨j, hj, _⟩ => ⟨j, hj⟩

end Sys2Proof.Machine
end

section
/-! SUPPORT. What broken rules do to the core that raises them (R138), in a bundle and for an operation by itself. -/

set_option autoImplicit false

namespace Sys2Proof.Machine

/-- The hazard bits that broken rules set, and the passes that they stop (R82). -/
def Site.hazards (c : Site) (vs : List Viol) : Site :=
  vs.foldl (fun c v => match v.haz with
    | some (a, h) =>
      let c1 := c.set (ARR_STATUS_HAZ a) (c.f (ARR_STATUS_HAZ a) ||| 2 ^ h)
      (match v.stop with
        | some p => c1.setArr a { c1.arr a with passes := mdel p (c1.arr a).passes }
        | none => c1)
    | none => c) c

theorem Site.frame_hazards (c : Site) (vs : List Viol) : c.Frame Fld.ofCourse (c.hazards vs) := by
  have habove : ∀ a, CORE_EPC_SLOTS.key < (ARR_STATUS_HAZ a).key := fun a => by
    simp only [Fld.key, CORE_EPC_SLOTS, ARR_STATUS_HAZ]; omega
  refine (Site.Frame.refl c).foldl _ _ fun e v he => ?_
  split
  · rename_i a h hh
    have hset := he.setAbove (fun _ => id) (habove a) (e.f (ARR_STATUS_HAZ a) ||| 2 ^ h)
    dsimp only
    split
    · exact hset.setArr _ _
    · exact hset
  · exact he

/-- Broken rules with an encoding rule among them: what the core was but for its record (R138, R139). -/
theorem State.raise_illegal (s : State) (n : Nat) {vs : List Viol} {k : Nat} (h : IllegalFirst vs k) :
    (s.site n).Frame Fld.isPc ((s.raise n vs).site n) ∧
      ((s.raise n vs).site n).recorded exILLEGAL (pickViol vs).2.1 (pickViol vs).2.2 ((s.site n).f CORE_PC_PC) := by
  obtain ⟨r, hr⟩ : ∃ r, s.raise n vs =
      (s.onSite n (fun c => c.hazards vs)).takeException n exILLEGAL (pickViol vs).2.1 (pickViol vs).2.2 r :=
    ⟨_, by rw [← h.cause]; rfl⟩
  have hframe := (Site.frame_hazards (s.site n) vs).mono fun _ => Fld.isPc.ofCourse
  rw [hr, State.site_takeException_program _ _ _ _ _ _ (by decide) (by decide) (by decide), State.site_onSite_self]
  refine ⟨hframe.except _ _ _ _ _, ?_⟩
  rw [hframe.field _ rfl]
  exact Site.recorded_except _ _ _ (by decide) (pickViol_detail_lt vs) (pickViol_slots_lt vs)

/-- The same after poison that the operations consume has been signalled (R159). -/
theorem State.raise_illegal_notePoison (s : State) (pre : Site) (ops : List Op) (x n : Nat) {vs : List Viol} {k : Nat}
    (h : IllegalFirst vs k) :
    (s.site n).Frame Fld.isPc (((s.notePoison pre ops x n).raise n vs).site n) ∧
      (((s.notePoison pre ops x n).raise n vs).site n).recorded exILLEGAL (pickViol vs).2.1 (pickViol vs).2.2
        ((s.site n).f CORE_PC_PC) := by
  have hpoison := State.frame_notePoison s pre ops x n
  obtain ⟨hframe, hrec⟩ := (s.notePoison pre ops x n).raise_illegal n h
  rw [hpoison.field _ rfl] at hrec
  exact ⟨hpoison.trans hframe, hrec⟩

/-! ## An operation by itself -/

/-- An operation of a reserved encoding, commanded by itself, raises ILLEGAL with its slot as DETAIL (R138, R154). -/
theorem soloOp_illegal (n : Nat) (o : Op) (s : State) (hr : (s.site n).f CORE_STATE_STATE = 1) (hd : s.dieRuns (n / 104) = true)
    (hslot : o.slot < 12) (hbad : opLegal (s.site n).solo o (decide (0 < (s.site n).solo.brShadow)) = false) :
    (s.site n).Frame Fld.isPc ((soloOp n o s).site n) ∧
      ((soloOp n o s).site n).recorded exILLEGAL o.slot (2 ^ o.slot) ((s.site n).f CORE_PC_PC) := by
  have hviols : ∀ x pc, soloViols (s.site n).solo o x pc = [violIllegal o.slot] := fun x pc => by
    unfold soloViols
    rw [opViols_illegal x pc hbad, hbad]
    rfl
  have hsolo : ∃ x, soloOp n o s = (s.notePoison (s.site n).solo [o] x n).raise n [violIllegal o.slot] := by
    refine ⟨(s.site n).active, ?_⟩
    unfold soloOp
    dsimp only
    rw [if_neg (by simp [hr, hd]), hviols, if_neg (by simp)]
    rfl
  have hfirst : IllegalFirst [violIllegal o.slot] o.slot := ⟨List.mem_singleton_self _, fun v hv => .inr ⟨_, List.mem_singleton.mp hv⟩⟩
  have hdetail : (pickViol [violIllegal o.slot]).2.1 = o.slot :=
    hfirst.detail hslot fun i hi => by
      have hi' := congrArg Viol.slot (List.mem_singleton.mp hi)
      exact hi'.ge
  have hslots : (pickViol [violIllegal o.slot]).2.2 = 2 ^ o.slot := by
    generalize o.slot = k at hslot
    interval_cases k <;> rfl
  obtain ⟨x, hx⟩ := hsolo
  have h := s.raise_illegal_notePoison (s.site n).solo [o] x n hfirst
  rwa [hdetail, hslots, ← hx] at h

/-! ## A bundle -/

/-- A bundle without a wait that breaks a rule raises what it breaks, once the poison that it consumes is signalled. -/
theorem State.tryIssue_viols (s : State) (n x : Nat) {b : Nat} (hfetch : (s.site n).fetch ((s.site n).f CORE_PC_PC) = (b, false))
    (hcnt : bitsOf b 22 17 = 0) (hviols : bundleViols (s.site n) (bundleSlots b) x ((s.site n).f CORE_PC_PC) ≠ []) :
    s.tryIssue n x = (((s.onSite n (fun c => { c with istore := c.istore.healRange ((s.site n).f CORE_PC_PC * 128) 128 })).onSite n
      (fun c => c.count 0x006 1)).notePoison (s.site n) ((bundleSlots b).filterMap (·.2)) x n).raise n
        (bundleViols (s.site n) (bundleSlots b) x ((s.site n).f CORE_PC_PC)) := by
  unfold State.tryIssue
  simp [hfetch, hcnt, hviols]

/-- The attempt to issue a bundle without a wait that breaks an encoding rule in slot k. -/
theorem State.tryIssue_illegal (s : State) (n x : Nat) {k : Nat} {o : Op} :
    let p := s.site n
    let pc := p.f CORE_PC_PC
    let b := (p.fetch pc).1
    let vs := bundleViols p (bundleSlots b) x pc
    (p.fetch pc).2 = false → bitsOf b 22 17 = 0 → (k, some o) ∈ bundleSlots b → opLegal p o (decide (0 < p.brShadow)) = false →
      ((s.tryIssue n x).site n).recorded exILLEGAL (pickViol vs).2.1 (pickViol vs).2.2 pc ∧
        ((s.tryIssue n x).site n).f CORE_PC_PC = pc ∧ SameFiles p ((s.tryIssue n x).site n) := by
  intro p pc b vs hclean hcnt hy hbad
  have hfetch : p.fetch pc = (b, false) := Prod.ext rfl hclean
  have hfirst : IllegalFirst vs k := illegalFirst_bundleViols hy hbad
  rw [State.tryIssue_viols s n x hfetch hcnt (List.ne_nil_of_mem hfirst.mem)]
  generalize hsx : (s.onSite n _).onSite n _ = sx
  have hcount : Site.Frame Fld.isPc { p with istore := p.istore.healRange (pc * 128) 128 } (sx.site n) := by
    rw [← hsx, State.site_onSite_self, State.site_onSite_self]
    exact (Site.Frame.refl _).count (fun _ => Fld.isPc.ofCourse) _ _
  have hpc : (sx.site n).f CORE_PC_PC = pc := hcount.field _ rfl
  obtain ⟨hframe, hrec⟩ := sx.raise_illegal_notePoison p ((bundleSlots b).filterMap (·.2)) x n hfirst
  rw [hpc] at hrec
  exact ⟨hrec, (hframe.field _ rfl).trans hpc, (hcount.trans hframe).files⟩

/-- In a bundle whose slots below k are legal, an illegal slot k is the DETAIL (R138). -/
theorem detail_bundleViols {c : Site} {b k x pc : Nat} {o : Op} (hk : k ≤ 10) (hy : (k, some o) ∈ bundleSlots b)
    (hbad : opLegal c o (decide (0 < c.brShadow)) = false)
    (hlower : ∀ y ∈ bundleSlots b, y.1 < k → ∃ o, y.2 = some o ∧ opLegal c o (decide (0 < c.brShadow)) = true) :
    (pickViol (bundleViols c (bundleSlots b) x pc)).2.1 = k := by
  refine (illegalFirst_bundleViols hy hbad).detail (by omega) fun i hi => ?_
  rcases bundleViols_cases hi with hb | ⟨j, hj, hslot⟩
  · exact absurd hb (lt_irrefl _)
  · obtain rfl : i = j := congrArg Viol.slot hj
    rcases hslot with h10 | ⟨y, hmem, rfl, hyBad⟩
    · omega
    · by_contra hlt
      obtain ⟨o, ho, hlegal⟩ := hlower y hmem (by omega)
      rw [hyBad o ho] at hlegal
      exact Bool.false_ne_true hlegal

/-- The bookkeeping at the end of the cycle leaves the record. -/
theorem State.recorded_tick_waitLimit {s : State} {n cause detail slots pc : Nat} {c : Site}
    (h : (s.site n).recorded cause detail slots pc ∧ (s.site n).f CORE_PC_PC = pc ∧ SameFiles c (s.site n)) :
    let t := (s.onSite n Site.tick).waitLimit n
    (t.site n).recorded cause detail slots pc ∧ (t.site n).f CORE_PC_PC = pc ∧ SameFiles c (t.site n) := by
  obtain ⟨hrec, hpc, hfiles⟩ := h
  have htick : (s.site n).Frame Fld.ofCourse ((s.onSite n Site.tick).site n) := by
    rw [State.site_onSite_self]
    exact (Site.Frame.refl _).tick fun _ => id
  have hrec' := hrec.of_frame htick
  have hstopped : ((s.onSite n Site.tick).site n).f CORE_STATE_STATE ≠ 2 := by
    obtain ⟨hstate, -⟩ := hrec'
    rw [hstate]
    decide
  rw [State.waitLimit_of_not_stalled _ _ hstopped]
  exact ⟨hrec', (htick.field _ (Fld.isPc.ofCourse rfl)).trans hpc, hfiles.trans htick.files⟩

end Sys2Proof.Machine
end

section
/-! PROOF. The statement about branches in delay bundles. -/

set_option autoImplicit false

namespace Sys2Proof.Machine

/-- B, BL and JR are not legal in a delay bundle (R165). -/
theorem brOk_shadow {q : BrOp} (f : BrF) (hq : q ≠ .arrive) : brOk true q f = false := by
  cases q with
  | arrive => exact absurd rfl hq
  | _ => simp [brOk]

/-- ARRIVE is legal in a delay bundle (R165). -/
theorem brOk_arrive {f : BrF} (shadow : Bool) (hra : f.ra = 0) (hrd : f.rd = 0) (htarget : f.target = 0) : brOk shadow .arrive f = true := by
  simp [brOk, hra, hrd, htarget]

theorem opLegal_branch_shadow {c d : Site} {q : BrOp} (f : BrF) (hq : q ≠ .arrive) (h : 0 < d.brShadow) :
    opLegal c (.br q f) (decide (0 < d.brShadow)) = false := by
  rw [decide_eq_true h]
  exact brOk_shadow f hq

/-- B, BL or JR commanded in a delay bundle (R165). -/
theorem soloOp_branch_shadow (n : Nat) {q : BrOp} (f : BrF) (s : State) (hr : (s.site n).f CORE_STATE_STATE = 1)
    (hd : s.dieRuns (n / 104) = true) (hq : q ≠ .arrive) (h : 0 < (s.site n).brShadow) :
    let t := soloOp n (.br q f) s
    (t.site n).recorded exILLEGAL 2 (2 ^ 2) ((s.site n).f CORE_PC_PC) ∧ (t.site n).branch = (s.site n).branch ∧
      SameFiles (s.site n) (t.site n) ∧ SameMems (s.site n) (t.site n) := by
  obtain ⟨hframe, hrec⟩ := soloOp_illegal n (.br q f) s hr hd (by decide : 2 < 12) (opLegal_branch_shadow f hq h)
  exact ⟨hrec, hframe.branch, hframe.files, hframe.mems⟩

theorem site_arriveEffect (pre : Site) (f : BrF) (s : State) (m : Nat) : (arriveEffect pre f s).site m = s.site m := by
  unfold arriveEffect
  split
  · rfl
  · split
    · split <;> rfl
    · rfl

/-- ARRIVE whose predicate is not poisoned leaves its site (R134). -/
theorem soloOp_arrive_site (n : Nat) (f : BrF) (s : State) (hr : (s.site n).f CORE_STATE_STATE = 1) (hd : s.dieRuns (n / 104) = true)
    (hp : ((s.site n).preg f.pred.toNat).poi = false) (hra : f.ra = 0) (hrd : f.rd = 0) (htarget : f.target = 0) :
    (soloOp n (.br .arrive f) s).site n = s.site n := by
  have hviols : opViols (s.site n).solo (.br .arrive f) (s.site n).active ((s.site n).f CORE_PC_PC)
      (decide (0 < (s.site n).brShadow)) = [] := by
    simp [opViols, opLegal, brOk_arrive _ hra hrd htarget]
  have hpoison : consumesPoison (s.site n).solo (.br .arrive f) (s.site n).active = false := by
    simp [consumesPoison, opPoisonUse, opConsumes, Op.pred, hp]
  rw [soloOp_apart n _ s hr hd rfl hviols, notePoison_none _ _ _ _ _ hpoison]
  exact site_arriveEffect _ _ _ _

/-- Settles O9: a branch in a delay bundle breaks the encoding rule of slot 2 (R165), which ranks before all but the encoding rules of
slots 0 and 1 (R138, log entry 8). The commands B, BL, JR and ARRIVE rest on log entry 7, the cycle of a bundle on log entry 23. -/
theorem branchInADelayBundle : Obligations.BranchInADelayBundle := by
  intro c f s
  refine ⟨fun ⟨hr, hd⟩ hshadow i hi => ?_, fun r ⟨⟨hr, hd⟩, _, hp⟩ hra hrd htarget _ _ => ?_, ?_⟩
  · simp only [List.mem_cons, List.not_mem_nil, or_false] at hi
    rcases hi with rfl | rfl | rfl <;> exact ⟨_, rfl, soloOp_branch_shadow c.val f s hr hd (by decide) hshadow⟩
  · exact ⟨_, rfl, soloOp_arrive_site c.val f s hr hd hp hra hrd htarget⟩
  · intro x p pc b hclock hheld hactive hclean hcnt hshadow q hy hq
    have hbad : opLegal p (.br q f) (decide (0 < p.brShadow)) = false := opLegal_branch_shadow f hq hshadow
    have hissue := State.tryIssue_illegal (s.onSite c.val (fun d => Site.settle x { d with active := x })) c.val x hclean hcnt hy hbad
    obtain ⟨hrec, hpc, hfiles⟩ := State.recorded_tick_waitLimit hissue
    rw [← State.coreCycle_of_active s c.val hclock hheld hactive] at hrec hpc hfiles
    obtain ⟨hstate, hcause, hdetail, hslots, -⟩ := hrec
    refine ⟨s.coreCycle c.val, rfl, hstate, hcause, hpc, hfiles, ?_, fun hlower => ?_⟩
    · rw [hslots]
      exact (illegalFirst_bundleViols hy hbad).testBit_slots (by decide)
    · rw [hdetail]
      exact detail_bundleViols (by decide) hy hbad hlower

end Sys2Proof.Machine
end

section
/-! SUPPORT. What the sending of peloton messages leaves of the module, and what stands among its outputs after it (R300, R356). -/

set_option autoImplicit false

namespace Sys2Proof.Machine

/-- What the sending of messages leaves: the state of the peloton engine, and the fields of the hub die's window that no counter bank
holds. No output is taken back. -/
structure State.Traffic (s t : State) : Prop where
  pel : t.pel = s.pel
  hd : ∀ x : Fld, x.noCtr → t.hd x = s.hd x
  out : s.out ⊆ t.out

theorem Fld.noCtr_epoch : PEL_STATUS_EPOCH.noCtr := ⟨by decide, by decide⟩

namespace State.Traffic

variable {s t u : State}

theorem refl (s : State) : s.Traffic s := ⟨rfl, fun _ _ => rfl, List.Subset.refl _⟩

theorem trans (h : s.Traffic t) (k : t.Traffic u) : s.Traffic u :=
  ⟨k.pel.trans h.pel, fun x hx => (k.hd x hx).trans (h.hd x hx), List.Subset.trans h.out k.out⟩

theorem epoch (h : s.Traffic t) : t.epoch = s.epoch := h.hd _ Fld.noCtr_epoch

theorem gone (h : s.Traffic t) : t.pel.gone = s.pel.gone := congrArg Pel.gone h.pel

theorem foldl {β : Type} (f : State → β → State) (l : List β) (hf : ∀ (v : State) (b : β), v.Traffic (f v b)) (s : State) :
    s.Traffic (l.foldl f s) := by
  induction l generalizing s with
  | nil => exact refl s
  | cons b l ih => exact (hf s b).trans (ih _)

end State.Traffic

/-! ## Counting, and what leaves on a port -/

theorem State.out_dctrAdd (k : Nat) (s : State) (w i n : Nat) : s.out ⊆ (State.dctrAdd k s w i n).out := by
  induction k generalizing s i n with
  | zero => exact List.Subset.refl _
  | succ k ih =>
    unfold State.dctrAdd
    dsimp only
    split
    · exact List.Subset.refl _
    · split
      · exact ih (s.setD w (PMC_DCTR_VALUE i) _) _ _
      · split
        · exact List.subset_cons_self _ _
        · exact List.Subset.refl _

theorem State.out_countD (s : State) (w ev n : Nat) : s.out ⊆ (s.countD w ev n).out := by
  unfold State.countD
  split
  · exact List.Subset.refl _
  next hcounts =>
    clear hcounts
    generalize List.range 64 = l
    induction l generalizing s with
    | nil => exact List.Subset.refl _
    | cons i l ih =>
      refine List.Subset.trans ?_ (ih _)
      dsimp only
      split
      · exact State.out_dctrAdd _ _ _ _ _
      · exact List.Subset.refl _

theorem State.traffic_countD (s : State) (w ev n : Nat) : s.Traffic (s.countD w ev n) where
  pel := by
    obtain ⟨r, o, h⟩ := State.countD_eq s w ev n
    rw [h]
  hd x hx := State.hd_countD s w ev n x hx
  out := State.out_countD s w ev n

theorem State.traffic_emit (s : State) (o : Out) : s.Traffic (s.emit o) := ⟨rfl, fun _ _ => rfl, List.subset_cons_self _ _⟩

/-- Ports and streams are bookkeeping of the network. -/
theorem State.traffic_net (s : State) (x : Net) : s.Traffic { s with net := x } := ⟨rfl, fun _ _ => rfl, List.Subset.refl _⟩

theorem State.traffic_setPort (s : State) (k : Nat) (x : PortSt) : s.Traffic (s.setPort k x) := State.traffic_net s _

theorem State.traffic_sendFrame (s : State) (k : Nat) (f : PortFrame) : s.Traffic (s.sendFrame k f) := by
  unfold State.sendFrame
  dsimp only
  split
  · exact (State.traffic_emit s _).trans (State.traffic_setPort _ _ _)
  · exact State.traffic_emit s _

theorem State.traffic_launch (s : State) (k : Nat) (pkt : UalPkt) : s.Traffic (s.launch k pkt) :=
  (State.traffic_countD s _ _ _).trans (State.traffic_sendFrame _ _ _)

theorem State.traffic_drainPort (k n : Nat) (s : State) : s.Traffic (State.drainPort k n s) := by
  induction n generalizing s with
  | zero => exact .refl s
  | succ n ih =>
    unfold State.drainPort
    dsimp only
    split
    · exact .refl s
    · split
      · exact .refl s
      · split
        · exact .refl s
        · split
          · exact .refl s
          · exact ((State.traffic_setPort s _ _).trans (State.traffic_launch _ _ _)).trans (ih _)

theorem State.traffic_egress (s : State) (k : Nat) (pkt : UalPkt) : s.Traffic (s.egress k pkt) := by
  unfold State.egress
  split
  · exact .refl s
  · exact (State.traffic_setPort s _ _).trans (State.traffic_drainPort _ _ _)

theorem State.traffic_pelData (s : State) (kind dst : Nat) (ws : List (BitVec 64)) : s.Traffic (s.pelData kind dst ws) := by
  unfold State.pelData
  split
  · exact .refl s
  · exact (State.traffic_net s _).trans (State.traffic_egress _ _ _)

/-! ## A message of this module -/

theorem State.traffic_pelSend (s : State) (kind : Nat) (dst : List Nat) (data : Bool) (ws : List (BitVec 64)) :
    s.Traffic (s.pelSend kind dst data ws) := by
  unfold State.pelSend State.pelSendAs
  split
  · exact .refl s
  · dsimp only
    refine State.Traffic.trans (t := s.pelMgt s.devidx kind s.epoch dst 6 ws) (State.traffic_emit s _) ?_
    split
    · exact .foldl _ _ (fun v d => State.traffic_pelData v kind d ws) _
    · exact .refl _

/-- A module that is not fenced sends on both management planes, whatever the data network carries beside them (R356). -/
theorem State.sentPel_pelSend (s : State) (kind : Nat) {dst : List Nat} (data : Bool) (ws : List (BitVec 64))
    (hfence : s.fenced = false) (hdst : dst ≠ []) : (s.pelSend kind dst data ws).sentPel kind s.epoch dst ws := by
  have hopen : ¬(s.fenced = true ∨ dst = []) := by simp [hfence, hdst]
  unfold State.pelSend State.pelSendAs
  rw [if_neg hopen]
  refine ⟨s.mgtFrames s.devidx kind s.epoch dst 6 ws.length, ?_⟩
  dsimp only
  split
  · exact (State.Traffic.foldl _ _ (fun v d => State.traffic_pelData v kind d ws) _).out List.mem_cons_self
  · exact List.mem_cons_self

end Sys2Proof.Machine
end

section
/-! SUPPORT. The halt of the job (R146, R371): the cores of the live roles, the host's event, and what stays as it was. -/

set_option autoImplicit false

namespace Sys2Proof.Machine

/-- What a change brings about at every site it is applied to holds of each live site after the change of them all. -/
theorem State.site_onLive_of_mem (M : Site → Prop) (s : State) (g : Site → Site) (hg : ∀ c, M (g c)) {n : Nat} (hn : n ∈ s.liveSites) :
    M ((s.onLive g).site n) := by
  unfold State.onLive
  generalize s.liveSites = l at hn
  induction l using List.reverseRecOn with
  | nil => exact absurd hn List.not_mem_nil
  | append_singleton l m ih =>
    rw [List.foldl_append, List.foldl_cons, List.foldl_nil]
    by_cases hmn : m = n
    · subst hmn
      rw [State.site_onSite_self]
      exact hg _
    · rw [State.site_onSite_ne _ hmn]
      have hnl : n ∈ l := by simpa [Ne.symm hmn] using hn
      exact ih hnl

/-- A core is not active after HALT (R146). -/
theorem Site.active?_halt (c : Site) : c.halt.active? = false := by
  by_cases hactive : c.active? = true
  · have hframe : (c.set CORE_STATE_STATE 4).Frame Fld.ofCourse c.halt := by
      rw [Site.halt, if_pos hactive]
      exact (Site.Frame.refl _).abortTags fun _ => id
    have hstate : c.halt.f CORE_STATE_STATE = 4 :=
      (hframe.field _ (by unfold Fld.ofCourse; decide)).trans (Site.f_set_self _ _ _)
    simp [Site.active?, hstate]
  · rw [Site.halt, if_neg hactive]
    exact Bool.eq_false_of_not_eq_true hactive

section
variable {s : State} (cause : Nat) (hhalted : s.host.halted = false) (hhd : s.hdRuns = true)
include hhalted hhd

/-- Where HD runs, the halt of a job that has not halted stops the core of every live role (log entry 14). -/
theorem State.haltJob_stops {n : Nat} (hn : n ∈ s.liveSites) : ((s.haltJob cause).site n).active? = false := by
  have hsites : (s.haltJob cause).sites = (s.onLive Site.halt).sites := by
    unfold State.haltJob
    rw [if_neg (by simp [hhalted, hhd])]
    dsimp only
    split <;> rfl
  rw [State.site_congr hsites]
  exact State.site_onLive_of_mem (·.active? = false) s Site.halt Site.active?_halt hn

/-- The host die is told of the halt and of its cause (R371). -/
theorem State.haltJob_tells : Out.notify 0x01 (BitVec.ofNat 64 cause) ∈ (s.haltJob cause).out := by
  unfold State.haltJob
  rw [if_neg (by simp [hhalted, hhd])]
  exact List.mem_cons_self

end

/-- The halt of the job is no declaration (R371). -/
theorem State.epoch_haltJob (s : State) (cause : Nat) : (s.haltJob cause).epoch = s.epoch :=
  State.hd_haltJob s cause _ (by decide)

end Sys2Proof.Machine
end

section
/-! PROOF. The statement about the halt for an error of the program. -/

set_option autoImplicit false

namespace Sys2Proof.Machine

/-- A message that the module takes in as it stands goes to its handler (R301, R362). -/
theorem State.pelIn_of_takes {s : State} {h : PelHdr} (ht : s.takes h) (old : Bool) (f : State → State) : s.pelIn h old false f = f s := by
  obtain ⟨hhd, hfence, hloaded, hrsvd, hjob, hepoch⟩ := ht
  simp [State.pelIn, hhd, hfence, hloaded, hrsvd, hjob, hepoch]

/-- A FAULT of cause 0x09 at the lead captain is answered by HALT alone (R371). -/
theorem State.faultOnce_program {s : State} {m : FaultMsg} (hcause : m.cause = 9) (hlead : s.isLead = true) :
    s.faultOnce m = s.sendHalt 9 := by
  simp [State.faultOnce, State.leadFault, hcause, hlead]

/-- What the copies of a report are told by (R369). -/
def faultKey (h : PelHdr) (m : FaultMsg) : Nat × Nat × Nat × Nat × Nat × Nat :=
  (h.step.toNat, h.att.toNat, h.src.toNat, m.cause.toNat, m.blame.toNat, m.detail.toNat)

/-- A report noted as seen. -/
def State.noteSeen (s : State) (key : Nat × Nat × Nat × Nat × Nat × Nat) : State :=
  { s with pel := { s.pel with faultsSeen := key :: s.pel.faultsSeen } }

/-- The lead captain notes the first copy of a report and acts on it; it forwards none (R369). -/
theorem State.faultIn_lead {s : State} {h : PelHdr} {m : FaultMsg} (hlead : s.isLead = true)
    (hnew : faultKey h m ∉ s.pel.faultsSeen) : s.faultIn h m = (s.noteSeen (faultKey h m)).faultOnce m := by
  unfold faultKey at hnew
  unfold State.faultIn
  rw [hlead]
  dsimp only
  rw [if_neg hnew, if_neg (by simp)]
  rfl

/-- The first FAULT of cause 0x09 that the lead captain takes in is noted, and HALT goes to the slice. -/
theorem exec_pelFault_program {s : State} {h : PelHdr} {m : FaultMsg} (ht : s.takes h) (hcause : m.cause = 9)
    (hcaptain : s.isCaptain s.devidx = true) (hlead : s.isLead = true) (hnew : faultKey h m ∉ s.pel.faultsSeen) :
    exec (.pelFault h m) s = .next ((s.noteSeen (faultKey h m)).sendHalt 9) := by
  have hassigned : (!causeOk m.cause.toNat) = false := by rw [hcause]; rfl
  have hstill : (s.noteSeen (faultKey h m)).isLead = true := hlead
  have hexec : exec (.pelFault h m) s = execPelFault h m s := rfl
  rw [hexec, execPelFault, hassigned, State.pelIn_of_takes ht, if_pos hcaptain, State.faultIn_lead hlead hnew,
    State.faultOnce_program hcause hstill]

/-- HALT with an assigned cause halts the job (R371). -/
theorem exec_pelHalt_of_takes {s : State} {h : PelHdr} {c : BitVec 8} (ht : s.takes h) (hassigned : causeOk c.toNat = true) :
    exec (.pelHalt h c) s = .next (s.haltJob c.toNat) := by
  have hexec : exec (.pelHalt h c) s = execPelHalt h c s := rfl
  rw [hexec, execPelHalt, hassigned, Bool.not_true, State.pelIn_of_takes ht]

/-- Settles O47: the lead captain's HALT to the slice, and the halt at a module that takes it in (R371; log entry 14). -/
theorem haltForAProgramError : Obligations.HaltForAProgramError := by
  intro s h ht
  have ⟨hhd, hfence, _⟩ := ht
  refine ⟨fun m hcause hcaptain hlead hslice hnew => ?_, fun c hcause hhalted => ?_⟩
  · have hfirst : faultKey h m ∉ s.pel.faultsSeen := by
      rw [faultKey, hcause]
      exact hnew
    have htraffic := State.traffic_pelSend (s.noteSeen (faultKey h m)) 0x0C s.slice true (packWords 1 [(0, 8, 0x09)])
    exact ⟨_, exec_pelFault_program ht hcause hcaptain hlead hfirst, State.sentPel_pelSend _ 0x0C true _ hfence hslice,
      htraffic.epoch, htraffic.gone⟩
  · subst hcause
    have hpel := State.haltJob_pel s 9
    exact ⟨_, exec_pelHalt_of_takes ht rfl, fun n hn => State.haltJob_stops 9 hhalted hhd hn, State.haltJob_tells 9 hhalted hhd,
      State.epoch_haltJob s 9, congrArg Pel.gone hpel, congrArg Pel.adopted hpel⟩

end Sys2Proof.Machine
end
